-- ==== Sys2Proof/Word.lean ====
section
/-! DEFINITION. The word types of the device (spec/00_scope.md R7: 32-bit words, bytes, little-endian). -/

namespace Sys2Proof

/-- One byte. -/
abbrev Byte := BitVec 8

/-- One 32-bit word. -/
abbrev Word := BitVec 32

/-- Sparse memory: bytes by address, addresses strictly rising, no byte that is 0 (R50: a wiped byte is 0). -/
abbrev Mem := List (Nat × Byte)

end Sys2Proof
end

