-- ==== Sys2Proof/Syntax.lean ====
section
/-! DEFINITION. The commands of spec/opcode_table.json: command packets, host accesses, and happenings of the device. -/

namespace Sys2Proof

/-- Where a command packet comes from (spec/03_command_interface.md R71, R72, R83; spec/16_networks_fleet.md R473). -/
inductive Source where
  /-- Host submission ring n = 0..7 (HSPI_, or UART0 on ring 7). -/
  | hostRing (n : Nat)
  /-- Application-core submission ring 48 + k, k = 0..3. -/
  | appRing (k : Nat)
  /-- Network command ring 46: a Benmor COMMAND from a manager's fleet address. -/
  | net (addr : Nat)
  /-- The SPI escape frame. -/
  | escape
deriving DecidableEq, Repr

/-- The sources a session belongs to (R71). -/
inductive SrcId where
  | host | app | net (addr : Nat)
deriving DecidableEq, Repr

/-- A command packet that has passed steps 1 to 3 of R63 but for FLAGS [7]: its CRC and framing are right, its version is 0x01 and its
opcode is the one of its row (R59). A packet that fails them is the row UNKNOWN_OPCODE_PACKET. -/
structure Packet where
  /-- The source that submitted it. -/
  src : Source
  /-- Device time at which the command processor takes it. -/
  t : Nat
  /-- TAG, echoed in the reply. -/
  tag : BitVec 16
  /-- FLAGS: [6:3] DEFER_GROUP, [2] HITCH_DEFER, [1] DRY_RUN, [0] ACK_ON_DURABLE. -/
  flags : BitVec 8
  /-- SESSION. -/
  session : BitVec 32
  /-- The payload; its length is LENGTH. -/
  payload : List Byte
deriving DecidableEq, Repr

/-- A packet with no content, the filler of empty places. -/
def Packet.empty : Packet :=
  { src := .escape, t := 0, tag := 0, flags := 0, session := 0, payload := [] }

/-- Step of the cold start the device is in (spec/02_startup_reset.md, cold-start table). -/
inductive BootStage where
  | off | hold | wipe | lock | verify | domains | cal | sheaf | tests | ready | recovery
deriving DecidableEq, Repr

/-- What the tracker's filters give for one 1 ms tick (spec/07_grid_current.md R190, R194, R221, spec/08_ride_through.md R223): their arithmetic is
left open by the spec. -/
structure GridObs where
  /-- Frequency of front G as the loop has it, 0.1 mHz. -/
  f : Nat
  /-- Rate of change of frequency, mHz/s. -/
  rocof : Int
  /-- θ+ of the loop and the measured angle θ_m, 2⁻³² turn. -/
  theta : Nat
  thetaM : Nat
  /-- Positive sequence of front G, 10⁻⁶ pu. -/
  vPlus : Nat
  /-- Negative and zero sequence, 0.001 pu. -/
  vMinus : Nat
  vZero : Nat
  /-- rms of phases a, b, c, 0.1 V. -/
  rms : List Nat
  /-- Fundamental magnitudes, mV peak, of front G and of front L: phase to neutral a, b, c; for wiring 3 line to line ab, bc, ca. -/
  mags : List Nat
  magsL : List Nat
  /-- Frequency of front L, 0.1 mHz. -/
  fL : Nat
deriving DecidableEq, Repr

/-- What one core presents at a vote where it is not what its inputs give: the result of a pass (spec/06_control_engine.md R167), or the values of a profile
generator (p, v, a as binary32 bits) or of the tracker (its 16 outputs). -/
structure CoreClaim where
  /-- The core, 0..3. -/
  core : Nat
  /-- Stores in program order: kind and index of the destination, value. -/
  stores : List (Nat × Nat × Int)
  /-- The lanes of each STE event. -/
  evts : List (List Int)
  /-- Flags [3:0] of R122 raised by the pass. -/
  flags : Nat
  /-- State words S0..S11 at the end of the pass, voted by their CRC-32C. -/
  words : List Int
  /-- Values of a generator or of the tracker. -/
  vals : List Int
deriving DecidableEq, Repr

/-- What the tracker's filters give for one base tick (spec/07_grid_current.md R190, R192). -/
structure TrackObs where
  /-- θ+ of the loop and the measured angle θ_m, 2⁻³² turn. -/
  theta : Nat
  thetaM : Nat
  /-- Frequency of front G as the loop has it, 0.1 mHz. -/
  f : Nat
  /-- V+ d and q, V− d and q, V0, Q15. -/
  vd : Int
  vq : Int
  nd : Int
  nq : Int
  v0 : Int
  /-- θ+ of front L, 2⁻³² turn, and its V+ d, Q15. -/
  thetaL : Nat
  vdL : Int
deriving DecidableEq, Repr

/-- A supply rail as its monitor on the interface die sees it (spec/02_startup_reset.md R43, R47). -/
structure RailObs where
  /-- The rail's voltage, µV. -/
  uv : Nat
  /-- How long it has lain where it is, against the thresholds of R43, without a break, ns. -/
  held : Nat
  /-- The lowest voltage since the last row that spoke of the rail, µV. -/
  low : Nat
deriving DecidableEq, Repr

/-- The three rails of the power-on reset (spec/02_startup_reset.md R44). -/
structure RailsObs where
  core : RailObs
  an : RailObs
  io : RailObs
deriving DecidableEq, Repr

/-- One rail at a device time. -/
structure RailAt where
  t : Nat
  o : RailObs
deriving DecidableEq, Repr

/-- The voltages of the husk's stores, mV (spec/20_husk.md R549). -/
structure Stores where
  vqs : Nat
  vls : Nat
deriving DecidableEq, Repr

/-- The husk's stores at a device time. -/
structure StoresAt where
  t : Nat
  v : Stores
deriving DecidableEq, Repr

/-- The RTC's reading less device time, ns, at a device time (spec/20_husk.md R551). -/
structure RtcAt where
  t : Nat
  dev : Int
deriving DecidableEq, Repr

/-- What the cores present at a vote that one of them misses, and the clocks it took (spec/06_control_engine.md R168). -/
structure LateVote where
  claims : List CoreClaim
  clocks : Nat
deriving DecidableEq, Repr

/-- What the tracker has with a pipeline sample: the measured angle θ_m of front G, where the sample is one of that front, and the quadrature signal of
phase a that its integrator gives for wiring 1 and 2, Q15 (spec/07_grid_current.md R190). -/
structure FrontObs where
  angle : Option Nat
  quad : Int
deriving DecidableEq, Repr

/-- The commands of the block: one constructor per row of spec/opcode_table.json. -/
inductive Instr where
  /-- `SYS_INFO` (R594): Command that returns the 32-byte identity reply: part, revision, boot slots, firmware version, serial, life-cycle code and fleet address. -/
  | sysInfo (p : Packet)
  /-- `SYS_STATUS` (R92): Command that returns the 256-byte status: window words, per-ring lost counters, command counters and degraded flags. -/
  | sysStatus (p : Packet)
  /-- `SYS_RESET` (R93): Command that replies, then runs the safe-stop ramp at the stored default ramp time and then performs a device reset with cause 0x04. -/
  | sysReset (p : Packet)
  /-- `SYS_UNFREEZE` (R89): Command that releases one frozen master, ends its stalled accesses with an error response and posts MASTER_UNFROZEN. -/
  | sysUnfreeze (p : Packet)
  /-- `SYS_MODE` (R101): Command that requests a mode transition under the entry conditions and EXPECT check, and may store the start mode. -/
  | sysMode (p : Packet)
  /-- `RING_CONFIG` (R94): Command that reconfigures one ring's size, base, owner, interrupt enable and event-group mask, restarting both indexes at 0. -/
  | ringConfig (p : Packet)
  /-- `SESSION_OPEN` (R70): Command that opens a session for its source and returns a random non-zero 32-bit session value. -/
  | sessionOpen (p : Packet)
  /-- `SESSION_CLOSE` (R91): Command that closes the session named in its SESSION field. -/
  | sessionClose (p : Packet)
  /-- `SHEAF_ENTRY_WRITE` (R148): Command that writes a whole entry image, effective on the channel's next rate-group boundary, optionally resetting state. -/
  | sheafEntryWrite (p : Packet)
  /-- `SHEAF_ENTRY_READ` (R148): Command that returns the running copy of one entry with state and statistics as at the last pass. -/
  | sheafEntryRead (p : Packet)
  /-- `SHEAF_ENABLE` (R150): Command that enables a channel from its next boundary, or stops it and gives up its destinations; deferrable. -/
  | sheafEnable (p : Packet)
  /-- `SHEAF_COEF_STAGE` (R142): Command that writes coefficients into the inactive bank of a channel for a later hitch swap. -/
  | sheafCoefStage (p : Packet)
  /-- `SHEAF_COEF_LIVE` (R147): Command that writes one coefficient into the active bank of a LIVE_WRITE channel, effective from its next pass. -/
  | sheafCoefLive (p : Packet)
  /-- `SHEAF_HITCH_ARM` (R143): Command that checks STAGED_CRC, arms a hitch group and returns the computed swap boundary. -/
  | sheafHitchArm (p : Packet)
  /-- `SHEAF_HITCH_CANCEL` (R146): Command that disarms a hitch group, leaving its deferred commands queued for the next swap. -/
  | sheafHitchCancel (p : Packet)
  /-- `SHEAF_LIMITS_SET` (R148): Command that writes limit pairs of a channel; deferrable. -/
  | sheafLimitsSet (p : Packet)
  /-- `SHEAF_MAP_SET` (R148): Command that writes input-map or output-map slots of a channel, checking destination ownership; deferrable. -/
  | sheafMapSet (p : Packet)
  /-- `SHEAF_STATE_SET` (R148): Command that writes state words of a channel. -/
  | sheafStateSet (p : Packet)
  /-- `SHEAF_STATS` (R123): Command that returns a channel's statistics and atomically clears counters and/or sticky flags. -/
  | sheafStats (p : Packet)
  /-- `SHEAF_TEMPLATE_WRITE` (R136): Command that writes a shared template program. -/
  | sheafTemplateWrite (p : Packet)
  /-- `SHEAF_INVALIDATE` (R139): Command that checks a range of directly written entries all or nothing and loads each on its next boundary. -/
  | sheafInvalidate (p : Packet)
  /-- `SHEAF_COMMIT` (R149): Command that stores the running Sheaf configuration and templates to MRAM by two-phase commit. -/
  | sheafCommit (p : Packet)
  /-- `ENGINE_RATE_SET` (R181): Command that sets the base tick and rate-group multiples, reactions and protection groups, effective on the next base tick. -/
  | engineRateSet (p : Packet)
  /-- `ENGINE_STATUS` (R182): Command that returns engine load, core states, spare count and per-group periods and overruns. -/
  | engineStatus (p : Packet)
  /-- `PROFILE_CONFIG` (R184): Command that configures a profile generator's group, enable, limits, INIT_SRC and arrival band. -/
  | profileConfig (p : Packet)
  /-- `PROFILE_TARGET` (R174): Command that writes a generator target, used from the next update; deferrable. -/
  | profileTarget (p : Packet)
  /-- `PROFILE_HOLD` (R178): Command that holds a generator at its computed hold point or releases it toward the newest target. -/
  | profileHold (p : Packet)
  /-- `PROFILE_READ` (R183): Command that returns a generator's position, velocity, acceleration, target, flags and time to arrival. -/
  | profileRead (p : Packet)
  /-- `GRID_CONFIG` (R186): Command that defines wiring, topology, grid legs, front inputs, nominal values and the current channel, only in safe stop or maintenance. -/
  | gridConfig (p : Packet)
  /-- `GRID_TRACKER_CONFIG` (R217): Command that sets tracker bandwidth, lead, coast level and jump thresholds from the next grid-group boundary. -/
  | gridTrackerConfig (p : Packet)
  /-- `GRID_STATUS` (R221): Command that returns tracker and grid-manager status. -/
  | gridStatus (p : Packet)
  /-- `GRID_FUNCTION` (R218): Command that sets a reactive, volt-watt, frequency-droop or V_ref adjust function, from the next 1 ms evaluation. -/
  | gridFunction (p : Packet)
  /-- `GRID_SETPOINT` (R206): Command that writes P_set, Q_set and V_SET, the newest accepted write standing. -/
  | gridSetpoint (p : Packet)
  /-- `GRID_VSM_CONFIG` (R219): Command that sets the virtual synchronous machine parameters from the next grid-group boundary. -/
  | gridVsmConfig (p : Packet)
  /-- `GRID_LIMITS` (R220): Command that sets I_MAX, PRIORITY, export and import limits and S_MAX. -/
  | gridLimits (p : Packet)
  /-- `RT_PROFILE` (R228): Command that loads the region and trip defaults of a grid-code profile. -/
  | rtProfile (p : Packet)
  /-- `RT_REGION_SET` (R250): Command that sets the region thresholds U1..O2 and behaviours B1..B5. -/
  | rtRegionSet (p : Packet)
  /-- `RT_TRIP_SET` (R231): Command that sets one trip function's threshold, T and enable, effective on the next tick. -/
  | rtTripSet (p : Packet)
  /-- `RT_SUPPORT` (R252): Command that sets ride-through priority, return ticks, permissive action, dynamic support, P_RECOVER and RESTART_MAX. -/
  | rtSupport (p : Packet)
  /-- `RT_SERVICE` (R253): Command that sets the enter-service window, delay and ramp. -/
  | rtService (p : Packet)
  /-- `RT_DCLINK_CONFIG` (R254): Command that configures the DC-link defence inputs, thresholds and chopper check. -/
  | rtDclinkConfig (p : Packet)
  /-- `RT_DCLINK_CLEAR` (R245): Command that clears the latched CHOP_FAULT. -/
  | rtDclinkClear (p : Packet)
  /-- `RT_STATUS` (R255): Command that returns ride-through class, counts, flags and DC-link state. -/
  | rtStatus (p : Packet)
  /-- `ISL_AWN_CONFIG` (R281): Command that configures awn injection, code source, level and decision parameters, applied at the next epoch boundary. -/
  | islAwnConfig (p : Packet)
  /-- `ISL_PASSIVE_SET` (R282): Command that configures the ROCOF or vector-shift passive function, effective on the next tick. -/
  | islPassiveSet (p : Packet)
  /-- `ISL_PEER_SET` (R274): Command that sets a peer correlator to off, fixed code or auto scan. -/
  | islPeerSet (p : Packet)
  /-- `ISL_STATUS` (R283): Command that returns islanding detector state and estimates. -/
  | islStatus (p : Packet)
  /-- `ISL_PCC_MAP` (R284): Command that returns the own code and the state of correlators 1..63. -/
  | islPccMap (p : Packet)
  /-- `ISL_BASELINE_RESET` (R280): Command that returns the detector to Learning on the next evaluation. -/
  | islBaselineReset (p : Packet)
  /-- `PORT_PV_CONFIG` (R287): Command that configures a PV port and sets the interleaved carrier phases of its legs. -/
  | portPvConfig (p : Packet)
  /-- `PORT_BAT_CONFIG` (R309): Command that configures a battery port, its legs, power full scale and generator. -/
  | portBatConfig (p : Packet)
  /-- `PORT_CHOPPER_CONFIG` (R286): Command that assigns or removes the chopper leg. -/
  | portChopperConfig (p : Packet)
  /-- `PORT_SHARE_CONFIG` (R310): Command that sets port links, BAT_MODE, VDC_REF, hold offset, sweep parallelism and P_HOLD. -/
  | portShareConfig (p : Packet)
  /-- `PORT_MPPT_CONFIG` (R311): Command that sets MPPT global-search, sweep, map and dither parameters; deferrable. -/
  | portMpptConfig (p : Packet)
  /-- `PORT_BMS_CONFIG` (R299): Command that assigns a BMS node to a battery port with its period, timeout and disable times. -/
  | portBmsConfig (p : Packet)
  /-- `PORT_ENABLE` (R307): Command that enables or disables a PV or battery port; deferrable. -/
  | portEnable (p : Packet)
  /-- `PORT_BAT_SET` (R305): Command that writes BAT_SET for one port or shared by limits; deferrable. -/
  | portBatSet (p : Packet)
  /-- `PORT_SWEEP` (R307): Command that reserves credit and orders a sweep toward V_MIN at the next evaluation. -/
  | portSweep (p : Packet)
  /-- `PORT_STATUS` (R312): Command that returns the sharing state and every PV and battery port's status. -/
  | portStatus (p : Packet)
  /-- `PORT_BMS_STATUS` (R307): Command that returns the state and assignment of every BMS node. -/
  | portBmsStatus (p : Packet)
  /-- `PORT_MAP_READ` (R307): Command that returns eight rows of a PV port's ripple map. -/
  | portMapRead (p : Packet)
  /-- `PWM_TIMEBASE_CONFIG` (R334): Command that configures a timebase's mode, period, slaving and offset, effective at its next zero. -/
  | pwmTimebaseConfig (p : Packet)
  /-- `PWM_LEG_CONFIG` (R335): Command that configures a Disabled leg's timebase, mode, dead times, minimum pulse and bootstrap. -/
  | pwmLegConfig (p : Packet)
  /-- `PWM_DUTY_SET` (R325): Command that writes duty and/or phase into the shadow of an unowned auxiliary or Test leg; deferrable. -/
  | pwmDutySet (p : Packet)
  /-- `PWM_LEG_TEST` (R333): Command that starts or stops test switching of a leg in maintenance with a duty ceiling and duration. -/
  | pwmLegTest (p : Packet)
  /-- `PWM_STATUS` (R336): Command that returns timebase and leg status and clears the read-clear flags. -/
  | pwmStatus (p : Packet)
  /-- `SENSE_AIN_CONFIG` (R363): Command that enables an AIN and sets its window, stuck check, full scale and unit. -/
  | senseAinConfig (p : Packet)
  /-- `SENSE_DECIM_CONFIG` (R342): Command that configures a decimator output, effective at the end of its current window. -/
  | senseDecimConfig (p : Packet)
  /-- `SENSE_KIRCHHOFF_SET` (R345): Command that configures a Kirchhoff plausibility group. -/
  | senseKirchhoffSet (p : Packet)
  /-- `SENSE_CHECK_CONFIG` (R362): Command that sets confirmation tolerance, shadow limits and shadowing enable. -/
  | senseCheckConfig (p : Packet)
  /-- `SENSE_HK_CONFIG` (R364): Command that configures an HK input's unit, start source, urgency and window. -/
  | senseHkConfig (p : Packet)
  /-- `SENSE_HK_READ` (R362): Command that queues non-urgent conversions and returns HK codes with stamps. -/
  | senseHkRead (p : Packet)
  /-- `SENSE_PATH_TEST` (R360): Command that starts a two-level test of external input paths in safe stop or maintenance. -/
  | sensePathTest (p : Packet)
  /-- `SENSE_STATUS` (R366): Command that returns converter roles, AIN, SAR and HK status. -/
  | senseStatus (p : Packet)
  /-- `PROT_GROUP_CONFIG` (R394): Command that configures a protection group's kind, legs, soft timing and retry parameters. -/
  | protGroupConfig (p : Packet)
  /-- `PROT_FLT_CONFIG` (R395): Command that configures a leg's FLT input kind, level, filter and comparator. -/
  | protFltConfig (p : Packet)
  /-- `PROT_CMP_CONFIG` (R396): Command that configures a logical comparator's input, polarity, latch, action, threshold, blanking and ramp. -/
  | protCmpConfig (p : Packet)
  /-- `PROT_MON_CONFIG` (R397): Command that configures a digital window monitor. -/
  | protMonConfig (p : Packet)
  /-- `PROT_RELEASE` (R388): Command that takes a Waiting or Latched group to Armed, clears tries and held outputs and posts PROT_RELEASED. -/
  | protRelease (p : Packet)
  /-- `PROT_TRIP` (R385): Command that trips one or every protection group with a latching cause 10. -/
  | protTrip (p : Packet)
  /-- `PROT_CMP_TEST` (R392): Command that starts an in-place sweep test of listed comparators in safe stop or maintenance. -/
  | protCmpTest (p : Packet)
  /-- `PROT_STATUS` (R398): Command that returns group, leg, comparator and monitor status. -/
  | protStatus (p : Packet)
  /-- `REC_LANE_CONFIG` (R400): Command that configures a recorder lane's source, roles and lane delay. -/
  | recLaneConfig (p : Packet)
  /-- `REC_TRIGGER_CONFIG` (R405): Command that configures a trigger unit. -/
  | recTriggerConfig (p : Packet)
  /-- `REC_CAPTURE_CONFIG` (R408): Command that sets capture flags and windows, computes slots and returns S. -/
  | recCaptureConfig (p : Packet)
  /-- `REC_ARM` (R420): Command that arms or disarms the recorder, leaving Stopped when arming. -/
  | recArm (p : Packet)
  /-- `REC_TRIGGER` (R405): Command that fires a command trigger and returns t_trig. -/
  | recTrigger (p : Packet)
  /-- `REC_READ` (R417): Command that starts a readout of a capture, histogram or map onto a recorder ring. -/
  | recRead (p : Packet)
  /-- `REC_DELETE` (R420): Command that deletes a capture from SRAM or MRAM. -/
  | recDelete (p : Packet)
  /-- `REC_COMMIT` (R413): Command that commits a capture to the recorder region of MRAM, deleting oldest unprotected captures for room. -/
  | recCommit (p : Packet)
  /-- `REC_MAP_CONFIG` (R416): Command that configures a persistence map. -/
  | recMapConfig (p : Packet)
  /-- `REC_STAT_CLEAR` (R415): Command that zeroes histograms and/or maps. -/
  | recStatClear (p : Packet)
  /-- `REC_SKEW_CAL` (R419): Command that starts skew calibration of lanes against a reference lane over a window. -/
  | recSkewCal (p : Packet)
  /-- `REC_STATUS` (R420): Command that returns recorder state, slots and loss counts. -/
  | recStatus (p : Packet)
  /-- `SAFETY_STATUS` (R456): Command that returns safety functions, outputs, pairs, connections and lock status. -/
  | safetyStatus (p : Packet)
  /-- `SAFETY_UNLOCK` (R450): Command that checks the password under lockout rules, unlocks a session and copies the active image to staging. -/
  | safetyUnlock (p : Packet)
  /-- `SAFETY_LOCK` (R451): Command that ends the unlocked session and discards staging. -/
  | safetyLock (p : Packet)
  /-- `SAFETY_STAGE` (R452): Command that writes one item into the staging image and returns its CRC. -/
  | safetyStage (p : Packet)
  /-- `SAFETY_COMMIT` (R453): Command that classifies staged changes and applies them now, at the next tick, or at the next safe stop. -/
  | safetyCommit (p : Packet)
  /-- `SAFETY_READ` (R455): Command that returns the active, staging or pending safety image with its CRC. -/
  | safetyRead (p : Packet)
  /-- `SAFETY_PASSWORD` (R449): Command that sets or changes the safety password. -/
  | safetyPassword (p : Packet)
  /-- `SAFETY_ACK` (R439): Command that acknowledges functions in Ready or clearable Fault, acting on the next tick. -/
  | safetyAck (p : Packet)
  /-- `SAFETY_OUTPUT_REQ` (R422): Command that sets the operational close request of kind-3 outputs. -/
  | safetyOutputReq (p : Packet)
  /-- `SAFETY_OUTPUT_TEST` (R431): Command that runs output tests at once and returns the pass mask. -/
  | safetyOutputTest (p : Packet)
  /-- `SAFETY_LOG_READ` (R454): Command that returns retained change-log entries. -/
  | safetyLogRead (p : Packet)
  /-- `NET_PORT_CONFIG` (R460): Command that configures an Ethernet port's enable, PCS form, failover, MAC and PHY latency. -/
  | netPortConfig (p : Packet)
  /-- `NET_IP_CONFIG` (R463): Command that sets IP addresses and the Vrel and Benmor UDP ports. -/
  | netIpConfig (p : Packet)
  /-- `NET_NEIGHBOUR_SET` (R464): Command that writes an entry of the offload neighbour table. -/
  | netNeighbourSet (p : Packet)
  /-- `NET_PTP_OFFSET` (R466): Command that passes a measured PTP offset to the servo, stepping or slewing device time and updating lock. -/
  | netPtpOffset (p : Packet)
  /-- `NET_CAN_CONFIG` (R478): Command that sets a CAN controller's role and rates. -/
  | netCanConfig (p : Packet)
  /-- `NET_UART_CONFIG` (R478): Command that sets the RS-485 UART rate and parity. -/
  | netUartConfig (p : Packet)
  /-- `NET_FLEET_CONFIG` (R470): Command that sets fleet ID, address, announce period, groups and dispatcher and manager lists, clearing a conflict. -/
  | netFleetConfig (p : Packet)
  /-- `NET_FLEET_KEY` (R478): Command that installs the fleet key. -/
  | netFleetKey (p : Packet)
  /-- `NET_DISPATCH_AUTH` (R472): Command that enables or withdraws dispatch authority and sets fallback set-points. -/
  | netDispatchAuth (p : Packet)
  /-- `NET_VREL_BIND` (R465): Command that binds a Vrel connection to a peer address and port. -/
  | netVrelBind (p : Packet)
  /-- `NET_PEER_READ` (R474): Command that returns peer-table entries. -/
  | netPeerRead (p : Packet)
  /-- `NET_STATUS` (R478): Command that returns link, PTP, fleet flags and discard counters. -/
  | netStatus (p : Packet)
  /-- `COOL_CONFIG` (R495): Command that configures an Off cooling drive. -/
  | coolConfig (p : Packet)
  /-- `COOL_RUN` (R484): Command that starts a drive into Precharge, stops it to Off, or clears its Fault. -/
  | coolRun (p : Packet)
  /-- `COOL_STATUS` (R494): Command that returns the state, speed, duty and current of both drives. -/
  | coolStatus (p : Packet)
  /-- `COOL_HEALTH` (R493): Command that returns drive health counters and may relearn the baseline or set REF_SPEED. -/
  | coolHealth (p : Packet)
  /-- `CLK_REF_CONFIG` (R515): Command that stores the XREF frequency for the next reset and returns N_int and F. -/
  | clkRefConfig (p : Packet)
  /-- `CLK_STATUS` (R516): Command that returns loop states, output sources and temperature differences. -/
  | clkStatus (p : Packet)
  /-- `CLK_SWAP` (R515): Command that performs the main-standby switchover in safe stop or maintenance. -/
  | clkSwap (p : Packet)
  /-- `MEM_STATUS` (R541): Command that returns life cycle, boot slots, spares and security minimums. -/
  | memStatus (p : Packet)
  /-- `MEM_IMAGE_LOAD` (R539): Command that writes part of an image into a slot and, with FINAL, verifies and selects it. -/
  | memImageLoad (p : Packet)
  /-- `MEM_DATA_WRITE` (R538): Command that writes the application data region of MRAM. -/
  | memDataWrite (p : Packet)
  /-- `MEM_DATA_READ` (R538): Command that reads the application data region of MRAM. -/
  | memDataRead (p : Packet)
  /-- `MEM_KEY_INSTALL` (R538): Command that installs the owner public key. -/
  | memKeyInstall (p : Packet)
  /-- `MEM_SERIAL_SET` (R538): Command that sets the serial number once in Manufacture. -/
  | memSerialSet (p : Packet)
  /-- `MEM_LC_CHALLENGE` (R544): Command that returns a fresh nonce for a signed life-cycle transition. -/
  | memLcChallenge (p : Packet)
  /-- `MEM_LC_TRANSITION` (R543): Command that checks and starts a life-cycle transition, replying before the safe-stop ramp. -/
  | memLcTransition (p : Packet)
  /-- `MEM_SPLICE` (R535): Command that retires a named element and splices a spare by the sequence of its kind. -/
  | memSplice (p : Packet)
  /-- `MEM_HEALTH_READ` (R538): Command that returns lines of the health record. -/
  | memHealthRead (p : Packet)
  /-- `HUSK_CONFIG` (R560): Command that sets KEEP_OUT, store parameters, COMMIT_LINES and SEAL_MASK, checking funding. -/
  | huskConfig (p : Packet)
  /-- `HUSK_STATUS` (R561): Command that returns husk state, store voltages and energies and log position. -/
  | huskStatus (p : Packet)
  /-- `HUSK_TIME_SET` (R552): Command that sets device time while time is not valid, clearing the lost mark. -/
  | huskTimeSet (p : Packet)
  /-- `HUSK_LOG_READ` (R559): Command that returns one sealed or open log block. -/
  | huskLogRead (p : Packet)
  /-- `DOORBELL_WRITE` (R78): Write of a ring doorbell that advances the other party's index within the ring bounds or is rejected. -/
  | doorbellWrite (t m n v : Nat)
  /-- `INT_STATUS_WRITE` (R79): Write of 1s to INT_STATUS clears those bits and updates HSPI_IRQ_N. -/
  | intStatusWrite (t m : Nat) (v : Word)
  /-- `TIME_LO_READ` (R80): Read of status window word 4 that latches word 5 for a consistent device time. -/
  | timeLoRead (t m : Nat)
  /-- `REGISTER_WRITE` (R77): Write to any other register address, a firewall violation in the system block or a configuration access otherwise. -/
  | registerWrite (t m addr : Nat) (v : Word)
  /-- `HSPI_WRITE` (R82): SPI 0x02 write through the host bridge, truncated at a 4 KB boundary and firewalled per byte. -/
  | hspiWrite (t addr : Nat) (data : List Byte)
  /-- `HSPI_QUAD_WRITE` (R82): SPI 0x32 quad write through the host bridge with the same truncation and firewall rules. -/
  | hspiQuadWrite (t addr : Nat) (data : List Byte)
  /-- `HSPI_READ` (R82): SPI 0x0B read through the host bridge, returning 0xFF past a 4 KB boundary or while frozen. -/
  | hspiRead (t addr n : Nat)
  /-- `HSPI_QUAD_READ` (R82): SPI 0x6B quad read through the host bridge with the same rules. -/
  | hspiQuadRead (t addr n : Nat)
  /-- `ESCAPE_WRITE` (R83): SPI 0xE5 frame taken into the escape port, or discarded and counted while busy or a reply is held. -/
  | escapeWrite (t : Nat) (frame : List Byte)
  /-- `ESCAPE_READ` (R83): SPI 0xE6 read of ESC_STATUS and the held reply, clearing REPLY_READY at its last byte. -/
  | escapeRead (t n : Nat)
  /-- `UNKNOWN_INSTRUCTION` (R81): An unlisted SPI instruction byte causes the rest of the transaction to be ignored. -/
  | unknownInstruction (t : Nat) (b : Byte)
  /-- `HOST_UART_PACKET` (R85): A 0x7E-framed host packet received on UART0 is unescaped and placed on ring 7. -/
  | hostUartPacket (t : Nat) (frame : List Byte)
  /-- `HELD_REPLY` (R76): A reply waiting for a full reply ring is written once a slot frees, releasing the paired submission ring. -/
  | heldReply (t n : Nat)
  /-- `FIREWALL_VIOLATION` (R87): An access outside a master's rights is blocked, the master frozen, FREEZE set and the event posted; engine or supervisor violations take their own paths. -/
  | firewallViolation (t m addr : Nat) (write : Bool) (cores : List Nat)
  /-- `FROZEN_D10_RESTART` (R89): An application core frozen 60 s, or a third time in 600 s, has D10 restarted, clearing its freeze. -/
  | frozenD10Restart (t : Nat)
  /-- `POWER_ON_RESET` (R44): The last of VDD_CORE, VDD_AN and VDD_IO becomes good and the power-on reset hold begins on the ring oscillator. -/
  | powerOnReset (t : Nat) (o : RailsObs)
  /-- `SUPPLY_RESET` (R47): A core, analogue or IO rail stops being good, starting a supply reset with the recorded cause. -/
  | supplyReset (t rail uv held low : Nat) (v : Stores)
  /-- `VDD_HV_NOT_GOOD` (R43): VDD_HV leaves good, opening the safety outputs and turning the cooling pre-drivers off. -/
  | vddHvNotGood (o : RailAt)
  /-- `VDD_HV_GOOD` (R43): VDD_HV becomes good again, removing its safety demand and allowing cooling drives to restart. -/
  | vddHvGood (o : RailAt)
  /-- `RESET_HOLD_END` (R50): After 200 µs of hold, reset is released to D1 and D11 and the SRAM wipe starts. -/
  | resetHoldEnd (t : Nat)
  /-- `SRAM_WIPE_COMPLETE` (R50): The wipe ends, the boot ROM starts, the status window and escape port come up and a pending life-cycle record is resumed. -/
  | sramWipeComplete (t : Nat)
  /-- `IMAGE_VERIFY_COMPLETE` (R52): The boot ROM finishes verifying a supervisor slot and boots it, tries the other, or enters recovery. -/
  | imageVerifyComplete (t kind slot verdict version security : Nat)
  /-- `PLL_LOCK_TIMEOUT` (R52): No PLL locks within 20 ms and boot continues on the ring oscillator with the clock fault set. -/
  | pllLockTimeout (t : Nat)
  /-- `CONVERTER_CALIBRATION_COMPLETE` (R361): Start-up calibration of converters ends and device time is loaded from the husk RTC. -/
  | converterCalibrationComplete (t : Nat)
  /-- `SHEAF_IMAGE_LOAD` (R592): The +Sheaf step applies the block image and loads the Sheaf image entry by entry with checks. -/
  | sheafImageLoad (t sheaf block : Nat)
  /-- `START_UP_TESTS_COMPLETE` (R52): The +tests step of path, comparator and safety-output tests ends, splicing or reporting failures. -/
  | startUpTestsComplete (t : Nat) (convs sars cells : List Nat) (outs : List (Nat × Nat))
  /-- `READY` (R51): The device is Ready in safe stop, accepting commands, with RST_OUT_N high and READY set. -/
  | ready (t : Nat)
  /-- `START_MODE_ATTEMPT` (R100): The device retries entering the stored start mode when a missing entry condition becomes true. -/
  | startModeAttempt (t : Nat)
  /-- `BUTTON_RESET` (R58): RESET_BTN_N released after 50..7,999 low ticks requests a button reset with the safe-stop ramp. -/
  | buttonReset (t : Nat)
  /-- `RESET_BUTTON_STUCK` (R57): RESET_BTN_N held 8,000 ticks is declared stuck and ignored. -/
  | resetButtonStuck (t : Nat)
  /-- `RESET_BUTTON_FREED` (R57): A stuck button released 1,000 ticks becomes ready again. -/
  | resetButtonFreed (t : Nat)
  /-- `RESET_BTN_READY` (R55): RESET_BTN_N released for 1 s after reset becomes ready. -/
  | resetBtnReady (t : Nat)
  /-- `HEARTBEAT_LOST` (R36): The interface die sees no D1 heartbeat for 1 ms and opens all four safety outputs. -/
  | heartbeatLost (t : Nat)
  /-- `SUPERVISOR_FAULT` (R41): A supervisor lockstep mismatch or violation leads to safe stop with a 1 ms ramp. -/
  | supervisorFault (t : Nat)
  /-- `UNRECOVERABLE_FAULT` (R41): An unrecoverable D6, D7, D7 reference or D11 controller fault trips every group and goes to safe stop. -/
  | unrecoverableFault (t unit : Nat)
  /-- `DOMAIN_FAULT` (R41): A fault in D8, D9 or D10 switches that domain off for a restart. -/
  | domainFault (t d : Nat)
  /-- `DOMAIN_RESTARTED` (R41): A restarted domain comes back on and its functions resume from their restart state. -/
  | domainRestarted (t d : Nat)
  /-- `SAFE_STOP_RAMP_END` (R102): The safe-stop ramp ends with every leg off, and the grid and DC disconnects are ordered open. -/
  | safeStopRampEnd (t : Nat)
  /-- `MODE_ENTERED` (R99): A mode transition completes on a grid-group boundary, channels start or stop and MODE_ENTERED is posted. -/
  | modeEntered (t : Nat)
  /-- `MODE_ABORTED` (R104): An entry condition lost during a transition ends it in safe stop. -/
  | modeAborted (t : Nat)
  /-- `RESYNCHRONISATION_COMPLETE` (R103): Three consecutive in-tolerance evaluations close the disconnect for return from islanded supply. -/
  | resynchronisationComplete (t : Nat)
  /-- `SAFETY_TICK` (R593): The 1 ms supervisor tick evaluating tracker, ride-through, grid and ports managers, safety functions and the state copy. -/
  | safetyTick (t : Nat) (o : GridObs) (btnLow : Bool)
  /-- `BASE_TICK` (R157): A base tick latches tracker outputs, updates generators and the VSM, applies pending effects and runs due passes. -/
  | baseTick (t : Nat) (o : TrackObs)
  /-- `PASS_VOTE` (R168): Two agreeing core results of a pass are committed as its stores, events and flags. -/
  | passVote (t subject unit : Nat) (claims : List CoreClaim) (late : List Nat) (clocks : Nat)
  /-- `VOTE_LATE` (R168): A third result not arriving within 1 µs of the second counts as a late dissent or leaves no majority. -/
  | voteLate (t core : Nat) (r : LateVote)
  /-- `SAMPLE_TIMEOUT` (R158): An awaited pipeline sample absent 300 ns after aperture plus delay loads the previous sample marked invalid. -/
  | sampleTimeout (t ain out : Nat)
  /-- `CHANNEL_FAULT` (R133): Invalid passes for 100 µs make the channel take its REACTION. -/
  | channelFault (t ch : Nat)
  /-- `RATE_OVERRUN` (R164): At a group's next boundary uncommitted passes are abandoned and the overrun counted. -/
  | rateOverrun (t g : Nat)
  /-- `CORE_DOMAIN_OFF` (R170): 10 µs after a dissent the retired core's domain opens and a spare is ordered on. -/
  | coreDomainOff (t core : Nat)
  /-- `CORE_SPLICE_TRANSFER` (R171): The static state transfer to the incoming core completes and it enters Joining, or the splice aborts. -/
  | coreSpliceTransfer (t : Nat) (differed : List (Nat × Nat))
  /-- `HITCH_SWAPPED` (R145): At the swap boundary members flip BANK_SEL and queued deferred commands are applied or dropped. -/
  | hitchSwapped (t g : Nat)
  /-- `TRACKER_LOCKED` (R194): After 20 ticks present with small phase error the tracker enters Locked. -/
  | trackerLocked (t : Nat)
  /-- `TRACKER_ACQUIRING` (R194): A phase error of 5° or more on 3 ticks takes a Locked tracker back to Acquiring. -/
  | trackerAcquiring (t : Nat)
  /-- `REACQ_CLEAR` (R196): REACQ clears 20 ms after a re-acquisition. -/
  | reacqClear (t : Nat)
  /-- `LINK_DELIVERY` (R203): The grid manager's eight link values are delivered to every core on the next grid-group boundary. -/
  | linkDelivery (t : Nat)
  /-- `CLASS_RETURN` (R226): After RETURN_TICKS less severe ticks the class returns, with cause 0x08 from momentary cessation. -/
  | classReturn (t : Nat)
  /-- `RT_TRIP` (R229): A trip function true for T ticks trips, cause 0x07 with restart armed. -/
  | rtTrip (t : Nat)
  /-- `RT_RESTART` (R236): On the first grid-group boundary after the restart gate opens, channels and generators start. -/
  | rtRestart (t : Nat)
  /-- `RESTART_TIMEOUT` (R237): A restart gate still closed RESTART_MAX after the return is a trip. -/
  | restartTimeout (t : Nat)
  /-- `ENTER_SERVICE_COMPLETE` (R242): The enter-service delay completes, allowing cause 0x0A or 0x0C. -/
  | enterServiceComplete (t : Nat)
  /-- `DCL_CHOPPER_FAULT` (R245): Chopper duty with no current for 20 µs latches CHOP_FAULT. -/
  | dclChopperFault (t : Nat)
  /-- `DCL_RELEASE` (R247): V_dc below DCL_REL with class continuous for 10 ms releases the defence. -/
  | dclRelease (t : Nat)
  /-- `DCL_UNDERVOLTAGE` (R248): V_dc below DCL_UV for 5 ms in a grid-power mode is a trip. -/
  | dclUndervoltage (t : Nat)
  /-- `AWN_CHIP` (R261): A new awn chip starts, setting the injection, and the previous chip's dq averages are closed. -/
  | awnChip (t : Nat)
  /-- `AWN_EVALUATION` (R269): Every 10 chips the detector evaluates the 200-chip window and counts hits toward a decision. -/
  | awnEvaluation (t : Nat) (angle : Int)
  /-- `AWN_EPOCH` (R260): An epoch boundary restarts the code generators and applies realignment or new settings. -/
  | awnEpoch (t : Nat)
  /-- `ISL_DETECTED` (R270): The supervisor acts on an islanding decision at its next tick as cause 0x05. -/
  | islDetected (t : Nat)
  /-- `PEER_PCC` (R275): A peer joins or leaves the PCC map after its consecutive evaluations. -/
  | peerPcc (t m : Nat)
  /-- `AUTO_SCAN_DWELL` (R274): An auto correlator moves on after 20 evaluations without a join. -/
  | autoScanDwell (t m : Nat)
  /-- `ROCOF_TRIP` (R276): ROCOF above threshold for T trips the passive function. -/
  | rocofTrip (t : Nat)
  /-- `PV_PORT_START` (R292): A Waiting PV port starts after 10 ms in range at its open-circuit voltage. -/
  | pvPortStart (t p : Nat)
  /-- `LOCAL_TRACKER` (R293): Every 10 ms the local tracker fits dP/dV and moves the reference. -/
  | localTracker (t p : Nat) (slope v w : BitVec 32)
  /-- `MAP_HALVING` (R294): Every MAP_HALF seconds all ripple-map cells are halved. -/
  | mapHalving (t p : Nat)
  /-- `GLOBAL_SEARCH` (R295): Once per second the engine grows credit and may start a sweep. -/
  | globalSearch (t : Nat) (mean : List Nat)
  /-- `PV_SWEEP` (R295): A sweep ends accepted or returned, charging credit and refreshing crossed columns. -/
  | pvSweep (t p mean deficit : Nat)
  /-- `PV_REFERENCE_POST` (R289): The PV port engine posts each enabled port's voltage reference. -/
  | pvReferencePost (t : Nat)
  /-- `CURTAILMENT_UPDATE` (R304): Every 50 µs in holding modes k moves with V_dc against V_hold. -/
  | curtailmentUpdate (t : Nat)
  /-- `BMS_NODE_REPORT` (R475): A valid BMS node report is taken, advancing the node state. -/
  | bmsNodeReport (t bus ident : Nat) (data : List Byte)
  /-- `BMS_NODE_STALE` (R300): No valid message for BMS_TIMEOUT makes a node Stale. -/
  | bmsNodeStale (t n : Nat)
  /-- `BMS_NODE_DEPARTED` (R300): A node Stale for BMS_DISABLE departs. -/
  | bmsNodeDeparted (t n : Nat)
  /-- `BMS_STATUS_SEND` (R475): Every BMS_PERIOD the device sends its type 0x80 message on each BMS bus. -/
  | bmsStatusSend (t bus : Nat)
  /-- `LOAD_EVENT` (R325): A leg's load event copies a written shadow to the active register and places edges. -/
  | loadEvent (t leg : Nat) (peak : Bool)
  /-- `BOOT_PRECHARGE` (R330): 2 µs after Starting a leg runs its bootstrap precharge. -/
  | bootPrecharge (t leg : Nat)
  /-- `LEG_TEST_END` (R333): A test leg's duration ends and it returns to Disabled. -/
  | legTestEnd (t leg : Nat)
  /-- `PIPELINE_SAMPLE` (R340): A pipeline sample is delivered to the bus, feeding decimators, trackers, defence, monitors and recorder. -/
  | pipelineSample (t a : Nat) (code : Int) (o : FrontObs)
  /-- `SENSE_SUSPECT` (R346): A plausibility check completes its count, marks samples invalid and starts a confirmation. -/
  | senseSuspect (t check unit : Nat)
  /-- `SENSE_VERDICT` (R347): A comparison of 128 samples gives a verdict, splicing a faulty converter or revalidating the input. -/
  | senseVerdict (t a b d : Nat)
  /-- `CONVERTER_POWER_OFF` (R348): 2 ms after a faulty verdict the retired converter is unpowered and its record written. -/
  | converterPowerOff (t c : Nat)
  /-- `CHECK_SUSPENSION_END` (R347): A suspended check resumes after its condition has been false 1 ms. -/
  | checkSuspensionEnd (t check unit : Nat)
  /-- `SHADOW_VISIT` (R351): A half of a shadow visit ends, comparing offset and gain and moving on. -/
  | shadowVisit (t : Nat) (offset gain : Int)
  /-- `SAR_START` (R356): A SAR unit starts its next conversion by priority. -/
  | sarStart (t u : Nat) (reqs : List (Nat × Nat))
  /-- `SAR_RESULT` (R354): A SAR result is delivered and checked. -/
  | sarResult (t u code : Nat)
  /-- `TEST_DAC_STEP` (R358): Every 250 µs the test DAC steps and every SAR unit converts the test bus. -/
  | testDacStep (t : Nat)
  /-- `SENSE_PATH` (R360): A path test finishes, marking failed inputs and replying. -/
  | sensePath (t : Nat) (diffs : List Int)
  /-- `CALIBRATION_CORRECTION` (R361): Every 10 ms offsets, gains and trims are corrected from die temperature. -/
  | calibrationCorrection (t : Nat) (gains : List Int)
  /-- `FLT_ASSERTED` (R368): A digital FLT input satisfies its filter and requests a reaction. -/
  | fltAsserted (t n : Nat)
  /-- `FLT_READY` (R368): A digital FLT input inactive for 100 µs becomes ready. -/
  | fltReady (t n : Nat)
  /-- `COMPARATOR_ASSERTED` (R372): A main cell asserts past deglitch and blanking and acts per its action. -/
  | comparatorAsserted (t n : Nat)
  /-- `HARD_CELL_ASSERTED` (R372): A hard cell asserts and trips the group. -/
  | hardCellAsserted (t n : Nat)
  /-- `MONITOR_ACTS` (R378): A window monitor past its limits on N results acts. -/
  | monitorActs (t n : Nat)
  /-- `SOFT_STEP` (R381): T_SOFT1 after a soft reaction, PWMH and outer PWML go low. -/
  | softStep (t g : Nat)
  /-- `INNER_STEP` (R381): T_INNER later the clamp switches go low and the legs are Tripped. -/
  | innerStep (t g : Nat)
  /-- `PROT_RETRY` (R386): At retry_at a Waiting group is released, counts a try or latches. -/
  | protRetry (t g : Nat)
  /-- `TRIES_CLEAR` (R386): An Armed group without trips for RETRY_CLEAR resets tries. -/
  | triesClear (t g : Nat)
  /-- `PARTNER_SUSPECT` (R379): A partner comparator disagreeing with its monitor becomes suspect and is tested. -/
  | partnerSuspect (t n : Nat)
  /-- `CMP_SELF_TEST_STEP` (R389): A step of the background comparator self-test is completed. -/
  | cmpSelfTestStep (t : Nat) (cellBad standBad : Bool)
  /-- `CELL_POWER_OFF` (R390): 2 ms after retirement a cell's supply opens. -/
  | cellPowerOff (t k : Nat)
  /-- `CMP_TEST_COMPLETE` (R392): An in-place comparator test ends and the reply is sent. -/
  | cmpTestComplete (t : Nat) (codes : List (Nat × Nat × Nat))
  /-- `REC_TIME_TRIGGER` (R405): A time trigger fires at T and every P ms. -/
  | recTimeTrigger (t k : Nat)
  /-- `REC_COMPLETE` (R411): At t_end a capture becomes Complete and the recorder re-arms or stops. -/
  | recComplete (t : Nat)
  /-- `PERSISTENCE_HALVING` (R416): Every HALF seconds map cells are halved. -/
  | persistenceHalving (t m : Nat)
  /-- `READOUT_RECORD` (R417): A readout record is produced when a descriptor frees. -/
  | readoutRecord (t n : Nat)
  /-- `SKEW_CAL_COMPLETE` (R419): Skew calibration's window ends and lane delays are set. -/
  | skewCalComplete (t : Nat)
  /-- `SAFETY_INPUT_SAMPLE` (R434): Every 50 µs the inputs are sampled and filtered. -/
  | safetyInputSample (t levels : Nat)
  /-- `TEST_PULSE` (R436): A test pulse window ends and is checked. -/
  | testPulse (t src : Nat)
  /-- `DISCREPANCY_FAULT` (R438): Disagreement on T ticks is a pair fault. -/
  | discrepancyFault (t k : Nat)
  /-- `OUTPUT_READBACK` (R428): Every 50 µs each output is read back. -/
  | outputReadback (t x pinMv hvMv uA : Nat)
  /-- `OUTPUT_FAULT` (R429): A readback count expiry faults an output. -/
  | outputFault (t x : Nat)
  /-- `LIGHT_TEST_STEP` (R430): A 300 µs light test step ends. -/
  | lightTestStep (t x pinMv hvMv uA : Nat)
  /-- `FEEDBACK_TIMEOUT` (R430): Feedback late by T_OPEN or T_CLOSE faults an output. -/
  | feedbackTimeout (t x : Nat)
  /-- `OUTPUT_TEST` (R431): Every OT_PERIOD the outputs are tested. -/
  | outputTest (t : Nat)
  /-- `DARK_TEST_STEP` (R431): A dark test step ends. -/
  | darkTestStep (t x pinMv hvMv uA : Nat)
  /-- `VREL_PDU` (R442): A received Vrel PDU is checked and accepted. -/
  | vrelPdu (t : Nat) (ip : List Byte) (port : Nat) (pdu : List Byte)
  /-- `VREL_TIMEOUT` (R443): No PDU within T_EXP faults the connection. -/
  | vrelTimeout (t c : Nat)
  /-- `VREL_PRODUCE` (R445): The device produces a PDU per connection every PROD_PERIOD. -/
  | vrelProduce (t c : Nat)
  /-- `SAFETY_SESSION_TIMEOUT` (R451): An unlocked session idle 600 s ends. -/
  | safetySessionTimeout (t : Nat)
  /-- `ETHERNET_FRAME` (R463): A received Ethernet frame is taken by the offload or placed on a receive ring. -/
  | ethernetFrame (t port : Nat) (frame : List Byte) (beyond : Bool)
  /-- `ANNOUNCE` (R474): An accepted ANNOUNCE updates the peer table. -/
  | announce (t src counter : Nat) (payload : List Byte)
  /-- `DISPATCH` (R472): An accepted DISPATCH is turned into set-point commands. -/
  | dispatch (t src : Nat) (payload : List Byte)
  /-- `COMMAND` (R473): A Benmor COMMAND enters ring 46. -/
  | command (t src : Nat) (pkt : List Byte)
  /-- `CAN_FRAME` (R462): An application-role CAN frame is delivered. -/
  | canFrame (t c ident : Nat) (fd ext brs remote : Bool) (data : List Byte)
  /-- `UART_RECEIVE` (R462): A UART receive buffer closes. -/
  | uartReceive (t : Nat) (data : List Byte)
  /-- `FRAME_TRANSMIT` (R462): A frame leaves a transmit ring. -/
  | frameTransmit (t n : Nat)
  /-- `NET_LINK` (R460): A port goes down or up and failover acts. -/
  | netLink (t port : Nat) (isUp : Bool)
  /-- `PTP_TIMEOUT` (R466): No offset for 5 s loses PTP lock. -/
  | ptpTimeout (t : Nat)
  /-- `ANNOUNCE_SEND` (R471): The device sends ANNOUNCE periodically. -/
  | announceSend (t : Nat)
  /-- `PEER_AGED_OUT` (R474): An unheard peer is removed. -/
  | peerAgedOut (t addr : Nat)
  /-- `DISPATCH_EXPIRY` (R472): A dispatch valid-until expires to fallback. -/
  | dispatchExpiry (t : Nat)
  /-- `CAN_BUS_OFF` (R476): A CAN controller enters bus-off. -/
  | canBusOff (t c : Nat)
  /-- `CAN_BUS_RECOVERED` (R476): A CAN controller recovers. -/
  | canBusRecovered (t c : Nat)
  /-- `NETWORK_SESSION_TIMEOUT` (R473): A network session idle 300 s closes. -/
  | networkSessionTimeout (t addr : Nat)
  /-- `COOL_PRECHARGE_END` (R484): 1 ms of precharge ends and Align begins. -/
  | coolPrechargeEnd (t d : Nat)
  /-- `ALIGN_END` (R484): T_ALIGN ends and Ramp begins. -/
  | alignEnd (t d : Nat)
  /-- `COMMUTATION` (R485): A drive commutates to the next six-step sector. -/
  | commutation (t d : Nat)
  /-- `BACK_EMF_CROSSING` (R485): The observer detects a back-EMF crossing. -/
  | backEmfCrossing (t d : Nat)
  /-- `CROSSING_MISS` (R487): A crossing missing from its window is a miss. -/
  | crossingMiss (t d : Nat)
  /-- `COAST_TIMEOUT` (R484): Coast without crossings for 200 ms restarts. -/
  | coastTimeout (t d : Nat)
  /-- `COOL_PWM_PERIOD` (R483): Each PWM period the shunts are sampled. -/
  | coolPwmPeriod (t d iU iV iW mean : Nat)
  /-- `COOL_OVERCURRENT` (R483): Current at I_OC for 1 µs is an overcurrent fault. -/
  | coolOvercurrent (t d : Nat)
  /-- `BOOTSTRAP_LOCKOUT` (R491): A high-side UVLO forces a refresh. -/
  | bootstrapLockout (t d phase : Nat)
  /-- `COOL_HOURLY` (R493): Hourly the cooling manager writes counters and checks wear. -/
  | coolHourly (t d : Nat) (up : Bool)
  /-- `LOCK_WINDOW` (R502): A lock-detect window ends. -/
  | lockWindow (t l : Nat) (diff : Int) (roKhz : Nat)
  /-- `CLK_SWITCH` (R505): Hardware switches outputs to the standby loop. -/
  | clkSwitch (t : Nat) (err0 err1 : Int)
  /-- `RELOCK_TIMEOUT` (R504): A loop not relocked in 20 ms is retired. -/
  | relockTimeout (t l : Nat)
  /-- `XREF_ABSENT` (R498): No XREF edge for 200 ns declares it absent. -/
  | xrefAbsent (t : Nat)
  /-- `XREF_PRESENT` (R498): XREF present again after 4,096 edges. -/
  | xrefPresent (t : Nat)
  /-- `MISSING_EDGE` (R511): An output without edges for 20 ns moves its island to the ring oscillator. -/
  | missingEdge (t k : Nat)
  /-- `CLK_REGION` (R514): Every 10 ms the die temperature difference is evaluated. -/
  | clkRegion (t : Nat) (ctl iface : List Int)
  /-- `SCRUB` (R520): The scrubber reads and corrects SRAM words. -/
  | scrub (t : Nat) (hits : List Nat)
  /-- `SRAM_DOUBLE_BIT_ERROR` (R521): A double-bit error is handled by region. -/
  | sramDoubleBitError (t addr : Nat)
  /-- `MRAM_VERIFY_FAILURE` (R524): A failed MRAM line splices its sector. -/
  | mramVerifyFailure (t kind addr image : Nat)
  /-- `COPY_POINTER_SWITCH` (R527): A two-phase commit completes its pointer write. -/
  | copyPointerSwitch (t image : Nat)
  /-- `BLOCK_IMAGE_COMMIT` (R528): The block image commit starts within 10 ms. -/
  | blockImageCommit (t : Nat)
  /-- `HEALTH_COMMIT` (R537): The health record is committed hourly. -/
  | healthCommit (t : Nat)
  /-- `LC_ERASE_COMPLETE` (R546): A life-cycle erase completes and the device resets. -/
  | lcEraseComplete (t : Nat)
  /-- `VLS_THRESHOLD` (R548): VLS crosses a store threshold. -/
  | vlsThreshold (t vqs vls : Nat)
  /-- `HUSK_TIME_LOST` (R552): The husk enters Dark and marks time lost. -/
  | huskTimeLost (o : StoresAt)
  /-- `D0_RESET` (R548): The D0 supply falls below 1.5 V. -/
  | d0Reset (o : StoresAt)
  /-- `HUSK_TEG` (R550): The harvester starts or stops. -/
  | huskTeg (t : Nat) (on : Bool) (voc : Nat)
  /-- `TEG_MEASURE` (R550): The harvester measures the TEG every 1 s. -/
  | tegMeasure (t voc uw : Nat)
  /-- `RTC_WRITE` (R551): The supervisor writes the RTC every 1 s. -/
  | rtcWrite (o : RtcAt)
  /-- `BURST_COMPLETE` (R556): A seal or commit burst completes. -/
  | burstComplete (t : Nat)
  /-- `SEALED_BLOCK_WRITE` (R554): A full log block is written to MRAM. -/
  | sealedBlockWrite (t : Nat)
  /-- `UNKNOWN_OPCODE_PACKET` (R63): A command packet that fails its CRC, length or version check, or carries an unknown opcode, is answered E_CRC, E_LENGTH, E_RANGE or E_OPCODE and changes nothing. -/
  | unknownOpcodePacket (src : Source) (t : Nat) (bytes : List Byte) (valid : Nat)
  /-- `SAFETY_OUTPUT_OVERCURRENT` (R429): A coil current of at least 0.9 A for 10 µs makes the interface die turn both switches off within 5 µs and faults the output. -/
  | safetyOutputOvercurrent (t x : Nat)
  /-- `COMPARATOR_RELEASED` (R372): A comparator input falls back past its threshold less hysteresis, so the cell releases and its source becomes ready, which may allow legs to be permitted. -/
  | comparatorReleased (t n : Nat)
  /-- `JTAG_INSTRUCTION` (R577): A JTAG instruction is shifted in and executed, or replaced by bypass, according to the life-cycle state, with EXTEST driving pins. -/
  | jtagInstruction (t kind : Nat) (pins : List (Nat × Bool))
  /-- `VDD_IO_GOOD` (R548): VDD_IO becomes good while another rail is still not good: the husk moves D0 onto VDD_IO, enters Main and starts charging its stores, and the pad clamps hold the outputs. -/
  | vddIoGood (o : RailAt)
  /-- `D0_POWER_ON` (R548): The D0 supply rises to 1.8 V after Dark or a D0 reset, from VDD_IO or the harvester, and the husk starts with time marked lost. -/
  | d0PowerOn (t vqs vls : Nat)
  /-- `SRAM_CORRECTION` (R522): A master's read corrects a single-bit SRAM error, counting toward the row's third correction in 24 h and a splice. -/
  | sramCorrection (t addr : Nat)
deriving DecidableEq, Repr

end Sys2Proof
end

