-- ==== Sys2Proof/Config.lean ====
section
/-! DEFINITION. What an implementation fixes and the spec leaves open: constants without a body, so that nothing can be proved of their
values (notes/assumptions/1.md). -/

namespace Sys2Proof

/-- The k-th free 32-bit value: a value the spec leaves open (R70: the session value drawn; the nonce of R544). -/
opaque Config.freeWord : Nat → BitVec 32

/-- SHA-384, named by the spec and not given by it (R454, R530, R544, R553). -/
opaque Config.sha384 : List Byte → List Byte

/-- PBKDF2 with HMAC-SHA-384 and 20,000 iterations, named by the spec and not given by it (R449): salt, password. -/
opaque Config.pbkdf2 : List Byte → List Byte → List Byte

/-- The AES-256-GCM tag with no ciphertext: key, nonce, data (R467). -/
opaque Config.gcmTag : List Byte → List Byte → List Byte → List Byte

/-- Whether an ECDSA P-384 signature verifies: key, message, signature (R530, R544). -/
opaque Config.ecdsaOk : List Byte → List Byte → List Byte → Bool

/-- The Orhild public key, whose hash is fixed in the boot ROM (R530). -/
opaque Config.orhildKey : List Byte

/-- Which of the values that R130 allows the sine lookup gives, as a function of its angle: steps of 2 counts from the nearest. -/
opaque Config.sinError : Int → Int

/-- Whether a result that no A40 value equals is taken upward: a function of the exact value (R129). -/
opaque Config.roundUp : Int → Nat → Bool

/-- Sign and payload of the not-a-number that an invalid binary32 operation gives (R595 states neither; notes/assumptions/7.md). -/
opaque Config.nanBits : BitVec 32

/-- A binary32 result that the spec states by a function it gives no algorithm for: a name for the function and its argument. -/
opaque Config.freeFloat : String → List (BitVec 32) → BitVec 32

/-- An integer result that the spec leaves open: what it is and what it depends on. -/
opaque Config.freeNat : String → Nat → Nat

end Sys2Proof
end

