-- ==== Sys2Proof/Machine/State.lean ====
section
/-! DEFINITION. The whole state of the block as plain data, its reset, and the reasons a step can stop. -/

namespace Sys2Proof.Machine

/-- Why a step stops with a fault. -/
inductive Fault where
  /-- Raised by the meaning of a happening whose operand names a unit the device does not have (a leg above 47, a ring above 63): no
  hardware presents such a command, and WellFormed refuses it. Safe. -/
  | noSuchUnit
deriving DecidableEq, Repr

/-- Why a command has no meaning. -/
inductive Refusal where
  /-- Raised by an arm of the dispatch whose command has no meaning yet. Safe. -/
  | notModelled (mnemonic : String)
deriving DecidableEq, Repr


/-- One of the 64 rings (R72..R76). -/
structure Ring where
  /-- the ring has a configuration (03 R590); 1 bit; reset 0 outside R590's table. -/
  configured : Bool
  /-- size 2^k descriptors (03 R72,R94); 4 bits; reset R590's table. -/
  k : Nat
  /-- base address of the descriptor area (03 R94); 32 bits; reset R590's table. -/
  base : Nat
  /-- owner master of rings 16..31, 40..47 (03 R94); 8 bits; reset R590's table. -/
  owner : Nat
  /-- interrupt enable towards HSPI_IRQ_N (03 R94); 1 bit; reset R590's table. -/
  irq : Bool
  /-- event-group mask, rings 16..23 (03 R94); 16 bits; reset R590's table. -/
  mask : Nat
  /-- HOST_INDEX, the other party's index (03 R78); 12 bits; reset 0. -/
  hostIndex : Nat
  /-- DEV_INDEX, the device's index (03 R78); 12 bits; reset 0. -/
  devIndex : Nat
  /-- lost counter, holding at 65,535 (03 R76,R92); 16 bits; reset 0. -/
  lost : Nat
  /-- sequence number of the next event record (03 R90); 16 bits; reset 0. -/
  eseq : Nat
  /-- the next record carries OVERRUN (03 R76); 1 bit; reset 0. -/
  overrun : Bool
  /-- SEQ of the next descriptor the device writes (03 R73); 32 bits; reset 0. -/
  seq : Nat
  /-- exposed descriptors that a memory error made unreadable, marked DONE and ERROR, not yet passed over (19 R521); indexes; reset 0 (none). -/
  bad : List Nat
  /-- records delivered on a device-produced ring and not yet released, oldest first (03 R72,R76); records; reset 0 (empty). -/
  recs : List (List Byte)
deriving DecidableEq, Repr

/-- Ring right after reset (INVENTORY.md, State). -/
def Ring.reset : Ring :=
  { configured := false,
    k := 0,
    base := 0,
    owner := 0,
    irq := false,
    mask := 0,
    hostIndex := 0,
    devIndex := 0,
    lost := 0,
    eseq := 0,
    overrun := false,
    recs := [],
    seq := 0,
    bad := [] }

/-- A configured ring of the delivered configuration (spec/03_command_interface.md R590). -/
def Ring.delivered (base owner : Nat) (irq : Bool) (mask : Nat) : Ring :=
  { Ring.reset with configured := true, k := 4, base := base, owner := owner, irq := irq, mask := mask }

/-- The delivered configuration of ring n (R590); rings 56..63 are the supervisor's own, configured in its own region
(their bases are a DESIGN CHOICE, notes/assumptions/3.md). -/
def Ring.resetOf (n : Nat) : Ring :=
  if n < 8 then .delivered (0x20400000 + n * 0x100) 0 false 0
  else if n < 16 then .delivered (0x20400800 + (n - 8) * 0x100) 0 true 0
  else if n = 16 then .delivered 0x20401000 5 true 0xFFFF
  else if 48 ≤ n ∧ n < 52 then .delivered (0x20480000 + (n - 48) * 0x100) 0 false 0
  else if 52 ≤ n ∧ n < 56 then .delivered (0x20480400 + (n - 52) * 0x100) 0 false 0
  else if 56 ≤ n then .delivered (0x20000000 + (n - 56) * 0x100) 0 false 0
  else .reset

/-- The 64 rings after reset. -/
def Ring.resetAll : List Ring := (List.range 64).map Ring.resetOf


/-- An open session (R70, R71). -/
structure Session where
  /-- the command source that opened it (03 R71); source; reset no session open. -/
  src : SrcId
  /-- the session value, never 0 (03 R70); 32 bits; reset no session open. -/
  value : BitVec 32
  /-- device time of its last command (network sessions close after 300 s) (16 R473); 64 bits; reset no session open. -/
  lastUsed : Nat
deriving DecidableEq, Repr

/-- Session right after reset (INVENTORY.md, State). -/
def Session.reset : Session :=
  { src := .host,
    value := 0,
    lastUsed := 0 }

/-- A reply waiting in the command processor (R76). -/
structure HeldReply where
  /-- the reply ring it waits for (03 R76); 6 bits; reset none waiting. -/
  ring : Nat
  /-- the reply packet (03 R61); bytes; reset none waiting. -/
  bytes : List Byte
deriving DecidableEq, Repr

/-- HeldReply right after reset (INVENTORY.md, State). -/
def HeldReply.reset : HeldReply :=
  { ring := 0,
    bytes := [] }

/-- A reply held until the effect is stored in MRAM (R67). -/
structure DurReply where
  /-- where the command came from (03 R67); source; reset none held. -/
  src : Source
  /-- which stored item it waits for: 0 block image, 1 Sheaf image, 2 safety image, 3 husk and health record (03 R67); 2 bits; reset none held. -/
  image : Nat
  /-- the reply, DURABLE set (03 R61); bytes; reset none held. -/
  bytes : List Byte
deriving DecidableEq, Repr

/-- DurReply right after reset (INVENTORY.md, State). -/
def DurReply.reset : DurReply :=
  { src := .hostRing 0,
    image := 0,
    bytes := [] }

/-- A deferred command waiting for a hitch swap (R68, R146). -/
structure Deferred where
  /-- hitch group (05 R146); 4 bits; reset none pending. -/
  group : Nat
  /-- its opcode (03 R59); 16 bits; reset none pending. -/
  opcode : Nat
  /-- the packet (03 R59); packet; reset none pending. -/
  pkt : Packet
deriving DecidableEq, Repr

/-- Deferred right after reset (INVENTORY.md, State). -/
def Deferred.reset : Deferred :=
  { group := 0,
    opcode := 0,
    pkt := Packet.empty }

/-- The escape port (R83). -/
structure Escape where
  /-- the port has started (end of the SRAM wipe) (03 R84); 1 bit; reset 0. -/
  on : Bool
  /-- BUSY: packet held (03 R83); 1 bit; reset 0. -/
  busy : Bool
  /-- the held packet (03 R83); bytes; reset 0 (empty). -/
  frame : (List Byte)
  /-- REPLY_READY (03 R83); 1 bit; reset 0. -/
  replyReady : Bool
  /-- the held reply (03 R83); bytes; reset 0 (empty). -/
  reply : List Byte
deriving DecidableEq, Repr

/-- Escape right after reset (INVENTORY.md, State). -/
def Escape.reset : Escape :=
  { on := false,
    busy := false,
    replyReady := false,
    reply := [],
    frame := [] }

/-- The command processor (R63..R71, R92). -/
structure Cmd where
  /-- open sessions, at most 16 (03 R70); 16 entries; reset 0 (none; a reset wipes every session). -/
  sessions : List Session
  /-- commands accepted (03 R92); 32 bits; reset 0. -/
  accepted : Nat
  /-- commands rejected (03 R92); 32 bits; reset 0. -/
  rejected : Nat
  /-- rejections by status 0x0101..0x010E, holding at 65,535 (03 R92); 14 x 16 bits; reset 0. -/
  rejBy : List Nat
  /-- escape frames served (03 R92); 32 bits; reset 0. -/
  escServed : Nat
  /-- HSPI_ transfers ended at a 4 KB boundary (03 R82,R92); 32 bits; reset 0. -/
  trunc4k : Nat
  /-- escape frames discarded (03 R83,R92); 32 bits; reset 0. -/
  escDiscarded : Nat
  /-- dry runs answered (03 R66,R92); 32 bits; reset 0. -/
  dryRuns : Nat
  /-- replies waiting for a full reply ring (03 R76); queue; reset 0 (none). -/
  held : List HeldReply
  /-- a command has been accepted since the reset, so UART0 sends (02 R53); 1 bit; reset 0. -/
  first : Bool
  /-- replies held until their effect is stored (03 R67); queue; reset 0 (none). -/
  durable : List DurReply
  /-- deferred commands pending, in acceptance order (05 R146); 64 entries; reset 0 (none). -/
  deferred : List Deferred
deriving DecidableEq, Repr

/-- Cmd right after reset (INVENTORY.md, State). -/
def Cmd.reset : Cmd :=
  { sessions := [],
    accepted := 0,
    rejected := 0,
    rejBy := (List.replicate 14 0),
    escServed := 0,
    trunc4k := 0,
    escDiscarded := 0,
    dryRuns := 0,
    held := [],
    durable := [],
    deferred := [],
    first := false }

/-- Interrupt status, freeze and host bridge (R79..R89). -/
structure HostIf where
  /-- INT_STATUS (03 R79); 32 bits; reset 0. -/
  intStatus : BitVec 32
  /-- FROZEN, bit m: master m frozen (03 R80,R87); 7 bits; reset 0. -/
  frozen : BitVec 7
  /-- accesses stalled per frozen master (03 R87,R89); 7 counts; reset 0. -/
  stalled : List Nat
  /-- device time at which the application core was frozen (03 R89); 64 bits; reset 0. -/
  appFrozenAt : Nat
  /-- device times of the application core's freezes of the last 600 s (03 R89); times; reset 0 (none). -/
  appFreezes : List Nat
  /-- word 5 of the status window, latched by a read of word 4 (03 R80); 32 bits; reset 0. -/
  timeLatch : BitVec 32
  /-- bytes shifted out in the last HSPI_ transaction (03 R81,R82); bytes; reset 0 (none). -/
  spiOut : List Byte
  /-- stored configuration selects host-over-UART (03 R85); 1 bit; reset DESIGN CHOICE 0, log 3. -/
  uartHost : Bool
  /-- framed bytes sent on UART0 in the last transmission (03 R85); bytes; reset 0 (none). -/
  uartOut : List Byte
  /-- device time at which the last stop bit on UART0 ends: DE is high until then (03 R85); 64 bits; reset 0. -/
  uartEnd : Nat
deriving DecidableEq, Repr

/-- HostIf right after reset (INVENTORY.md, State). -/
def HostIf.reset : HostIf :=
  { intStatus := 0,
    frozen := 0,
    stalled := (List.replicate 7 0),
    appFrozenAt := 0,
    appFreezes := [],
    timeLatch := 0,
    spiOut := [],
    uartHost := false,
    uartOut := [],
    uartEnd := 0 }

/-- RESET_BTN_N (R55, R57). -/
structure Button where
  /-- input ready (02 R55); 1 bit; reset not ready. -/
  ready : Bool
  /-- consecutive ticks low (02 R57); ticks; reset 0. -/
  low : Nat
  /-- consecutive ticks released (02 R55,R57); ticks; reset 0. -/
  high : Nat
  /-- declared stuck (02 R57); 1 bit; reset 0. -/
  stuck : Bool
deriving DecidableEq, Repr

/-- Button right after reset (INVENTORY.md, State). -/
def Button.reset : Button :=
  { ready := false,
    low := 0,
    high := 0,
    stuck := false }

/-- Supplies, reset and start-up (R43..R58, R80). -/
structure Sys where
  /-- step of the cold start (02 R50,R51); stage; reset before power-on. -/
  boot : BootStage
  /-- VDD_CORE good (02 R43,R44); 1 bit; reset not good. -/
  railCore : Bool
  /-- VDD_AN good (02 R43,R44); 1 bit; reset not good. -/
  railAn : Bool
  /-- VDD_IO good (02 R43,R44); 1 bit; reset not good. -/
  railIo : Bool
  /-- VDD_HV good (02 R43,R44); 1 bit; reset not good. -/
  railHv : Bool
  /-- voltage of VDD_CORE, VDD_AN, VDD_IO and VDD_HV as last reported, µV (02 R43); 4 x 32 bits; reset 0 (unpowered). -/
  railUv : (List Nat)
  /-- a rail fell below its power-on level since the previous reset began (02 R47); 1 bit; reset 1 (the device comes from off). -/
  belowPowerOn : Bool
  /-- RESET_CAUSE (02 R47); 8 bits; reset 0x01 at the first power-up. -/
  resetCause : Nat
  /-- RST_OUT_N (02 R53,R54); 1 pin; reset low. -/
  rstOutN : Bool
  /-- READY (03 R80); 1 bit; reset 0. -/
  ready : Bool
  /-- RECOVERY: boot ROM in recovery (02 R52); 1 bit; reset 0. -/
  recovery : Bool
  /-- CLOCK_FAULT (03 R80); 1 bit; reset 0. -/
  clockFault : Bool
  /-- DOMAIN: 0 off, 1 starting, 2 on, 3 fault (03 R80); 12 x 2 bits; reset 0 (D0 is never off: it reads on while the husk runs, R29). -/
  domains : List Nat
  /-- DIE_REV, fixed per die (03 R80); 8 bits; reset DESIGN CHOICE 0, log 3. -/
  dieRev : Nat
  /-- version field of the running supervisor image (03 R594); 32 bits; reset 0 in the boot ROM. -/
  fwVersion : Nat
  /-- supervisor slot running: 0 A, 1 B (03 R594); 1 bit; reset DESIGN CHOICE 0, log 3. -/
  supSlotB : Bool
  /-- application slot running (03 R594); 1 bit; reset DESIGN CHOICE 0, log 3. -/
  appSlotB : Bool
  /-- the selected supervisor slot has failed in this start (02 R52); 1 bit; reset 0. -/
  supTried : Bool
  /-- the selected application slot has failed in this start (19 R531); 1 bit; reset 0. -/
  appTried : Bool
  /-- D10 held off (19 R531); 1 bit; reset 0. -/
  d10Held : Bool
  /-- RESET_BTN_N (02 R57); struct; reset not ready. -/
  button : Button
  /-- cause of a reset requested and waiting for the ramp: 0 none, 4 command, 5 button (02 R58,R93); 8 bits; reset 0. -/
  resetPending : Nat
  /-- protection degraded (13 R391); 1 bit; reset 0. -/
  degradedProt : Bool
  /-- mode degraded (04 R113); 1 bit; reset 0. -/
  modeDegraded : Bool
deriving DecidableEq, Repr

/-- Sys right after reset (INVENTORY.md, State). -/
def Sys.reset : Sys :=
  { boot := .off,
    railCore := false,
    railAn := false,
    railIo := false,
    railHv := false,
    belowPowerOn := true,
    resetCause := 1,
    rstOutN := false,
    ready := false,
    recovery := false,
    clockFault := false,
    domains := (2 :: List.replicate 11 0),
    dieRev := 0,
    fwVersion := 0,
    supSlotB := false,
    appSlotB := false,
    supTried := false,
    appTried := false,
    d10Held := false,
    button := Button.reset,
    resetPending := 0,
    degradedProt := false,
    modeDegraded := false,
    railUv := [0, 0, 0, 0] }

/-- A mode transition in progress (R99..R104). -/
structure Trans where
  /-- target mode (04 R99); 8 bits; reset none. -/
  target : Nat
  /-- the mode before (04 R106); 8 bits; reset none. -/
  prev : Nat
  /-- cause code (04 R106); 8 bits; reset none. -/
  cause : Nat
  /-- second step of the start mode, 0 none (04 R100); 8 bits; reset none. -/
  next : Nat
  /-- resynchronisation from islanded supply runs (04 R103); 1 bit; reset none. -/
  resync : Bool
  /-- consecutive in-tolerance evaluations (04 R103); 2 bits; reset none. -/
  evals : Nat
  /-- RAMP_MS of the soft start of islanded supply (04 R101); 16 bits; reset none. -/
  ms : Nat
  /-- device time at which the formed voltage began to rise in a soft start (04 R101); 64 bits; reset none. -/
  softAt : Option Nat
deriving DecidableEq, Repr

/-- Trans right after reset (INVENTORY.md, State). -/
def Trans.reset : Trans :=
  { target := 1,
    prev := 1,
    cause := 0,
    next := 0,
    resync := false,
    evals := 0,
    ms := 0,
    softAt := none }

/-- Operating mode (R97..R113). -/
structure Modes where
  /-- MODE: 0 before Ready, then the mode code (04 R97, 03 R80); 8 bits; reset 0. -/
  mode : Nat
  /-- transition in progress (04 R104); struct; reset 0 (none). -/
  trans : Option Trans
  /-- a safe-stop ramp is in progress (04 R102); 1 bit; reset 0. -/
  ramping : Bool
  /-- device time at which the ramp ends (04 R102); 64 bits; reset 0. -/
  rampEnd : Nat
  /-- device time at which it began (04 R102); 64 bits; reset 0. -/
  rampFrom : Nat
  /-- stored start mode (04 R100); 8 bits; reset DESIGN CHOICE 1, log 3. -/
  startMode : Nat
  /-- stored default safe-stop ramp, ms (04 R100); 16 bits; reset 100. -/
  rampMs : Nat
  /-- the start mode is still to be reached (04 R100); 1 bit; reset 0. -/
  startWanted : Bool
  /-- restart armed (04 R106); 1 bit; reset 0. -/
  restartArmed : Bool
  /-- grid-power mode recorded at arming of reconnection, 0 not armed (04 R106); 8 bits; reset 0. -/
  reconnect : Nat
  /-- mode held before momentary cessation (04 R105); 8 bits; reset 0. -/
  beforeCess : Nat
  /-- device time of the evaluation at which the latest autonomous cause changed the mode (04 R105); 64 bits; reset 0 (none). -/
  forcedAt : Option Nat
  /-- priority of that cause (04 R105); 3 bits; reset 0. -/
  forcedPrio : Nat
  /-- backup enabled in the stored configuration (04 R101); 1 bit; reset DESIGN CHOICE 0, log 3. -/
  backup : Bool
deriving DecidableEq, Repr

/-- Modes right after reset (INVENTORY.md, State). -/
def Modes.reset : Modes :=
  { mode := 0,
    trans := none,
    ramping := false,
    rampEnd := 0,
    rampFrom := 0,
    startMode := 1,
    rampMs := 100,
    startWanted := false,
    restartArmed := false,
    reconnect := 0,
    beforeCess := 0,
    backup := false,
    forcedAt := none,
    forcedPrio := 0 }

/-- The device's own part of one Sheaf channel (R120..R134). -/
structure Chan where
  /-- state words S0..S11, A40 (05 R120); 12 x 40 bits; reset 0. -/
  words : List Int
  /-- the channel runs passes (05 R111); 1 bit; reset 0. -/
  running : Bool
  /-- FAULTED: stopped by its reaction (05 R122,R134); 1 bit; reset 0. -/
  faulted : Bool
  /-- OVERRUN sticky flag (05 R122); 1 bit; reset 0. -/
  overrun : Bool
  /-- INVALID sticky flag (05 R122); 1 bit; reset 0. -/
  invalid : Bool
  /-- LIM sticky flag (05 R122); 1 bit; reset 0. -/
  lim : Bool
  /-- SAT sticky flag (05 R122); 1 bit; reset 0. -/
  sat : Bool
  /-- stopped by its own reaction or its group's (05 R134); 1 bit; reset 0. -/
  stopped : Bool
  /-- PASSES (05 R122); 32 bits; reset 0. -/
  passes : Nat
  /-- LIM_COUNT (05 R122); 16 bits; reset 0. -/
  limCount : Nat
  /-- SAT_COUNT (05 R122); 16 bits; reset 0. -/
  satCount : Nat
  /-- EVT_SUPPRESSED (05 R122); 16 bits; reset 0. -/
  evtSupp : Nat
  /-- INVALID_COUNT (05 R122); 16 bits; reset 0. -/
  invCount : Nat
  /-- DISSENT_COUNT (05 R122); 16 bits; reset 0. -/
  disCount : Nat
  /-- LAST_TIME (05 R122); 64 bits; reset 0. -/
  lastTime : Nat
  /-- MAX_CLOCKS (05 R122); 32 bits; reset 0. -/
  maxClocks : Nat
  /-- aperture from which passes are invalid without a break (05 R133); 64 bits; reset 0 (none). -/
  invSince : Option Nat
  /-- boundary of the newest pass of the present run of invalid passes (05 R133); 64 bits; reset 0. -/
  invAt : Nat
  /-- start of the channel-event window (05 R152); 64 bits; reset 0 (none). -/
  evtAt : Option Nat
  /-- a configuration effect waits for the next boundary (05 R137); 1 bit; reset 0. -/
  pending : Bool
  /-- a start waits for the next boundary (05 R150); 1 bit; reset 0. -/
  pendStart : Bool
  /-- a stop waits for the end of the current pass (05 R150); 1 bit; reset 0. -/
  pendStop : Bool
  /-- RESET_STATE waits for the next boundary (05 R139); 1 bit; reset 0. -/
  pendReset : Bool
  /-- a start that keeps the state words waits for the next boundary (05 R139); 1 bit; reset 0. -/
  pendRun : Bool
  /-- state words that the first pass loads with the sample it reads: word and init selector (05 R121); at most 12; reset empty. -/
  initSel : List (Nat × Nat)
  /-- SHEAF_STATE_SET words waiting for the boundary (05 R148); words; reset 0 (none). -/
  pendWords : List (Nat × Int)
  /-- replies waiting for the effect to reach the channel (05 R137); queue; reset 0 (none). -/
  replies : List DurReply
deriving DecidableEq, Repr

/-- Chan right after reset (INVENTORY.md, State). -/
def Chan.reset : Chan :=
  { words := (List.replicate 12 0),
    running := false,
    faulted := false,
    overrun := false,
    invalid := false,
    lim := false,
    sat := false,
    stopped := false,
    passes := 0,
    limCount := 0,
    satCount := 0,
    evtSupp := 0,
    invCount := 0,
    disCount := 0,
    lastTime := 0,
    maxClocks := 0,
    invSince := none,
    evtAt := none,
    pending := false,
    pendStart := false,
    pendStop := false,
    pendReset := false,
    pendWords := [],
    replies := [],
    initSel := [],
    pendRun := false,
    invAt := 0 }

/-- A hitch group (R142..R146). -/
structure Hitch where
  /-- armed (05 R143); 1 bit; reset 0. -/
  armed : Bool
  /-- requested device time (05 R143); 64 bits; reset 0. -/
  request : Nat
  /-- computed swap boundary (05 R143); 64 bits; reset 0. -/
  boundary : Nat
deriving DecidableEq, Repr

/-- Hitch right after reset (INVENTORY.md, State). -/
def Hitch.reset : Hitch :=
  { armed := false,
    request := 0,
    boundary := 0 }

/-- A pass issued and not committed (R157, R164). -/
structure PassRec where
  /-- channel (06 R157); 8 bits; reset none. -/
  ch : Nat
  /-- rate group (06 R157); 3 bits; reset none. -/
  group : Nat
  /-- boundary at which it was due (06 R158); 64 bits; reset none. -/
  atT : Nat
  /-- input slots whose sample did not arrive within 300 ns (06 R158); list; reset none. -/
  timeouts : List Nat
  /-- values of the input slots of kinds 2, 3, 4, 6 and 7 at its boundary: value, aperture when invalid, stamp, saturated (06 R158); 16 slots; reset none. -/
  ins : List (Int × Option Nat × Nat × Bool)
  /-- link registers as the pass began (05 R127); 64 x 16 bits; reset none. -/
  links : Option (List (BitVec 16))
  /-- link registers as of its boundary, for those that the grid manager writes (07 R203); 64 x 16 bits; reset none. -/
  bound : List (BitVec 16)
  /-- Δθ of RES at its boundary (07 R199); 17 bits; reset none. -/
  dth : Int
deriving DecidableEq, Repr

/-- PassRec right after reset (INVENTORY.md, State). -/
def PassRec.reset : PassRec :=
  { ch := 0,
    group := 0,
    atT := 0,
    timeouts := [],
    ins := [],
    links := none,
    dth := 0,
    bound := [] }

/-- A rate group (R156, R164..R166). -/
structure RateGrp where
  /-- multiple M_g, 0 unused (06 R181); 16 bits; reset 0 (not configured). -/
  mult : Nat
  /-- reaction (06 R166); 2 bits; reset 0. -/
  reaction : Nat
  /-- protection group (06 R181); 3 bits; reset 0. -/
  pgroup : Nat
  /-- overrun total, holding at 65,535 (06 R182); 16 bits; reset 0. -/
  overruns : Nat
  /-- consecutive overruns (06 R165); 8 bits; reset 0. -/
  consec : Nat
  /-- stopped by its reaction (06 R166); 1 bit; reset 0. -/
  stopped : Bool
  /-- a pass of the last boundary did not commit (06 R165); 1 bit; reset false. -/
  lost : Bool
  /-- V0..V15 of the bank, with their tags, 0 from the start of a pass, then as it left them (05 R125); 16 x 8 x 16 bits; reset DESIGN CHOICE 0, log 3. -/
  v : List (List (Int × Bool))
  /-- A0..A3 of the bank, with their tags, 0 from the start of a pass, then as it left them (05 R125); 4 x 8 x 40 bits; reset DESIGN CHOICE 0, log 3. -/
  acc : List (List (Int × Bool))
deriving DecidableEq, Repr

/-- Registers of 8 lanes, all 0 and valid, as a pass starts with them (05 R125, R133). -/
def zeroBank (n : Nat) : List (List (Int × Bool)) := List.replicate n (List.replicate 8 (0, true))

/-- RateGrp right after reset (INVENTORY.md, State). -/
def RateGrp.reset : RateGrp :=
  { mult := 0,
    reaction := 0,
    pgroup := 0,
    overruns := 0,
    consec := 0,
    stopped := false,
    lost := false,
    v := zeroBank 16,
    acc := zeroBank 4 }

/-- ENGINE_RATE_SET image (R181). -/
structure RateCfg where
  /-- timebase (06 R181); 3 bits; reset 0. -/
  tb : Nat
  /-- base-tick event: 0 peak, 1 valley, 2 both (06 R181); 2 bits; reset 0. -/
  event : Nat
  /-- group words (06 R181); 8 x 32 bits; reset 0. -/
  groups : List Nat
deriving DecidableEq, Repr

/-- RateCfg right after reset (INVENTORY.md, State). -/
def RateCfg.reset : RateCfg :=
  { tb := 0,
    event := 0,
    groups := (List.replicate 8 0) }

/-- The splice of a spare core (R171). -/
structure CoreSplice where
  /-- incoming core (06 R171); 2 bits; reset none running. -/
  incoming : Nat
  /-- retired core (06 R171); 2 bits; reset none running. -/
  retired : Nat
  /-- device time of the dissent (06 R185); 64 bits; reset none running. -/
  since : Nat
  /-- the static transfer is complete (06 R171); 1 bit; reset none running. -/
  moved : Bool
  /-- groups in use, each with the boundaries since the transfer: 0 before b0, 1 from b0, 2 from b1, by then exported (06 R171); list; reset none running. -/
  exports : List (Nat × Nat)
  /-- channels with a first join mismatch (06 R171); list; reset none running. -/
  mismatch : List Nat
  /-- channels still to join (06 R171); list; reset none running. -/
  toJoin : List Nat
  /-- channels on which the incoming core votes already (06 R171); list; reset none running. -/
  joined : List Nat
  /-- generators 0..31, and 32 the tracker with the virtual machine, still to join (06 R171); list; reset none running. -/
  units : List Nat
  /-- units with a first join mismatch; whether it was on the boundary before (06 R171); list; reset none running. -/
  unitMiss : List (Nat × Bool)
deriving DecidableEq, Repr

/-- CoreSplice right after reset (INVENTORY.md, State). -/
def CoreSplice.reset : CoreSplice :=
  { incoming := 3,
    retired := 0,
    since := 0,
    moved := false,
    exports := [],
    mismatch := [],
    toJoin := [],
    joined := [],
    units := [],
    unitMiss := [] }

/-- The control engine (R153..R173). -/
structure Engine where
  /-- state of cores A..D: 0 spare, 1 voting, 2 joining, 3 retired (06 R154); 4 x 2 bits; reset A, B, C voting, D spare (R154, R52). -/
  cores : List Nat
  /-- a base tick is configured (06 R155); 1 bit; reset 0. -/
  hasRate : Bool
  /-- rate configuration in force (06 R181); struct; reset not configured. -/
  rate : RateCfg
  /-- accepted configuration waiting for the next base tick (06 R181); struct; reset 0 (none). -/
  ratePend : Option RateCfg
  /-- rate groups (06 R156); 8; reset unused. -/
  groups : List RateGrp
  /-- base ticks since the rate configuration took effect (06 R156); count; reset 0. -/
  tick : Nat
  /-- device time of the latest base tick (06 R156); 64 bits; reset 0. -/
  tickAt : Nat
  /-- D6 step of the latest base tick (06 R155); 68 bits; reset none seen (-1). -/
  tickD : Int
  /-- passes issued and not committed, in order (06 R157); queue; reset 0 (none). -/
  due : List PassRec
  /-- link registers (06 R153); 64 x 16 bits; reset DESIGN CHOICE 0, log 3. -/
  links : List (BitVec 16)
  /-- splice in progress (06 R171); struct; reset 0 (none). -/
  splice : Option CoreSplice
  /-- no spare core remains (06 R172); 1 bit; reset 0. -/
  noSpare : Bool
  /-- engine degraded (06 R172); 1 bit; reset 0. -/
  degraded : Bool
  /-- core to retire at the next vote by MEM_SPLICE, or 8 + core after a firewall violation (R88) (19 R535); 2 bits; reset 0 (none). -/
  forceDissent : List Nat
  /-- a Sheaf commit runs (05 R149); 1 bit; reset 0. -/
  sheafCommit : Bool
  /-- image being written by a running Sheaf commit (05 R149); image; reset 0 (none). -/
  commitImg : Mem
  /-- hitch groups (05 R143); 16; reset not armed. -/
  hitch : List Hitch
  /-- the device's part of each channel (05 R114); 256; reset 0. -/
  chans : List Chan
  /-- running copies, with every placed effect (key n x 0x400 + offset) (05 R137); 256 x 896 bytes; reset 0 (the wipe's values). -/
  run : Mem
  /-- the copies that passes execute: a placed effect is copied on the channel's boundary (05 R137); 256 x 896 bytes; reset 0. -/
  act : Mem
  /-- the cores' copies of the templates (key t x 0x200 + offset) (05 R136); 64 x 512 bytes; reset 0. -/
  templates : Mem
  /-- Sheaf image in force in MRAM: entries at n x 0x400, templates from 0x4_0000 (05 R149); image; reset DESIGN CHOICE 0 (delivered: wipe values, R52), log 3. -/
  stored : Mem
  /-- the other copy of the Sheaf image, committed before it (19 R527); image; reset DESIGN CHOICE 0, log 3. -/
  storedPrev : Mem
deriving DecidableEq, Repr

/-- Engine right after reset (INVENTORY.md, State). -/
def Engine.reset : Engine :=
  { cores := [1, 1, 1, 0],
    hasRate := false,
    rate := RateCfg.reset,
    ratePend := none,
    groups := (List.replicate 8 RateGrp.reset),
    tick := 0,
    tickAt := 0,
    due := [],
    links := (List.replicate 64 0),
    splice := none,
    noSpare := false,
    degraded := false,
    forceDissent := [],
    sheafCommit := false,
    commitImg := [],
    hitch := (List.replicate 16 Hitch.reset),
    chans := (List.replicate 256 Chan.reset),
    run := [],
    act := [],
    templates := [],
    stored := [],
    storedPrev := [],
    tickD := -1 }

/-- A profile generator (R174..R179). -/
structure Gen where
  /-- rate group (06 R184); 3 bits; reset DESIGN CHOICE 0, log 3. -/
  group : Nat
  /-- enabled (06 R184); 1 bit; reset DESIGN CHOICE 0, log 3. -/
  enable : Bool
  /-- arrival event (06 R184); 1 bit; reset DESIGN CHOICE 0, log 3. -/
  arrEvt : Bool
  /-- POWER_SP (06 R184); 1 bit; reset DESIGN CHOICE 0, log 3. -/
  powerSp : Bool
  /-- V_MAX, binary32 (06 R184); 32 bits; reset DESIGN CHOICE 1.0, log 3. -/
  vMax : BitVec 32
  /-- A_MAX, binary32 (06 R184); 32 bits; reset DESIGN CHOICE 1.0, log 3. -/
  aMax : BitVec 32
  /-- J_MAX, binary32 (06 R184); 32 bits; reset DESIGN CHOICE 1.0, log 3. -/
  jMax : BitVec 32
  /-- V_MAX of the latest update, of which the velocity output is the fraction (06 R177,R184); 32 bits; reset DESIGN CHOICE 1.0, log 3. -/
  vScale : BitVec 32
  /-- INIT_SRC slot (06 R184); 32 bits; reset DESIGN CHOICE 0, log 3. -/
  initSrc : BitVec 32
  /-- arrival band, Q15 counts (06 R184); 16 bits; reset DESIGN CHOICE 1, log 3. -/
  band : Nat
  /-- position, binary32 (06 R174); 32 bits; reset DESIGN CHOICE 0, log 3. -/
  p : BitVec 32
  /-- velocity, binary32 (06 R174); 32 bits; reset DESIGN CHOICE 0, log 3. -/
  v : BitVec 32
  /-- acceleration, binary32 (06 R174); 32 bits; reset DESIGN CHOICE 0, log 3. -/
  a : BitVec 32
  /-- position before the latest update, committed by the vote (06 R169); 32 bits; reset 0. -/
  pWas : BitVec 32
  /-- velocity before the latest update (06 R169); 32 bits; reset 0. -/
  vWas : BitVec 32
  /-- acceleration before the latest update (06 R169); 32 bits; reset 0. -/
  aWas : BitVec 32
  /-- V_MAX of the velocity output as committed (06 R169); 32 bits; reset DESIGN CHOICE 1.0, log 3. -/
  sWas : BitVec 32
  /-- target, Q15 (06 R174); 16 bits; reset DESIGN CHOICE 0, log 3. -/
  target : BitVec 16
  /-- newest target written while held (06 R178); 16 bits; reset 0 (none). -/
  pendTarget : Option (BitVec 16)
  /-- held (06 R178); 1 bit; reset DESIGN CHOICE 0, log 3. -/
  held : Bool
  /-- hold point, binary32 (06 R178); 32 bits; reset DESIGN CHOICE 0, log 3. -/
  holdPoint : BitVec 32
  /-- arrival posted and the band not left since (06 R176); 1 bit; reset DESIGN CHOICE 0, log 3. -/
  arrived : Bool
  /-- position at the start of the safe-stop ramp (06 R179); 32 bits; reset DESIGN CHOICE 0, log 3. -/
  rampP : BitVec 32
deriving DecidableEq, Repr

/-- Gen right after reset (INVENTORY.md, State). -/
def Gen.reset : Gen :=
  { group := 0,
    enable := false,
    arrEvt := false,
    powerSp := false,
    vMax := 0x3F800000,
    aMax := 0x3F800000,
    jMax := 0x3F800000,
    initSrc := 0,
    band := 1,
    p := 0,
    v := 0,
    a := 0,
    target := 0,
    pendTarget := none,
    held := false,
    holdPoint := 0,
    arrived := false,
    rampP := 0,
    pWas := 0,
    vWas := 0,
    aWas := 0,
    vScale := 0x3F800000,
    sWas := 0x3F800000 }

/-- GRID_CONFIG in force (R216). -/
structure GridCfg where
  /-- WIRING (07 R187); 3 bits; reset none configured. -/
  wiring : Nat
  /-- topology KIND (07 R188); 3 bits; reset none configured. -/
  kind : Nat
  /-- levels (07 R188); 3 bits; reset none configured. -/
  levels : Nat
  /-- NEUTRAL (07 R188); 1 bit; reset none configured. -/
  neutral : Bool
  /-- grid rate group (07 R216); 3 bits; reset none configured. -/
  group : Nat
  /-- grid legs in the order of R188 (07 R188); 16 x 8 bits; reset none configured. -/
  legs : List Nat
  /-- front G inputs (07 R187); 4 x 8 bits; reset none configured. -/
  frontG : List Nat
  /-- front L inputs (07 R187); 4 x 8 bits; reset none configured. -/
  frontL : List Nat
  /-- decimator output read by the tracker (07 R216); 2 bits; reset none configured. -/
  decim : Nat
  /-- f_nom: 0 50 Hz, 1 60 Hz (07 R216); 1 bit; reset none configured. -/
  fNom60 : Bool
  /-- current channel (07 R201); 8 bits; reset none configured. -/
  curChan : Nat
  /-- V_NOM, binary32 (07 R216); 32 bits; reset none configured. -/
  vNom : BitVec 32
  /-- S_RATED, binary32 (07 R216); 32 bits; reset none configured. -/
  sRated : BitVec 32
  /-- I_RATED, binary32 (07 R216); 32 bits; reset none configured. -/
  iRated : BitVec 32
  /-- full scale of the front inputs, binary32 (07 R216); 32 bits; reset none configured. -/
  frontFs : BitVec 32
  /-- LINK_BASE (07 R202); 6 bits; reset none configured. -/
  linkBase : Nat
  /-- MEAS_LINK (07 R203); 6 bits; reset none configured. -/
  measLink : Nat
deriving DecidableEq, Repr

/-- GridCfg right after reset (INVENTORY.md, State). -/
def GridCfg.reset : GridCfg :=
  { wiring := 3,
    kind := 1,
    levels := 2,
    neutral := false,
    group := 0,
    legs := [],
    frontG := (List.replicate 4 255),
    frontL := (List.replicate 4 255),
    decim := 0,
    fNom60 := false,
    curChan := 0,
    vNom := 0,
    sRated := 0,
    iRated := 0,
    frontFs := 0,
    linkBase := 0,
    measLink := 0 }

/-- GRID_TRACKER_CONFIG (R217). -/
structure TrackCfg where
  /-- BW, Hz (07 R217); 16 bits; reset 25. -/
  bw : Nat
  /-- LEAD_NS (07 R217); 16 bits; reset 0. -/
  leadNs : Nat
  /-- COAST_PU, 0.01 pu (07 R217); 8 bits; reset 15. -/
  coastPu : Nat
  /-- JUMP_SNAP_DEG (07 R217); 8 bits; reset 20. -/
  snapDeg : Nat
  /-- JUMP_EVENT_DEG (07 R217); 8 bits; reset 60. -/
  eventDeg : Nat
deriving DecidableEq, Repr

/-- TrackCfg right after reset (INVENTORY.md, State). -/
def TrackCfg.reset : TrackCfg :=
  { bw := 25,
    leadNs := 0,
    coastPu := 15,
    snapDeg := 20,
    eventDeg := 60 }

/-- The grid phase tracker (R190..R197). -/
structure Tracker where
  /-- 1 Acquiring, 2 Locked, 3 Coasting (07 R194); 2 bits; reset 1 (R55). -/
  state : Nat
  /-- consecutive ticks toward Locked (07 R194); ticks; reset 0. -/
  lockCount : Nat
  /-- consecutive ticks with a phase error of 5 degrees or more (07 R194); ticks; reset 0. -/
  badCount : Nat
  /-- frequency of front G, 0.1 mHz (07 R192,R221); 32 bits; reset DESIGN CHOICE 50 Hz, log 3. -/
  f : Nat
  /-- coasting frequency, 0.1 mHz (07 R195); 32 bits; reset DESIGN CHOICE 50 Hz, log 3. -/
  fc : Nat
  /-- frequency held on the last 1 ms tick, 0.1 mHz (07 R195); 32 bits; reset DESIGN CHOICE 50 Hz, log 3. -/
  tickF : Nat
  /-- rate of change of frequency, mHz/s (07 R221); 32 bits; reset DESIGN CHOICE 0, log 3. -/
  rocof : Int
  /-- phase error, 0.01 degree (07 R192); 16 bits; reset DESIGN CHOICE 0, log 3. -/
  eps : Int
  /-- phase error not valid (07 R195); 1 bit; reset DESIGN CHOICE 1, log 3. -/
  epsInvalid : Bool
  /-- V+ of front G, 10^-6 pu (reported in 0.001 pu) (07 R221); 32 bits; reset DESIGN CHOICE 0, log 3. -/
  vPlus : Nat
  /-- V-, 0.001 pu (07 R221); 16 bits; reset DESIGN CHOICE 0, log 3. -/
  vMinus : Nat
  /-- V0, 0.001 pu (07 R221); 16 bits; reset DESIGN CHOICE 0, log 3. -/
  vZero : Nat
  /-- rms voltage of phases a, b, c, 0.1 V (07 R221); 3 x 16 bits; reset DESIGN CHOICE 0, log 3. -/
  rms : List Nat
  /-- device time at which REACQ clears (07 R196); 64 bits; reset 0. -/
  reacqUntil : Nat
  /-- REACQ (07 R196); 1 bit; reset 0. -/
  reacq : Bool
  /-- device time of the last entry into Locked (07 R221); 64 bits; reset 0. -/
  lockedAt : Nat
  /-- outputs SUB 0..15 latched at the last base tick (07 R192); 16 x 16 bits; reset DESIGN CHOICE 0, log 3. -/
  outputs : List (BitVec 16)
  /-- θ+ of front G at its latest latch outside Coasting, in 2^-32 turn; from it Coasting advances (07 R195); 32 bits; reset 0. -/
  theta : Nat
  /-- device time of that latch (07 R195); 64 bits; reset 0. -/
  thetaAt : Nat
  /-- θ+ is to be set to θ_m on the next tracker sample (07 R196, R197); 1 bit; reset false. -/
  snap : Bool
  /-- measured angles θ_m of the last 10 ms, newest first: aperture stamp and angle in 2^-32 turn (07 R190, R196); list; reset empty. -/
  angles : List (Nat × Nat)
  /-- stamp from which the window of the phase jump counts (07 R197); 64 bits; reset 0. -/
  jumpFrom : Nat
  /-- last phase jump, 0.01 degree (07 R197, 09 R283); 16 bits; reset DESIGN CHOICE 0, log 3. -/
  jump : Int
deriving DecidableEq, Repr

/-- Tracker right after reset (INVENTORY.md, State). -/
def Tracker.reset : Tracker :=
  { state := 1,
    lockCount := 0,
    badCount := 0,
    f := 500000,
    fc := 500000,
    rocof := 0,
    eps := 0,
    epsInvalid := true,
    vPlus := 0,
    vMinus := 0,
    vZero := 0,
    rms := [0, 0, 0],
    reacqUntil := 0,
    reacq := false,
    lockedAt := 0,
    outputs := (List.replicate 16 0),
    theta := 0,
    thetaAt := 0,
    snap := false,
    angles := [],
    jumpFrom := 0,
    jump := 0,
    tickF := 500000 }

/-- One grid function (R218). -/
structure GridFn where
  /-- code, 0 off (07 R218); 8 bits; reset DESIGN CHOICE 0, log 3. -/
  code : Nat
  /-- response time, binary32 s (07 R218); 32 bits; reset DESIGN CHOICE 1.0, log 3. -/
  resp : BitVec 32
  /-- p0..p7, binary32 (07 R218); 8 x 32 bits; reset DESIGN CHOICE 0, log 3. -/
  params : List (BitVec 32)
  /-- filter output, 2^-64 pu (07 R209, R210); exact; reset DESIGN CHOICE 0 (V_ref 1.0), log 3. -/
  acc : Int
  /-- switched off, and still leading its output without a step to what the off function gives (07 R210); 1 bit; reset false. -/
  fading : Bool
deriving DecidableEq, Repr

/-- GridFn right after reset (INVENTORY.md, State). -/
def GridFn.reset : GridFn :=
  { code := 0,
    resp := 0x3F800000,
    params := (List.replicate 8 0),
    fading := false,
    acc := 0 }

/-- The virtual synchronous machine (R211..R214, R219). -/
structure Vsm where
  /-- H, binary32 s (07 R219); 32 bits; reset DESIGN CHOICE 2.0, log 3. -/
  h : BitVec 32
  /-- RF (07 R219); 32 bits; reset DESIGN CHOICE 0.04, log 3. -/
  rf : BitVec 32
  /-- KD (07 R219); 32 bits; reset DESIGN CHOICE 0, log 3. -/
  kd : BitVec 32
  /-- RQ (07 R219); 32 bits; reset DESIGN CHOICE 0, log 3. -/
  rq : BitVec 32
  /-- TQ, s (07 R219); 32 bits; reset DESIGN CHOICE 1.0, log 3. -/
  tq : BitVec 32
  /-- DELTA_MAX, degrees (07 R219); 32 bits; reset DESIGN CHOICE 90, log 3. -/
  deltaMax : BitVec 32
  /-- F_LIM, Hz (07 R219); 32 bits; reset DESIGN CHOICE 1.0, log 3. -/
  fLim : BitVec 32
  /-- F_SET, pu (07 R212); 32 bits; reset 1.0. -/
  fSet : BitVec 32
  /-- f_v, pu (07 R211); 32 bits; reset DESIGN CHOICE 1.0, log 3. -/
  fV : BitVec 32
  /-- theta_v, turns (07 R211); 32 bits; reset DESIGN CHOICE 0, log 3. -/
  theta : BitVec 32
  /-- Qf (07 R211); 32 bits; reset DESIGN CHOICE 0, log 3. -/
  qf : BitVec 32
  /-- E_v, pu (07 R211); 32 bits; reset DESIGN CHOICE 0, log 3. -/
  ev : BitVec 32
  /-- VSM_LIMITED (07 R214); 1 bit; reset 0. -/
  limited : Bool
  /-- initialised on the present boundary of the grid rate group, its first update on the next one (07 R212); 1 bit; reset false. -/
  fresh : Bool
  /-- start of the 100 ms event window (07 R214); 64 bits; reset 0 (none). -/
  limitAt : Option Nat
deriving DecidableEq, Repr

/-- Vsm right after reset (INVENTORY.md, State). -/
def Vsm.reset : Vsm :=
  { h := 0x40000000,
    rf := 0x3D23D70A,
    kd := 0,
    rq := 0,
    tq := 0x3F800000,
    deltaMax := 0x42B40000,
    fLim := 0x3F800000,
    fSet := 0x3F800000,
    fV := 0x3F800000,
    theta := 0,
    qf := 0,
    ev := 0,
    limited := false,
    limitAt := none,
    fresh := false }

/-- GRID_LIMITS (R220). -/
structure GridLim where
  /-- I_MAX, rms A, binary32 (07 R220); 32 bits; reset DESIGN CHOICE 0, log 3. -/
  iMax : BitVec 32
  /-- PRIORITY: 0 active, 1 reactive (07 R205); 1 bit; reset DESIGN CHOICE 0, log 3. -/
  priority : Nat
  /-- export limit, W (07 R220); 32 bits; reset DESIGN CHOICE +infinity (disabled), log 3. -/
  exportW : BitVec 32
  /-- import limit, W (07 R220); 32 bits; reset DESIGN CHOICE +infinity (disabled), log 3. -/
  importW : BitVec 32
  /-- S_MAX, VA (07 R220); 32 bits; reset DESIGN CHOICE 0, log 3. -/
  sMax : BitVec 32
deriving DecidableEq, Repr

/-- GridLim right after reset (INVENTORY.md, State). -/
def GridLim.reset : GridLim :=
  { iMax := 0,
    priority := 0,
    exportW := 0x7F800000,
    importW := 0x7F800000,
    sMax := 0 }

/-- The grid group (R186..R222). -/
structure Grid where
  /-- grid configuration (07 R216); struct; reset none. -/
  cfg : Option GridCfg
  /-- tracker configuration in force (07 R217); struct; reset delivered values. -/
  tcfg : TrackCfg
  /-- tracker configuration waiting for the grid-group boundary (07 R215); struct; reset 0 (none). -/
  tcfgPend : Option TrackCfg
  /-- tracker (07 R194); struct; reset Acquiring. -/
  trk : Tracker
  /-- functions: reactive, volt-watt, frequency-droop, V_ref adjust (07 R218); 4; reset DESIGN CHOICE off, log 3. -/
  fns : List GridFn
  /-- V_ref (07 R209); 32 bits; reset DESIGN CHOICE 1.0, log 3. -/
  vRef : BitVec 32
  /-- P_pre held while outside the dead band (07 R210); 32 bits; reset 0 (none). -/
  pPre : Option (BitVec 32)
  /-- the frequency lay outside the dead band on the last tick (07 R210); 1 bit; reset false. -/
  droopOut : Bool
  /-- P_set, pu (07 R215); 32 bits; reset DESIGN CHOICE 0, log 3. -/
  pSet : BitVec 32
  /-- Q_set, pu (07 R215); 32 bits; reset DESIGN CHOICE 0, log 3. -/
  qSet : BitVec 32
  /-- V_SET in force since the last 1 ms evaluation (07 R215); 32 bits; reset 1.0 (as V_SET). -/
  vForce : BitVec 32
  /-- Q_set in force since the last 1 ms evaluation (07 R215); 32 bits; reset 0 (as Q_set). -/
  qForce : BitVec 32
  /-- V_SET, pu (07 R215); 32 bits; reset DESIGN CHOICE 1.0, log 3. -/
  vSet : BitVec 32
  /-- virtual synchronous machine (07 R211); struct; reset DESIGN CHOICE, log 3. -/
  vsm : Vsm
  /-- VSM parameters waiting for the grid-group boundary (07 R215); struct; reset 0 (none). -/
  vsmPend : Option Vsm
  /-- limits (07 R220); struct; reset DESIGN CHOICE, log 3. -/
  lim : GridLim
  /-- P_ref, pu (07 R206); 32 bits; reset DESIGN CHOICE 0, log 3. -/
  pRef : BitVec 32
  /-- Q_ref, pu (07 R206); 32 bits; reset DESIGN CHOICE 0, log 3. -/
  qRef : BitVec 32
  /-- P_upper, pu (07 R206); 32 bits; reset DESIGN CHOICE 0, log 3. -/
  pUpper : BitVec 32
  /-- P_lower, pu (07 R206); 32 bits; reset DESIGN CHOICE 0, log 3. -/
  pLower : BitVec 32
  /-- current limited (07 R205); 1 bit; reset 0. -/
  limited : Bool
  /-- P curtailed (07 R221); 1 bit; reset 0. -/
  curtailed : Bool
  /-- LINK_SAT (07 R204); 1 bit; reset 0. -/
  linkSat : Bool
  /-- link values computed and not yet delivered (07 R203); 8 x 16 bits; reset 0 (none). -/
  linkOut : Option (List (BitVec 16))
  /-- legs held Disabled until the next entry into a switching mode (07 R186); 1 bit; reset 0. -/
  legsHeld : Bool
deriving DecidableEq, Repr

/-- Grid right after reset (INVENTORY.md, State). -/
def Grid.reset : Grid :=
  { cfg := none,
    tcfg := TrackCfg.reset,
    tcfgPend := none,
    trk := Tracker.reset,
    fns := (List.replicate 3 GridFn.reset ++ [{ GridFn.reset with acc := 2 ^ 64 }]),
    vRef := 0x3F800000,
    pPre := none,
    pSet := 0,
    qSet := 0,
    vSet := 0x3F800000,
    vsm := Vsm.reset,
    vsmPend := none,
    lim := GridLim.reset,
    pRef := 0,
    qRef := 0,
    pUpper := 0,
    pLower := 0,
    limited := false,
    curtailed := false,
    linkSat := false,
    linkOut := none,
    legsHeld := false,
    vForce := 0x3F800000,
    qForce := 0,
    droopOut := false }

/-- One trip function (R229..R231). -/
structure TripFn where
  /-- enabled (08 R230); 1 bit; reset DESIGN CHOICE 0 (no profile loaded), log 3. -/
  enable : Bool
  /-- threshold 0.001 pu, or offset mHz (08 R251); 16 bits; reset DESIGN CHOICE 0, log 3. -/
  thr : Int
  /-- T, ms (08 R251); 32 bits; reset DESIGN CHOICE 1, log 3. -/
  tTicks : Nat
  /-- running count, ticks (08 R255); 32 bits; reset 0. -/
  count : Nat
  /-- tripped and still true (08 R229); 1 bit; reset 0. -/
  tripped : Bool
deriving DecidableEq, Repr

/-- TripFn right after reset (INVENTORY.md, State). -/
def TripFn.reset : TripFn :=
  { enable := false,
    thr := 0,
    tTicks := 1,
    count := 0,
    tripped := false }

/-- Fault ride-through (R223..R243). -/
structure Rt where
  /-- profile last loaded (08 R255); 8 bits; reset 0. -/
  profile : Nat
  /-- U1, 0.001 pu (08 R250); 16 bits; reset DESIGN CHOICE Category II, log 3. -/
  u1 : Nat
  /-- U2 (08 R250); 16 bits; reset DESIGN CHOICE Category II, log 3. -/
  u2 : Nat
  /-- U3 (08 R250); 16 bits; reset DESIGN CHOICE Category II, log 3. -/
  u3 : Nat
  /-- O1 (08 R250); 16 bits; reset DESIGN CHOICE Category II, log 3. -/
  o1 : Nat
  /-- O2 (08 R250); 16 bits; reset DESIGN CHOICE Category II, log 3. -/
  o2 : Nat
  /-- B1..B5 (08 R250); 5 x 2 bits; reset DESIGN CHOICE Category II, log 3. -/
  b : List Nat
  /-- trip functions 0..7 (08 R229); 8; reset DESIGN CHOICE off, log 3. -/
  trips : List TripFn
  /-- RT_PRIORITY (08 R252); 1 bit; reset 1 (R228). -/
  rtPriority : Nat
  /-- RETURN_TICKS (08 R252); 8 bits; reset 3 (R228). -/
  returnTicks : Nat
  /-- PERMISSIVE_ACTION (08 R252); 1 bit; reset 0 (R228). -/
  permissive : Nat
  /-- K, 0.01 (08 R252); 16 bits; reset 0 (R228: dynamic support off). -/
  kSupport : Nat
  /-- DB, 0.001 pu (08 R252); 16 bits; reset DESIGN CHOICE 0, log 3. -/
  dB : Nat
  /-- P_RECOVER, pu/s (08 R252); 32 bits; reset 2.0 (R228). -/
  pRecover : BitVec 32
  /-- RESTART_MAX, ms (08 R252); 16 bits; reset 200 (R228). -/
  restartMax : Nat
  /-- ES_V_LO, 0.001 pu (08 R253); 16 bits; reset 917 (R242). -/
  esVLo : Nat
  /-- ES_V_HI (08 R253); 16 bits; reset 1050 (R242). -/
  esVHi : Nat
  /-- ES_F_LO, mHz (08 R253); 16 bits; reset -500 (R242). -/
  esFLo : Int
  /-- ES_F_HI, mHz (08 R253); 16 bits; reset 100 (R242). -/
  esFHi : Nat
  /-- ES_DELAY, s (08 R253); 16 bits; reset 300 (R242). -/
  esDelay : Nat
  /-- ES_RAMP, s (08 R253); 16 bits; reset 300 (R242). -/
  esRamp : Nat
  /-- class: 0 continuous .. 3 cessation (08 R226); 2 bits; reset 3 (R226). -/
  cls : Nat
  /-- return count (08 R226); 8 bits; reset 0. -/
  retCount : Nat
  /-- most severe class seen while counting (08 R226); 2 bits; reset 0. -/
  retMax : Nat
  /-- the under side set the class (08 R240); 1 bit; reset DESIGN CHOICE 1, log 3. -/
  underSets : Bool
  /-- V_hi, 10^-6 pu (reported in 0.001 pu) (08 R223); 32 bits; reset DESIGN CHOICE 0, log 3. -/
  vHi : Nat
  /-- V_lo, 10^-6 pu (reported in 0.001 pu) (08 R223); 32 bits; reset DESIGN CHOICE 0, log 3. -/
  vLo : Nat
  /-- frequency monitored on the last tick, 0.1 mHz (08 R224); 32 bits; reset 0. -/
  f : Nat
  /-- consecutive in-window evaluations of the grid windows: lowest voltage, highest voltage, frequency (02 R55,R56); 3 x 8 bits; reset 0 (out of window, R55). -/
  wins : List Nat
  /-- restart gate closed (08 R236); 1 bit; reset 0. -/
  gateClosed : Bool
  /-- gate opened, channels start at the next grid-group boundary (08 R236); 1 bit; reset 0. -/
  gateOpening : Bool
  /-- device time of the return (08 R237); 64 bits; reset 0. -/
  gateAt : Nat
  /-- the gate timeout of the present return has been acted on (08 R237); 1 bit; reset false. -/
  gateTimed : Bool
  /-- phase error at the opening of the gate, 0.01 degree (08 R256); 16 bits; reset 0. -/
  gateEps : Int
  /-- device time at which the gate opened (08 R236); 64 bits; reset 0. -/
  gateOpenAt : Nat
  /-- ticks for which the enter-service condition has held (08 R242); 32 bits; reset 0. -/
  esTicks : Nat
  /-- enter-service delay complete (08 R242); 1 bit; reset 0. -/
  esDone : Bool
  /-- dynamic support acting (08 R255); 1 bit; reset 0. -/
  supportOn : Bool
  /-- ride-through term of P_upper, none when released (08 R241); 32 bits; reset released. -/
  term : Option (BitVec 32)
  /-- what the ride-through term rises by: 0 held, 1 P_RECOVER, 2 1 / ES_RAMP (08 R241); 2 bits; reset DESIGN CHOICE 0, log 3. -/
  termRise : Nat
  /-- the ride-through term is to be set from P_ref of this tick (08 R241); 1 bit; reset false. -/
  termHold : Bool
  /-- the next entry into service follows a trip (08 R241); 1 bit; reset 0. -/
  afterTrip : Bool
  /-- consecutive ticks below DCL_UV (08 R248); ticks; reset 0. -/
  uvDcTicks : Nat
  /-- the present DC-link undervoltage has been acted on (08 R248); 1 bit; reset false. -/
  uvActed : Bool
deriving DecidableEq, Repr

/-- Rt right after reset (INVENTORY.md, State). -/
def Rt.reset : Rt :=
  { profile := 0,
    u1 := 880,
    u2 := 650,
    u3 := 300,
    o1 := 1100,
    o2 := 1200,
    b := [1, 2, 3, 2, 3],
    trips := (List.replicate 8 TripFn.reset),
    rtPriority := 1,
    returnTicks := 3,
    permissive := 0,
    kSupport := 0,
    dB := 0,
    pRecover := 0x40000000,
    restartMax := 200,
    esVLo := 917,
    esVHi := 1050,
    esFLo := (-500),
    esFHi := 100,
    esDelay := 300,
    esRamp := 300,
    cls := 3,
    retCount := 0,
    retMax := 0,
    underSets := true,
    vHi := 0,
    vLo := 0,
    gateClosed := false,
    gateOpening := false,
    gateAt := 0,
    gateEps := 0,
    gateOpenAt := 0,
    esTicks := 0,
    esDone := false,
    supportOn := false,
    term := none,
    afterTrip := false,
    uvDcTicks := 0,
    f := 0,
    termHold := false,
    gateTimed := false,
    uvActed := false,
    wins := [0, 0, 0],
    termRise := 0 }

/-- The DC-link defence (R244..R248, R254). -/
structure Dcl where
  /-- configured (08 R254); 1 bit; reset 0. -/
  hasCfg : Bool
  /-- DC-link AIN (08 R254); 5 bits; reset none. -/
  ain : Nat
  /-- decimator output (08 R254); 2 bits; reset none. -/
  out : Nat
  /-- chopper current AIN, 0xFF none (08 R254); 8 bits; reset none. -/
  chopAin : Nat
  /-- DCL_UV, V (08 R254); 16 bits; reset none. -/
  uv : Nat
  /-- DCL_REL, V (08 R254); 16 bits; reset none. -/
  rel : Nat
  /-- DCL_OV1, V (08 R254); 16 bits; reset none. -/
  ov1 : Nat
  /-- DCL_OV2, V (08 R254); 16 bits; reset none. -/
  ov2 : Nat
  /-- DC full scale, V (08 R254); 16 bits; reset none. -/
  fs : Nat
  /-- chopper current full scale, A (08 R254); 16 bits; reset none. -/
  chopFs : Nat
  /-- CHOP_I_MIN, 0.1 A (08 R254); 16 bits; reset none. -/
  chopIMin : Nat
  /-- CHOP_DUTY_MIN, Q15 (08 R254); 16 bits; reset none. -/
  chopDMin : Nat
  /-- V_dc x 32,768 (Q15 result x full scale), from the newest result (08 R246); 32 bits; reset DESIGN CHOICE 0, log 3. -/
  vdc : Int
  /-- a DC-link result has been taken (08 R246); 1 bit; reset 0. -/
  vdcValid : Bool
  /-- V_dc has been below DCL_REL since the reset: the over-limit input is ready (02 R55); 1 bit; reset 0 (over limit). -/
  below : Bool
  /-- time from which V_dc has been below DCL_REL with the class continuous (08 R247); 64 bits; reset 0 (none). -/
  relSince : Option Nat
  /-- chopper current x 32,768, A (08 R245); 32 bits; reset DESIGN CHOICE 0, log 3. -/
  chopCur : Int
  /-- time from which the chopper has not conducted (08 R245); 64 bits; reset 0 (none). -/
  chopSince : Option Nat
  /-- CHOP_FAULT latched (08 R245); 1 bit; reset 0. -/
  chopFault : Bool
  /-- defence active (step 1) (08 R246); 1 bit; reset 0. -/
  active : Bool
  /-- step 2 active (08 R246); 1 bit; reset 0. -/
  step2 : Bool
deriving DecidableEq, Repr

/-- Dcl right after reset (INVENTORY.md, State). -/
def Dcl.reset : Dcl :=
  { hasCfg := false,
    ain := 0,
    out := 0,
    chopAin := 255,
    uv := 0,
    rel := 0,
    ov1 := 0,
    ov2 := 0,
    fs := 0,
    chopFs := 0,
    chopIMin := 0,
    chopDMin := 0,
    vdc := 0,
    vdcValid := false,
    relSince := none,
    chopCur := 0,
    chopSince := none,
    chopFault := false,
    active := false,
    step2 := false,
    below := false }

/-- An islanding correlator (R273..R275). -/
structure Corr where
  /-- 0 off, 1 fixed, 2 auto (09 R274); 2 bits; reset DESIGN CHOICE 0, log 3. -/
  mode : Nat
  /-- code index (09 R274); 18 bits; reset DESIGN CHOICE 0, log 3. -/
  code : Nat
  /-- an entry is held: an auto correlator with no free entry holds none (09 R274); 1 bit; reset false. -/
  held : Bool
  /-- in the PCC map (09 R275); 1 bit; reset 0. -/
  inMap : Bool
  /-- s_m, 0.001; none when not valid (09 R273); 16 bits; reset 0 (not valid). -/
  share : Option Nat
  /-- consecutive evaluations toward the next change (09 R284); 16 bits; reset 0. -/
  count : Nat
  /-- valid evaluations dwelt on the present auto entry (09 R274); 8 bits; reset 0. -/
  dwell : Nat
deriving DecidableEq, Repr

/-- Corr right after reset (INVENTORY.md, State). -/
def Corr.reset : Corr :=
  { mode := 0,
    code := 0,
    inMap := false,
    share := none,
    count := 0,
    dwell := 0,
    held := false }

/-- ISL_AWN_CONFIG (R281). -/
structure AwnCfg where
  /-- enable (09 R281); 1 bit; reset DESIGN CHOICE 0, log 3. -/
  enable : Bool
  /-- explicit code (09 R281); 1 bit; reset DESIGN CHOICE 0, log 3. -/
  explicit : Bool
  /-- free-running epoch even with PTP (09 R281); 1 bit; reset DESIGN CHOICE 0, log 3. -/
  freeRun : Bool
  /-- AWN_LEVEL, 0.1 % (09 R261); 8 bits; reset 5. -/
  level : Nat
  /-- N_CONF (09 R271); 8 bits; reset 29. -/
  nConf : Nat
  /-- CONSIST, 0.01 (09 R271); 8 bits; reset 50. -/
  consist : Nat
  /-- explicit code index (09 R281); 18 bits; reset DESIGN CHOICE 0, log 3. -/
  code : Nat
  /-- Z_ABS, 0.001 pu (09 R271); 16 bits; reset 500. -/
  zAbs : Nat
  /-- RATIO, 0.01 (09 R271); 16 bits; reset 150. -/
  ratio : Nat
  /-- current inputs (09 R281); 3 x 8 bits; reset DESIGN CHOICE unused, log 3. -/
  inputs : List Nat
  /-- decimator output (09 R281); 2 bits; reset DESIGN CHOICE 0, log 3. -/
  decim : Nat
deriving DecidableEq, Repr

/-- AwnCfg right after reset (INVENTORY.md, State). -/
def AwnCfg.reset : AwnCfg :=
  { enable := false,
    explicit := false,
    freeRun := false,
    level := 5,
    nConf := 29,
    consist := 50,
    code := 0,
    zAbs := 500,
    ratio := 150,
    inputs := [255, 255, 255],
    decim := 0 }

/-- A passive function (R276, R282). -/
structure Passive where
  /-- enabled (09 R276); 1 bit; reset 0 (disabled as delivered). -/
  enable : Bool
  /-- threshold (09 R282); 16 bits; reset DESIGN CHOICE lowest, log 3. -/
  thr : Nat
  /-- W, ms (09 R282); 16 bits; reset DESIGN CHOICE lowest, log 3. -/
  w : Nat
  /-- T, ms (09 R282); 32 bits; reset DESIGN CHOICE 1, log 3. -/
  t : Nat
  /-- ticks for which the condition has held (09 R276); 32 bits; reset 0. -/
  count : Nat
  /-- has tripped and its condition still holds (09 R276); 1 bit; reset 0. -/
  acted : Bool
deriving DecidableEq, Repr

/-- Passive right after reset (INVENTORY.md, State). -/
def Passive.reset : Passive :=
  { enable := false,
    thr := 100,
    w := 20,
    t := 1,
    count := 0,
    acted := false }

/-- One chip of the awn code and the samples averaged over it (R265). -/
structure AwnChip where
  /-- device time of its start (09 R265); 64 bits; reset none. -/
  start : Nat
  /-- its place in the epoch (09 R257); 11 bits; reset none. -/
  j : Nat
  /-- c_k of the device's own code (09 R257); 2 bits; reset none. -/
  c : Int
  /-- for the voltages a, b, c of front G and the currents a, b, c: the sums of the d and q contributions, Q30, and the number of samples (09 R265); 6 entries; reset none. -/
  acc : List (Int × Int × Nat)
deriving DecidableEq, Repr

/-- AwnChip before its first sample (INVENTORY.md, State). -/
def AwnChip.reset : AwnChip :=
  { start := 0,
    j := 0,
    c := 0,
    acc := (List.replicate 6 (0, 0, 0)) }

/-- Islanding detection (R257..R285). -/
structure Isl where
  /-- configuration in force (09 R281); struct; reset delivered values. -/
  cfg : AwnCfg
  /-- level or code waiting for the next epoch boundary (09 R278); struct; reset 0 (none). -/
  cfgPend : Option AwnCfg
  /-- 0 Off, 1 Learning, 2 Armed, 3 Suspended, 4 No path (09 R268); 3 bits; reset 0. -/
  state : Nat
  /-- consecutive hits (09 R269); 8 bits; reset 0. -/
  count : Nat
  /-- valid evaluations in the baseline (09 R269); 16 bits; reset 0. -/
  n : Nat
  /-- sum of z, binary32 (09 R269); 32 bits; reset 0. -/
  sum : BitVec 32
  /-- Z_base, binary32; none before the baseline (09 R269); 32 bits; reset 0 (none). -/
  zBase : Option (BitVec 32)
  /-- evaluations with a weak current response (09 R268); 16 bits; reset 0. -/
  noPathCount : Nat
  /-- No path was entered for the current response (09 R268); 1 bit; reset false. -/
  weak : Bool
  /-- epoch aligned to PTP (09 R260); 1 bit; reset 0. -/
  aligned : Bool
  /-- device time at which the present epoch started (09 R260); 64 bits; reset 0 (none). -/
  epochAt : Option Nat
  /-- present chip j (09 R257); 11 bits; reset 0. -/
  chip : Nat
  /-- device time of the last realignment or change of settings; the window contains it for 100 ms (09 R267); 64 bits; reset 0 (none). -/
  spanAt : Option Nat
  /-- device time from which injection has run (09 R267); 64 bits; reset 0. -/
  injFrom : Nat
  /-- injection set-points of kind-7 slots (09 R261); 3 x 16 bits; reset 0. -/
  inject : List (BitVec 16)
  /-- modulation of E_v in force since the last boundary of the grid rate group, binary32 pu (09 R261, R263); 32 bits; reset 0. -/
  evMod : BitVec 32
  /-- the chips of the evaluation window and the one in progress, newest first (09 R265); at most 202; reset empty. -/
  chips : List AwnChip
  /-- value of the chip in force: +1, -1, or 0 when not injecting (09 R257); 2 bits; reset 0. -/
  chipVal : Int
  /-- code index in use (09 R259); 18 bits; reset DESIGN CHOICE 0, log 3. -/
  codeInUse : Nat
  /-- source of that code: 0 explicit, 1 fleet address, 2 serial number (09 R259, R283); 2 bits; reset DESIGN CHOICE 0, log 3. -/
  srcInUse : Nat
  /-- magnitude of the last estimate, binary32 pu (09 R283); 32 bits; reset DESIGN CHOICE 0, log 3. -/
  z : BitVec 32
  /-- its angle, 0.01 degree (09 R283); 16 bits; reset DESIGN CHOICE 0, log 3. -/
  zAngle : Int
  /-- current response over A, 0.001 (09 R283); 16 bits; reset DESIGN CHOICE 0, log 3. -/
  riA : Nat
  /-- IR, 0.01 (09 R283); 16 bits; reset DESIGN CHOICE 0, log 3. -/
  ir : Nat
  /-- last evaluation valid (09 R283); 1 bit; reset 0. -/
  lastValid : Bool
  /-- device time of the last valid evaluation (09 R283); 64 bits; reset 0. -/
  lastValidAt : Nat
  /-- ROCOF over W, mHz/s (09 R283); 32 bits; reset DESIGN CHOICE 0, log 3. -/
  rocofW : Int
  /-- monitored frequency of the last 500 ticks, newest first, 0.1 mHz (09 R276); 500 x 32 bits; reset 0 (none). -/
  fHist : List Nat
  /-- greatest phase jump since the last tick, 0.01 degree (09 R276); 16 bits; reset 0. -/
  jumpSeen : Nat
  /-- ISL_BASELINE_RESET waits for the next evaluation (09 R280); 1 bit; reset 0. -/
  relearn : Bool
  /-- correlators 1..63 (index 0 unused) (09 R273); 63; reset off. -/
  corr : List Corr
  /-- ROCOF function (09 R276); struct; reset disabled. -/
  rocof : Passive
  /-- vector-shift function (09 R276); struct; reset disabled. -/
  vshift : Passive
  /-- basis of a decision passed to the supervisor and not yet acted on, 0 none (09 R270); 3 bits; reset 0. -/
  decided : Nat
deriving DecidableEq, Repr

/-- Isl right after reset (INVENTORY.md, State). -/
def Isl.reset : Isl :=
  { cfg := AwnCfg.reset,
    cfgPend := none,
    state := 0,
    count := 0,
    n := 0,
    sum := 0,
    zBase := none,
    noPathCount := 0,
    aligned := false,
    epochAt := none,
    chip := 0,
    spanAt := none,
    injFrom := 0,
    inject := [0, 0, 0],
    chipVal := 0,
    codeInUse := 0,
    z := 0,
    zAngle := 0,
    riA := 0,
    ir := 0,
    lastValid := false,
    lastValidAt := 0,
    rocofW := 0,
    fHist := [],
    jumpSeen := 0,
    relearn := false,
    corr := (List.replicate 64 Corr.reset),
    rocof := Passive.reset,
    vshift := Passive.reset,
    decided := 0,
    chips := [],
    weak := false,
    evMod := 0,
    srcInUse := 0 }

/-- PORT_PV_CONFIG (R308). -/
structure PvCfg where
  /-- legs (10 R308); 1..4 x 8 bits; reset none configured. -/
  legs : List Nat
  /-- voltage source kind: 1 AIN, 2 HK (10 R308); 2 bits; reset none configured. -/
  vKind : Nat
  /-- voltage input (10 R308); 6 bits; reset none configured. -/
  vIn : Nat
  /-- current input AIN (10 R308); 5 bits; reset none configured. -/
  iIn : Nat
  /-- decimator output (10 R308); 2 bits; reset none configured. -/
  decim : Nat
  /-- V_FS, V (10 R308); 16 bits; reset none configured. -/
  vFs : Nat
  /-- I_FS, 0.1 A (10 R308); 16 bits; reset none configured. -/
  iFs : Nat
  /-- I_SC_MAX, 0.1 A (10 R308); 16 bits; reset none configured. -/
  iScMax : Nat
  /-- V_MIN, V (10 R308); 16 bits; reset none configured. -/
  vMin : Nat
  /-- V_MAX, V (10 R308); 16 bits; reset none configured. -/
  vMax : Nat
  /-- P_RATED, 10 W (10 R308); 16 bits; reset none configured. -/
  pRated : Nat
deriving DecidableEq, Repr

/-- PvCfg right after reset (INVENTORY.md, State). -/
def PvCfg.reset : PvCfg :=
  { legs := [],
    vKind := 1,
    vIn := 0,
    iIn := 0,
    decim := 0,
    vFs := 100,
    iFs := 10,
    iScMax := 1,
    vMin := 50,
    vMax := 51,
    pRated := 1 }

/-- PORT_MPPT_CONFIG (R311). -/
structure MpptCfg where
  /-- global search (10 R311); 1 bit; reset 1. -/
  global : Bool
  /-- SWEEP_MIN_S, s (10 R311); 16 bits; reset 60. -/
  minS : Nat
  /-- SWEEP_SLEW, V/ms (10 R311); 16 bits; reset 100. -/
  slew : Nat
  /-- DWELL, ms (10 R311); 8 bits; reset 5. -/
  dwell : Nat
  /-- CAND_MARGIN, 0.1 % (10 R311); 8 bits; reset 10. -/
  margin : Nat
  /-- SWEEP_BUDGET, 0.001 % (10 R311); 16 bits; reset 50. -/
  budget : Nat
  /-- MAP_HALF, s (10 R311); 16 bits; reset 600. -/
  mapHalf : Nat
  /-- PERSIST_MIN (10 R311); 16 bits; reset 16. -/
  persist : Nat
  /-- DITHER, 0.1 V (10 R311); 8 bits; reset 0. -/
  dither : Nat
deriving DecidableEq, Repr

/-- MpptCfg right after reset (INVENTORY.md, State). -/
def MpptCfg.reset : MpptCfg :=
  { global := true,
    minS := 60,
    slew := 100,
    dwell := 5,
    margin := 10,
    budget := 50,
    mapHalf := 600,
    persist := 16,
    dither := 0 }

/-- A PV port (R286..R297). -/
structure Pv where
  /-- configuration (10 R308); struct; reset none. -/
  cfg : Option PvCfg
  /-- MPPT parameters (10 R311); struct; reset delivered values. -/
  mppt : MpptCfg
  /-- 0 Off .. 6 Defence (10 R291); 3 bits; reset 0. -/
  state : Nat
  /-- reference, 0.1 V (10 R289); 16 bits; reset DESIGN CHOICE 0, log 3. -/
  ref : Nat
  /-- correction of a curtailed or holding reference, 0.1 V (10 R304); 16 bits; reset 0. -/
  corr : Int
  /-- part of the reference of the local tracker below 0.1 V, 2^-16 of it (10 R293); 16 bits; reset 0. -/
  refF : Int
  /-- reference last posted to kind-6 slots, Q15 of V_FS (10 R289); 16 bits; reset DESIGN CHOICE 0, log 3. -/
  posted : BitVec 16
  /-- V_mpp, 0.1 V (10 R312); 16 bits; reset DESIGN CHOICE 0, log 3. -/
  vMpp : Nat
  /-- P_mpp, mW (10 R312); 32 bits; reset DESIGN CHOICE 0, log 3. -/
  pMpp : Nat
  /-- credit, J, binary32 (10 R296); 32 bits; reset 0. -/
  credit : BitVec 32
  /-- device time of the last sweep (10 R295); 64 bits; reset DESIGN CHOICE 0, log 3. -/
  lastSweep : Nat
  /-- voltage before the sweep in progress, 0.1 V (10 R295); 16 bits; reset 0. -/
  vNow : Nat
  /-- power before the sweep in progress, mW (10 R295); 32 bits; reset 0. -/
  pNow : Nat
  /-- end of the sweep in progress, 0.1 V (10 R295); 16 bits; reset 0. -/
  vEnd : Nat
  /-- voltage of the best pair of the sweep, 0.1 V (10 R295); 16 bits; reset 0. -/
  bestV : Nat
  /-- power of the best pair of the sweep, mW (10 R295); 32 bits; reset 0. -/
  bestP : Nat
  /-- a sweep ordered by PORT_SWEEP waits for the next evaluation (10 R307); 1 bit; reset 0. -/
  ordered : Bool
  /-- voltage results waiting for the nearest current sample: stamp, Q15 (10 R294); results; reset 0 (none). -/
  pendV : List (Nat × Int)
  /-- newest current sample: stamp, Q15 (10 R294); result; reset 0 (none). -/
  lastI : Option (Nat × Int)
  /-- newest voltage result, Q15 (10 R291); 16 bits; reset 0. -/
  vNowQ : Int
  /-- sample pairs since the last fit of the local tracker (10 R293); pairs; reset 0. -/
  fitN : Nat
  /-- sum of their voltages, Q15 (10 R293); exact; reset 0. -/
  fitV : Int
  /-- sum of their powers, Q30 (10 R293); exact; reset 0. -/
  fitP : Int
  /-- sum of the squares of their voltages, Q30 (10 R293); exact; reset 0. -/
  fitVV : Int
  /-- sum of their voltages times powers, Q45 (10 R293); exact; reset 0. -/
  fitVP : Int
  /-- device time of the last evaluation of the local tracker (10 R293); 64 bits; reset 0. -/
  fitAt : Nat
  /-- sample pairs since the last search (10 R295); pairs; reset 0. -/
  secN : Nat
  /-- sum of their powers, mW (10 R295); exact; reset 0. -/
  secP : Nat
  /-- mean port power over the last second at the last search, mW (10 R295); 32 bits; reset 0. -/
  meanP : Nat
  /-- device time at which the dwell of the sweep in progress began (10 R295); 64 bits; reset 0. -/
  dwellAt : Nat
  /-- sample pairs in the dwell (10 R295); pairs; reset 0. -/
  dwellN : Nat
  /-- sum of their powers, mW (10 R295); exact; reset 0. -/
  dwellP : Nat
  /-- integral of max(0, P_now - P) over the sweep in progress, mW ns (10 R295); exact; reset 0. -/
  loss : Nat
  /-- device time up to which that integral has run (10 R295); 64 bits; reset 0. -/
  lossAt : Nat
  /-- device time of the last halving of the map (10 R294); 64 bits; reset 0. -/
  halvedAt : Nat
  /-- phase of the dither square wave (10 R293); 1 bit; reset 0. -/
  refDitherAt : Bool
  /-- part of the sweep: 0 ramp out (or none), 1 move to the best point or back, 2 dwell, 3 the way back after its end, 4 the return inside the sweep (10 R295, R297); 3 bits; reset 0. -/
  phase : Nat
  /-- farthest reference of the sweep in progress, 0.1 V (10 R295); 16 bits; reset 0. -/
  farV : Nat
  /-- device time of the last reference post (10 R289); 64 bits; reset 0. -/
  refAt : Nat
  /-- credit reserved for the sweep in progress, J (10 R307); 32 bits; reset 0. -/
  reserve : BitVec 32
  /-- ticks for which the open-circuit voltage has lain in range (10 R292); ticks; reset 0. -/
  inWin : Nat
  /-- cells that received a sample pair in the sweep in progress (10 R295); columns; reset 0 (none). -/
  crossed : List Nat
  /-- ripple map: cells with a count, rising by index 128 row + column (10 R294); 128 x 128 x 16 bits; reset DESIGN CHOICE 0, log 3. -/
  map : List (Nat × Nat)
deriving DecidableEq, Repr

/-- Pv right after reset (INVENTORY.md, State). -/
def Pv.reset : Pv :=
  { cfg := none,
    mppt := MpptCfg.reset,
    state := 0,
    ref := 0,
    posted := 0,
    vMpp := 0,
    pMpp := 0,
    credit := 0,
    lastSweep := 0,
    vNow := 0,
    pNow := 0,
    vEnd := 0,
    bestV := 0,
    bestP := 0,
    ordered := false,
    pendV := [],
    lastI := none,
    vNowQ := 0,
    refDitherAt := false,
    phase := 0,
    farV := 0,
    refAt := 0,
    reserve := 0,
    inWin := 0,
    crossed := [],
    map := [],
    fitN := 0,
    fitV := 0,
    fitP := 0,
    fitVV := 0,
    fitVP := 0,
    fitAt := 0,
    secN := 0,
    secP := 0,
    meanP := 0,
    dwellAt := 0,
    dwellN := 0,
    dwellP := 0,
    loss := 0,
    lossAt := 0,
    halvedAt := 0,
    refF := 0,
    corr := 0 }

/-- PORT_BAT_CONFIG (R309). -/
structure BatCfg where
  /-- legs primary a, b, secondary a, b (10 R309); 4 x 8 bits; reset none configured. -/
  legs : List Nat
  /-- voltage source kind (10 R309); 2 bits; reset none configured. -/
  vKind : Nat
  /-- voltage input (10 R309); 6 bits; reset none configured. -/
  vIn : Nat
  /-- P_FS, 10 W (10 R309); 16 bits; reset none configured. -/
  pFs : Nat
  /-- generator (10 R309); 5 bits; reset none configured. -/
  gen : Nat
  /-- V_BAT_MIN, V (10 R309); 16 bits; reset none configured. -/
  vMin : Nat
  /-- V_BAT_MAX, V (10 R309); 16 bits; reset none configured. -/
  vMax : Nat
deriving DecidableEq, Repr

/-- BatCfg right after reset (INVENTORY.md, State). -/
def BatCfg.reset : BatCfg :=
  { legs := [],
    vKind := 1,
    vIn := 0,
    pFs := 100,
    gen := 0,
    vMin := 50,
    vMax := 51 }

/-- A battery port (R299..R306). -/
structure Bat where
  /-- configuration (10 R309); struct; reset none. -/
  cfg : Option BatCfg
  /-- enabled by command (10 R302); 1 bit; reset 0 (Off). -/
  enable : Bool
  /-- 0 Off, 1 No BMS, 2 Held at zero, 3 Active, 4 Override (10 R302); 3 bits; reset 0. -/
  state : Nat
  /-- discharge limit in force, mW (10 R301); 32 bits; reset 0. -/
  disMw : Nat
  /-- charge limit in force (magnitude), mW (10 R301); 32 bits; reset 0. -/
  chgMw : Nat
  /-- target, W, binary32 (10 R306); 32 bits; reset 0. -/
  target : BitVec 32
  /-- under the override of step 2 of the DC-link defence (10 R306); 1 bit; reset false. -/
  overridden : Bool
  /-- BAT_SET written for this port alone, W, binary32 (10 R305); 32 bits; reset DESIGN CHOICE 0, log 3. -/
  setW : BitVec 32
deriving DecidableEq, Repr

/-- Bat right after reset (INVENTORY.md, State). -/
def Bat.reset : Bat :=
  { cfg := none,
    enable := false,
    state := 0,
    disMw := 0,
    chgMw := 0,
    target := 0,
    setW := 0,
    overridden := false }

/-- A BMS node (R299, R300). -/
structure Bms where
  /-- port, 0xFF none (10 R307); 8 bits; reset DESIGN CHOICE none, log 3. -/
  port : Nat
  /-- BMS_PERIOD, ms (10 R307); 16 bits; reset 100. -/
  period : Nat
  /-- BMS_TIMEOUT, ms (10 R307); 16 bits; reset 300. -/
  timeout : Nat
  /-- BMS_DISABLE, ms (10 R307); 16 bits; reset 5000. -/
  disable : Nat
  /-- 0 Absent, 1 Joining, 2 Active, 3 Stale, 4 Departed (10 R300); 3 bits; reset 0. -/
  state : Nat
  /-- safety ticks since the last valid message, the tick after it among them (10 R300); ticks; reset 0. -/
  age : Nat
  /-- safety ticks spent Stale (10 R300); ticks; reset 0. -/
  staleTicks : Nat
  /-- charge current limit, 0.1 A (16 R475); 16 bits; reset 0. -/
  iChg : Nat
  /-- discharge current limit, 0.1 A (16 R475); 16 bits; reset 0. -/
  iDis : Nat
  /-- maximum charge voltage, 0.1 V (16 R475); 16 bits; reset 0. -/
  vChg : Nat
  /-- minimum discharge voltage, 0.1 V (16 R475); 16 bits; reset 0. -/
  vDis : Nat
  /-- contactor closed (16 R475); 1 bit; reset 0. -/
  closed : Bool
  /-- sequence of the previous report (16 R475); 8 bits; reset 0 (none). -/
  seq : Option Nat
  /-- bus on which it was first heard (16 R476); 1 bit; reset 0 (none). -/
  bus : Option Nat
  /-- the other-bus event has been posted (16 R476); 1 bit; reset 0. -/
  otherPosted : Bool
deriving DecidableEq, Repr

/-- Bms right after reset (INVENTORY.md, State). -/
def Bms.reset : Bms :=
  { port := 255,
    period := 100,
    timeout := 300,
    disable := 5000,
    state := 0,
    iChg := 0,
    iDis := 0,
    vChg := 0,
    vDis := 0,
    closed := false,
    seq := none,
    bus := none,
    otherPosted := false,
    age := 0,
    staleTicks := 0 }

/-- The ports group (R286..R313). -/
structure Ports where
  /-- PV ports (10 R286); 16; reset Off. -/
  pv : List Pv
  /-- battery ports (10 R286); 4; reset Off. -/
  bat : List Bat
  /-- chopper leg, 0xFF none (10 R286); 8 bits; reset DESIGN CHOICE none, log 3. -/
  chopper : Nat
  /-- PORT_SHARE_CONFIG accepted (10 R310); 1 bit; reset 0. -/
  hasShare : Bool
  /-- PORT_LINK_BASE (10 R310); 6 bits; reset none. -/
  linkBase : Nat
  /-- BAT_MODE (10 R310); 1 bit; reset 0. -/
  batMode : Nat
  /-- VDC_REF, V (10 R310); 16 bits; reset none. -/
  vdcRef : Nat
  /-- PV_HOLD_OFFSET, V (10 R310); 8 bits; reset 10. -/
  holdOff : Nat
  /-- SWEEP_PAR (10 R310); 8 bits; reset 1. -/
  sweepPar : Nat
  /-- P_HOLD, 0.1 % (10 R310); 16 bits; reset 20. -/
  pHold : Nat
  /-- BAT_SET shared by limits, W, binary32 (10 R305); 32 bits; reset DESIGN CHOICE 0, log 3. -/
  batSet : BitVec 32
  /-- the newest BAT_SET write named one port (10 R305); 1 bit; reset 0. -/
  batSetPort : Bool
  /-- curtailment factor, binary32 (10 R304); 32 bits; reset DESIGN CHOICE 1.0, log 3. -/
  k : BitVec 32
  /-- 0 none, 1 battery, 2 grid, 3 PV (10 R312); 2 bits; reset 0. -/
  holder : Nat
  /-- Ppv, W, binary32 (10 R312); 32 bits; reset DESIGN CHOICE 0, log 3. -/
  ppv : BitVec 32
  /-- battery total, W, binary32 (10 R312); 32 bits; reset DESIGN CHOICE 0, log 3. -/
  batTotal : BitVec 32
  /-- device time of the last global search (10 R295); 64 bits; reset 0. -/
  searchAt : Nat
  /-- device time of the last update of k in a holding mode (10 R304); 64 bits; reset 0. -/
  curtAt : Nat
  /-- BMS nodes (10 R299); 64; reset Absent. -/
  bms : List Bms
deriving DecidableEq, Repr

/-- Ports right after reset (INVENTORY.md, State). -/
def Ports.reset : Ports :=
  { pv := (List.replicate 16 Pv.reset),
    bat := (List.replicate 4 Bat.reset),
    chopper := 255,
    hasShare := false,
    linkBase := 0,
    batMode := 0,
    vdcRef := 0,
    holdOff := 10,
    sweepPar := 1,
    pHold := 20,
    batSet := 0,
    batSetPort := false,
    k := 0x3F800000,
    holder := 0,
    ppv := 0,
    batTotal := 0,
    bms := (List.replicate 64 Bms.reset),
    searchAt := 0,
    curtAt := 0 }

/-- PWM_TIMEBASE_CONFIG (R334). -/
structure TbCfg where
  /-- carrier mode (11 R334); 2 bits; reset DESIGN CHOICE 0, log 3. -/
  mode : Nat
  /-- enable (11 R334); 1 bit; reset DESIGN CHOICE 0, log 3. -/
  enable : Bool
  /-- N, counts of 2 ns (11 R334); 19 bits; reset DESIGN CHOICE 500 (lowest accepted), log 3. -/
  n : Nat
  /-- master timebase, 0xFF free (11 R334); 8 bits; reset DESIGN CHOICE free, log 3. -/
  master : Nat
  /-- ratio byte (11 R334); 8 bits; reset DESIGN CHOICE 1, log 3. -/
  ratio : Nat
  /-- offset, 125 ps steps (11 R334); 32 bits; reset DESIGN CHOICE 0, log 3. -/
  offset : Nat
deriving DecidableEq, Repr

/-- TbCfg right after reset (INVENTORY.md, State). -/
def TbCfg.reset : TbCfg :=
  { mode := 0,
    enable := false,
    n := 500,
    master := 255,
    ratio := 1,
    offset := 0 }

/-- The count of D6, on which every timebase counts, against device time (R314, R332). -/
structure D6Clock where
  /-- device time at which its count was last known (11 R314); 64 bits; reset 0. -/
  ref : Nat
  /-- count there, 125 ps steps (a D6 clock edge of the conversion clock is a multiple of 80) (11 R314,R315); 68 bits; reset 0. -/
  count : Int
  /-- frequency on the ring oscillator, kHz, or 0 on a loop (11 R332); 32 bits; reset 0. -/
  khz : Nat
deriving DecidableEq, Repr

/-- D6Clock right after reset (INVENTORY.md, State). -/
def D6Clock.reset : D6Clock :=
  { ref := 0,
    count := 0,
    khz := 0 }

/-- A timebase (R314). -/
structure Tb where
  /-- configuration, as last accepted (11 R334); struct; reset DESIGN CHOICE, log 3. -/
  cfg : TbCfg
  /-- the configuration waits for the next zero (11 R333); 1 bit; reset 0. -/
  pend : Bool
  /-- configuration in force (11 R333); struct; reset DESIGN CHOICE, log 3. -/
  inForce : TbCfg
  /-- a zero of the carrier in force, in D6 steps; none while it does not run (11 R314,R315); 68 bits; reset 0 (none). -/
  zero : Option Int
  /-- D6 step at which the waiting configuration was accepted (11 R333); 68 bits; reset 0. -/
  pendAt : Int
deriving DecidableEq, Repr

/-- Tb right after reset (INVENTORY.md, State). -/
def Tb.reset : Tb :=
  { cfg := TbCfg.reset,
    pend := false,
    inForce := TbCfg.reset,
    zero := none,
    pendAt := 0 }

/-- What PWM_LEG_CONFIG gives a leg (R335). -/
structure LegCfg where
  /-- timebase (11 R335); 3 bits; reset none. -/
  tb : Nat
  /-- 0 compare, 1 peak, 2 valley (11 R335); 2 bits; reset none. -/
  lmode : Nat
  /-- load events 1 valley, 2 peak, 3 both (11 R335); 2 bits; reset none. -/
  loads : Nat
  /-- BOOTSTRAP (11 R335); 1 bit; reset none. -/
  boot : Bool
  /-- comparator, or 0xFF (11 R335); 8 bits; reset none. -/
  cmp : Nat
  /-- DT_H, 125 ps (11 R335); 16 bits; reset none. -/
  dtH : Nat
  /-- DT_L, 125 ps (11 R335); 16 bits; reset none. -/
  dtL : Nat
  /-- MIN_PULSE, 125 ps (11 R335); 16 bits; reset none. -/
  minPulse : Nat
  /-- D_MAX, Q15 (11 R335); 16 bits; reset none. -/
  dMax : Nat
  /-- initial phase, Q15 (11 R335); 16 bits; reset none. -/
  phase : BitVec 16
  /-- BOOT_HOLD, us (11 R335); 16 bits; reset none. -/
  bootHold : Nat
  /-- BOOT_REFRESH, 10 ns (11 R335); 16 bits; reset none. -/
  bootRefresh : Nat
  /-- BOOT_PRECHARGE, us (11 R335); 16 bits; reset none. -/
  bootPre : Nat
deriving DecidableEq, Repr

/-- What the start of a current-mode interval left, before its limit was placed (R322). -/
structure CurStart where
  /-- turn-on instant of the output of the interval start (11 R322); 24 bits; reset none. -/
  on : Int
  /-- that turn-on edge has been placed (11 R322); 1 bit; reset none. -/
  put : Bool
  /-- ideal level at the interval start (11 R322); 1 bit; reset none. -/
  high : Bool
  /-- PWMH ends (peak) or begins (valley) here without a comparator edge (11 R322); 24 bits; reset none. -/
  lim : Nat
  /-- PWMH ends here in any case: the interval end, or d_lim where a refresh is due (11 R330); 24 bits; reset none. -/
  off : Nat
  /-- edges placed by then (11 R322); edges; reset none. -/
  edges : List (Int × Bool × Bool)
deriving DecidableEq, Repr

/-- A PWM leg (R319..R336). -/
structure Leg where
  /-- timebase (11 R335); 3 bits; reset DESIGN CHOICE 0, log 3. -/
  tb : Nat
  /-- a configuration of PWM_LEG_CONFIG is in force (11 R335); 1 bit; reset 0. -/
  hasCfg : Bool
  /-- configuration waiting for the next zero of its timebase (11 R333); struct; reset 0 (none). -/
  next : Option LegCfg
  /-- D6 step at which it was accepted (11 R333); 68 bits; reset 0. -/
  nextAt : Int
  /-- 0 compare, 1 peak, 2 valley (11 R335); 2 bits; reset DESIGN CHOICE 0, log 3. -/
  lmode : Nat
  /-- load events 1 valley, 2 peak, 3 both (11 R335); 2 bits; reset DESIGN CHOICE 1, log 3. -/
  loads : Nat
  /-- BOOTSTRAP (11 R335); 1 bit; reset DESIGN CHOICE 0, log 3. -/
  boot : Bool
  /-- comparator, or 0xFF (11 R335); 8 bits; reset DESIGN CHOICE none, log 3. -/
  cmp : Nat
  /-- DT_H, 125 ps (11 R335); 16 bits; reset DESIGN CHOICE 0, log 3. -/
  dtH : Nat
  /-- DT_L, 125 ps (11 R335); 16 bits; reset DESIGN CHOICE 0, log 3. -/
  dtL : Nat
  /-- MIN_PULSE, 125 ps (11 R335); 16 bits; reset DESIGN CHOICE 0, log 3. -/
  minPulse : Nat
  /-- D_MAX, Q15 (11 R335); 16 bits; reset DESIGN CHOICE 0, log 3. -/
  dMax : Nat
  /-- BOOT_HOLD, us (11 R335); 16 bits; reset DESIGN CHOICE 0, log 3. -/
  bootHold : Nat
  /-- BOOT_REFRESH, 10 ns (11 R335); 16 bits; reset DESIGN CHOICE 0, log 3. -/
  bootRefresh : Nat
  /-- BOOT_PRECHARGE, us (11 R335); 16 bits; reset DESIGN CHOICE 0, log 3. -/
  bootPre : Nat
  /-- role (11 R319); 4 bits; reset 0 (unassigned). -/
  role : Nat
  /-- 0 Disabled .. 4 Test (11 R327); 3 bits; reset 0. -/
  state : Nat
  /-- shadow duty (11 R325); 16 bits; reset DESIGN CHOICE 0, log 3. -/
  shDuty : BitVec 16
  /-- shadow phase (11 R325); 16 bits; reset DESIGN CHOICE 0, log 3. -/
  shPhase : BitVec 16
  /-- the shadow has been written since the last load event (11 R325); 1 bit; reset 0. -/
  shNew : Bool
  /-- device time at which the write completed (11 R326); 64 bits; reset 0. -/
  shAt : Nat
  /-- shadow before the latest write, when an earlier write since the last load event gave it (11 R326); 2 x 16 bits; reset 0 (none). -/
  shOld : Option (BitVec 16 × BitVec 16)
  /-- active duty (11 R325); 16 bits; reset DESIGN CHOICE 0, log 3. -/
  acDuty : BitVec 16
  /-- active phase (11 R325); 16 bits; reset DESIGN CHOICE 0, log 3. -/
  acPhase : BitVec 16
  /-- applied duty (11 R336); 16 bits; reset DESIGN CHOICE 0, log 3. -/
  applied : BitVec 16
  /-- duty set by PWM_DUTY_SET (11 R328); 1 bit; reset 0. -/
  duSet : Bool
  /-- status flags [4:1] (11 R336); 5 bits; reset 0. -/
  flags : BitVec 8
  /-- device time of entry into Starting (11 R329); 64 bits; reset 0. -/
  startedAt : Nat
  /-- the bootstrap precharge has run or none is configured (11 R330); 1 bit; reset 0. -/
  preDone : Bool
  /-- test duty ceiling (11 R333); 16 bits; reset 0. -/
  testCeil : BitVec 16
  /-- device time at which the test ends (11 R333); 64 bits; reset 0. -/
  testEnd : Nat
  /-- end of the last qualifying PWML interval (11 R330); 64 bits; reset 0. -/
  refreshEnd : Nat
  /-- start of the 1 s window of PWM_BOOT_LIMIT (11 R331); 64 bits; reset 0 (none). -/
  bootEvtAt : Option Nat
  /-- start of the 1 s window of PWM_INTERLOCK (11 R320); 64 bits; reset 0 (none). -/
  lockEvtAt : Option Nat
  /-- interlock occurrences (11 R320); 32 bits; reset 0. -/
  lockCount : Nat
  /-- PWMHn (02 R53); 1 pin; reset low. -/
  pwmH : Bool
  /-- PWMLn (02 R53); 1 pin; reset low. -/
  pwmL : Bool
  /-- STOn (02 R53); 1 pin; reset asserted. -/
  sto : Bool
  /-- device time of the latest load event (11 R325); 64 bits; reset 0. -/
  loadAt : Nat
  /-- D6 step of the latest load event (11 R318,R325); 68 bits; reset none seen (-1). -/
  loadD : Int
  /-- length of the interval in progress, 125 ps steps (11 R316); 24 bits; reset 0. -/
  intLen : Nat
  /-- ideal PWMH level, before dead time, at the end of the interval in progress; none while no edge is placed (11 R323); 1 bit; reset none. -/
  ideal : Option Bool
  /-- instant, after dead time, at which the output of that level turns on: 125 ps steps after the latest load event (11 R323); 24 bits; reset 0. -/
  onT : Int
  /-- that turn-on edge has been placed (11 R323); 1 bit; reset 0. -/
  onPut : Bool
  /-- output edges after the latest load event: 125 ps steps, PWMH (true) or PWML, level (11 R316,R323); edges; reset 0 (none). -/
  edges : List (Int × Bool × Bool)
  /-- the current-mode interval in progress, until its comparator edge (11 R322); struct; reset 0 (none). -/
  cur : Option CurStart
  /-- device time of the latest turn-on edge of PWMH before the latest load event (13 R374); 64 bits; reset 0. -/
  onH : Nat
  /-- the same for PWML (13 R374); 64 bits; reset 0. -/
  onL : Nat
  /-- device time at which the refresh limit last acted (11 R336); 64 bits; reset 0 (none). -/
  bootActAt : Option Nat
deriving DecidableEq, Repr

/-- Leg right after reset (INVENTORY.md, State). -/
def Leg.reset : Leg :=
  { tb := 0,
    hasCfg := false,
    lmode := 0,
    loads := 1,
    boot := false,
    cmp := 255,
    dtH := 0,
    dtL := 0,
    minPulse := 0,
    dMax := 0,
    bootHold := 0,
    bootRefresh := 0,
    bootPre := 0,
    role := 0,
    state := 0,
    shDuty := 0,
    shPhase := 0,
    shNew := false,
    shAt := 0,
    acDuty := 0,
    acPhase := 0,
    applied := 0,
    duSet := false,
    flags := 0,
    startedAt := 0,
    preDone := false,
    testCeil := 0,
    testEnd := 0,
    refreshEnd := 0,
    bootEvtAt := none,
    lockEvtAt := none,
    lockCount := 0,
    pwmH := false,
    pwmL := false,
    sto := true,
    loadAt := 0,
    intLen := 0,
    ideal := none,
    onT := 0,
    edges := [],
    onH := 0,
    onL := 0,
    bootActAt := none,
    shOld := none,
    loadD := -1,
    onPut := false,
    cur := none,
    next := none,
    nextAt := 0 }

/-- The PWM group (R314..R337). -/
structure Pwm where
  /-- timebases (11 R314); 8; reset DESIGN CHOICE, log 3. -/
  tbs : List Tb
  /-- legs (11 R319); 48; reset Disabled. -/
  legs : List Leg
  /-- the count of D6 (11 R314); struct; reset 0. -/
  d6 : D6Clock
deriving DecidableEq, Repr

/-- Pwm right after reset (INVENTORY.md, State). -/
def Pwm.reset : Pwm :=
  { tbs := (List.replicate 8 Tb.reset),
    legs := (List.replicate 48 Leg.reset),
    d6 := D6Clock.reset }

/-- A decimator output (R342). -/
structure Decim where
  /-- type; 0 pass-through (12 R342); 2 bits; reset 0 for output 0. -/
  typ : Nat
  /-- delivers results (12 R344); 1 bit; reset output 0 on, outputs 1..3 off (R344). -/
  on : Bool
  /-- aligning leg (12 R343); 8 bits; reset none. -/
  leg : Nat
  /-- ratio D (12 R342); 16 bits; reset 1. -/
  d : Nat
  /-- type, leg and D waiting for the end of the window (12 R344); struct; reset 0 (none). -/
  cfgPend : Option (Nat × Nat × Nat)
  /-- sum of the samples of the window (12 R342); 40 bits; reset 0. -/
  acc : Int
  /-- samples of the window of a sinc3 output, newest first: value, invalid, clipped (12 R342); samples; reset 0 (none). -/
  hist : List (Int × Bool × Bool)
  /-- load event of the aligning leg that the samples have not passed yet (12 R343); 64 bits; reset 0 (none). -/
  alignAt : Option Nat
  /-- a load event of the aligning leg has placed the windows (12 R343, R344); 1 bit; reset false. -/
  placed : Bool
  /-- aperture of the last sample of the window (12 R342); 64 bits; reset 0. -/
  lastAt : Nat
  /-- samples in the window (12 R342); 16 bits; reset 0. -/
  cnt : Nat
  /-- a sample of the window is invalid (12 R344); 1 bit; reset 0. -/
  bad : Bool
  /-- a sample of the window is clipped (12 R344); 1 bit; reset 0. -/
  clip : Bool
  /-- newest result, Q15 (12 R340); 16 bits; reset DESIGN CHOICE 0, log 3. -/
  val : BitVec 16
  /-- its valid flag (12 R340); 1 bit; reset DESIGN CHOICE 0, log 3. -/
  valid : Bool
  /-- its clipped flag (12 R340); 1 bit; reset DESIGN CHOICE 0, log 3. -/
  clipped : Bool
  /-- its aperture stamp (12 R342); 64 bits; reset DESIGN CHOICE 0, log 3. -/
  stamp : Nat
  /-- results that a pass still to come may read, newest first: aperture stamp, value, valid (06 R158); results; reset 0 (none). -/
  past : List (Nat × Int × Bool)
deriving DecidableEq, Repr

/-- Decim right after reset (INVENTORY.md, State). -/
def Decim.reset : Decim :=
  { typ := 0,
    on := false,
    leg := 255,
    d := 1,
    cfgPend := none,
    acc := 0,
    hist := [],
    alignAt := none,
    lastAt := 0,
    cnt := 0,
    bad := false,
    clip := false,
    val := 0,
    valid := false,
    clipped := false,
    stamp := 0,
    past := [],
    placed := false }

/-- A pipeline input (R345..R352, R363). -/
structure Ain where
  /-- enabled (12 R363); 1 bit; reset DESIGN CHOICE 0, log 3. -/
  enable : Bool
  /-- STUCK (12 R345); 1 bit; reset 1. -/
  stuck : Bool
  /-- WIN_LO (12 R345); 16 bits; reset -8,192. -/
  winLo : Int
  /-- WIN_HI (12 R345); 16 bits; reset 8,191. -/
  winHi : Int
  /-- physical full scale, binary32 (12 R363); 32 bits; reset DESIGN CHOICE 1.0, log 3. -/
  fs : BitVec 32
  /-- UNIT (12 R363); 16 bits; reset DESIGN CHOICE 0, log 3. -/
  unit : Nat
  /-- active converter (12 R338); 5 bits; reset AIN i is served by converter i (R338). -/
  conv : Nat
  /-- decimator outputs (12 R342); 4; reset output 0 pass-through, 1..3 off. -/
  outs : List Decim
  /-- consecutive out-of-range samples (12 R345); 16 bits; reset 0. -/
  rangeCnt : Nat
  /-- consecutive samples of one code (12 R345); 16 bits; reset 0. -/
  stuckCnt : Nat
  /-- newest code (12 R340); 14 bits; reset DESIGN CHOICE 0, log 3. -/
  code : Int
  /-- aperture of the newest code (12 R340); 64 bits; reset 0. -/
  lastAt : Nat
  /-- samples marked invalid (12 R346); 1 bit; reset 0. -/
  marked : Bool
  /-- first aperture marked invalid (12 R348); 64 bits; reset 0. -/
  markedAt : Nat
  /-- path failed (12 R360); 1 bit; reset 0. -/
  pathFail : Bool
  /-- range check suspended (12 R347); 1 bit; reset 0. -/
  suspRange : Bool
  /-- stuck check suspended (12 R347); 1 bit; reset 0. -/
  suspStuck : Bool
  /-- time from which the suspended range condition has been false (12 R347); 64 bits; reset 0 (none). -/
  okRange : Option Nat
  /-- time from which the suspended stuck condition has been false (12 R347); 64 bits; reset 0 (none). -/
  okStuck : Option Nat
  /-- stuck flag with no spare: invalid while the last 512 samples hold one code (12 R349); 1 bit; reset 0. -/
  stuckOut : Bool
  /-- apertures of the clipped samples of the last 1 s, newest first (12 R341); stamps; reset 0 (none). -/
  clips : List Nat
  /-- start of the SENSE_CLIP window (12 R341); 64 bits; reset 0 (none). -/
  clipAt : Option Nat
  /-- last shadow offset (12 R351); 16 bits; reset 0. -/
  shOff : Int
  /-- last shadow gain difference (12 R351); 16 bits; reset 0. -/
  shGain : Int
deriving DecidableEq, Repr

/-- Ain right after reset (INVENTORY.md, State). -/
def Ain.reset : Ain :=
  { enable := false,
    stuck := true,
    winLo := (-8192),
    winHi := 8191,
    fs := 0x3F800000,
    unit := 0,
    conv := 0,
    outs := ({ Decim.reset with on := true } :: List.replicate 3 Decim.reset),
    rangeCnt := 0,
    stuckCnt := 0,
    code := 0,
    lastAt := 0,
    marked := false,
    markedAt := 0,
    pathFail := false,
    suspRange := false,
    suspStuck := false,
    okRange := none,
    okStuck := none,
    stuckOut := false,
    clips := [],
    clipAt := none,
    shOff := 0,
    shGain := 0 }

/-- A Kirchhoff group (R345). -/
structure Kir where
  /-- enabled (12 R362); 1 bit; reset 0 (no group). -/
  enable : Bool
  /-- AINs (12 R362); 2..4 x 8 bits; reset none. -/
  members : List Nat
  /-- signs (12 R362); 4 bits; reset none. -/
  signs : Nat
  /-- K_THR (12 R362); 16 bits; reset none. -/
  thr : Nat
  /-- consecutive violating sample instants (12 R345); 16 bits; reset 0. -/
  cnt : Nat
  /-- aperture of the sample instant counted last (12 R345); 64 bits; reset 0 (none). -/
  seenAt : Option Nat
  /-- check suspended (12 R347); 1 bit; reset 0. -/
  suspended : Bool
  /-- time from which the suspended condition has been false (12 R347); 64 bits; reset 0 (none). -/
  okSince : Option Nat
deriving DecidableEq, Repr

/-- Kir right after reset (INVENTORY.md, State). -/
def Kir.reset : Kir :=
  { enable := false,
    members := [],
    signs := 0,
    thr := 1,
    cnt := 0,
    suspended := false,
    okSince := none,
    seenAt := none }

/-- A housekeeping input (R354..R359, R364). -/
structure Hk where
  /-- enabled (12 R364); 1 bit; reset DESIGN CHOICE 0, log 3. -/
  enable : Bool
  /-- urgent (12 R364); 1 bit; reset DESIGN CHOICE 0, log 3. -/
  urgent : Bool
  /-- logical unit (12 R364); 3 bits; reset DESIGN CHOICE 0, log 3. -/
  unit : Nat
  /-- start source (12 R355); 2 bits; reset DESIGN CHOICE 0, log 3. -/
  source : Nat
  /-- timer period, us (12 R364); 32 bits; reset DESIGN CHOICE 0, log 3. -/
  period : Nat
  /-- timebase (12 R364); 3 bits; reset DESIGN CHOICE 0, log 3. -/
  tb : Nat
  /-- event (12 R364); 1 bit; reset DESIGN CHOICE 0, log 3. -/
  event : Nat
  /-- divider (12 R364); 9 bits; reset DESIGN CHOICE 1, log 3. -/
  divider : Nat
  /-- delay, 10 ns (12 R364); 16 bits; reset DESIGN CHOICE 0, log 3. -/
  delay : Nat
  /-- WIN_LO (12 R364); 12 bits; reset DESIGN CHOICE 0, log 3. -/
  winLo : Nat
  /-- WIN_HI (12 R364); 12 bits; reset DESIGN CHOICE 4095, log 3. -/
  winHi : Nat
  /-- UNIT (12 R364); 16 bits; reset DESIGN CHOICE 0, log 3. -/
  punit : Nat
  /-- physical full scale (12 R364); 32 bits; reset DESIGN CHOICE 1.0, log 3. -/
  fs : BitVec 32
  /-- newest code (12 R354); 12 bits; reset DESIGN CHOICE 0, log 3. -/
  code : Nat
  /-- its validity (12 R354); 1 bit; reset DESIGN CHOICE 0, log 3. -/
  valid : Bool
  /-- its aperture stamp (12 R354); 64 bits; reset DESIGN CHOICE 0, log 3. -/
  stamp : Nat
  /-- request time of the pending request (12 R356); 64 bits; reset 0 (none). -/
  pending : Option Nat
  /-- the pending request is a SENSE_HK_READ's alone, which is not urgent (12 R362); 1 bit; reset 0. -/
  pendRead : Bool
  /-- device time at which it was last overtaken (12 R366); 64 bits; reset 0 (none). -/
  overtakenAt : Option Nat
  /-- device time up to which timer requests have been taken (12 R355); 64 bits; reset 0. -/
  reqAt : Nat
  /-- D6 step of the PWM event that made the last request of source 2 (12 R355); 64 bits; reset 0 (none). -/
  evAt : Option Int
  /-- consecutive results outside the window (12 R359); 8 bits; reset 0. -/
  outCnt : Nat
  /-- consecutive results inside while suspended (12 R359); 8 bits; reset 0. -/
  inCnt : Nat
  /-- range check suspended (12 R359); 1 bit; reset 0. -/
  suspended : Bool
  /-- results marked invalid (12 R359); 1 bit; reset 0. -/
  marked : Bool
  /-- path failed (12 R360); 1 bit; reset 0. -/
  pathFail : Bool
deriving DecidableEq, Repr

/-- Hk right after reset (INVENTORY.md, State). -/
def Hk.reset : Hk :=
  { enable := false,
    urgent := false,
    unit := 0,
    source := 0,
    period := 0,
    tb := 0,
    event := 0,
    divider := 1,
    delay := 0,
    winLo := 0,
    winHi := 4095,
    punit := 0,
    fs := 0x3F800000,
    code := 0,
    valid := false,
    stamp := 0,
    pending := none,
    pendRead := false,
    overtakenAt := none,
    reqAt := 0,
    outCnt := 0,
    inCnt := 0,
    suspended := false,
    marked := false,
    pathFail := false,
    evAt := none }

/-- A SAR unit (R354..R359). -/
structure Sar where
  /-- logical unit; 0xFF spare, 0xFE retired (12 R366); 8 bits; reset unit u serves logical u, unit 5 is the spare (DESIGN CHOICE which, log 3). -/
  logical : Nat
  /-- conversion in progress: HK number, or 0x100 for a test conversion (12 R354); 8 bits; reset 0 (none). -/
  busy : Option Nat
  /-- its start (12 R354); 64 bits; reset 0. -/
  startAt : Nat
  /-- conversion finished whose result is still to be delivered: HK number or 0x100, and its start (12 R354); 72 bits; reset 0 (none). -/
  conv : Option (Nat × Nat)
  /-- a test conversion is due (12 R358); 1 bit; reset 0. -/
  testDue : Bool
  /-- consecutive test conversions outside tolerance (12 R359); 2 bits; reset 0. -/
  failCnt : Nat
  /-- results invalid until a test conversion passes (12 R359); 1 bit; reset 0. -/
  marked : Bool
  /-- waits of the last 1 s: device time of the start, wait in ns (12 R366); list; reset 0 (none). -/
  waits : List (Nat × Nat)
  /-- whether the latest test conversion of the present level lay within tolerance (12 R359); 1 bit; reset 0 (none). -/
  lastIn : Option Bool
  /-- HK inputs whose range flag waits for the test conversions (12 R359); list; reset 0 (none). -/
  probe : List Nat
  /-- the due test conversion goes ahead of every queue (12 R359); 1 bit; reset 0. -/
  first : Bool
  /-- continuous input converted last (12 R355); 6 bits; reset 0. -/
  lastHk : Nat
deriving DecidableEq, Repr

/-- Sar right after reset (INVENTORY.md, State). -/
def Sar.reset : Sar :=
  { logical := 255,
    busy := none,
    startAt := 0,
    testDue := false,
    failCnt := 0,
    marked := false,
    waits := [],
    lastIn := none,
    probe := [],
    first := false,
    lastHk := 0,
    conv := none }

/-- A confirmation (R347, R350). -/
structure Confirm where
  /-- suspect AINs, ascending (12 R347); list; reset none. -/
  ains : List Nat
  /-- 1 range, 2 stuck, 3 Kirchhoff, 4 shadow (12 R367); 3 bits; reset none. -/
  check : Nat
  /-- Kirchhoff group, or 0xFF (12 R367); 8 bits; reset none. -/
  group : Nat
  /-- aperture from which samples are invalid (12 R348); 64 bits; reset none. -/
  since : Nat
  /-- spare converter in use (12 R347); 5 bits; reset none. -/
  spare : Option Nat
  /-- it was the shadowing spare (12 R347); 1 bit; reset none. -/
  wasShadow : Bool
  /-- shadowing spare of an arbitrated disagreement (12 R352); 5 bits; reset none. -/
  shadow : Option Nat
  /-- every AIN whose samples the flag marked (12 R347); list; reset none. -/
  all : List Nat
deriving DecidableEq, Repr

/-- Confirm right after reset (INVENTORY.md, State). -/
def Confirm.reset : Confirm :=
  { ains := [],
    check := 0,
    group := 255,
    since := 0,
    spare := none,
    wasShadow := false,
    all := [],
    shadow := none }

/-- One entry of a path test (R365). -/
structure PathEntry where
  /-- 1 AIN, 2 HK (12 R365); 2 bits; reset none. -/
  kind : Nat
  /-- input (12 R365); 8 bits; reset none. -/
  input : Nat
  /-- L1 (12 R365); 12 bits; reset none. -/
  l1 : Nat
  /-- L2 (12 R365); 12 bits; reset none. -/
  l2 : Nat
  /-- settle time, us (12 R365); 16 bits; reset none. -/
  settle : Nat
  /-- expected difference (12 R365); 16 bits; reset none. -/
  expect : Int
  /-- tolerance, % (12 R365); 8 bits; reset none. -/
  tol : Nat
deriving DecidableEq, Repr

/-- PathEntry right after reset (INVENTORY.md, State). -/
def PathEntry.reset : PathEntry :=
  { kind := 1,
    input := 0,
    l1 := 0,
    l2 := 0,
    settle := 10,
    expect := 0,
    tol := 1 }

/-- A SENSE_HK_READ in progress (R362). -/
structure HkRead where
  /-- its eight entries (12 R362); 1..8; reset none. -/
  hks : List Nat
  /-- inputs still to be converted (12 R362); list; reset none. -/
  wait : List Nat
  /-- device time at which its requests were queued (12 R362); 64 bits; reset none. -/
  since : Nat
  /-- its reply, without data (12 R362); reply; reset none. -/
  reply : DurReply
deriving DecidableEq, Repr

/-- HkRead right after reset (INVENTORY.md, State). -/
def HkRead.reset : HkRead :=
  { hks := [],
    wait := [],
    reply := DurReply.reset,
    since := 0 }

/-- The sensing group (R338..R367). -/
structure Sense where
  /-- converter roles: 0 active, 1 free spare, 2 shadowing, 3 confirming, 4 retired (12 R366); 26 x 3 bits; reset 24 and 25 spares (R338), one free and one shadowing (R351). -/
  roles : List Nat
  /-- AIN of each converter, or 0xFF (12 R366); 26 x 8 bits; reset R338; shadowing starts at AIN 0, DESIGN CHOICE, log 3. -/
  convAin : List Nat
  /-- supply switch of each converter (12 R348); 26 switches; reset on. -/
  convOn : List Bool
  /-- device time at which the supply switch of a retired converter opens (12 R348); 26 x 64 bits; reset 0. -/
  convOffAt : List Nat
  /-- supply switch of each SAR unit closed (01 R32); 6 bits; reset 1. -/
  sarOn : (List Bool)
  /-- gain correction in force, 0.001 % (12 R366); 26 x 16 bits; reset DESIGN CHOICE 0, log 3. -/
  gainCorr : List Int
  /-- offset correction of each pipeline converter, codes (12 R361); 26 x 16 bits; reset DESIGN CHOICE 0, log 3. -/
  offCorr : List Int
  /-- aperture trim of each pipeline converter, 2 ps (12 R361); 26 x 8 bits; reset DESIGN CHOICE 0, log 3. -/
  trims : List Int
  /-- offset correction of each SAR unit, codes (12 R361); 6 x 16 bits; reset DESIGN CHOICE 0, log 3. -/
  sarOff : List Int
  /-- gain correction of each SAR unit, 0.001 % (12 R361); 6 x 16 bits; reset DESIGN CHOICE 0, log 3. -/
  sarGain : List Int
  /-- pipeline inputs (12 R345); 24; reset delivered values. -/
  ains : List Ain
  /-- Kirchhoff groups (12 R345); 8; reset none. -/
  kirs : List Kir
  /-- CONF_TOL (12 R362); 16 bits; reset 32. -/
  confTol : Nat
  /-- SH_OFFSET (12 R362); 16 bits; reset 16. -/
  shOffset : Nat
  /-- SH_GAIN (12 R362); 16 bits; reset 50. -/
  shGain : Nat
  /-- shadowing enabled (12 R362); 1 bit; reset 1. -/
  shEnable : Bool
  /-- shadow cycles completed (12 R366); 32 bits; reset 0. -/
  shCycles : Nat
  /-- the second half of the visit runs (12 R351); 1 bit; reset 0. -/
  shSecond : Bool
  /-- AIN at which shadowing goes on after a visit was abandoned (12 R353); 5 bits; reset 0. -/
  shNext : Nat
  /-- confirmation in progress (12 R347); struct; reset 0 (none). -/
  confirm : Option Confirm
  /-- flags waiting for a confirmation (12 R350); queue; reset 0 (none). -/
  queue : List Confirm
  /-- housekeeping inputs (12 R354); 64; reset DESIGN CHOICE off, log 3. -/
  hks : List Hk
  /-- SAR units (12 R354); 6; reset 5 serving, 1 spare. -/
  sars : List Sar
  /-- step i of the test DAC (12 R358); 4 bits; reset 0. -/
  dacStep : Nat
  /-- device time of the last step of the test DAC (12 R358); 64 bits; reset 0. -/
  dacAt : Nat
  /-- SAR unit whose test-bus fault has suspended the test verdicts (12 R359); 3 bits; reset 0 (none). -/
  testSusp : Option Nat
  /-- device time of the last correction of the converters (12 R361); 64 bits; reset 0. -/
  calAt : Nat
  /-- TDAC pin: none high impedance, else the DAC code (12 R358); 1 pin; reset high impedance (R53). -/
  tdac : Option Nat
  /-- start-up path list (12 R365); 1..16; reset DESIGN CHOICE none, log 3. -/
  pathList : List PathEntry
  /-- SENSE_HK_READ commands whose conversions are not complete (12 R362); queue; reset 0 (none). -/
  hkReads : List HkRead
  /-- entries of the running path test still to do (12 R360); 1..16; reset 0 (none). -/
  pathRun : List PathEntry
  /-- reply of the running path test, growing with each entry (12 R360); reply; reset 0 (none). -/
  pathReply : Option DurReply
  /-- entry of the path test in progress (12 R360); 5 bits; reset 0. -/
  pathIdx : Nat
  /-- the entry is at its second level (12 R360); 1 bit; reset 0. -/
  pathHi : Bool
  /-- device time at which the present level was driven (12 R360); 64 bits; reset 0. -/
  pathAt : Nat
  /-- samples or results averaged at the present level (12 R360); 9 bits; reset 0. -/
  pathN : Nat
  /-- their sum, codes (12 R360); exact; reset 0. -/
  pathAcc : Int
  /-- the sum at the first level, codes (12 R360); exact; reset 0. -/
  pathLow : Int
  /-- measured differences of the entries done, codes (12 R360); list; reset 0 (none). -/
  pathDiffs : List Int
deriving DecidableEq, Repr

/-- Sense right after reset (INVENTORY.md, State). -/
def Sense.reset : Sense :=
  { roles := (List.replicate 24 0 ++ [1, 2]),
    convAin := ((List.range 24) ++ [255, 0]),
    convOn := (List.replicate 26 true),
    gainCorr := (List.replicate 26 0),
    ains := ((List.range 24).map fun i => { Ain.reset with conv := i }),
    kirs := (List.replicate 8 Kir.reset),
    confTol := 32,
    shOffset := 16,
    shGain := 50,
    shEnable := true,
    shCycles := 0,
    shSecond := false,
    shNext := 0,
    confirm := none,
    queue := [],
    hks := (List.replicate 64 Hk.reset),
    sars := ((List.range 6).map fun i => { Sar.reset with logical := if i < 5 then i else 255 }),
    dacStep := 0,
    tdac := none,
    pathList := [],
    hkReads := [],
    pathRun := [],
    pathReply := none,
    sarOn := (List.replicate 6 true),
    pathIdx := 0,
    pathHi := false,
    pathAt := 0,
    pathN := 0,
    pathAcc := 0,
    pathLow := 0,
    pathDiffs := [],
    dacAt := 0,
    calAt := 0,
    testSusp := none,
    offCorr := List.replicate 26 0,
    trims := List.replicate 26 0,
    sarOff := List.replicate 6 0,
    sarGain := List.replicate 6 0,
    convOffAt := List.replicate 26 0 }

/-- A protection group (R380..R388, R394). -/
structure PGroup where
  /-- kind: 0 soft, 1 hard (13 R394); 1 bit; reset DESIGN CHOICE soft, log 3. -/
  hard : Bool
  /-- legs of the group, ascending (13 R394); 48 bits; reset DESIGN CHOICE none, log 3. -/
  legs : List Nat
  /-- T_SOFT1, 10 ns (13 R394); 16 bits; reset DESIGN CHOICE lowest, log 3. -/
  tSoft1 : Nat
  /-- T_INNER, 10 ns (13 R394); 16 bits; reset DESIGN CHOICE lowest, log 3. -/
  tInner : Nat
  /-- RETRIES (13 R394); 4 bits; reset DESIGN CHOICE lowest, log 3. -/
  retries : Nat
  /-- T_RETRY, ms (13 R394); 16 bits; reset DESIGN CHOICE lowest, log 3. -/
  tRetry : Nat
  /-- RETRY_CLEAR, s (13 R394); 16 bits; reset DESIGN CHOICE lowest, log 3. -/
  retryClear : Nat
  /-- 0 Armed, 1 Reacting, 2 Waiting, 3 Latched (13 R386); 2 bits; reset 0. -/
  state : Nat
  /-- tries (13 R386); 8 bits; reset 0. -/
  tries : Nat
  /-- pending: Latch (13 R386); 1 bit; reset 0. -/
  latchPend : Bool
  /-- retry_at, ns (13 R386); 64 bits; reset 0. -/
  retryAt : Nat
  /-- cause of the last trip (13 R398); 8 bits; reset 0. -/
  lastCause : Nat
  /-- SOURCE of the last trip (13 R398); 16 bits; reset 0. -/
  lastSource : Nat
  /-- device time since which no trip has come while Armed (13 R386); 64 bits; reset 0. -/
  armedAt : Nat
  /-- a soft reaction waits for T_SOFT1 (13 R381); 1 bit; reset 0. -/
  step1 : Bool
  /-- device time at which the reaction began (13 R381); 64 bits; reset 0. -/
  reactAt : Nat
deriving DecidableEq, Repr

/-- PGroup right after reset (INVENTORY.md, State). -/
def PGroup.reset : PGroup :=
  { hard := false,
    legs := [],
    tSoft1 := 10,
    tInner := 0,
    retries := 0,
    tRetry := 1,
    retryClear := 1,
    state := 0,
    tries := 0,
    latchPend := false,
    retryAt := 0,
    lastCause := 0,
    lastSource := 0,
    armedAt := 0,
    step1 := false,
    reactAt := 0 }

/-- A fault input (R368, R395). -/
structure Flt where
  /-- 0 digital, 1 Class S, 2 Class C, 3 none (13 R368); 2 bits; reset DESIGN CHOICE 3, log 3. -/
  kind : Nat
  /-- active level (13 R395); 1 bit; reset DESIGN CHOICE low, log 3. -/
  high : Bool
  /-- filter, 2 ns (13 R395); 8 bits; reset DESIGN CHOICE 0, log 3. -/
  filter : Nat
  /-- logical comparator (13 R395); 8 bits; reset DESIGN CHOICE none, log 3. -/
  cmp : Nat
  /-- Kelvin ground (13 R395); 3 bits; reset DESIGN CHOICE 0, log 3. -/
  ground : Nat
  /-- burden (13 R395); 2 bits; reset DESIGN CHOICE 0, log 3. -/
  burden : Nat
  /-- asserted (13 R398); 1 bit; reset fault present (R55). -/
  asserted : Bool
  /-- ready (13 R398); 1 bit; reset not ready (R55). -/
  ready : Bool
deriving DecidableEq, Repr

/-- Flt right after reset (INVENTORY.md, State). -/
def Flt.reset : Flt :=
  { kind := 3,
    high := false,
    filter := 0,
    cmp := 255,
    ground := 0,
    burden := 0,
    asserted := true,
    ready := false }

/-- A logical comparator (R370..R377, R396). -/
structure Cmp where
  /-- 0 off, 1 CMP_IN, 2 FLT (13 R396); 2 bits; reset DESIGN CHOICE off, log 3. -/
  input : Nat
  /-- polarity (13 R396); 1 bit; reset DESIGN CHOICE over, log 3. -/
  under : Bool
  /-- latch mode (13 R376); 2 bits; reset DESIGN CHOICE 0, log 3. -/
  latch : Nat
  /-- action, 3 current mode (13 R377); 2 bits; reset DESIGN CHOICE 0, log 3. -/
  action : Nat
  /-- input index (13 R396); 6 bits; reset DESIGN CHOICE 0, log 3. -/
  index : Nat
  /-- Kelvin ground (13 R396); 3 bits; reset DESIGN CHOICE 0, log 3. -/
  ground : Nat
  /-- threshold code (13 R396); 10 bits; reset DESIGN CHOICE 0, log 3. -/
  code : Nat
  /-- hysteresis code (13 R396); 2 bits; reset DESIGN CHOICE 0, log 3. -/
  hyst : Nat
  /-- deglitch (13 R396); 5 bits; reset DESIGN CHOICE 0, log 3. -/
  deglitch : Nat
  /-- group for action 1 (13 R396); 3 bits; reset DESIGN CHOICE 0, log 3. -/
  group : Nat
  /-- blanking leg (13 R396); 8 bits; reset DESIGN CHOICE none, log 3. -/
  blankLeg : Nat
  /-- blanking edges (13 R396); 2 bits; reset DESIGN CHOICE none, log 3. -/
  blankEdges : Nat
  /-- BLANK_NS, 2 ns (13 R396); 11 bits; reset DESIGN CHOICE 0, log 3. -/
  blankNs : Nat
  /-- ramp leg (13 R396); 8 bits; reset DESIGN CHOICE none, log 3. -/
  rampLeg : Nat
  /-- slope, 0.1 mV/us (13 R396); 12 bits; reset DESIGN CHOICE 0, log 3. -/
  slope : Nat
  /-- threshold code in force (13 R398); 10 bits; reset DESIGN CHOICE 0, log 3. -/
  inForce : Nat
  /-- mapped cell (13 R370); 6 bits; reset none (unconfigured); cell c at Ready (R370). -/
  cell : Option Nat
  /-- main output asserted (13 R398); 1 bit; reset asserted (R55). -/
  main : Bool
  /-- hard output asserted (held) (13 R398); 1 bit; reset 0. -/
  hard : Bool
  /-- live state of the main cell (13 R376); 1 bit; reset asserted (R55). -/
  live : Bool
  /-- ready (13 R55); 1 bit; reset not ready (R55). -/
  ready : Bool
  /-- device time from which the main cell has been asserted without a break (13 R379); 64 bits; reset 0. -/
  mainAt : Nat
  /-- suspect (13 R379); 1 bit; reset 0. -/
  suspect : Bool
  /-- under test (13 R398); 1 bit; reset 0. -/
  underTest : Bool
  /-- start of the CMP_EVENT window (13 R377); 64 bits; reset 0 (none). -/
  evtAt : Option Nat
deriving DecidableEq, Repr

/-- Cmp right after reset (INVENTORY.md, State). -/
def Cmp.reset : Cmp :=
  { input := 0,
    under := false,
    latch := 0,
    action := 0,
    index := 0,
    ground := 0,
    code := 0,
    hyst := 0,
    deglitch := 0,
    group := 0,
    blankLeg := 255,
    blankEdges := 0,
    blankNs := 0,
    rampLeg := 255,
    slope := 0,
    inForce := 0,
    cell := none,
    main := true,
    hard := false,
    live := true,
    ready := false,
    mainAt := 0,
    suspect := false,
    underTest := false,
    evtAt := none }

/-- A digital window monitor (R378, R397). -/
structure Mon where
  /-- configured (13 R397); 1 bit; reset 0. -/
  hasCfg : Bool
  /-- action (13 R397); 2 bits; reset none. -/
  action : Nat
  /-- source: 0 AIN, 1 HK (13 R397); 1 bit; reset none. -/
  hk : Bool
  /-- input (13 R397); 6 bits; reset none. -/
  input : Nat
  /-- decimator output (13 R397); 2 bits; reset none. -/
  out : Nat
  /-- TRIP_LO (13 R397); 16 bits; reset none. -/
  tripLo : Int
  /-- REL_LO (13 R397); 16 bits; reset none. -/
  relLo : Int
  /-- REL_HI (13 R397); 16 bits; reset none. -/
  relHi : Int
  /-- TRIP_HI (13 R397); 16 bits; reset none. -/
  tripHi : Int
  /-- N (13 R397); 8 bits; reset none. -/
  n : Nat
  /-- group (13 R397); 3 bits; reset none. -/
  group : Nat
  /-- partner comparator (13 R397); 8 bits; reset none. -/
  partner : Nat
  /-- count (13 R398); 8 bits; reset 0. -/
  count : Nat
  /-- past the outer limits (13 R398); 1 bit; reset 0. -/
  past : Bool
  /-- ready (13 R398); 1 bit; reset out of window (R55). -/
  ready : Bool
  /-- last result invalid (13 R398); 1 bit; reset 0. -/
  lastInvalid : Bool
  /-- device time from which results lie inside the inner limits (13 R379); 64 bits; reset 0 (none). -/
  insideAt : Option Nat
  /-- last value, Q15 (13 R398); 16 bits; reset DESIGN CHOICE 0, log 3. -/
  val : Int
  /-- has acted and not come back to ready (13 R378); 1 bit; reset 0. -/
  acted : Bool
deriving DecidableEq, Repr

/-- Mon right after reset (INVENTORY.md, State). -/
def Mon.reset : Mon :=
  { hasCfg := false,
    action := 0,
    hk := false,
    input := 0,
    out := 0,
    tripLo := 0,
    relLo := 0,
    relHi := 0,
    tripHi := 0,
    n := 1,
    group := 0,
    partner := 255,
    count := 0,
    past := false,
    ready := false,
    lastInvalid := false,
    insideAt := none,
    val := 0,
    acted := false }

/-- The protection group (R368..R399). -/
structure Prot where
  /-- protection groups (13 R386); 8; reset Armed. -/
  groups : List PGroup
  /-- FLT inputs (13 R368); 48; reset fault present. -/
  flts : List Flt
  /-- logical comparators (13 R370); 52; reset asserted, not ready. -/
  cmps : List Cmp
  /-- healthy cells (13 R370); 52; reset DESIGN CHOICE all healthy, log 3. -/
  cellOk : List Bool
  /-- cell supply switches (13 R390); 52 switches; reset on. -/
  cellOn : List Bool
  /-- device time at which the supply switch of a retired cell opens (13 R390); 52 x 64 bits; reset 0. -/
  cellOffAt : List Nat
  /-- cell that the health record names for each logical comparator (13 R370); 52 x 6 bits; reset comparator c on cell c (R370). -/
  named : List Nat
  /-- window monitors (13 R378); 32; reset off. -/
  mons : List Mon
  /-- cell next in the background test (13 R389); 6 bits; reset 0. -/
  testCell : Nat
  /-- suspect comparator to be tested at once (13 R379); 6 bits; reset 0 (none). -/
  testNext : Option Nat
  /-- background test cycles completed (13 R398); 32 bits; reset 0. -/
  testCycles : Nat
  /-- comparators of the running in-place test (13 R392); 1..52; reset 0 (none). -/
  cmpTest : List Nat
  /-- its reply (13 R392); reply; reset 0 (none). -/
  cmpReply : Option DurReply
  /-- D6 cycle of the latest trip, for TIE (13 R383); 64 bits; reset 0 (none). -/
  tripStamp : Option Nat
deriving DecidableEq, Repr

/-- Prot right after reset (INVENTORY.md, State). -/
def Prot.reset : Prot :=
  { groups := (List.replicate 8 PGroup.reset),
    flts := (List.replicate 48 Flt.reset),
    cmps := (List.replicate 52 Cmp.reset),
    cellOk := (List.replicate 52 true),
    cellOn := (List.replicate 52 true),
    mons := (List.replicate 32 Mon.reset),
    testCell := 0,
    testNext := none,
    testCycles := 0,
    cmpTest := [],
    cmpReply := none,
    tripStamp := none,
    named := List.range 52,
    cellOffAt := List.replicate 52 0 }

/-- A recorder lane (R400..R402). -/
structure Lane where
  /-- 0 off, 1 decimator output, 2 HK (14 R400); 2 bits; reset DESIGN CHOICE off, log 3. -/
  kind : Nat
  /-- input (14 R420); 6 bits; reset DESIGN CHOICE 0, log 3. -/
  input : Nat
  /-- decimator output (14 R420); 2 bits; reset DESIGN CHOICE 0, log 3. -/
  out : Nat
  /-- capture role (14 R400); 1 bit; reset DESIGN CHOICE 0, log 3. -/
  cap : Bool
  /-- histogram role (14 R400); 1 bit; reset DESIGN CHOICE 0, log 3. -/
  hist : Bool
  /-- stream role (14 R400); 1 bit; reset DESIGN CHOICE 0, log 3. -/
  stream : Bool
  /-- lane delay, ns (14 R402); 32 bits; reset DESIGN CHOICE 0, log 3. -/
  delay : Int
  /-- last valid value, Q15 (14 R406); 16 bits; reset 0 (none). -/
  last : Option Int
  /-- its corrected stamp (14 R406); 64 bits; reset DESIGN CHOICE 0, log 3. -/
  lastAt : Int
  /-- an invalid sample has come since (14 R406); 1 bit; reset 0. -/
  gap : Bool
  /-- crossing found by the running skew calibration (14 R419); 64 bits; reset 0 (none). -/
  skewAt : Option Int
deriving DecidableEq, Repr

/-- Lane right after reset (INVENTORY.md, State). -/
def Lane.reset : Lane :=
  { kind := 0,
    input := 0,
    out := 0,
    cap := false,
    hist := false,
    stream := false,
    delay := 0,
    last := none,
    lastAt := 0,
    gap := false,
    skewAt := none }

/-- A recorder block (R404). -/
structure Block where
  /-- lane (14 R404); 4 bits; reset none. -/
  lane : Nat
  /-- corrected stamp of the first sample (14 R404); 64 bits; reset none. -/
  first : Int
  /-- interval, ns (14 R404); 32 bits; reset none. -/
  interval : Nat
  /-- corrected stamp of the newest word (14 R404); 64 bits; reset none. -/
  prevAt : Int
  /-- interval before the newest word, ns (14 R404); 32 bits; reset 0. -/
  prevIv : Nat
  /-- recorder words, oldest first (14 R401); 1..128 x 16 bits; reset none. -/
  words : List (BitVec 16)
  /-- overflow mark (14 R404); 1 bit; reset 0. -/
  overflow : Bool
  /-- trigger inside the block (14 R404); 1 bit; reset 0. -/
  trig : Bool
  /-- truncated (14 R404); 1 bit; reset 0. -/
  trunc : Bool
deriving DecidableEq, Repr

/-- Block right after reset (INVENTORY.md, State). -/
def Block.reset : Block :=
  { lane := 0,
    first := 0,
    interval := 0,
    words := [],
    overflow := false,
    trig := false,
    trunc := false,
    prevAt := 0,
    prevIv := 0 }

/-- A trigger unit (R405). -/
structure Trig where
  /-- type (14 R405); 3 bits; reset DESIGN CHOICE off, log 3. -/
  typ : Nat
  /-- lane (14 R420); 4 bits; reset DESIGN CHOICE 0, log 3. -/
  lane : Nat
  /-- direction (14 R420); 2 bits; reset DESIGN CHOICE 1, log 3. -/
  dir : Nat
  /-- HI (14 R420); 16 bits; reset DESIGN CHOICE 0, log 3. -/
  hi : Int
  /-- LO (14 R420); 16 bits; reset DESIGN CHOICE 0, log 3. -/
  lo : Int
  /-- N (14 R420); 16 bits; reset DESIGN CHOICE 1, log 3. -/
  n : Nat
  /-- T (14 R420); 64 bits; reset DESIGN CHOICE 0, log 3. -/
  t : Nat
  /-- ID (14 R420); 16 bits; reset DESIGN CHOICE 0, log 3. -/
  id : Nat
  /-- mask (14 R420); 16 bits; reset DESIGN CHOICE 0, log 3. -/
  emask : Nat
  /-- P, ms (14 R420); 32 bits; reset DESIGN CHOICE 0, log 3. -/
  periodMs : Nat
  /-- re-armed past the hysteresis (14 R405); 1 bit; reset 1. -/
  armed : Bool
  /-- consecutive samples outside the window (14 R405); 16 bits; reset 0. -/
  count : Nat
  /-- crossing that began the run (14 R405); 64 bits; reset 0. -/
  runAt : Int
  /-- squares of the last N valid samples, newest first (14 R405); N values; reset 0 (none). -/
  squares : List Nat
  /-- the rms condition held at the last sample (14 R405); 1 bit; reset 0. -/
  met : Bool
  /-- the rms at the last sample, 2^-16 counts (14 R406); 32 bits; reset 0 (none). -/
  prevRms : Option Nat
  /-- stamp of the latest firing (14 R416); 64 bits; reset 0. -/
  fired : Nat
deriving DecidableEq, Repr

/-- Trig right after reset (INVENTORY.md, State). -/
def Trig.reset : Trig :=
  { typ := 0,
    lane := 0,
    dir := 1,
    hi := 0,
    lo := 0,
    n := 1,
    t := 0,
    id := 0,
    emask := 0,
    periodMs := 0,
    armed := true,
    count := 0,
    runAt := 0,
    squares := [],
    met := false,
    prevRms := none,
    fired := 0 }

/-- A capture (R408..R413). -/
structure Capture where
  /-- capture ID (14 R417); 16 bits; reset none. -/
  id : Nat
  /-- t_trig (14 R408); 64 bits; reset none. -/
  tTrig : Int
  /-- t_end (14 R408); 64 bits; reset none. -/
  tEnd : Int
  /-- firing unit (14 R417); 2 bits; reset none. -/
  unit : Nat
  /-- source, UNIT, full scale and delay of each lane, as the header gives them (14 R417); 16 x 12 bytes; reset none. -/
  info : List Byte
  /-- closed blocks (14 R404); blocks; reset none. -/
  blocks : List Block
  /-- event copies (14 R412); 64 x 32 bytes; reset none. -/
  marks : List (List Byte)
  /-- further events (14 R412); 32 bits; reset 0. -/
  marksLost : Nat
  /-- trigger marks (14 R409); stamps; reset none. -/
  trigMarks : List Int
  /-- captures and triggers lost before it (14 R411); 32 bits; reset 0. -/
  lostBefore : Nat
  /-- overflow mark (14 R411); 1 bit; reset 0. -/
  overflow : Bool
  /-- truncated (14 R414); 1 bit; reset 0. -/
  trunc : Bool
  /-- complete (14 R411); 1 bit; reset 0. -/
  complete : Bool
  /-- unread (14 R411); 1 bit; reset 1. -/
  unread : Bool
  /-- committing (14 R411); 1 bit; reset 0. -/
  committing : Bool
  /-- protected (committed captures) (14 R420); 1 bit; reset 0. -/
  protect : Bool
  /-- bytes (14 R421); 32 bits; reset 0. -/
  bytes : Nat
deriving DecidableEq, Repr

/-- Capture right after reset (INVENTORY.md, State). -/
def Capture.reset : Capture :=
  { id := 0,
    tTrig := 0,
    tEnd := 0,
    unit := 0,
    blocks := [],
    marks := [],
    marksLost := 0,
    trigMarks := [],
    lostBefore := 0,
    overflow := false,
    trunc := false,
    complete := false,
    unread := true,
    committing := false,
    protect := false,
    bytes := 0,
    info := [] }

/-- A readout in progress (R417). -/
structure Readout where
  /-- capture ID, or 0xFFFF (14 R417); 16 bits; reset none. -/
  cap : Nat
  /-- 0 SRAM, 1 MRAM, 2 histogram, 3 map (14 R420); 2 bits; reset none. -/
  src : Nat
  /-- lane or map (14 R420); 4 bits; reset none. -/
  sel : Nat
  /-- ring (14 R420); 6 bits; reset none. -/
  ring : Nat
  /-- next record number (14 R417); 16 bits; reset 0. -/
  recNo : Nat
  /-- next block, bin or row of the payload (14 R417); 32 bits; reset 0. -/
  atT : Nat
deriving DecidableEq, Repr

/-- Readout right after reset (INVENTORY.md, State). -/
def Readout.reset : Readout :=
  { cap := 0xFFFF,
    src := 0,
    sel := 0,
    ring := 24,
    recNo := 0,
    atT := 0 }

/-- A persistence map configuration (R416). -/
structure PMap where
  /-- enable (14 R420); 1 bit; reset DESIGN CHOICE 0, log 3. -/
  enable : Bool
  /-- 0 XY, 1 time (14 R420); 1 bit; reset DESIGN CHOICE 0, log 3. -/
  time : Bool
  /-- lane Y (14 R420); 4 bits; reset DESIGN CHOICE 0, log 3. -/
  laneY : Nat
  /-- lane X or unit (14 R420); 4 bits; reset DESIGN CHOICE 0, log 3. -/
  laneX : Nat
  /-- SPAN, us (14 R420); 32 bits; reset DESIGN CHOICE 1, log 3. -/
  span : Nat
  /-- HALF, s (14 R420); 16 bits; reset DESIGN CHOICE 0, log 3. -/
  half : Nat
  /-- device time of the last halving (14 R416); 64 bits; reset 0. -/
  halvedAt : Nat
  /-- Y values not paired yet, oldest first: corrected stamp, value (14 R416); list; reset 0 (none). -/
  ys : List (Int × Int)
  /-- X values that a Y value may be paired with, newest first (14 R416); list; reset 0 (none). -/
  xs : List (Int × Int)
deriving DecidableEq, Repr

/-- PMap right after reset (INVENTORY.md, State). -/
def PMap.reset : PMap :=
  { enable := false,
    time := false,
    laneY := 0,
    laneX := 0,
    span := 1,
    half := 0,
    ys := [],
    xs := [],
    halvedAt := 0 }

/-- A running skew calibration (R419). -/
structure SkewCal where
  /-- reference lane (14 R420); 4 bits; reset none. -/
  ref : Nat
  /-- further lanes (14 R420); 1..15; reset none. -/
  lanes : List Nat
  /-- L (14 R420); 16 bits; reset none. -/
  level : Int
  /-- end of the window (14 R419); 64 bits; reset none. -/
  untilT : Nat
  /-- the reply to send (14 R419); reply; reset none. -/
  reply : DurReply
deriving DecidableEq, Repr

/-- SkewCal right after reset (INVENTORY.md, State). -/
def SkewCal.reset : SkewCal :=
  { ref := 0,
    lanes := [],
    level := 0,
    untilT := 0,
    reply := DurReply.reset }

/-- The disturbance recorder (R400..R421). -/
structure Rec where
  /-- lanes (14 R400); 16; reset off. -/
  lanes : List Lane
  /-- trigger units (14 R405); 4; reset off. -/
  trigs : List Trig
  /-- REPEAT (14 R420); 1 bit; reset DESIGN CHOICE 0, log 3. -/
  rep : Bool
  /-- EXTEND (14 R420); 1 bit; reset DESIGN CHOICE 0, log 3. -/
  extend : Bool
  /-- STOP_ON_OVERFLOW (14 R420); 1 bit; reset DESIGN CHOICE 0, log 3. -/
  stopOvf : Bool
  /-- AUTO_COMMIT (14 R420); 1 bit; reset DESIGN CHOICE 0, log 3. -/
  autoCommit : Bool
  /-- STREAM (14 R420); 1 bit; reset DESIGN CHOICE 0, log 3. -/
  stream : Bool
  /-- stream ring (14 R420); 6 bits; reset DESIGN CHOICE 24, log 3. -/
  streamRing : Nat
  /-- PRE, us (14 R408); 32 bits; reset DESIGN CHOICE 0, log 3. -/
  pre : Nat
  /-- POST, us (14 R408); 32 bits; reset DESIGN CHOICE 1, log 3. -/
  post : Nat
  /-- MAX, us (14 R408); 32 bits; reset DESIGN CHOICE 1, log 3. -/
  maxUs : Nat
  /-- MARK_MASK (14 R412); 32 bits; reset DESIGN CHOICE 0, log 3. -/
  markMask : Nat
  /-- S (14 R410); 8 bits; reset 0. -/
  slots : Nat
  /-- bytes per capture (14 R410); 32 bits; reset 0. -/
  capBytes : Nat
  /-- 0 Idle, 1 Armed, 2 Triggered, 3 Complete, 4 Stopped (14 R411); 3 bits; reset 0. -/
  state : Nat
  /-- capture in progress (14 R408); struct; reset 0 (none). -/
  cur : Option Capture
  /-- blocks not yet closed, one per lane at most (14 R404); blocks; reset 0 (none). -/
  opn : List Block
  /-- pre-trigger history (14 R408); blocks; reset 0 (none). -/
  history : List Block
  /-- completed captures in SRAM, oldest first (14 R410); slots; reset 0 (none). -/
  done : List Capture
  /-- committed captures in commit order (14 R413); 2,097,152 bytes; reset DESIGN CHOICE none, log 3. -/
  mram : List Capture
  /-- next capture ID (14 R420); 16 bits; reset DESIGN CHOICE 0, log 3. -/
  nextId : Nat
  /-- captures lost (14 R420); 32 bits; reset 0. -/
  capsLost : Nat
  /-- triggers lost (14 R420); 32 bits; reset 0. -/
  trigsLost : Nat
  /-- losses since the capture before (14 R411); 32 bits; reset 0. -/
  lostMark : Nat
  /-- late event triggers (14 R407); 32 bits; reset 0. -/
  lateEvents : Nat
  /-- REC_OVERFLOW posted (14 R411); 1 bit; reset 0. -/
  ovfPosted : Bool
  /-- t_trig of the newest capture (14 R420); 64 bits; reset 0. -/
  newest : Int
  /-- persistence maps (14 R416); 2; reset off. -/
  maps : List PMap
  /-- readouts in progress (14 R417); 8 rings; reset 0 (none). -/
  readouts : List Readout
  /-- skew calibration in progress (14 R419); struct; reset 0 (none). -/
  skew : Option SkewCal
  /-- re-arm on SYS_UNFREEZE (14 R414); 1 bit; reset 0. -/
  rearm : Bool
  /-- copies of events within reach of a capture's window: time, record (14 R412); 32 bytes each; reset 0 (none). -/
  events : List (Nat × List Byte)
  /-- triggers stamped at or after the end of the capture in progress: unit, stamp (14 R409); stamps; reset 0 (none). -/
  nextFires : List (Nat × Int)
deriving DecidableEq, Repr

/-- Rec right after reset (INVENTORY.md, State). -/
def Rec.reset : Rec :=
  { lanes := (List.replicate 16 Lane.reset),
    trigs := (List.replicate 4 Trig.reset),
    rep := false,
    extend := false,
    stopOvf := false,
    autoCommit := false,
    stream := false,
    streamRing := 24,
    pre := 0,
    post := 1,
    maxUs := 1,
    markMask := 0,
    slots := 0,
    capBytes := 0,
    state := 0,
    cur := none,
    opn := [],
    history := [],
    done := [],
    mram := [],
    nextId := 0,
    capsLost := 0,
    trigsLost := 0,
    lostMark := 0,
    lateEvents := 0,
    ovfPosted := false,
    newest := 0,
    maps := (List.replicate 2 PMap.reset),
    readouts := [],
    skew := none,
    rearm := false,
    events := [],
    nextFires := [] }

/-- A safety function (R422..R426). -/
structure Sf where
  /-- 0 Off, 1 Safe, 2 Ready, 3 Run, 4 Fault (15 R423); 3 bits; reset 1 (Safe, R423); Off for kind 0. -/
  state : Nat
  /-- an acknowledgement acts on the next tick (15 R439); 1 bit; reset 0. -/
  ack : Bool
deriving DecidableEq, Repr

/-- Sf right after reset (INVENTORY.md, State). -/
def Sf.reset : Sf :=
  { state := 1,
    ack := false }

/-- A safety output (R425..R432). -/
structure SOut where
  /-- 0 Open, 1 Closing, 2 Closed, 3 Opening, 4 Fault (15 R430); 3 bits; reset 0. -/
  state : Nat
  /-- fault cause (15 R456); 8 bits; reset 0. -/
  cause : Nat
  /-- SOH commanded on (15 R428); 1 switch; reset off (R53). -/
  soh : Bool
  /-- SOL commanded on (15 R428); 1 switch; reset off (R53). -/
  sol : Bool
  /-- device time of the last change of command (15 R429); 64 bits; reset 0. -/
  chgAt : Nat
  /-- consecutive mismatching reads (15 R429); 8 bits; reset 0. -/
  mism : Nat
  /-- time from which the open-load condition holds (15 R429); 64 bits; reset 0 (none). -/
  openLoadAt : Option Nat
  /-- light test step: 0 none, 1 SOH alone, 2 SOL alone (15 R430); 2 bits; reset 0. -/
  light : Nat
  /-- dark test step: 0 none, 1 SOH off, 2 pause, 3 SOL off (15 R431); 2 bits; reset 0. -/
  dark : Nat
  /-- start of the wait for feedback (15 R430); 64 bits; reset 0. -/
  waitAt : Nat
  /-- operational close request (kind 3) (15 R422); 1 bit; reset 0. -/
  req : Bool
  /-- a test of the output runs (15 R431); 1 bit; reset 0. -/
  testing : Bool
  /-- device time at which its last test started (15 R431); 64 bits; reset 0. -/
  testAt : Nat
  /-- an acknowledgement waits for its light test (15 R432); 1 bit; reset 0. -/
  recover : Bool
  /-- element of the newest mismatch: 0 SOH, 1 SOL (15 R457); 1 bit; reset 0. -/
  mismEl : Nat
deriving DecidableEq, Repr

/-- SOut right after reset (INVENTORY.md, State). -/
def SOut.reset : SOut :=
  { state := 0,
    cause := 0,
    soh := false,
    sol := false,
    chgAt := 0,
    mism := 0,
    openLoadAt := none,
    light := 0,
    dark := 0,
    waitAt := 0,
    req := false,
    testing := false,
    testAt := 0,
    recover := false,
    mismEl := 0 }

/-- A safety input pair (R433..R438). -/
structure Pair where
  /-- fault cause (15 R456); 2 bits; reset 0. -/
  fault : Nat
  /-- ready (15 R437); 1 bit; reset not ready (R55). -/
  ready : Bool
  /-- both channels seen at the non-demand level on one tick (15 R437); 1 bit; reset 0. -/
  atRest : Bool
  /-- channel A has passed an own-pulse window since (15 R437); 1 bit; reset 0. -/
  passA : Bool
  /-- channel B has passed an own-pulse window since (15 R437); 1 bit; reset 0. -/
  passB : Bool
  /-- consecutive pulse windows passed; six are 3 periods (15 R437); 8 bits; reset 0. -/
  okWindows : Nat
  /-- consecutive ticks of disagreement (15 R438); 16 bits; reset 0. -/
  disagree : Nat
  /-- ticks for which an acknowledge pair has been high (15 R439); 16 bits; reset 0. -/
  ackHigh : Nat
deriving DecidableEq, Repr

/-- Pair right after reset (INVENTORY.md, State). -/
def Pair.reset : Pair :=
  { fault := 0,
    ready := false,
    atRest := false,
    passA := false,
    passB := false,
    okWindows := 0,
    disagree := 0,
    ackHigh := 0 }

/-- A safety input channel (R434). -/
structure SChan where
  /-- filtered level (15 R434); 1 bit; reset DESIGN CHOICE low, log 3. -/
  level : Bool
  /-- consecutive samples at the other level (15 R434); 16 bits; reset 0. -/
  cand : Nat
  /-- newest sample (15 R434); 1 bit; reset DESIGN CHOICE low, log 3. -/
  raw : Bool
  /-- samples of the last 1.2 ms, newest first: device time, level (15 R436); samples; reset 0 (none). -/
  hist : List (Nat × Bool)
deriving DecidableEq, Repr

/-- SChan right after reset (INVENTORY.md, State). -/
def SChan.reset : SChan :=
  { level := false,
    cand := 0,
    raw := false,
    hist := [] }

/-- A Vrel connection (R441..R445). -/
structure VConn where
  /-- 0 Off, 1 Waiting, 2 Run, 3 Fault (15 R443); 2 bits; reset 0; Waiting when enabled. -/
  state : Nat
  /-- last accepted SEQ (15 R442); 16 bits; reset 0. -/
  seq : Nat
  /-- stamp of the last accepted PDU (15 R443); 64 bits; reset 0. -/
  lastAt : Nat
  /-- A window of T_EXP has ended with no accepted PDU stamped in it, and the safety tick that faults the connection for it is still to come (15 R443); 1 bit; reset false. -/
  missed : Bool
  /-- a safety tick found its window ended; a PDU stamped in it may still be on its way (15 R443); 1 bit; reset 0. -/
  due : Bool
  /-- last accepted PDU has TRIP set (15 R444); 1 bit; reset 0. -/
  trip : Bool
  /-- stamps of recent CRC errors (15 R443); stamps; reset 0 (none). -/
  crcErrs : List Nat
  /-- stamps of recent sequence errors (15 R443); stamps; reset 0 (none). -/
  seqErrs : List Nat
  /-- CRC errors counted (15 R442); 32 bits; reset 0. -/
  crcCount : Nat
  /-- sequence errors counted (15 R442); 32 bits; reset 0. -/
  seqCount : Nat
  /-- producer's sequence number (15 R441); 16 bits; reset DESIGN CHOICE 0, log 3. -/
  txSeq : Nat
  /-- the next PDU carries CONN_RESET (15 R445); 1 bit; reset 1. -/
  txReset : Bool
  /-- device time of the last periodic production (15 R445); 64 bits; reset 0. -/
  prodAt : Nat
deriving DecidableEq, Repr

/-- VConn right after reset (INVENTORY.md, State). -/
def VConn.reset : VConn :=
  { state := 0,
    seq := 0,
    lastAt := 0,
    trip := false,
    crcErrs := [],
    seqErrs := [],
    crcCount := 0,
    seqCount := 0,
    txSeq := 0,
    txReset := true,
    missed := false,
    prodAt := 0,
    due := false }

/-- The safety change log and password (R449..R454). -/
structure SLog where
  /-- retained entries, oldest first (15 R454); 4,096 x 128 bytes; reset DESIGN CHOICE none, log 3. -/
  entries : List (List Byte)
  /-- next entry number (15 R454); 32 bits; reset DESIGN CHOICE 0, log 3. -/
  next : Nat
  /-- password record: the salt and the PBKDF2 value (15 R449); 16 and 48 bytes; reset none set (delivered). -/
  password : Option (List Byte × List Byte)
  /-- consecutive failures (15 R450); 8 bits; reset DESIGN CHOICE 0, log 3. -/
  failures : Nat
  /-- device time at which the lockout ends (15 R450); 64 bits; reset DESIGN CHOICE 0, log 3. -/
  lockUntil : Nat
  /-- next lockout period, s (15 R450); 16 bits; reset 60. -/
  lockPeriod : Nat
deriving DecidableEq, Repr

/-- SLog right after reset (INVENTORY.md, State). -/
def SLog.reset : SLog :=
  { entries := [],
    next := 0,
    password := none,
    failures := 0,
    lockUntil := 0,
    lockPeriod := 60 }

/-- The delivered safety image (spec/15_safety.md R448): every function, pair and connection off, every output unassigned; the numbers
the rule leaves open are the lowest of their ranges (DESIGN CHOICE, notes/assumptions/3.md). -/
def SafetyImage.delivered : List Byte :=
  ((List.range 4).flatMap fun i => [BitVec.ofNat 8 i, 0, 0, 0, 0, 0xFF, 0, 0]) ++
  ((List.range 4).flatMap fun i => [BitVec.ofNat 8 i, 0xFF, 0xFF, 0, 1, 0, 1, 0]) ++
  ((List.range 8).flatMap fun i => [BitVec.ofNat 8 i, 0, 0, 1, 2, 0, 0, 0]) ++
  [10, 0, 100, 0, 1, 0, 0, 0] ++
  ((List.range 4).flatMap fun i => [BitVec.ofNat 8 i, 0, 1, 0, 0, 0, 0, 0, 0, 0, 0, 0, 10, 0, 5, 0])


/-- The safety group (R422..R457). -/
structure Safety where
  /-- active image (15 R448); 200 bytes; reset delivered image. -/
  active : List Byte
  /-- staging image (15 R451); 200 bytes; reset 0 (none). -/
  staging : Option (List Byte)
  /-- pending image (15 R453); 200 bytes; reset DESIGN CHOICE none, log 3. -/
  pending : Option (List Byte)
  /-- tightening image applied on the next tick (15 R453); 200 bytes; reset 0 (none). -/
  applyNext : Option (List Byte)
  /-- session unlocked (15 R451); 32 bits; reset 0 (none). -/
  unlocked : Option (BitVec 32)
  /-- device time of its last safety command (15 R451); 64 bits; reset 0. -/
  lastCmd : Nat
  /-- change log and password (15 R454); struct; reset delivered. -/
  log : SLog
  /-- functions SF0..SF3 (15 R423); 4; reset 0 (Off: every function of the delivered image is kind 0, R448). -/
  fns : List Sf
  /-- outputs A..D (15 R430); 4; reset Open. -/
  outs : List SOut
  /-- input pairs (15 R433); 8; reset not ready. -/
  pairs : List Pair
  /-- channels SIkA, SIkB at 2k, 2k + 1 (15 R434); 16; reset DESIGN CHOICE low, log 3. -/
  chans : List SChan
  /-- Vrel connections (15 R443); 4; reset Off. -/
  conns : List VConn
  /-- TPA (02 R53); 1 pin; reset low. -/
  tpa : Bool
  /-- TPB (02 R53); 1 pin; reset low. -/
  tpb : Bool
  /-- device time at which the last pulse window of TPA ended (15 R435); 64 bits; reset 0. -/
  tpaAt : Nat
  /-- device time at which the last pulse window of TPB ended (15 R435); 64 bits; reset 0. -/
  tpbAt : Nat
  /-- device time of the last periodic output test (15 R431); 64 bits; reset 0. -/
  otAt : Nat
  /-- image being written to the inactive MRAM copy (15 R453); 200 bytes; reset 0 (none). -/
  writing : Option (List Byte)
  /-- what follows the switch: 0 applied on the next tick, 1 applied at once, 2 pending (15 R453); 2 bits; reset 0. -/
  writeKind : Nat
  /-- the reply of SAFETY_COMMIT, sent after the switch (15 R453); reply; reset 0 (none). -/
  writeReply : Option DurReply
  /-- session of the commit (15 R454); 32 bits; reset 0. -/
  writeSession : BitVec 32
  /-- outputs still to test (15 R431); 0..4; reset 0 (none). -/
  testRun : List Nat
  /-- reply of a running SAFETY_OUTPUT_TEST (15 R455); reply; reset 0 (none). -/
  testReply : Option DurReply
  /-- pass mask so far (15 R455); 4 bits; reset 0. -/
  testMask : Nat
  /-- a kind-1 or kind-2 function was not in Run on the last tick (15 R426); 1 bit; reset 0. -/
  demand : Bool
  /-- the interface die sees the D1 heartbeat (02 R36); 1 bit; reset 0. -/
  heartbeat : Bool
  /-- PDUs produced and handed to ring 57 (16 R461); queue; reset 0 (none). -/
  txPdus : List (Nat × List Byte)
deriving DecidableEq, Repr

/-- Safety right after reset (INVENTORY.md, State). -/
def Safety.reset : Safety :=
  { active := SafetyImage.delivered,
    staging := none,
    pending := none,
    applyNext := none,
    unlocked := none,
    lastCmd := 0,
    log := SLog.reset,
    fns := (List.replicate 4 { Sf.reset with state := 0 }),
    outs := (List.replicate 4 SOut.reset),
    pairs := (List.replicate 8 Pair.reset),
    chans := (List.replicate 16 SChan.reset),
    conns := (List.replicate 4 VConn.reset),
    tpa := false,
    tpb := false,
    writing := none,
    writeKind := 0,
    writeReply := none,
    writeSession := 0,
    testRun := [],
    testReply := none,
    testMask := 0,
    demand := false,
    heartbeat := false,
    txPdus := [],
    tpaAt := 0,
    tpbAt := 0,
    otAt := 0 }

/-- An Ethernet port (R460, R478). -/
structure Port where
  /-- enable (16 R478); 1 bit; reset DESIGN CHOICE 0, log 3. -/
  enable : Bool
  /-- 0 1000BASE-X, 1 SGMII (16 R478); 1 bit; reset DESIGN CHOICE 0, log 3. -/
  sgmii : Bool
  /-- failover mode (16 R478); 1 bit; reset DESIGN CHOICE 0, log 3. -/
  failover : Bool
  /-- MAC address (16 R478); 48 bits; reset DESIGN CHOICE 0, log 3. -/
  mac : List Byte
  /-- PHY latency receive, ns (16 R478); 16 bits; reset DESIGN CHOICE 0, log 3. -/
  phyRx : Nat
  /-- PHY latency transmit, ns (16 R478); 16 bits; reset DESIGN CHOICE 0, log 3. -/
  phyTx : Nat
  /-- link up (16 R478); 1 bit; reset 0. -/
  up : Bool
  /-- IPv4 mask length (16 R478); 6 bits; reset DESIGN CHOICE 0, log 3. -/
  pre4 : Nat
  /-- IPv6 mask length (16 R478); 8 bits; reset DESIGN CHOICE 0, log 3. -/
  pre6 : Nat
  /-- IPv4 address (16 R478); 32 bits; reset DESIGN CHOICE 0, log 3. -/
  ip4 : List Byte
  /-- IPv6 address (16 R478); 128 bits; reset DESIGN CHOICE 0, log 3. -/
  ip6 : List Byte
deriving DecidableEq, Repr

/-- Port right after reset (INVENTORY.md, State). -/
def Port.reset : Port :=
  { enable := false,
    sgmii := false,
    failover := false,
    mac := (List.replicate 6 0),
    phyRx := 0,
    phyTx := 0,
    up := false,
    pre4 := 0,
    pre6 := 0,
    ip4 := (List.replicate 4 0),
    ip6 := (List.replicate 16 0) }

/-- A neighbour-table entry (R464). -/
structure Neigh where
  /-- valid (16 R464); 1 bit; reset 0. -/
  valid : Bool
  /-- written by NET_NEIGHBOUR_SET (16 R464); 1 bit; reset 0. -/
  written : Bool
  /-- IPv6 (16 R464); 1 bit; reset 0. -/
  v6 : Bool
  /-- MAC address (16 R464); 48 bits; reset 0. -/
  mac : List Byte
  /-- IP address (16 R464); 128 bits; reset 0. -/
  ip : List Byte
deriving DecidableEq, Repr

/-- Neigh right after reset (INVENTORY.md, State). -/
def Neigh.reset : Neigh :=
  { valid := false,
    written := false,
    v6 := false,
    mac := [],
    ip := [] }

/-- A CAN controller (R475, R478). -/
structure CanCtl where
  /-- 0 off, 1 BMS, 2 application (16 R478); 2 bits; reset DESIGN CHOICE off, log 3. -/
  role : Nat
  /-- nominal rate (16 R478); 32 bits; reset DESIGN CHOICE 0, log 3. -/
  nominal : Nat
  /-- data rate (16 R478); 32 bits; reset DESIGN CHOICE 0, log 3. -/
  data : Nat
  /-- bus-off (16 R476); 1 bit; reset 0. -/
  busOff : Bool
  /-- frame last sent: identifier and data (16 R475); frame; reset 0 (none). -/
  sent : Option (Nat × List Byte)
deriving DecidableEq, Repr

/-- CanCtl right after reset (INVENTORY.md, State). -/
def CanCtl.reset : CanCtl :=
  { role := 0,
    nominal := 0,
    data := 0,
    busOff := false,
    sent := none }

/-- A Vrel binding (R465). -/
structure Bind where
  /-- bound (16 R465); 1 bit; reset DESIGN CHOICE 0, log 3. -/
  bound : Bool
  /-- IPv6 (16 R478); 1 bit; reset DESIGN CHOICE 0, log 3. -/
  v6 : Bool
  /-- peer UDP port (16 R478); 16 bits; reset DESIGN CHOICE 0, log 3. -/
  port : Nat
  /-- peer IP (16 R478); 128 bits; reset DESIGN CHOICE 0, log 3. -/
  ip : List Byte
deriving DecidableEq, Repr

/-- Bind right after reset (INVENTORY.md, State). -/
def Bind.reset : Bind :=
  { bound := false,
    v6 := false,
    port := 0,
    ip := (List.replicate 16 0) }

/-- A peer-table entry (R474). -/
structure Peer where
  /-- fleet address (16 R474); 18 bits; reset none. -/
  addr : Nat
  /-- serial number (16 R474); 64 bits; reset none. -/
  serial : List Byte
  /-- injection amplitude, mA (16 R474); 16 bits; reset none. -/
  amp : Nat
  /-- mode (16 R474); 8 bits; reset none. -/
  mode : Nat
  /-- announce flags (16 R474); 8 bits; reset none. -/
  aflags : Nat
  /-- device time last heard (16 R474); 64 bits; reset none. -/
  heard : Nat
  /-- last counter (16 R474); 64 bits; reset none. -/
  counter : Nat
deriving DecidableEq, Repr

/-- Peer right after reset (INVENTORY.md, State). -/
def Peer.reset : Peer :=
  { addr := 0,
    serial := [],
    amp := 0,
    mode := 0,
    aflags := 0,
    heard := 0,
    counter := 0 }

/-- The network group (R458..R479). -/
structure Net where
  /-- Ethernet ports (16 R460); 2; reset DESIGN CHOICE off, log 3. -/
  ports : List Port
  /-- active port (16 R478); 1 bit; reset 0 (R460: port 0). -/
  active : Nat
  /-- VREL_PORT (16 R463); 16 bits; reset 52,512. -/
  vrelPort : Nat
  /-- BENMOR_PORT (16 R463); 16 bits; reset 52,511. -/
  benPort : Nat
  /-- neighbour table (16 R464); 16; reset 0 (empty). -/
  neigh : List Neigh
  /-- PTP locked (16 R466); 1 bit; reset 0. -/
  ptpLocked : Bool
  /-- consecutive small offsets (16 R466); 8 bits; reset 0. -/
  ptpGood : Nat
  /-- consecutive large offsets (16 R466); 8 bits; reset 0. -/
  ptpBad : Nat
  /-- device time of the last offset (16 R466); 64 bits; reset 0. -/
  ptpLastAt : Nat
  /-- last offset, ns (16 R466); 64 bits; reset 0. -/
  ptpLast : Int
  /-- offset still to be slewed out, ns (16 R466); 64 bits; reset 0. -/
  slew : Int
  /-- slew of the last second, newest first: device time, ns slewed (16 R466); samples; reset 0 (none). -/
  slewHist : List (Nat × Int)
  /-- frame or PDU last sent: its ring and bytes (16 R462); frame; reset 0 (none). -/
  txLast : Option (Nat × List Byte)
  /-- CAN controllers (16 R475); 2; reset DESIGN CHOICE off, log 3. -/
  cans : List CanCtl
  /-- UART0 rate (16 R478); 32 bits; reset DESIGN CHOICE 0, log 3. -/
  uartRate : Nat
  /-- UART0 parity (16 R478); 2 bits; reset DESIGN CHOICE 0, log 3. -/
  uartParity : Nat
  /-- FLEET_ID (16 R478); 32 bits; reset DESIGN CHOICE 0, log 3. -/
  fleetId : Nat
  /-- fleet address assigned (16 R470); 18 bits; reset none. -/
  addr : Option Nat
  /-- ANNOUNCE_S (16 R478); 8 bits; reset 10. -/
  announceS : Nat
  /-- device time of the last periodic announcement (16 R471); 64 bits; reset 0. -/
  announcedAt : Nat
  /-- IPv4 group (16 R478); 32 bits; reset DESIGN CHOICE 0, log 3. -/
  group4 : List Byte
  /-- IPv6 group (16 R478); 128 bits; reset DESIGN CHOICE 0, log 3. -/
  group6 : List Byte
  /-- dispatcher list (16 R478); 4 x 24 bits; reset DESIGN CHOICE none, log 3. -/
  dispatchers : List Nat
  /-- manager list (16 R478); 4 x 24 bits; reset DESIGN CHOICE none, log 3. -/
  managers : List Nat
  /-- address conflict declared (16 R470); 1 bit; reset 0. -/
  conflict : Bool
  /-- fleet key (16 R478); 256 bits; reset none. -/
  fleetKey : Option (List Byte)
  /-- dispatch authority (16 R472); 1 bit; reset DESIGN CHOICE 0, log 3. -/
  authority : Bool
  /-- fallback P_set (16 R472); 32 bits; reset DESIGN CHOICE 0, log 3. -/
  fbP : BitVec 32
  /-- fallback Q_set (16 R472); 32 bits; reset DESIGN CHOICE 0, log 3. -/
  fbQ : BitVec 32
  /-- valid-until of the dispatch in force (16 R472); 64 bits; reset 0 (none). -/
  expiry : Option Nat
  /-- SRC of the dispatch in force (16 R479); 24 bits; reset 0. -/
  expSrc : Nat
  /-- Vrel bindings (16 R465); 4; reset DESIGN CHOICE unbound, log 3. -/
  binds : List Bind
  /-- peer table, rising by address (16 R474); 4,096; reset 0 (empty). -/
  peers : List Peer
  /-- counter value held in MRAM (16 R468); 64 bits; reset DESIGN CHOICE 0, log 3. -/
  benStored : Nat
  /-- next counter (16 R468); 64 bits; reset DESIGN CHOICE 0, log 3. -/
  benNext : Nat
  /-- a commit of the stored value runs (16 R469); 1 bit; reset 0. -/
  benCommit : Bool
  /-- datagrams held or waiting in ring 38 (16 R469); ring 38; reset 0 (none). -/
  benHeld : List (List Byte)
  /-- datagrams sent since reset, newest first, tag left out (16 R471); queue; reset 0 (none). -/
  benSent : List (List Byte)
  /-- offload discards (16 R478); 32 bits; reset 0. -/
  offDiscards : Nat
  /-- Benmor discards (16 R478); 32 bits; reset 0. -/
  benDiscards : Nat
  /-- no-neighbour drops (16 R478); 32 bits; reset 0. -/
  noNeigh : Nat
  /-- CAN frames discarded (16 R478); 32 bits; reset 0. -/
  canDiscards : Nat
  /-- frames dropped on the ring oscillator or with double-bit errors (18 R499); 32 bits; reset 0. -/
  frameDrops : Nat
deriving DecidableEq, Repr

/-- Net right after reset (INVENTORY.md, State). -/
def Net.reset : Net :=
  { ports := (List.replicate 2 Port.reset),
    active := 0,
    vrelPort := 52512,
    benPort := 52511,
    neigh := (List.replicate 16 Neigh.reset),
    ptpLocked := false,
    ptpGood := 0,
    ptpBad := 0,
    ptpLastAt := 0,
    ptpLast := 0,
    slew := 0,
    slewHist := [],
    txLast := none,
    cans := (List.replicate 2 CanCtl.reset),
    uartRate := 0,
    uartParity := 0,
    fleetId := 0,
    addr := none,
    announceS := 10,
    group4 := (List.replicate 4 0),
    group6 := (List.replicate 16 0),
    dispatchers := [],
    managers := [],
    conflict := false,
    fleetKey := none,
    authority := false,
    fbP := 0,
    fbQ := 0,
    expiry := none,
    expSrc := 0,
    binds := (List.replicate 4 Bind.reset),
    peers := [],
    benStored := 0,
    benNext := 0,
    benCommit := false,
    benHeld := [],
    benSent := [],
    offDiscards := 0,
    benDiscards := 0,
    noNeigh := 0,
    canDiscards := 0,
    frameDrops := 0,
    announcedAt := 0 }

/-- COOL_CONFIG (R495). -/
structure CoolCfg where
  /-- required (17 R495); 1 bit; reset none configured. -/
  required : Bool
  /-- start at Ready (17 R495); 1 bit; reset none configured. -/
  startReady : Bool
  /-- 0 speed, 1 duty mode (17 R495); 1 bit; reset none configured. -/
  dutyMode : Bool
  /-- pole pairs (17 R495); 8 bits; reset none configured. -/
  poles : Nat
  /-- T_EDGE, % (17 R495); 8 bits; reset none configured. -/
  tEdge : Nat
  /-- F_PWM, 100 Hz (17 R495); 16 bits; reset none configured. -/
  fPwm : Nat
  /-- T_DEAD, 10 ns (17 R495); 16 bits; reset none configured. -/
  tDead : Nat
  /-- I_ALIGN, 10 mA (17 R495); 16 bits; reset none configured. -/
  iAlign : Nat
  /-- T_ALIGN, ms (17 R495); 16 bits; reset none configured. -/
  tAlign : Nat
  /-- RAMP, rpm/s (17 R495); 16 bits; reset none configured. -/
  ramp : Nat
  /-- HANDOVER, rpm (17 R495); 16 bits; reset none configured. -/
  handover : Nat
  /-- MAX_SPEED, rpm (17 R495); 16 bits; reset none configured. -/
  maxSpeed : Nat
  /-- I_LIM, 10 mA (17 R495); 16 bits; reset none configured. -/
  iLim : Nat
  /-- I_OC, 10 mA (17 R495); 16 bits; reset none configured. -/
  iOc : Nat
  /-- ACCEL, rpm/s (17 R495); 16 bits; reset none configured. -/
  accel : Nat
  /-- RESTART_MAX (17 R495); 8 bits; reset none configured. -/
  restartMax : Nat
  /-- ADVANCE, electrical degrees (17 R495); 8 bits; reset none configured. -/
  advance : Nat
  /-- T_REFRESH, 10 ns (17 R495); 16 bits; reset none configured. -/
  tRefresh : Nat
deriving DecidableEq, Repr

/-- CoolCfg right after reset (INVENTORY.md, State). -/
def CoolCfg.reset : CoolCfg :=
  { required := false,
    startReady := false,
    dutyMode := false,
    poles := 1,
    tEdge := 0,
    fPwm := 160,
    tDead := 10,
    iAlign := 1,
    tAlign := 10,
    ramp := 10,
    handover := 100,
    maxSpeed := 200,
    iLim := 1,
    iOc := 2,
    accel := 10,
    restartMax := 0,
    advance := 0,
    tRefresh := 20 }

/-- A cooling drive (R480..R495). -/
structure Drive where
  /-- configuration (17 R495); struct; reset none. -/
  cfg : Option CoolCfg
  /-- 0 Off .. 6 Fault (17 R484); 3 bits; reset 0. -/
  state : Nat
  /-- commanded target, rpm or Q15 (17 R494); 16 bits; reset 0. -/
  target : Nat
  /-- speed, rpm (17 R494); 16 bits; reset 0. -/
  speed : Nat
  /-- applied duty, Q15 (17 R494); 16 bits; reset 0. -/
  duty : Nat
  /-- duty of each phase, edges included, Q15 (17 R482); 3 x 16 bits; reset 0. -/
  phaseDuty : List Nat
  /-- duty limited (17 R490); 1 bit; reset 0. -/
  dutyLim : Bool
  /-- mean phase current, 10 mA (17 R494); 16 bits; reset 0. -/
  current : Nat
  /-- six-step sector 0..5 (17 R481); 3 bits; reset DESIGN CHOICE 0, log 3. -/
  sector : Nat
  /-- high-side pulse of the present period on (17 R483); 1 bit; reset 0. -/
  pulse : Bool
  /-- device time of the present PWM period (17 R483); 64 bits; reset 0. -/
  pwmAt : Nat
  /-- consecutive consistent crossings (17 R485); 8 bits; reset 0. -/
  crossings : Nat
  /-- consecutive misses (17 R487); 2 bits; reset 0. -/
  misses : Nat
  /-- last step interval, ns (17 R485); 32 bits; reset 0. -/
  stepNs : Nat
  /-- last six step intervals, newest first, ns (17 R485); 6 x 32 bits; reset 0 (none). -/
  steps : List Nat
  /-- device time of the last commutation (17 R485); 64 bits; reset 0. -/
  lastComm : Nat
  /-- commutations made in Ramp (17 R484); 32 bits; reset 0. -/
  rampSteps : Nat
  /-- device time of the next commutation of Run, 0 with none due (17 R485); 64 bits; reset 0. -/
  commAt : Nat
  /-- device time of entry into the present state (17 R484); 64 bits; reset 0. -/
  stateAt : Nat
  /-- applied duty in steps of 2^-16 Q15 (17 R485); 32 bits; reset 0. -/
  dutyAcc : Nat
  /-- speed the loop is held to, moving at ACCEL, in steps of 2^-16 rpm (17 R485); 32 bits; reset 0. -/
  refAcc : Nat
  /-- device time of the last crossing (17 R485); 64 bits; reset 0. -/
  lastCross : Nat
  /-- last duty-to-speed ratio in Run x 65,536 (17 R488); 32 bits; reset 0. -/
  ratio : Nat
  /-- device times of the tries used in the window (17 R489); stamps; reset 0 (none). -/
  tries : List Nat
  /-- last cause (17 R494); 3 bits; reset 0. -/
  cause : Nat
  /-- the start repeats when VDD_HV is good (17 R492); 1 bit; reset 0. -/
  hvRestart : Bool
  /-- device times of lockouts in the last 1 s (17 R491); stamps; reset 0 (none). -/
  lockouts : List Nat
  /-- low side on for T_REFRESH in the next period, per phase (17 R491); 3 bits; reset 0. -/
  refresh : List Bool
  /-- high side held off by its undervoltage lockout for the rest of the period, per phase (17 R491); 3 bits; reset 0. -/
  locked : List Bool
  /-- stopped by command (04 R108); 1 bit; reset 0. -/
  stopped : Bool
  /-- run hours, starts, failed starts, rotor losses, overcurrents, lockouts (17 R493); 6 x 32 bits; reset DESIGN CHOICE 0, log 3. -/
  counters : List Nat
  /-- time in Run since the last whole run hour, ns (17 R493); 42 bits; reset DESIGN CHOICE 0, log 3. -/
  runNs : Nat
  /-- baseline, 10 mA; 0 while learning (17 R493); 16 bits; reset DESIGN CHOICE 0, log 3. -/
  baseline : Nat
  /-- hours learnt toward the baseline (17 R493); 8 bits; reset DESIGN CHOICE 0, log 3. -/
  blHours : Nat
  /-- sum of hourly means learnt (17 R493); 32 bits; reset DESIGN CHOICE 0, log 3. -/
  blSum : Nat
  /-- time of the present hour at REF_SPEED, ns (17 R493); 42 bits; reset DESIGN CHOICE 0, log 3. -/
  refNs : Nat
  /-- samples of the present hour at REF_SPEED (17 R493); 32 bits; reset DESIGN CHOICE 0, log 3. -/
  refN : Nat
  /-- sum of the current samples of the present hour at REF_SPEED, 10 mA (17 R493); 48 bits; reset DESIGN CHOICE 0, log 3. -/
  refSum : Nat
  /-- samples in the sum learnt (17 R493); 48 bits; reset DESIGN CHOICE 0, log 3. -/
  blN : Nat
  /-- last hourly mean, 10 mA (17 R494); 16 bits; reset DESIGN CHOICE 0, log 3. -/
  hourly : Nat
  /-- device time of the last hourly check (17 R493); 64 bits; reset 0. -/
  hourAt : Nat
  /-- REF_SPEED, rpm (17 R493); 16 bits; reset DESIGN CHOICE 0, log 3. -/
  refSpeed : Nat
  /-- wear flag (17 R494); 1 bit; reset 0. -/
  wear : Bool
  /-- the drive in the health record in force in MRAM: counters, baseline, hours, sum and samples learnt, hourly mean, REF_SPEED (17 R493); 12 x 32 bits; reset DESIGN CHOICE 0, log 3. -/
  kept : List Nat
deriving DecidableEq, Repr

/-- Drive right after reset (INVENTORY.md, State). -/
def Drive.reset : Drive :=
  { cfg := none,
    state := 0,
    target := 0,
    speed := 0,
    duty := 0,
    dutyLim := false,
    current := 0,
    sector := 0,
    pulse := false,
    crossings := 0,
    misses := 0,
    stepNs := 0,
    steps := [],
    lastComm := 0,
    stateAt := 0,
    dutyAcc := 0,
    lastCross := 0,
    ratio := 0,
    tries := [],
    cause := 0,
    hvRestart := false,
    lockouts := [],
    refresh := [false, false, false],
    stopped := false,
    counters := (List.replicate 6 0),
    baseline := 0,
    blHours := 0,
    blSum := 0,
    hourly := 0,
    refSpeed := 0,
    wear := false,
    commAt := 0,
    rampSteps := 0,
    refAcc := 0,
    phaseDuty := [0, 0, 0],
    pwmAt := 0,
    locked := [false, false, false],
    runNs := 0,
    blN := 0,
    refSum := 0,
    refN := 0,
    refNs := 0,
    hourAt := 0,
    kept := (List.replicate 12 0) }

/-- The cooling group (R480..R496). -/
structure Cool where
  /-- drives A, B (17 R480); 2; reset Off. -/
  drives : List Drive
  /-- VDD_HV good as the pre-drivers see it (17 R494); 1 bit; reset 0. -/
  hvGood : Bool
  /-- cooling degraded (17 R489); 1 bit; reset 0. -/
  degraded : Bool
deriving DecidableEq, Repr

/-- Cool right after reset (INVENTORY.md, State). -/
def Cool.reset : Cool :=
  { drives := (List.replicate 2 Drive.reset),
    hvGood := false,
    degraded := false }

/-- A clock loop (R497..R504). -/
structure Loop where
  /-- 0 acquiring, 1 Locked, 2 Lost, 3 retired (18 R516); 2 bits; reset 0. -/
  state : Nat
  /-- consecutive in-tolerance windows (18 R502); 2 bits; reset 0. -/
  good : Nat
  /-- last window count difference (18 R516); 16 bits; reset 0. -/
  diff : Int
  /-- suspect at the last XREF edge (18 R503); 1 bit; reset 0. -/
  suspect : Bool
  /-- lifetime losses (18 R516); 16 bits; reset DESIGN CHOICE 0, log 3. -/
  losses : Nat
  /-- device times of losses in the last hour (18 R504); stamps; reset 0 (none). -/
  lostAt : List Nat
  /-- device time of the end of the last window (18 R502); 64 bits; reset 0. -/
  winAt : Nat
deriving DecidableEq, Repr

/-- Loop right after reset (INVENTORY.md, State). -/
def Loop.reset : Loop :=
  { state := 0,
    good := 0,
    diff := 0,
    suspect := false,
    losses := 0,
    lostAt := [],
    winAt := 0 }

/-- The clocks group (R497..R517). -/
structure Clk where
  /-- P0, P1 (18 R497); 2; reset acquiring. -/
  loops : List Loop
  /-- main loop, 0xFF none (18 R516); 8 bits; reset 0xFF. -/
  main : Nat
  /-- XREF present (18 R498); 1 bit; reset DESIGN CHOICE 1, log 3. -/
  xref : Bool
  /-- f_XREF configured (18 R516); 32 bits; reset DESIGN CHOICE 25 MHz, log 3. -/
  xrefHz : Nat
  /-- f_XREF applied at the last device reset (18 R498); 32 bits; reset DESIGN CHOICE 25 MHz, log 3. -/
  xrefInUse : Nat
  /-- consecutive XREF edges at which both loops were suspect (18 R508); 8 bits; reset 0. -/
  bothSus : Nat
  /-- source of each output: 0 main, 1 standby, 2 ring oscillator, 3 disabled (18 R516); 12 x 2 bits; reset 2 for the spine (ring oscillator, R51), 3 for the others (their domains are off, R500). -/
  sources : List Nat
  /-- loop that an output is enabled on: 0 main, 1 the other (18 R511); 12 x 1 bit; reset 0. -/
  pick : (List Nat)
  /-- ring-oscillator frequency, kHz (18 R516); 32 bits; reset DESIGN CHOICE 0, log 3. -/
  roKhz : Nat
  /-- hottest control-die sensor, 0.1 C (18 R516); 16 bits; reset DESIGN CHOICE 0, log 3. -/
  tCtl : Int
  /-- hottest interface-die sensor, 0.1 C (18 R516); 16 bits; reset DESIGN CHOICE 0, log 3. -/
  tIf : Int
  /-- temperature difference, 0.25 K (18 R514); 16 bits; reset 0. -/
  delta : Nat
  /-- device time of the last evaluation (18 R514); 64 bits; reset 0. -/
  regionAt : Nat
  /-- consecutive evaluations at or above 40.25 K (18 R514); 8 bits; reset 0. -/
  hot : Nat
  /-- consecutive evaluations below (18 R514); 8 bits; reset 0. -/
  cool : Nat
  /-- region flag (18 R514); 1 bit; reset 0. -/
  region : Bool
  /-- lifetime switchovers (18 R516); 16 bits; reset DESIGN CHOICE 0, log 3. -/
  switches : Nat
  /-- device time of the last switchover (18 R516); 64 bits; reset DESIGN CHOICE 0, log 3. -/
  lastSwitch : Nat
deriving DecidableEq, Repr

/-- Clk right after reset (INVENTORY.md, State). -/
def Clk.reset : Clk :=
  { loops := (List.replicate 2 Loop.reset),
    main := 255,
    xref := true,
    xrefHz := 25000000,
    xrefInUse := 25000000,
    bothSus := 0,
    sources := (2 :: List.replicate 11 3),
    roKhz := 0,
    tCtl := 0,
    tIf := 0,
    delta := 0,
    hot := 0,
    cool := 0,
    region := false,
    switches := 0,
    lastSwitch := 0,
    pick := (List.replicate 12 0),
    regionAt := 0 }

/-- A life-cycle transition in progress (R546). -/
structure LcPend where
  /-- from code (19 R546); 8 bits; reset none. -/
  lcFrom : Nat
  /-- to code (19 R546); 8 bits; reset none. -/
  lcTo : Nat
  /-- the pending record is committed (19 R546); 1 bit; reset none. -/
  recorded : Bool
deriving DecidableEq, Repr

/-- LcPend right after reset (INVENTORY.md, State). -/
def LcPend.reset : LcPend :=
  { lcFrom := 0,
    lcTo := 0,
    recorded := false }

/-- The memory group (R518..R546). -/
structure MemSys where
  /-- SRAM: bytes that differ from 0 (19 R518); 6 MB; reset 0 (wiped, R50). -/
  sram : Mem
  /-- MRAM: bytes that differ from 0 (19 R518); 16 MB; reset DESIGN CHOICE 0, log 2. -/
  mram : Mem
  /-- life-cycle code (19 R542); 8 bits; reset DESIGN CHOICE 0 (Blank), log 3. -/
  lc : Nat
  /-- transition in progress (19 R546); struct; reset 0 (none). -/
  lcPend : Option LcPend
  /-- serial number (19 R538); 64 bits; reset none set. -/
  serial : Option (List Byte)
  /-- owner public key (19 R538); 776 bits; reset none. -/
  ownerKey : Option (List Byte)
  /-- a device key exists in the fuse bank (19 R533); 256 bits; reset DESIGN CHOICE none, log 3. -/
  devKey : Bool
  /-- nonce of the latest challenge and its device time (19 R544); 128 bits; reset 0 (none). -/
  nonce : Option (List Byte × Nat)
  /-- supervisor boot slot (19 R541); 1 bit; reset DESIGN CHOICE A, log 3. -/
  bootSup : Nat
  /-- application boot slot (19 R541); 1 bit; reset DESIGN CHOICE A, log 3. -/
  bootApp : Nat
  /-- supervisor slots verified (19 R543); 2 bits; reset DESIGN CHOICE 0, log 3. -/
  verSup : List Bool
  /-- application slots verified (19 R531); 2 bits; reset DESIGN CHOICE 0, log 3. -/
  verApp : List Bool
  /-- security version minimum, kinds 0 and 1 (19 R532); 2 x 32 bits; reset DESIGN CHOICE 0, log 3. -/
  secMin : List Nat
  /-- version of slots: supervisor A, B, application A, B (19 R530); 4 x 32 bits; reset DESIGN CHOICE 0, log 3. -/
  slotVer : List Nat
  /-- security version of the slots (19 R530); 4 x 32 bits; reset DESIGN CHOICE 0, log 3. -/
  slotSec : List Nat
  /-- spare rows left (19 R541); 24 x 8 bits; reset 64 (R519). -/
  rowSpares : List Nat
  /-- spliced rows: bank, row, spare row (19 R529); map; reset DESIGN CHOICE none, log 3. -/
  rowMap : List (Nat × Nat × Nat)
  /-- corrections per bank and row in the last 24 h (19 R522); stamps; reset 0 (none). -/
  rowErrs : List (Nat × Nat × List Nat)
  /-- corrections per MRAM sector in the last 24 h (19 R524); stamps; reset 0 (none). -/
  secErrs : List (Nat × List Nat)
  /-- spare sectors left (19 R541); 16 bits; reset 205 (R524). -/
  secSpares : Nat
  /-- spliced sectors: sector, spare (19 R529); map; reset DESIGN CHOICE none, log 3. -/
  secMap : List (Nat × Nat)
  /-- memory degraded (19 R523); 1 bit; reset 0. -/
  degraded : Bool
  /-- device time of the last scrub cycle completed (19 R541); 64 bits; reset 0. -/
  scrubAt : Nat
  /-- a stored change waits for the block image commit (19 R528); 1 bit; reset 0. -/
  blockDirty : Bool
  /-- a block image commit runs (19 R528); 1 bit; reset 0. -/
  blockBusy : Bool
  /-- block image in force: opcode and payload of each stored configuration command (19 R528); image; reset DESIGN CHOICE none, log 3. -/
  block : List (Nat × List Byte)
  /-- held replies of the block image that a running commit covers (19 R528); count; reset 0 (none). -/
  blockAck : Nat
  /-- the other copy (19 R527); image; reset DESIGN CHOICE none, log 3. -/
  blockPrev : List (Nat × List Byte)
  /-- running configuration of the stored groups (19 R528); image; reset 0 (none). -/
  blockNext : List (Nat × List Byte)
  /-- the configuration captured by a running commit (19 R528); image; reset 0 (none). -/
  blockCap : List (Nat × List Byte)
  /-- health counters with a count: index and value (19 R537); counters; reset DESIGN CHOICE 0, log 3. -/
  health : List (Nat × Nat)
  /-- the health record in force in MRAM (19 R537); counters; reset DESIGN CHOICE 0, log 3. -/
  healthStored : List (Nat × Nat)
  /-- device time of the last powered hour counted (19 R537); 64 bits; reset 0. -/
  hoursAt : Nat
  /-- JTAG instruction in force: 0 EXTEST, 1 SAMPLE/PRELOAD, 2 IDCODE, 3 BYPASS, 4 other (21 R577); 8 bits; reset DESIGN CHOICE IDCODE, log 3. -/
  jtagIr : Nat
  /-- data register selected by the JTAG instruction as captured: IDCODE, or 0 of the bypass register (21 R577); 32 bits; reset 0. -/
  jtagDr : Nat
  /-- pins driven by EXTEST (21 R577); pins; reset 0 (none). -/
  extestPins : List (Nat × Bool)
deriving DecidableEq, Repr

/-- MemSys right after reset (INVENTORY.md, State). -/
def MemSys.reset : MemSys :=
  { sram := [],
    mram := [],
    lc := 0,
    lcPend := none,
    serial := none,
    ownerKey := none,
    devKey := false,
    nonce := none,
    bootSup := 0,
    bootApp := 0,
    verSup := [false, false],
    verApp := [false, false],
    secMin := [0, 0],
    slotVer := [0, 0, 0, 0],
    slotSec := [0, 0, 0, 0],
    rowSpares := (List.replicate 24 64),
    rowMap := [],
    rowErrs := [],
    secErrs := [],
    secSpares := 205,
    secMap := [],
    degraded := false,
    scrubAt := 0,
    blockDirty := false,
    blockBusy := false,
    block := [],
    blockAck := 0,
    blockPrev := [],
    blockNext := [],
    blockCap := [],
    health := [],
    healthStored := [],
    jtagIr := 2,
    extestPins := [],
    hoursAt := 0,
    jtagDr := 0 }

/-- A sealed block (R553). -/
structure Sealed where
  /-- sequence number (20 R553); 32 bits; reset none. -/
  seq : Nat
  /-- event records (20 R553); 63 x 32 bytes; reset none. -/
  events : List (List Byte)
  /-- cause (20 R553); 8 bits; reset none. -/
  cause : Nat
  /-- flags (20 R553); 8 bits; reset none. -/
  sflags : Nat
  /-- events lost since the previous block (20 R553); 32 bits; reset none. -/
  lost : Nat
  /-- hash in the seal record (20 R553); 128 bits; reset none. -/
  hash : List Byte
deriving DecidableEq, Repr

/-- Sealed right after reset (INVENTORY.md, State). -/
def Sealed.reset : Sealed :=
  { seq := 0,
    events := [],
    cause := 0,
    sflags := 0,
    lost := 0,
    hash := (List.replicate 16 0) }

/-- The husk keeper (R547..R562). -/
structure Husk where
  /-- 0 Main, 1 Burst, 2 Holdup, 3 RTC only, 4 Dark (20 R549); 3 bits; reset DESIGN CHOICE Dark (no supply yet), log 3. -/
  state : Nat
  /-- KEEP_OUT enable (20 R560); 1 bit; reset 0. -/
  keepEn : Bool
  /-- C_LS, 0.01 F (20 R560); 16 bits; reset 100. -/
  cLs : Nat
  /-- VLS_MAX, 0.01 V (20 R560); 16 bits; reset 500. -/
  vlsMax : Nat
  /-- COMMIT_LINES (20 R560); 16 bits; reset 0. -/
  commitLines : Nat
  /-- SEAL_MASK (20 R560); 16 bits; reset 0x0000_E519. -/
  sealMask : Nat
  /-- copy of the configuration in the health record (20 R559); record; reset DESIGN CHOICE none, log 3. -/
  cfgStored : Option (List Nat)
  /-- VQS, mV (20 R561); 16 bits; reset DESIGN CHOICE 0, log 3. -/
  vqs : Nat
  /-- VLS, mV (20 R561); 16 bits; reset DESIGN CHOICE 0, log 3. -/
  vls : Nat
  /-- store that the husk charges from VDD_IO: 0 none, 1 VQS at 10 mA, 2 VLS at 24 mA (20 R548); 2 bits; reset 0 (VDD_IO not good). -/
  charging : Nat
  /-- VQS ready (20 R548); 1 bit; reset not ready (R548). -/
  vqsReady : Bool
  /-- HUSK_PG (20 R548); 1 pin; reset deasserted. -/
  pg : Bool
  /-- KEEP_OUT ready (20 R548); 1 bit; reset not ready. -/
  keepReady : Bool
  /-- KEEP_OUT (20 R548); 1 pin; reset off. -/
  keepOn : Bool
  /-- harvester running (20 R550); 1 bit; reset 0. -/
  teg : Bool
  /-- TEG open-circuit voltage, 0.1 mV (20 R561); 16 bits; reset DESIGN CHOICE 0, log 3. -/
  tegMv : Nat
  /-- harvested power, 0.1 uW (20 R561); 32 bits; reset DESIGN CHOICE 0, log 3. -/
  tegUw : Nat
  /-- device time of the last open-circuit measurement (20 R550); 64 bits; reset 0. -/
  tegAt : Nat
  /-- TX_GATE driven by the husk (20 R550); 1 pin; reset 0. -/
  txGate : Bool
  /-- RTC, device time in ns (20 R551); 64 bits; reset 0 (time lost). -/
  rtc : Nat
  /-- device time of the last RTC write (20 R561); 64 bits; reset 0. -/
  rtcWritten : Nat
  /-- RTC rate trim, 0.1 ppm (20 R551); 16 bits; reset DESIGN CHOICE 0, log 3. -/
  rtcTrim : Int
  /-- time marked lost (20 R552); 1 bit; reset 1 (D0 power-on). -/
  timeLost : Bool
  /-- D0 runs (20 R548); 1 bit; reset 0. -/
  d0Up : Bool
  /-- open block (20 R554); struct; reset empty. -/
  opn : Sealed
  /-- full block waiting to be written (20 R554); struct; reset 0 (none). -/
  buf2 : Option Sealed
  /-- sealed blocks retained, oldest first (20 R553); 1,024 blocks; reset DESIGN CHOICE none, log 3. -/
  blocks : List Sealed
  /-- hash of the block closed last (20 R553); 128 bits; reset 0 (block 0's). -/
  lastHash : List Byte
  /-- block that a running burst writes (20 R556); struct; reset 0 (none). -/
  sealing : Option Sealed
  /-- events lost since the previous block (20 R553); 32 bits; reset 0. -/
  lostEvents : Nat
  /-- events lost since Ready (20 R561); 16 bits; reset 0. -/
  lostSinceReady : Nat
  /-- D0 has been restarted since the last Ready (20 R554); 1 bit; reset 1. -/
  d0Restarted : Bool
  /-- husk events to deliver to the rings at the next Ready (20 R562); records; reset 0 (none). -/
  waiting : List (List Byte)
  /-- burst in progress: 0 none, 1 seal from VQS, 2 seal from VLS, 3 no seal (20 R555); 2 bits; reset 0. -/
  sealFrom : Nat
  /-- a commit burst is funded (20 R555); 1 bit; reset 0. -/
  commitBurst : Bool
  /-- a power failure is in progress (20 R556); 1 bit; reset 0. -/
  powerFail : Bool
deriving DecidableEq, Repr

/-- Husk right after reset (INVENTORY.md, State). -/
def Husk.reset : Husk :=
  { state := 4,
    keepEn := false,
    cLs := 100,
    vlsMax := 500,
    commitLines := 0,
    sealMask := 0xE519,
    cfgStored := none,
    vqs := 0,
    vls := 0,
    vqsReady := false,
    pg := false,
    keepReady := false,
    keepOn := false,
    teg := false,
    tegMv := 0,
    tegUw := 0,
    txGate := false,
    rtc := 0,
    rtcWritten := 0,
    timeLost := true,
    d0Up := false,
    opn := Sealed.reset,
    buf2 := none,
    blocks := [],
    lastHash := (List.replicate 16 0),
    sealing := none,
    lostEvents := 0,
    lostSinceReady := 0,
    d0Restarted := true,
    waiting := [],
    sealFrom := 0,
    commitBurst := false,
    powerFail := false,
    charging := 0,
    tegAt := 0,
    rtcTrim := 0 }

/-- The whole block: the device, its husk, and the queue of waiting commands. -/
structure State where
  /-- commands waiting, first in, first out (model's own); queue; reset 0 (empty). -/
  pending : List Instr
  /-- device time, ns, once it is loaded; before the load the count of the husk's RTC that the load will take (00 R14,R15); 64 bits; reset 0. -/
  time : Nat
  /-- TIME_VALID (03 R80); 1 bit; reset 0. -/
  timeValid : Bool
  /-- device time has been loaded since reset (00 R15); 1 bit; reset 0. -/
  timeLoaded : Bool
  /-- first instant at which the next safety tick may fall (00 R593); 64 bits; reset 0. -/
  nextTick : Nat
  /-- counter of free values drawn (values the spec leaves open) (free value); model's own; reset DESIGN CHOICE 0, log 1. -/
  freeCtr : Nat
  /-- supplies, reset, start-up (02); struct; reset see Sys. -/
  sys : Sys
  /-- host interfaces and freeze (03); struct; reset see HostIf. -/
  host : HostIf
  /-- escape port (03 R83); struct; reset see Escape. -/
  esc : Escape
  /-- rings (03 R72,R590); 64; reset R590's table. -/
  rings : List Ring
  /-- command processor (03); struct; reset see Cmd. -/
  cmd : Cmd
  /-- modes (04); struct; reset see Modes. -/
  modes : Modes
  /-- Sheaf table and control engine (05,06); struct; reset see Engine. -/
  eng : Engine
  /-- profile generators (06 R174); 32; reset see Gen. -/
  gens : List Gen
  /-- grid group (07); struct; reset see Grid. -/
  grid : Grid
  /-- fault ride-through (08); struct; reset see Rt. -/
  rt : Rt
  /-- DC-link defence (08); struct; reset see Dcl. -/
  dcl : Dcl
  /-- islanding detection (09); struct; reset see Isl. -/
  isl : Isl
  /-- ports (10); struct; reset see Ports. -/
  ports : Ports
  /-- PWM (11); struct; reset see Pwm. -/
  pwm : Pwm
  /-- sensing (12); struct; reset see Sense. -/
  sense : Sense
  /-- protection (13); struct; reset see Prot. -/
  prot : Prot
  /-- recorder (14); struct; reset see Rec. -/
  recorder : Rec
  /-- safety (15); struct; reset see Safety. -/
  safety : Safety
  /-- network (16); struct; reset see Net. -/
  net : Net
  /-- cooling (17); struct; reset see Cool. -/
  cool : Cool
  /-- clocks (18); struct; reset see Clk. -/
  clk : Clk
  /-- memory and life cycle (19); struct; reset see MemSys. -/
  mem : MemSys
  /-- husk keeper (20); struct; reset see Husk. -/
  husk : Husk
deriving DecidableEq, Repr

/-- The machine right after reset: every field at the value the spec states for reset (spec/02_startup_reset.md R47, R53 to R55 and
the chapters of each group), and every other field at the value notes/assumptions/3.md names. -/
def State.reset : State :=
  { pending := [],
    time := 0,
    timeValid := false,
    timeLoaded := false,
    nextTick := 0,
    freeCtr := 0,
    sys := Sys.reset,
    host := HostIf.reset,
    esc := Escape.reset,
    rings := Ring.resetAll,
    cmd := Cmd.reset,
    modes := Modes.reset,
    eng := Engine.reset,
    gens := (List.replicate 32 Gen.reset),
    grid := Grid.reset,
    rt := Rt.reset,
    dcl := Dcl.reset,
    isl := Isl.reset,
    ports := Ports.reset,
    pwm := Pwm.reset,
    sense := Sense.reset,
    prot := Prot.reset,
    recorder := Rec.reset,
    safety := Safety.reset,
    net := Net.reset,
    cool := Cool.reset,
    clk := Clk.reset,
    mem := MemSys.reset,
    husk := Husk.reset }


end Sys2Proof.Machine
end

