-- ==== Sys2Proof/Machine/Operands.lean ====
section
/-! DEFINITION. Operand forms: fields of payloads, records and registers (little-endian, spec/00_scope.md R7), number formats
(R11 to R13), the CRCs, range checks, and the address map with each master's rights. -/

namespace Sys2Proof.Machine

/-- Bits [hi:lo] of a value (R6). -/
def bits (v hi lo : Nat) : Nat := v / 2 ^ lo % 2 ^ (hi - lo + 1)

/-- Bit i of a value. -/
def bit (v i : Nat) : Bool := v / 2 ^ i % 2 == 1

/-- A flag as bit i of a value. -/
def flagAt (b : Bool) (i : Nat) : Nat := if b then 2 ^ i else 0

/-- Byte i of a byte string, 0 past its end. -/
def u8 (bs : List Byte) (i : Nat) : Nat := (bs.getD i 0).toNat

/-- The n-byte little-endian field at offset i. -/
def uN : Nat → List Byte → Nat → Nat
  | 0, _, _ => 0
  | n + 1, bs, i => u8 bs i + 256 * uN n bs (i + 1)

/-- The 16-bit field at offset i. -/
def u16 (bs : List Byte) (i : Nat) : Nat := uN 2 bs i
/-- The 32-bit field at offset i. -/
def u32 (bs : List Byte) (i : Nat) : Nat := uN 4 bs i
/-- The 64-bit field at offset i. -/
def u64 (bs : List Byte) (i : Nat) : Nat := uN 8 bs i

/-- Two's complement: the integer that the low w bits of v stand for. -/
def signed (w v : Nat) : Int :=
  let m := v % 2 ^ w
  if m < 2 ^ (w - 1) then (m : Int) else (m : Int) - 2 ^ w

/-- The signed 16-bit field at offset i. -/
def s16 (bs : List Byte) (i : Nat) : Int := signed 16 (u16 bs i)
/-- The signed 32-bit field at offset i. -/
def s32 (bs : List Byte) (i : Nat) : Int := signed 32 (u32 bs i)

/-- The low w bits of an integer, as a natural number. -/
def wrap (w : Nat) (i : Int) : Nat := (i % (2 ^ w : Int)).toNat

/-- The n little-endian bytes of a value. -/
def le : Nat → Nat → List Byte
  | 0, _ => []
  | n + 1, v => BitVec.ofNat 8 (v % 256) :: le n (v / 256)

/-- The n little-endian bytes of a two's complement integer. -/
def leI (n : Nat) (v : Int) : List Byte := le n (wrap (8 * n) v)

/-- n zero bytes: reserved fields (R10). -/
def zeros (n : Nat) : List Byte := List.replicate n 0

/-- The n bytes from offset i, zero past the end. -/
def slice (bs : List Byte) (i n : Nat) : List Byte :=
  let l := (bs.drop i).take n
  l ++ List.replicate (n - l.length) 0

/-- A byte string cut or padded with zeros to n bytes. -/
def fit (n : Nat) (bs : List Byte) : List Byte := slice bs 0 n

/-- A byte string with the bytes v written from offset i. -/
def patch (bs : List Byte) (i : Nat) (v : List Byte) : List Byte := bs.take i ++ v ++ bs.drop (i + v.length)

/-- Element i of a list changed by f; the list itself when there is none. -/
def upd {α : Type} (l : List α) (i : Nat) (f : α → α) : List α := l.modify i f

/-- A counter that holds at its limit. -/
def satInc (lim v : Nat) : Nat := if v < lim then v + 1 else lim

/-- The signed value held within 16 bits. -/
def sat16 (v : Int) : Int := if v < -32768 then -32768 else if 32767 < v then 32767 else v

/-- The Q15 value of an A40 accumulator: round to nearest, ties up, then saturate (spec/00_scope.md R13). -/
def a40ToQ15 (a : Int) : Int := sat16 ((a + 2 ^ 15) / 2 ^ 16)

/-- Whether the conversion of R13 saturates. -/
def a40Sats (a : Int) : Bool := decide ((a + 2 ^ 15) / 2 ^ 16 ≠ a40ToQ15 a)

/-! ### Range checks of a payload (step 10 of R63): the offset of the first offending byte -/

/-- One check: the payload offset of the byte it speaks of, and whether it holds. -/
abbrev Check := Nat × Bool

/-- The offset of the first offending byte: the least among the checks that fail (spec/03_command_interface.md R61). -/
def firstBad : List Check → Option Nat
  | [] => none
  | (o, ok) :: r => if ok then firstBad r else some ((firstBad r).elim o (min o))

/-- Start and end of the SRAM region that holds an address (R86). -/
def sramRegion (a : Nat) : Nat × Nat :=
  (([(0x20000000, 0x20100000), (0x20100000, 0x20300000), (0x20300000, 0x20340000), (0x20340000, 0x20380000), (0x20380000, 0x20400000),
    (0x20400000, 0x20480000)] : List (Nat × Nat)).find? fun r => decide (a < r.2)).getD (0x20480000, 0x20600000)

/-- Reserved bytes [i, i + n) are 0 (R10). -/
def resv (bs : List Byte) (i n : Nat) : List Check := (List.range n).map fun j => (i + j, u8 bs (i + j) == 0)

/-- The byte at i has no bit set outside the mask. -/
def maskB (bs : List Byte) (i mask : Nat) : Check := (i, (u8 bs i &&& (255 ^^^ mask)) == 0)

/-- The byte at i lies in lo..hi. -/
def inB (bs : List Byte) (i lo hi : Nat) : Check := (i, lo ≤ u8 bs i && u8 bs i ≤ hi)

/-- The 16-bit field at i lies in lo..hi. -/
def inH (bs : List Byte) (i lo hi : Nat) : Check := (i, lo ≤ u16 bs i && u16 bs i ≤ hi)

/-- The 32-bit field at i lies in lo..hi. -/
def inW (bs : List Byte) (i lo hi : Nat) : Check := (i, lo ≤ u32 bs i && u32 bs i ≤ hi)

/-- The signed 16-bit field at i lies in lo..hi. -/
def inS (bs : List Byte) (i : Nat) (lo hi : Int) : Check := (i, decide (lo ≤ s16 bs i) && decide (s16 bs i ≤ hi))

/-- A big-endian number. -/
def beNat (bs : List Byte) : Nat := bs.foldl (fun n b => 256 * n + b.toNat) 0

/-- Whether 97 bytes are an uncompressed point of the curve P-384, which the spec names for MEM_KEY_INSTALL
(spec/19_memory_lifecycle_spares.md, R538): 0x04, x and y, with y² = x³ − 3x + b modulo p. PRESUMED: the curve's constants and the form of
an uncompressed point are those of its public standard, which the spec does not print (notes/assumptions/43.md); unsafe if another form is
meant. -/
def onP384 (k : List Byte) : Bool :=
  let p := 2 ^ 384 - 2 ^ 128 - 2 ^ 96 + 2 ^ 32 - 1
  let b := 0xB3312FA7E23EE7E4988E056BE3F82D19181D9C6EFE8141120314088F5013875AC656398D8A2ED19D2A85C8EDD3EC2AEF
  let x := beNat (slice k 1 48)
  let y := beNat (slice k 49 48)
  u8 k 0 == 4 && decide (x < p) && decide (y < p) && (y * y + 3 * x) % p == (x * x * x + b) % p

/-! ### CRCs -/

/-- One byte of a reflected CRC with the given polynomial. -/
def crcBits (poly : Nat) : Nat → Nat → Nat
  | 0, c => c
  | n + 1, c => crcBits poly n (if c % 2 = 1 then (c / 2) ^^^ poly else c / 2)

/-- A reflected 32-bit CRC: initial value and final XOR all ones. -/
def crcReflected (poly : Nat) (bs : List Byte) : Nat :=
  (bs.foldl (fun c b => crcBits poly 8 (c ^^^ b.toNat)) 0xFFFFFFFF) ^^^ 0xFFFFFFFF

/-- CRC-32C (spec/03_command_interface.md R60). -/
def crc32c (bs : List Byte) : Nat := crcReflected 0x82F63B78 bs

/-! ### The address map (spec/19_memory_lifecycle_spares.md R518, R525) and access rights (spec/03_command_interface.md R86) -/

/-- A region of R86. -/
inductive Region where
  | bootRom | mram | supervisorSram | recorderSram | sheafSram | engineSram | networkSram | hostSram | appSram | systemRegs | otherRegs
deriving DecidableEq, Repr

/-- The region that holds an address, if any (R86, R518). -/
def regionOf (a : Nat) : Option Region :=
  if a < 0x80000 then some .bootRom
  else if 0x10000000 ≤ a ∧ a < 0x11000000 then some .mram
  else if 0x20000000 ≤ a ∧ a < 0x20100000 then some .supervisorSram
  else if 0x20100000 ≤ a ∧ a < 0x20300000 then some .recorderSram
  else if 0x20300000 ≤ a ∧ a < 0x20340000 then some .sheafSram
  else if 0x20340000 ≤ a ∧ a < 0x20380000 then some .engineSram
  else if 0x20380000 ≤ a ∧ a < 0x20400000 then some .networkSram
  else if 0x20400000 ≤ a ∧ a < 0x20480000 then some .hostSram
  else if 0x20480000 ≤ a ∧ a < 0x20600000 then some .appSram
  else if 0x40000000 ≤ a ∧ a < 0x40010000 then some .systemRegs
  else if 0x40010000 ≤ a ∧ a < 0x40100000 then some .otherRegs
  else none

/-- Whether a master other than the debug unit may read (w false) or write (w true) a region (R86). The recorder's write into the
host window and the application partition is limited to buffers of recorder rings, which the recorder's own operations keep to. -/
def mayAccess (m : Nat) (w : Bool) (r : Region) : Bool :=
  match m with
  | 0 => match r with | .bootRom => !w | _ => true
  | 1 => match r with | .sheafSram => !w | .engineSram => true | _ => false
  | 2 => match r with | .recorderSram => true | .hostSram => w | .appSram => w | _ => false
  | 3 => match r with | .networkSram => true | _ => false
  | 4 => match r with
    | .recorderSram => !w | .sheafSram => true | .networkSram => true | .appSram => true | .systemRegs => true | _ => false
  | 5 => match r with | .recorderSram => !w | .hostSram => true | .systemRegs => true | _ => false
  | _ => false

/-- The debug unit's rights follow the life cycle (R86): full access in Blank, Manufacture and Return; those of masters 4 and 5
together in Provisioned; none in Field and Decommissioned. -/
def debugMay (lc : Nat) (w : Bool) (r : Region) : Bool :=
  if lc = 0 ∨ lc = 1 ∨ lc = 4 then mayAccess 0 w r
  else if lc = 2 then mayAccess 4 w r || mayAccess 5 w r
  else false

/-- Whether master m may access address a in life-cycle state lc. Every master may read the status window (R77), but for a debug unit that the life
cycle shuts out (R86). -/
def allowedAt (lc m : Nat) (w : Bool) (a : Nat) : Bool :=
  match regionOf a with
  | none => false
  | some r => if !w && 0x40000200 ≤ a && a < 0x40000240 && m != 6 then true else if m = 6 then debugMay lc w r else mayAccess m w r

/-- Whether [a, a + n) lies in one SRAM region that both masters may read and write (R73, R94). -/
def sharedArea (m₁ m₂ a n : Nat) : Bool :=
  match regionOf a with
  | none => false
  | some r =>
    (0x20000000 ≤ a && a + n ≤ 0x20600000) && regionOf (a + n - 1) == some r &&
    (mayAccess m₁ true r || mayAccess m₁ false r) && (mayAccess m₂ true r || mayAccess m₂ false r)

end Sys2Proof.Machine
end

