-- ==== Sys2Proof/Machine/Float.lean ====
section
/-! DEFINITION. IEEE 754 binary32 as spec/06_control_engine.md R595 asks: each operation correctly rounded to nearest, ties to even,
subnormals kept, no fused operation. Values are carried as their 32-bit patterns. What sign and payload a NaN result has is not stated: they
are free (DESIGN CHOICE, notes/assumptions/7.md). -/

namespace Sys2Proof.Machine

/-- The 32 bits of a binary32 value. -/
abbrev F32 := BitVec 32

/-- A binary32 value taken apart: finite values are ± m × 2^e. -/
inductive FVal where
  | nan
  | inf (neg : Bool)
  | fin (neg : Bool) (m : Nat) (e : Int)
deriving DecidableEq, Repr

/-- The value a pattern stands for. -/
def F32.val (x : F32) : FVal :=
  let v := x.toNat
  let neg := bit v 31
  let ex := bits v 30 23
  let fr := bits v 22 0
  if ex = 255 then (if fr = 0 then .inf neg else .nan)
  else if ex = 0 then .fin neg fr (-149)
  else .fin neg (fr + 2 ^ 23) ((ex : Int) - 150)

/-- The pattern of an infinity. -/
def F32.infOf (neg : Bool) : F32 := if neg then 0xFF800000 else 0x7F800000

/-- The NaN that an invalid operation gives: some NaN, its sign and payload free. -/
def F32.nanV : F32 :=
  let p := Config.nanBits &&& 0x807FFFFF
  if p &&& 0x7FFFFF = 0 then 0x7FC00000 else 0x7F800000 ||| p

/-- (q, sticky) of num / (den × 2^s), s possibly negative: the quotient's floor and whether a remainder is left. -/
def divShift (num den : Nat) (s : Int) : Nat × Bool :=
  match s with
  | .ofNat k => (num / (den * 2 ^ k), decide (num % (den * 2 ^ k) ≠ 0))
  | .negSucc k => (num * 2 ^ (k + 1) / den, decide (num * 2 ^ (k + 1) % den ≠ 0))

/-- A finite nonzero value rounded to binary32, nearest, ties to even: q + (a fraction below 1 of it, when st) times 2^e, where q
holds at least 25 significant bits or st is false. -/
def roundF (neg : Bool) (q : Nat) (e : Int) (st : Bool) : F32 :=
  if q = 0 then (if neg then 0x80000000 else 0)
  else
    let l : Int := Nat.log2 q
    let drop : Int := max (l - 23) (-149 - e)
    let (m, rest, half) : Nat × Nat × Nat :=
      match drop with
      | .ofNat k => (q / 2 ^ k, q % 2 ^ k * 2, 2 ^ k)
      | .negSucc k => (q * 2 ^ (k + 1), 0, 1)
    let up := if rest > half ∨ (rest = half ∧ st) then true else if rest = half then m % 2 == 1 else false
    let m := if up then m + 1 else m
    let ee : Int := e + drop
    let sgn := flagAt neg 31
    if m < 2 ^ 23 then BitVec.ofNat 32 (sgn + m)
    else
      let (m, ee) := if m = 2 ^ 24 then (2 ^ 23, ee + 1) else (m, ee)
      let be := ee + 150
      if 255 ≤ be then F32.infOf neg
      else BitVec.ofNat 32 (sgn + be.toNat * 2 ^ 23 + (m - 2 ^ 23))

/-- The nearest binary32 of the rational (if neg, minus) num / den. -/
def ratF (neg : Bool) (num den : Nat) : F32 :=
  if num = 0 then (if neg then 0x80000000 else 0)
  else
    let s : Int := (Nat.log2 num : Int) - (Nat.log2 den : Int) - 26
    let (q, st) := divShift num den s
    roundF neg (2 * q + (if st then 1 else 0)) (s - 1) st

/-- The nearest binary32 of an integer divided by a positive number. -/
def intF (n : Int) (den : Nat) : F32 := ratF (decide (n < 0)) n.natAbs den

/-- Sum of two finite values, exact, then rounded. -/
def addFin (s₁ : Bool) (m₁ : Nat) (e₁ : Int) (s₂ : Bool) (m₂ : Nat) (e₂ : Int) : F32 :=
  let e := min e₁ e₂
  let a : Int := (if s₁ then -1 else 1) * (m₁ * 2 ^ (e₁ - e).toNat : Nat)
  let b : Int := (if s₂ then -1 else 1) * (m₂ * 2 ^ (e₂ - e).toNat : Nat)
  let c := a + b
  if c = 0 then (if s₁ && s₂ then 0x80000000 else 0)
  else roundF (decide (c < 0)) (c.natAbs * 4) (e - 2) false

/-- Addition (R595). -/
def fadd (x y : F32) : F32 :=
  match x.val, y.val with
  | .nan, _ => F32.nanV
  | _, .nan => F32.nanV
  | .inf a, .inf b => if a = b then F32.infOf a else F32.nanV
  | .inf a, _ => F32.infOf a
  | _, .inf b => F32.infOf b
  | .fin s₁ m₁ e₁, .fin s₂ m₂ e₂ => addFin s₁ m₁ e₁ s₂ m₂ e₂

/-- The value with its sign turned: exact. -/
def fneg (x : F32) : F32 := x ^^^ 0x80000000

/-- Subtraction (R595). -/
def fsub (x y : F32) : F32 := fadd x (fneg y)

/-- Multiplication (R595). -/
def fmul (x y : F32) : F32 :=
  match x.val, y.val with
  | .nan, _ => F32.nanV
  | _, .nan => F32.nanV
  | .inf a, .inf b => F32.infOf (a != b)
  | .inf a, .fin b m _ => if m = 0 then F32.nanV else F32.infOf (a != b)
  | .fin a m _, .inf b => if m = 0 then F32.nanV else F32.infOf (a != b)
  | .fin s₁ m₁ e₁, .fin s₂ m₂ e₂ => roundF (s₁ != s₂) (m₁ * m₂ * 4) (e₁ + e₂ - 2) false

/-- Division (R595). -/
def fdiv (x y : F32) : F32 :=
  match x.val, y.val with
  | .nan, _ => F32.nanV
  | _, .nan => F32.nanV
  | .inf _, .inf _ => F32.nanV
  | .inf a, .fin b _ _ => F32.infOf (a != b)
  | .fin a _ _, .inf b => if a != b then 0x80000000 else 0
  | .fin s₁ m₁ e₁, .fin s₂ m₂ e₂ =>
    if m₂ = 0 then (if m₁ = 0 then F32.nanV else F32.infOf (s₁ != s₂))
    else if m₁ = 0 then (if s₁ != s₂ then 0x80000000 else 0)
    else
      let s : Int := (Nat.log2 m₁ : Int) - (Nat.log2 m₂ : Int) - 26
      let (q, st) := divShift m₁ m₂ s
      roundF (s₁ != s₂) (2 * q + (if st then 1 else 0)) (e₁ - e₂ + s - 1) st

/-- Square root by bits: the largest r below 2^n with r × r ≤ v. -/
def isqrt (v : Nat) : Nat := Nat.sqrt v

/-- The largest r with r³ ≤ v, found bit by bit from bit n down. -/
def icbrt (v : Nat) : Nat → Nat → Nat
  | 0, r => r
  | n + 1, r => let r' := r + 2 ^ n; icbrt v n (if r' * r' * r' ≤ v then r' else r)

/-- Square root (R595). -/
def fsqrt (x : F32) : F32 :=
  match x.val with
  | .nan => F32.nanV
  | .inf a => if a then F32.nanV else F32.infOf false
  | .fin s m e =>
    if m = 0 then x
    else if s then F32.nanV
    else
      let (m, e) := if e % 2 = 0 then (m, e) else (2 * m, e - 1)
      let v := m * 2 ^ 60
      let r := isqrt v
      let st := decide (r * r ≠ v)
      roundF false (2 * r + (if st then 1 else 0)) (e / 2 - 31) st

/-- Cube root, correctly rounded (R595). -/
def fcbrt (x : F32) : F32 :=
  match x.val with
  | .nan => F32.nanV
  | .inf a => F32.infOf a
  | .fin s m e =>
    if m = 0 then x
    else
      let k := (e % 3).toNat
      let v := m * 2 ^ k * 2 ^ 90
      let r := icbrt v 42 0
      let st := decide (r * r * r ≠ v)
      roundF s (2 * r + (if st then 1 else 0)) ((e - k) / 3 - 31) st

/-- x < y; false when either is NaN. -/
def flt (x y : F32) : Bool :=
  match x.val, y.val with
  | .nan, _ => false
  | _, .nan => false
  | .inf a, .inf b => a && !b
  | .inf a, .fin _ _ _ => a
  | .fin _ _ _, .inf b => !b
  | .fin s₁ m₁ e₁, .fin s₂ m₂ e₂ =>
    let e := min e₁ e₂
    let a : Int := (if s₁ then -1 else 1) * (m₁ * 2 ^ (e₁ - e).toNat : Nat)
    let b : Int := (if s₂ then -1 else 1) * (m₂ * 2 ^ (e₂ - e).toNat : Nat)
    decide (a < b)

/-- Equal as numbers. -/
def feq (x y : F32) : Bool :=
  match x.val, y.val with
  | .nan, _ => false
  | _, .nan => false
  | _, _ => !flt x y && !flt y x

/-- x ≤ y. -/
def fle (x y : F32) : Bool := flt x y || feq x y

/-- Smaller and larger of two: exact (R595). -/
def fmin (x y : F32) : F32 := if flt y x then y else x
def fmax (x y : F32) : F32 := if flt x y then y else x

/-- x held within lo..hi. -/
def fclamp (x lo hi : F32) : F32 := fmin (fmax x lo) hi

/-- Magnitude: exact. -/
def fabs (x : F32) : F32 := x &&& 0x7FFFFFFF

/-- Sign: −1, 0 or 1 as binary32. -/
def fsign (x : F32) : F32 := if flt x 0 then 0xBF800000 else if flt 0 x then 0x3F800000 else 0

/-- Whether the pattern is a finite number. -/
def ffinite (x : F32) : Bool := bits x.toNat 30 23 != 255

/-- One as binary32. -/
def f1 : F32 := 0x3F800000

/-- The largest integer not above a finite value (0 for others). -/
def ffloor (x : F32) : Int :=
  match x.val with
  | .fin s m e =>
    let v : Int := if s then -(m : Int) else m
    match e with
    | .ofNat k => v * 2 ^ k
    | .negSucc k => v / 2 ^ (k + 1)
  | _ => 0

/-- x mod 1 in [0, 1): exact up to the format (R595). -/
def fmod1 (x : F32) : F32 :=
  match x.val with
  | .fin s m e =>
    match e with
    | .ofNat _ => 0
    | .negSucc k =>
      let d : Nat := 2 ^ (k + 1)
      let v : Int := if s then -(m : Int) else m
      ratF false (v % d).toNat d
  | _ => F32.nanV

/-- wrap of an angle in turns into [−0.5, 0.5). -/
def fwrap (x : F32) : F32 :=
  match x.val with
  | .fin s m e =>
    match e with
    | .ofNat _ => 0
    | .negSucc k =>
      let d : Nat := 2 ^ (k + 1)
      let v : Int := if s then -(m : Int) else m
      let r := v % d
      if 2 * r < d then intF r d else intF (r - d) d
  | _ => F32.nanV

/-- The nearest integer of x × scale, ties to even; 0 for what is no number. -/
def fround (x : F32) (scale : Nat) : Int :=
  match x.val with
  | .fin s m e =>
    let v : Nat := m * scale
    let (n, d) : Nat × Nat := match e with | .ofNat k => (v * 2 ^ k, 1) | .negSucc k => (v, 2 ^ (k + 1))
    let q := n / d
    let r := n % d
    let q := if 2 * r > d ∨ (2 * r = d ∧ q % 2 = 1) then q + 1 else q
    if s then -(q : Int) else q
  | _ => 0

/-- A Q15 count as binary32. -/
def q15F (v : Int) : F32 := intF v 32768

/-- A binary32 rounded to Q15, saturated. -/
def fToQ15 (x : F32) : Int :=
  match x.val with
  | .nan => 0
  | .inf a => if a then -32768 else 32767
  | .fin _ _ _ => sat16 (fround x 32768)

/-- A binary32 in counts of Q15 before saturation: nearest, ties toward +∞; beyond either end for an infinity. -/
def fCounts (x : F32) : Int :=
  match x.val with
  | .nan => 0
  | .inf a => if a then -65536 else 65536
  | .fin s m e =>
    let v : Int := if s then -(m : Int) else m
    match e with
    | .ofNat k => v * 2 ^ k * 32768
    | .negSucc k => (v * 65536 + 2 ^ (k + 1)) / 2 ^ (k + 2)

/-- A binary32 as Q15 under R13: nearest, ties toward +∞, saturated. -/
def fQ15Up (x : F32) : Int := sat16 (fCounts x)

end Sys2Proof.Machine
end

