-- ==== Sys2Proof/Machine/Flags.lean ====
section
/-! DEFINITION. Status codes, the status window, INT_STATUS and its pin, and the degraded flags (spec/03_command_interface.md R64,
R79, R80, R92). -/

namespace Sys2Proof.Machine

/-- The status codes of R64. -/
inductive Status where
  | ok | okDeferred | eOpcode | eLength | eCrc | eRange | eState | eLocked | eAuth | eBusy | eConflict | eEnergy | eLifecycle
  | eNospare | eFrozen | eCombination
deriving DecidableEq, Repr

/-- The code of a status (R64). -/
def Status.code : Status → Nat
  | .ok => 0x0000 | .okDeferred => 0x0001 | .eOpcode => 0x0101 | .eLength => 0x0102 | .eCrc => 0x0103 | .eRange => 0x0104
  | .eState => 0x0105 | .eLocked => 0x0106 | .eAuth => 0x0107 | .eBusy => 0x0108 | .eConflict => 0x0109 | .eEnergy => 0x010A
  | .eLifecycle => 0x010B | .eNospare => 0x010C | .eFrozen => 0x010D | .eCombination => 0x010E

/-- Whether a status says that the command was accepted: only then does it have an effect (R65). -/
def Status.accepted : Status → Bool
  | .ok => true | .okDeferred => true | _ => false

/-- CLOCK_FAULT: running without a locked PLL (R80, spec/18_clocks_islands.md R509). -/
def State.clockFaulty (s : State) : Bool := s.sys.clockFault

/-- CHOP_FAULT: latched, or no chopper leg is configured, or the chopper leg's protection group is latched (spec/08_ride_through.md R245). -/
def State.chopFaultNow (s : State) : Bool :=
  s.dcl.chopFault || s.ports.chopper == 255 || s.prot.groups.any fun g => g.state == 3 && g.legs.contains s.ports.chopper

/-- The degraded flags of SYS_STATUS (R92, offset 232). -/
def State.degradedFlags (s : State) : Nat :=
  flagAt s.sys.modeDegraded 0 + flagAt s.eng.degraded 1 + flagAt s.sys.degradedProt 2 + flagAt s.cool.degraded 3 +
  flagAt s.mem.degraded 4 + flagAt s.chopFaultNow 5 + flagAt s.clk.region 6 + flagAt s.clockFaulty 7

/-- The DOMAIN field: two bits per domain D0..D11 (R80). -/
def State.domainBits (s : State) : Nat :=
  (List.range 12).foldl (fun a d => a + s.sys.domains.getD d 0 * 4 ^ d) 0

/-- FW_MAJOR: the first byte of the version field of the running image; 0 in the boot ROM (R80, R594; DESIGN CHOICE of the byte,
notes/assumptions/8.md). -/
def State.fwMajor (s : State) : Nat := s.sys.fwVersion % 256

/-- Device time as it reads: 0 before the load (R15). -/
def State.now (s : State) : Nat := if s.timeLoaded then s.time else 0

/-- Word i = 0..15 of the status window (R80). -/
def State.windowWord (s : State) (i : Nat) : Nat :=
  if i = 0 then 0x8256 * 2 ^ 16 + s.sys.dieRev % 256 * 2 ^ 8 + s.fwMajor
  else if i = 1 then s.modes.mode % 256 * 2 ^ 16 + s.sys.resetCause % 256 * 2 ^ 8 + s.mem.lc % 16 * 2 ^ 4 +
    flagAt s.timeValid 3 + flagAt s.clockFaulty 2 + flagAt s.sys.recovery 1 + flagAt s.sys.ready 0
  else if i = 2 then s.host.frozen.toNat
  else if i = 3 then s.domainBits
  else if i = 4 then s.now % 2 ^ 32
  else if i = 5 then s.host.timeLatch.toNat
  else 0

/-- The 64 bytes of the status window as SYS_STATUS gives them: words 4 and 5 form one device time (R80, R92). -/
def State.windowBytes (s : State) : List Byte :=
  (List.range 16).flatMap fun i => if i = 5 then le 4 (s.now / 2 ^ 32) else le 4 (s.windowWord i)

/-- A bit of INT_STATUS set; every bit is set on its happening, enabled or not (R79). -/
def State.setInt (i : Nat) (s : State) : State :=
  { s with host := { s.host with intStatus := s.host.intStatus ||| BitVec.ofNat 32 (2 ^ i) } }

/-- The ring that bit i = 0..23 of INT_STATUS speaks of: replies 8..15, events 16..23, records 24..31 (R79). -/
def intRing (i : Nat) : Nat := i + 8

/-- Whether a bit of INT_STATUS is enabled for the host (R79). -/
def State.intEnabled (s : State) (i : Nat) : Bool :=
  if i < 24 then
    let r := s.rings.getD (intRing i) Ring.reset
    r.irq && (i < 8 || r.owner == 5)
  else i < 28

/-- HSPI_IRQ_N: low while a set bit is enabled (R79). -/
def State.hspiIrqN (s : State) : Bool :=
  !(List.range 28).any fun i => bit s.host.intStatus.toNat i && s.intEnabled i

/-- Whether master m is frozen (R87). -/
def State.isFrozen (s : State) (m : Nat) : Bool := bit s.host.frozen.toNat m

end Sys2Proof.Machine
end

