-- ==== Sys2Proof/Machine/TimeStep.lean ====
section
/-! DEFINITION. The instants from which the model counts durations, as a step of device time finds them (spec/00_scope.md R20, R593): a duration goes on
as if device time had not stepped, so its instant moves with it. Stamps that the spec has the device report, and times that a command names, stay. -/

namespace Sys2Proof.Machine

/-- An instant as device time steps by d: 0 is none, and one that would lie before device time 0 lies at 1 ns (notes/assumptions/4.md). -/
def shiftAt (d : Int) (x : Nat) : Nat := if x = 0 then 0 else max 1 ((x : Int) + d).toNat

/-- The instants of a session as device time steps by d. -/
def Session.shift (d : Int) (x : Session) : Session :=
  { x with
    lastUsed := shiftAt d x.lastUsed }

/-- The instants of a transition as device time steps by d. -/
def Trans.shift (d : Int) (x : Trans) : Trans :=
  { x with
    softAt := x.softAt.map (shiftAt d) }

/-- The instants of a pass still to come as device time steps by d. -/
def PassRec.shift (d : Int) (x : PassRec) : PassRec :=
  { x with
    atT := shiftAt d x.atT, ins := x.ins.map fun e => (e.1, e.2.1.map (shiftAt d), shiftAt d e.2.2.1, e.2.2.2) }

/-- The instants of a core splice as device time steps by d. -/
def CoreSplice.shift (d : Int) (x : CoreSplice) : CoreSplice :=
  { x with
    since := shiftAt d x.since }

/-- The instants of the tracker as device time steps by d. -/
def Tracker.shift (d : Int) (x : Tracker) : Tracker :=
  { x with
    reacqUntil := shiftAt d x.reacqUntil, thetaAt := shiftAt d x.thetaAt, jumpFrom := shiftAt d x.jumpFrom
    angles := x.angles.map fun e => (shiftAt d e.1, e.2) }

/-- The instants of the virtual machine as device time steps by d. -/
def Vsm.shift (d : Int) (x : Vsm) : Vsm :=
  { x with
    limitAt := x.limitAt.map (shiftAt d) }

/-- The instants of a chip as device time steps by d. -/
def AwnChip.shift (d : Int) (x : AwnChip) : AwnChip :=
  { x with
    start := shiftAt d x.start }

/-- The instants of a PV port as device time steps by d. -/
def Pv.shift (d : Int) (x : Pv) : Pv :=
  { x with
    lastSweep := shiftAt d x.lastSweep, fitAt := shiftAt d x.fitAt, dwellAt := shiftAt d x.dwellAt, lossAt := shiftAt d x.lossAt
    halvedAt := shiftAt d x.halvedAt, refAt := shiftAt d x.refAt, pendV := x.pendV.map fun e => (shiftAt d e.1, e.2)
    lastI := x.lastI.map fun e => (shiftAt d e.1, e.2) }

/-- The instants of a leg as device time steps by d. -/
def Leg.shift (d : Int) (x : Leg) : Leg :=
  { x with
    shAt := shiftAt d x.shAt, startedAt := shiftAt d x.startedAt, testEnd := shiftAt d x.testEnd
    bootEvtAt := x.bootEvtAt.map (shiftAt d), lockEvtAt := x.lockEvtAt.map (shiftAt d), loadAt := shiftAt d x.loadAt
    onH := shiftAt d x.onH, onL := shiftAt d x.onL, refreshEnd := shiftAt d x.refreshEnd, bootActAt := x.bootActAt.map (shiftAt d) }

/-- The instants of a decimator output as device time steps by d. -/
def Decim.shift (d : Int) (x : Decim) : Decim :=
  { x with
    alignAt := x.alignAt.map (shiftAt d), lastAt := shiftAt d x.lastAt, stamp := shiftAt d x.stamp
    past := x.past.map fun e => (shiftAt d e.1, e.2) }

/-- The instants of a pipeline input as device time steps by d. -/
def Ain.shift (d : Int) (x : Ain) : Ain :=
  { x with
    lastAt := shiftAt d x.lastAt, markedAt := shiftAt d x.markedAt, okRange := x.okRange.map (shiftAt d)
    okStuck := x.okStuck.map (shiftAt d), clips := x.clips.map (shiftAt d), clipAt := x.clipAt.map (shiftAt d)
    outs := x.outs.map (Decim.shift d) }

/-- The instants of a Kirchhoff group as device time steps by d. -/
def Kir.shift (d : Int) (x : Kir) : Kir :=
  { x with
    seenAt := x.seenAt.map (shiftAt d), okSince := x.okSince.map (shiftAt d) }

/-- The instants of a housekeeping input as device time steps by d. -/
def Hk.shift (d : Int) (x : Hk) : Hk :=
  { x with
    pending := x.pending.map (shiftAt d), overtakenAt := x.overtakenAt.map (shiftAt d), reqAt := shiftAt d x.reqAt }

/-- The instants of a SAR unit as device time steps by d. -/
def Sar.shift (d : Int) (x : Sar) : Sar :=
  { x with
    startAt := shiftAt d x.startAt, waits := x.waits.map fun e => (shiftAt d e.1, e.2), conv := x.conv.map fun e => (e.1, shiftAt d e.2) }

/-- The instants of a confirmation as device time steps by d. -/
def Confirm.shift (d : Int) (x : Confirm) : Confirm :=
  { x with
    since := shiftAt d x.since }

/-- The instants of a waiting read as device time steps by d. -/
def HkRead.shift (d : Int) (x : HkRead) : HkRead :=
  { x with
    since := shiftAt d x.since }

/-- The instants of a protection group as device time steps by d. -/
def PGroup.shift (d : Int) (x : PGroup) : PGroup :=
  { x with
    retryAt := shiftAt d x.retryAt, armedAt := shiftAt d x.armedAt, reactAt := shiftAt d x.reactAt }

/-- The instants of a comparator as device time steps by d. -/
def Cmp.shift (d : Int) (x : Cmp) : Cmp :=
  { x with
    mainAt := shiftAt d x.mainAt, evtAt := x.evtAt.map (shiftAt d) }

/-- The instants of a monitor as device time steps by d. -/
def Mon.shift (d : Int) (x : Mon) : Mon :=
  { x with
    insideAt := x.insideAt.map (shiftAt d) }

/-- The instants of a safety output as device time steps by d. -/
def SOut.shift (d : Int) (x : SOut) : SOut :=
  { x with
    chgAt := shiftAt d x.chgAt, openLoadAt := x.openLoadAt.map (shiftAt d), waitAt := shiftAt d x.waitAt, testAt := shiftAt d x.testAt }

/-- The instants of a safety input channel as device time steps by d. -/
def SChan.shift (d : Int) (x : SChan) : SChan :=
  { x with
    hist := x.hist.map fun e => (shiftAt d e.1, e.2) }

/-- The instants of a Vrel connection as device time steps by d. -/
def VConn.shift (d : Int) (x : VConn) : VConn :=
  { x with
    lastAt := shiftAt d x.lastAt, prodAt := shiftAt d x.prodAt, crcErrs := x.crcErrs.map (shiftAt d)
    seqErrs := x.seqErrs.map (shiftAt d) }

/-- The instants of the log-in as device time steps by d. -/
def SLog.shift (d : Int) (x : SLog) : SLog :=
  { x with
    lockUntil := shiftAt d x.lockUntil }

/-- The instants of a peer as device time steps by d. -/
def Peer.shift (d : Int) (x : Peer) : Peer :=
  { x with
    heard := shiftAt d x.heard }

/-- The instants of a cooling drive as device time steps by d. -/
def Drive.shift (d : Int) (x : Drive) : Drive :=
  { x with
    pwmAt := shiftAt d x.pwmAt, lastComm := shiftAt d x.lastComm, commAt := shiftAt d x.commAt, stateAt := shiftAt d x.stateAt
    lastCross := shiftAt d x.lastCross, tries := x.tries.map (shiftAt d), lockouts := x.lockouts.map (shiftAt d)
    hourAt := shiftAt d x.hourAt }

/-- The instants of a loop as device time steps by d. -/
def Loop.shift (d : Int) (x : Loop) : Loop :=
  { x with
    lostAt := x.lostAt.map (shiftAt d), winAt := shiftAt d x.winAt }

/-- The instants of the count of D6 as device time steps by d. -/
def D6Clock.shift (d : Int) (x : D6Clock) : D6Clock :=
  { x with
    ref := shiftAt d x.ref }

/-- The instants of a channel as device time steps by d. -/
def Chan.shift (d : Int) (x : Chan) : Chan :=
  { x with
    invSince := x.invSince.map (shiftAt d), invAt := shiftAt d x.invAt, evtAt := x.evtAt.map (shiftAt d) }

/-- The instants of ride-through as device time steps by d. -/
def Rt.shift (d : Int) (x : Rt) : Rt :=
  { x with
    gateAt := shiftAt d x.gateAt, gateOpenAt := shiftAt d x.gateOpenAt }

/-- The instants of the DC-link defence as device time steps by d. -/
def Dcl.shift (d : Int) (x : Dcl) : Dcl :=
  { x with
    relSince := x.relSince.map (shiftAt d), chopSince := x.chopSince.map (shiftAt d) }

/-- The instants of the islanding detector as device time steps by d. -/
def Isl.shift (d : Int) (x : Isl) : Isl :=
  { x with
    epochAt := x.epochAt.map (shiftAt d), spanAt := x.spanAt.map (shiftAt d), injFrom := shiftAt d x.injFrom
    chips := x.chips.map (AwnChip.shift d) }

/-- The instants of the ports as device time steps by d. -/
def Ports.shift (d : Int) (x : Ports) : Ports :=
  { x with
    searchAt := shiftAt d x.searchAt, curtAt := shiftAt d x.curtAt, pv := x.pv.map (Pv.shift d) }

/-- The instants of the modes as device time steps by d. -/
def Modes.shift (d : Int) (x : Modes) : Modes :=
  { x with
    rampEnd := shiftAt d x.rampEnd, rampFrom := shiftAt d x.rampFrom, forcedAt := x.forcedAt.map (shiftAt d)
    trans := x.trans.map (Trans.shift d) }

/-- The instants of the host interface as device time steps by d. -/
def HostIf.shift (d : Int) (x : HostIf) : HostIf :=
  { x with
    appFrozenAt := shiftAt d x.appFrozenAt, appFreezes := x.appFreezes.map (shiftAt d), uartEnd := shiftAt d x.uartEnd }

/-- The instants of the control engine as device time steps by d. -/
def Engine.shift (d : Int) (x : Engine) : Engine :=
  { x with
    tickAt := shiftAt d x.tickAt, due := x.due.map (PassRec.shift d), splice := x.splice.map (CoreSplice.shift d)
    chans := x.chans.map (Chan.shift d) }

/-- The instants of the command processor as device time steps by d. -/
def Cmd.shift (d : Int) (x : Cmd) : Cmd :=
  { x with
    sessions := x.sessions.map (Session.shift d) }

/-- The instants of the grid group as device time steps by d. -/
def Grid.shift (d : Int) (x : Grid) : Grid :=
  { x with
    trk := x.trk.shift d, vsm := x.vsm.shift d, vsmPend := x.vsmPend.map (Vsm.shift d) }

/-- The instants of the legs as device time steps by d. -/
def Pwm.shift (d : Int) (x : Pwm) : Pwm :=
  { x with
    legs := x.legs.map (Leg.shift d), d6 := x.d6.shift d }

/-- The instants of the sensing group as device time steps by d. -/
def Sense.shift (d : Int) (x : Sense) : Sense :=
  { x with
    convOffAt := x.convOffAt.map (shiftAt d), ains := x.ains.map (Ain.shift d), kirs := x.kirs.map (Kir.shift d), confirm := x.confirm.map (Confirm.shift d)
    queue := x.queue.map (Confirm.shift d), hks := x.hks.map (Hk.shift d), sars := x.sars.map (Sar.shift d)
    hkReads := x.hkReads.map (HkRead.shift d), dacAt := shiftAt d x.dacAt, calAt := shiftAt d x.calAt, pathAt := shiftAt d x.pathAt }

/-- The instants of protection as device time steps by d. -/
def Prot.shift (d : Int) (x : Prot) : Prot :=
  { x with
    cellOffAt := x.cellOffAt.map (shiftAt d), groups := x.groups.map (PGroup.shift d), cmps := x.cmps.map (Cmp.shift d), mons := x.mons.map (Mon.shift d) }

/-- The instants of the safety group as device time steps by d. -/
def Safety.shift (d : Int) (x : Safety) : Safety :=
  { x with
    lastCmd := shiftAt d x.lastCmd, tpaAt := shiftAt d x.tpaAt, tpbAt := shiftAt d x.tpbAt, otAt := shiftAt d x.otAt
    log := x.log.shift d, outs := x.outs.map (SOut.shift d), chans := x.chans.map (SChan.shift d), conns := x.conns.map (VConn.shift d) }

/-- The instants of the network group as device time steps by d. -/
def Net.shift (d : Int) (x : Net) : Net :=
  { x with
    ptpLastAt := shiftAt d x.ptpLastAt, slewHist := x.slewHist.map fun e => (shiftAt d e.1, e.2), announcedAt := shiftAt d x.announcedAt
    peers := x.peers.map (Peer.shift d) }

/-- The instants of the cooling group as device time steps by d. -/
def Cool.shift (d : Int) (x : Cool) : Cool :=
  { x with
    drives := x.drives.map (Drive.shift d) }

/-- The instants of the clocks as device time steps by d. -/
def Clk.shift (d : Int) (x : Clk) : Clk :=
  { x with
    regionAt := shiftAt d x.regionAt, loops := x.loops.map (Loop.shift d) }

/-- The instants of the memory group as device time steps by d. -/
def MemSys.shift (d : Int) (x : MemSys) : MemSys :=
  { x with
    nonce := x.nonce.map fun e => (e.1, shiftAt d e.2), scrubAt := shiftAt d x.scrubAt, hoursAt := shiftAt d x.hoursAt
    rowErrs := x.rowErrs.map fun e => (e.1, e.2.1, e.2.2.map (shiftAt d)), secErrs := x.secErrs.map fun e => (e.1, e.2.map (shiftAt d)) }

/-- The instants of the husk as device time steps by d. -/
def Husk.shift (d : Int) (x : Husk) : Husk :=
  { x with
    tegAt := shiftAt d x.tegAt, rtcWritten := shiftAt d x.rtcWritten }

/-- Every instant of a running duration as device time steps by d (R593). -/
def State.shiftTime (d : Int) (x : State) : State :=
  { x with
    host := x.host.shift d, cmd := x.cmd.shift d, modes := x.modes.shift d, eng := x.eng.shift d, grid := x.grid.shift d
    rt := x.rt.shift d, dcl := x.dcl.shift d, isl := x.isl.shift d, ports := x.ports.shift d, pwm := x.pwm.shift d
    sense := x.sense.shift d, prot := x.prot.shift d, safety := x.safety.shift d, net := x.net.shift d, cool := x.cool.shift d
    clk := x.clk.shift d, mem := x.mem.shift d, husk := x.husk.shift d }

end Sys2Proof.Machine
end

