-- ==== Sys2Proof/Machine/Ops.lean ====
section
/-! DEFINITION. Shared operations: memory, rings and replies, events with what each event feeds (the rings, the sealed log, the
recorder), Benmor sending, device time, free values. -/

namespace Sys2Proof.Machine

/-- What a meaning answers. -/
abbrev Res := Host.Outcome State Fault Refusal

/-- The answer of a happening that names unit i of n units: the new state, or a fault when there is no such unit. -/
def within (i n : Nat) (t : State) : Res := if i < n then .next t else .fault .noSuchUnit

/-! ### Memory -/

/-- The byte at an address; an unlisted byte reads 0 (R50: wiped; notes/assumptions/2.md). -/
def Mem.read : Mem → Nat → Byte
  | [], _ => 0
  | (b, v) :: r, a => if b = a then v else Mem.read r a

/-- The byte at an address written; the list stays sorted and lists no 0 byte. -/
def Mem.write : Mem → Nat → Byte → Mem
  | [], a, v => if v = 0 then [] else [(a, v)]
  | (b, w) :: r, a, v =>
    if a < b then (if v = 0 then (b, w) :: r else (a, v) :: (b, w) :: r)
    else if a = b then (if v = 0 then r else (a, v) :: r)
    else (b, w) :: Mem.write r a v

/-- n bytes from an address. -/
def Mem.readN (m : Mem) (a n : Nat) : List Byte := (List.range n).map fun i => Mem.read m (a + i)

/-- Bytes written from an address upward. -/
def Mem.writeN : Mem → Nat → List Byte → Mem
  | m, _, [] => m
  | m, a, v :: vs => Mem.writeN (Mem.write m a v) (a + 1) vs

/-- [a, a + n) cleared to 0: a wipe or an erase. -/
def Mem.clear (m : Mem) (a n : Nat) : Mem := m.filter fun c => c.1 < a || a + n ≤ c.1

/-- The canonical form: addresses strictly rising, no byte 0. -/
def Mem.wf : Mem → Bool
  | [] => true
  | (a, v) :: r => v != 0 && (match r with | [] => true | (b, _) :: _ => decide (a < b)) && Mem.wf r

/-- n bytes of SRAM or MRAM from an address of the map (R518): the supervisor's own reads. -/
def State.load (s : State) (a n : Nat) : List Byte :=
  if a < 0x20000000 then Mem.readN s.mem.mram a n else Mem.readN s.mem.sram a n

/-- Bytes of SRAM or MRAM written at an address of the map. -/
def State.store (a : Nat) (v : List Byte) (s : State) : State :=
  if a < 0x20000000 then { s with mem := { s.mem with mram := Mem.writeN s.mem.mram a v } }
  else { s with mem := { s.mem with sram := Mem.writeN s.mem.sram a v } }

/-! ### Updates of one element -/

/-- Ring n changed. -/
def State.modRing (n : Nat) (f : Ring → Ring) (s : State) : State := { s with rings := upd s.rings n f }
/-- Ring n. -/
def State.ring (s : State) (n : Nat) : Ring := s.rings.getD n Ring.reset
/-- The command processor's part changed. -/
def State.modCmd (f : Cmd → Cmd) (s : State) : State := { s with cmd := f s.cmd }
/-- The host part changed. -/
def State.modHost (f : HostIf → HostIf) (s : State) : State := { s with host := f s.host }
/-- The system part changed. -/
def State.modSys (f : Sys → Sys) (s : State) : State := { s with sys := f s.sys }
/-- The modes changed. -/
def State.modModes (f : Modes → Modes) (s : State) : State := { s with modes := f s.modes }
/-- The engine changed. -/
def State.modEng (f : Engine → Engine) (s : State) : State := { s with eng := f s.eng }
/-- Channel n's own part. -/
def State.chan (s : State) (n : Nat) : Chan := s.eng.chans.getD n Chan.reset
/-- Channel n's own part changed. -/
def State.modChan (n : Nat) (f : Chan → Chan) (s : State) : State := s.modEng fun e => { e with chans := upd e.chans n f }
/-- Timebase k. -/
def State.tb (s : State) (k : Nat) : Tb := s.pwm.tbs.getD k Tb.reset

/-- The interval between load events of a leg, in 125 ps steps, for a timebase configuration and load events as configured. -/
def loadInterval (b : TbCfg) (loads : Nat) : Nat := if loads = 3 then 8 * b.n else 16 * b.n

/-- PWM leg n. -/
def State.leg (s : State) (n : Nat) : Leg := s.pwm.legs.getD n Leg.reset
/-- Leg n changed. -/
def State.modLeg (n : Nat) (f : Leg → Leg) (s : State) : State := { s with pwm := { s.pwm with legs := upd s.pwm.legs n f } }
/-- Protection group n. -/
def State.pgroup (s : State) (n : Nat) : PGroup := s.prot.groups.getD n PGroup.reset
/-- Protection group n changed. -/
def State.modPGroup (n : Nat) (f : PGroup → PGroup) (s : State) : State :=
  { s with prot := { s.prot with groups := upd s.prot.groups n f } }
/-- Logical comparator n. -/
def State.cmp (s : State) (n : Nat) : Cmp := s.prot.cmps.getD n Cmp.reset
/-- Logical comparator n changed. -/
def State.modCmp (n : Nat) (f : Cmp → Cmp) (s : State) : State :=
  { s with prot := { s.prot with cmps := upd s.prot.cmps n f } }
/-- Pipeline input n. -/
def State.ain (s : State) (n : Nat) : Ain := s.sense.ains.getD n Ain.reset
/-- Pipeline input n changed. -/
def State.modAin (n : Nat) (f : Ain → Ain) (s : State) : State :=
  { s with sense := { s.sense with ains := upd s.sense.ains n f } }
/-- Housekeeping input n. -/
def State.hk (s : State) (n : Nat) : Hk := s.sense.hks.getD n Hk.reset
/-- Housekeeping input n changed. -/
def State.modHk (n : Nat) (f : Hk → Hk) (s : State) : State :=
  { s with sense := { s.sense with hks := upd s.sense.hks n f } }
/-- Profile generator n. -/
def State.gen (s : State) (n : Nat) : Gen := s.gens.getD n Gen.reset
/-- Profile generator n changed. -/
def State.modGen (n : Nat) (f : Gen → Gen) (s : State) : State := { s with gens := upd s.gens n f }
/-- PV port n. -/
def State.pv (s : State) (n : Nat) : Pv := s.ports.pv.getD n Pv.reset
/-- PV port n changed. -/
def State.modPv (n : Nat) (f : Pv → Pv) (s : State) : State := { s with ports := { s.ports with pv := upd s.ports.pv n f } }
/-- Battery port n. -/
def State.bat (s : State) (n : Nat) : Bat := s.ports.bat.getD n Bat.reset
/-- Battery port n changed. -/
def State.modBat (n : Nat) (f : Bat → Bat) (s : State) : State := { s with ports := { s.ports with bat := upd s.ports.bat n f } }
/-- BMS node n. -/
def State.bms (s : State) (n : Nat) : Bms := s.ports.bms.getD n Bms.reset
/-- BMS node n changed. -/
def State.modBms (n : Nat) (f : Bms → Bms) (s : State) : State := { s with ports := { s.ports with bms := upd s.ports.bms n f } }
/-- Cooling drive n. -/
def State.drive (s : State) (n : Nat) : Drive := s.cool.drives.getD n Drive.reset
/-- Cooling drive n changed. -/
def State.modDrive (n : Nat) (f : Drive → Drive) (s : State) : State :=
  { s with cool := { s.cool with drives := upd s.cool.drives n f } }

/-! ### Device time and free values -/

/-- The time a happening or a packet carries becomes the present instant, which never moves back: device time once it is loaded, and before that
the count of the RTC, which goes on through every reset while device time reads 0 (R15). -/
def State.advance (t : Nat) (s : State) : State := { s with time := max s.time t }

/-- The stamp an event carries (R15, R16): 0 before device time is loaded. -/
def State.stamp (s : State) (t : Nat) : Nat := if s.timeLoaded then t else 0

/-- Device time stepped (spec/00_scope.md R593): running durations go on as if it had not, and the next safety tick falls on the first whole millisecond
of the new time that lies 0.5 ms or more after the previous tick. DESIGN CHOICE: where the step comes later than 0.5 ms after that tick, the first such
millisecond may already lie behind the new time, and the tick waits for the next one, up to about 2 ms after the previous tick
(notes/assumptions/4.md). -/
def State.stepTime (new : Nat) (s : State) : State :=
  let since := s.time + 1000000 - s.nextTick
  let from' := max new (new + 500000 - since)
  let s := s.shiftTime ((new : Int) - s.time)
  { s with time := new, timeLoaded := true, timeValid := true, nextTick := (from' + 999999) / 1000000 * 1000000 }

/-- A free 32-bit value: an uninterpreted value of Config, a fresh one each time (notes/assumptions/1.md). -/
def State.freeWord (s : State) : BitVec 32 := Config.freeWord s.freeCtr

/-- The counter of free values advanced by n. -/
def State.drawn (n : Nat) (s : State) : State := { s with freeCtr := s.freeCtr + n }

/-- A free byte string of 4n bytes. -/
def State.freeBytes (s : State) (n : Nat) : List Byte :=
  (List.range n).flatMap fun i => le 4 (Config.freeWord (s.freeCtr + i)).toNat

/-! ### Health counters (spec/19_memory_lifecycle_spares.md R537) -/

/-- Counter i of the health record counts n more, holding at 0xFFFF_FFFF. The index names the element and the counter. -/
def bumpCounter (i n : Nat) : List (Nat × Nat) → List (Nat × Nat)
  | [] => [(i, min n 0xFFFFFFFF)]
  | (j, v) :: r =>
    if i < j then (i, min n 0xFFFFFFFF) :: (j, v) :: r
    else if i = j then (j, min (v + n) 0xFFFFFFFF) :: r
    else (j, v) :: bumpCounter i n r

/-- The health counter of an index. -/
def State.health (s : State) (i : Nat) : Nat := (s.mem.health.find? fun p => p.1 == i).elim 0 (·.2)

/-- Health counter i counts one more happening. -/
def State.count (i : Nat) (s : State) : State := { s with mem := { s.mem with health := bumpCounter i 1 s.mem.health } }

/-- A drive's part of the health record (spec/17_cooling_drive.md R493). -/
def Drive.record (d : Drive) : List Nat :=
  (List.range 6).map (d.counters.getD · 0) ++ [d.baseline, d.blHours, d.blSum, d.blN, d.hourly, d.refSpeed]

/-- The health record as it stands is committed to MRAM (R537: at every splice and fault). -/
def State.commitHealth (s : State) : State :=
  { s with
    mem := { s.mem with healthStored := s.mem.health }
    cool := { s.cool with drives := s.cool.drives.map fun d => { d with kept := d.record } } }

/-- A period has passed since the last one at `at'`; a stamp ahead of t was taken before device time was stepped back (R593). -/
def elapsed (at' period t : Nat) : Bool := decide (t < at') || decide (at' + period ≤ t)

/-! ### Domains (spec/01_architecture.md R29, R34) -/

/-- Domain d is on. -/
def State.domainOn (s : State) (d : Nat) : Bool := s.sys.domains.getD d 0 == 2

/-- D9 is on. -/
def State.d9On (s : State) : Bool := s.domainOn 9

/-- What a source in domain d makes of s: nothing while the domain is not on, where its sources are silent (R34). -/
def inDomain (d : Nat) (s r : State) : State := if s.domainOn d then r else s

/-! ### The count of D6 (spec/11_pwm.md R314, R332) -/

/-- The D6 step at device time t: 8 steps of 125 ps a nanosecond, fewer on the ring oscillator. -/
def D6Clock.steps (t : Nat) (d : D6Clock) : Int :=
  d.count + (if d.khz = 0 then 8 * ((t : Int) - d.ref) else 8 * ((t : Int) - d.ref) * d.khz / 500000)

/-- The device time of a D6 step. -/
def D6Clock.ns (y : Int) (d : D6Clock) : Nat :=
  ((d.ref : Int) + (if d.khz = 0 then (y - d.count) / 8 else (y - d.count) * 62500 / d.khz)).toNat

/-- How long x D6 steps last, in 125 ps: longer on the ring oscillator (R332). -/
def D6Clock.lasts (x : Nat) (d : D6Clock) : Nat := if d.khz = 0 then x else x * 500000 / d.khz

/-- D6 runs from the ring oscillator (R332, spec/18_clocks_islands.md R509). -/
def State.d6Ring (s : State) : Bool := s.clk.sources.getD 6 0 == 2

/-- The source of D6 may have changed at t: its count goes on at the rate of the new source (R332). A frequency that was never measured is 400 MHz
(spec/18_clocks_islands.md R509). -/
def d6Follow (t : Nat) (s : State) : State :=
  let f := if s.d6Ring then (if s.clk.roKhz = 0 then 400000 else s.clk.roKhz) else 0
  if f = s.pwm.d6.khz then s else { s with pwm := { s.pwm with d6 := { ref := t, count := s.pwm.d6.steps t, khz := f } } }

/-! ### Rings (spec/03_command_interface.md R72 to R76) -/

/-- Number of descriptors. -/
def Ring.size (r : Ring) : Nat := 2 ^ r.k

/-- A device-produced ring is full: one more descriptor would meet the consumer index (R74). -/
def Ring.full (r : Ring) : Bool := (r.devIndex + 1) % r.size == r.hostIndex

/-- A record delivered on a device-produced ring, its descriptor with the next SEQ (R73). -/
def Ring.push (b : List Byte) (r : Ring) : Ring :=
  { r with devIndex := (r.devIndex + 1) % r.size, seq := (r.seq + 1) % 2 ^ 32, recs := r.recs ++ [b] }

/-- A record lost on a ring: counted from Ready on (R92), and the next delivered record carries OVERRUN (R76). -/
def Ring.lose (count : Bool) (r : Ring) : Ring := { r with lost := if count then satInc 65535 r.lost else r.lost, overrun := true }

/-- No descriptor area of a configured ring meets the n bytes from a. -/
def State.clearOfRings (s : State) (a n : Nat) : Bool :=
  s.rings.all fun r => !r.configured || decide (a + n ≤ r.base) || decide (r.base + 16 * r.size ≤ a)

/-- A buffer of 4,096 bytes that the device places for a ring: its own choice of an 8-byte aligned address in the region of the ring, clear of the
descriptor areas (R73, R590; notes/assumptions/46.md). -/
def State.placed (s : State) (base : Nat) (what : String) (i : Nat) : Nat :=
  let (lo, hi) := sramRegion base
  let x := lo + Config.freeNat what i % ((hi - lo - 4096) / 8 + 1) * 8
  if s.clearOfRings x 4096 then x
  else (((List.range ((hi - lo) / 4096)).map (lo + 4096 * ·)).find? fun y => s.clearOfRings y 4096).getD x

/-- The buffer of descriptor i of a ring that the device produces. -/
def State.bufAddr (s : State) (n i : Nat) : Nat := s.placed (s.ring n).base "buffer of a device-produced ring" (4096 * n + i)

/-- The descriptor of the record b that waits as number j of a device-produced ring with the buffers `buf` (R73): one buffer, so LAST is set. -/
def Ring.descBytes (buf : Nat → Nat) (j : Nat) (b : List Byte) (r : Ring) : List Byte :=
  le 4 (buf ((r.hostIndex + j) % r.size)) ++ le 2 4096 ++ le 2 b.length ++ le 4 ((r.seq + 2 ^ 32 - r.recs.length + j) % 2 ^ 32) ++ [4] ++ zeros 3

/-- The byte that a device-produced ring shows at an address: its waiting descriptors, and the buffers they name (R73, R74). -/
def Ring.byteAt (buf : Nat → Nat) (a : Nat) (r : Ring) : Option Byte :=
  (List.range r.recs.length).findSome? fun j =>
    let b := r.recs.getD j []
    let i := (r.hostIndex + j) % r.size
    let d := r.base + 16 * i
    if d ≤ a ∧ a < d + 16 then some ((r.descBytes buf j b).getD (a - d) 0)
    else if buf i ≤ a ∧ a < buf i + b.length then some (b.getD (a - buf i) 0)
    else none

/-- The byte at an address of memory as another master reads it: what the device-produced rings show there, else what is stored. -/
def State.shown (s : State) (a : Nat) : Byte :=
  (((List.range 48).filter fun n => 8 ≤ n && n < 32 || n == 46).findSome? fun n => (s.ring n).byteAt (s.bufAddr n) a).getD ((s.load a 1).getD 0 0)

/-- The ring whose interrupt bit a delivery sets, as a bit of INT_STATUS (R79). -/
def State.setRingInt (n : Nat) (s : State) : State := if 8 ≤ n ∧ n < 32 then s.setInt (n - 8) else s

/-- A record delivered to ring n, or lost where the ring is full or unconfigured (R76, R590). -/
def State.deliver (n : Nat) (b : List Byte) (s : State) : State :=
  let r := s.ring n
  if r.configured && !r.full then (s.modRing n fun r => r.push b).setRingInt n
  else s.modRing n (Ring.lose s.sys.ready)

/-! ### The sealed log (spec/20_husk.md R553, R554) -/

/-- Bytes 0..2,031 of a block: its event records and its seal record but for the hash (R553). -/
def Sealed.head (b : Sealed) : List Byte :=
  fit 2016 b.events.flatten ++ le 4 b.seq ++ le 1 b.events.length ++ le 1 b.cause ++ le 1 (b.sflags ||| flagAt (b.lost != 0) 2) ++ zeros 1 ++
  le 4 b.lost ++ zeros 4

/-- The open block closed with a cause and flags, and the next one opened (R553). A block carried over at a Ready keeps that cause when it is
full (notes/assumptions/41.md). -/
def Husk.close (cause flags : Nat) (h : Husk) : Sealed × Husk :=
  let b := { h.opn with cause := if h.opn.cause = 3 ∧ cause = 1 then 3 else cause, sflags := h.opn.sflags ||| flags, lost := h.lostEvents }
  let b := { b with hash := (Config.sha384 (h.lastHash ++ b.head)).take 16 }
  let next : Sealed := { Sealed.reset with seq := h.opn.seq + 1, sflags := flagAt h.timeLost 3 }
  (b, { h with lostEvents := 0, lastHash := b.hash, opn := next })

/-- An event record appended to the husk's open block; a full block moves to the second buffer, and an event that finds both full is
counted as lost (R554). -/
def Husk.append (b : List Byte) (h : Husk) : Husk :=
  if h.opn.events.length < 63 then { h with opn := { h.opn with events := h.opn.events ++ [b] } }
  else match h.buf2 with
    | none =>
      let c := h.close 1 0
      { c.2 with buf2 := some c.1, opn := { c.2.opn with events := [b] } }
    | some _ => { h with lostEvents := h.lostEvents + 1, lostSinceReady := satInc 65535 h.lostSinceReady }

/-! ### Events (R90) -/

/-- What an event says, its stamp and sequence number apart. -/
structure Ev where
  /-- EVENT_ID. -/
  id : Nat
  /-- SOURCE. -/
  source : Nat
  /-- DATA; bytes not listed are 0. -/
  data : List Byte
  /-- TIE. -/
  tie : Bool
deriving DecidableEq, Repr

/-- An event without TIE. -/
def ev (id source : Nat) (data : List Byte) : Ev := { id := id, source := source, data := data, tie := false }

/-- The 32 bytes of an event record (R90). -/
def Ev.record (e : Ev) (time eseq : Nat) (overrun : Bool) : List Byte :=
  le 8 time ++ le 2 e.id ++ le 2 e.source ++ le 2 eseq ++ le 2 (flagAt e.tie 1 + flagAt overrun 0) ++ fit 16 e.data

/-- Whether ring n takes events of group g (R90, R94). -/
def Ring.takes (r : Ring) (g : Nat) : Bool := r.configured && bit r.mask (g - 1)

/-- A host-over-UART frame: 0x7E before and after, 0x7E and 0x7D escaped (R85). -/
def uartFrame (b : List Byte) : List Byte :=
  [0x7E] ++ (b.flatMap fun x => if x = 0x7E ∨ x = 0x7D then [0x7D, x ^^^ 0x20] else [x]) ++ [0x7E]

/-- The rate of host-over-UART, which no command sets (R85; notes/assumptions/46.md): free in 115,200..3,000,000 bit/s. -/
def hostBaud : Nat := 115200 + Config.freeNat "host-over-UART bit rate" 0 % 2884801

/-- A reply or event leaves on UART0 behind what is being sent: DE stays high to the end of its last stop bit (R85). -/
def uartSend (b : List Byte) (s : State) : State :=
  let f := uartFrame b
  s.modHost fun h => { h with uartOut := f, uartEnd := max s.time h.uartEnd + f.length * 10000000000 / hostBaud }

/-- DE of UART0 with host-over-UART (R85). -/
def State.uartDe (s : State) : Bool := s.host.uartHost && decide (s.time < s.host.uartEnd)

/-- The event on one of rings 16..23: delivered or lost, its ESEQ used either way (R76, R90). With host-over-UART those of ring 16 leave on UART0, so
their slots are free again (R85); until the first command is accepted they wait on the ring, for UART0 is held idle (R53). -/
def postRing (time : Nat) (e : Ev) (n : Nat) (s : State) : State :=
  let r := s.ring n
  if r.takes (e.id / 256) then
    if n = 16 ∧ s.host.uartHost ∧ s.cmd.first then
      uartSend (e.record time r.eseq r.overrun) ((s.modRing n fun r =>
        { r with devIndex := (r.devIndex + 1) % r.size, hostIndex := (r.hostIndex + 1) % r.size, seq := (r.seq + 1) % 2 ^ 32
                 eseq := (r.eseq + 1) % 65536, overrun := false }).setRingInt n)
    else if r.full then s.modRing n fun r => { r.lose s.sys.ready with eseq := (r.eseq + 1) % 65536 }
    else (s.modRing n fun r => { r.push (e.record time r.eseq r.overrun) with eseq := (r.eseq + 1) % 65536, overrun := false }).setRingInt n
  else s

/-- The event on every ring that its group is routed to. -/
def postRings (time : Nat) (e : Ev) (s : State) : State :=
  (List.range 8).foldl (fun s k => postRing time e (16 + k) s) s

/-- The event forwarded to the sealed log when its group is set in SEAL_MASK (spec/20_husk.md R554). -/
def sealEvent (time : Nat) (e : Ev) (s : State) : State :=
  if s.husk.d0Up && bit s.husk.sealMask (e.id / 256 - 1) then { s with husk := s.husk.append (e.record time 0 false) } else s

/-! ### What the recorder does with an event (spec/14_recorder.md R405, R407, R409, R412) -/

/-- A copy of an event kept for the captures whose window may hold its TIME, when its group is in MARK_MASK: those of the last PRE and 1 ms more,
and all of a capture in progress (R412). -/
def markEvent (time : Nat) (e : Ev) (s : State) : State :=
  if bit s.recorder.markMask (e.id / 256 - 1) then
    let r := s.recorder
    let old := if r.state = 2 then r.events else r.events.filter fun x => decide (s.time ≤ x.1 + (r.pre * 1000 + 1000000))
    { s with recorder := { r with events := old ++ [(time, e.record time 0 false)] } }
  else s

/-- An event posted, without the recorder's triggers. -/
def postBase (t : Nat) (e : Ev) (s : State) : State :=
  let t := s.stamp t
  markEvent t e (sealEvent t e (postRings t e s))

/-- Whether the pre-trigger history of a block reaches into the window that starts at a stamp. -/
def Block.endsAfter (b : Block) (from' : Int) : Bool :=
  decide (from' < b.first + (b.interval * b.words.length : Nat))

/-- The stamp of word i of a block. -/
def Block.stampOf (b : Block) (i : Nat) : Int := b.first + (i * b.interval : Nat)

/-- The part of a block in a window [from, to) (R408). -/
def Block.within (from' to' : Int) (b : Block) : Option Block :=
  let idx := (List.range b.words.length).filter fun i => decide (from' ≤ b.stampOf i) && decide (b.stampOf i < to')
  match idx with
  | [] => none
  | i :: _ => some { b with first := b.stampOf i, words := idx.map fun j => b.words.getD j 0 }

/-- The bytes of a block: a 16-byte header and two bytes a word (R404). -/
def Block.bytes (b : Block) : Nat := 16 + 2 * b.words.length

/-- Bytes of a capture's blocks. -/
def blockBytes (l : List Block) : Nat := l.foldl (fun a b => a + b.bytes) 0

/-- The trigger marks of a block (R404). -/
def markBlock (c : Capture) (b : Block) : Block :=
  let inside (x : Int) : Bool := decide (b.first ≤ x) && decide (x < b.first + (b.interval * b.words.length : Nat))
  { b with trig := b.trig || inside c.tTrig || c.trigMarks.any inside, overflow := b.overflow || c.overflow, trunc := b.trunc || c.trunc }

/-- A capture as it ends (R404, R408, R412): its blocks, the open ones closed, and its event copies cut to its window; at most 64 copies are stored. -/
def Rec.finish (r : Rec) (c : Capture) : Capture :=
  let from' : Int := c.tTrig - (r.pre * 1000 : Nat)
  let all := (r.history.filter fun b => !c.blocks.contains b) ++ c.blocks ++ r.opn.filter fun b => (r.lanes.getD b.lane Lane.reset).cap
  let blocks := (all.filterMap (Block.within from' c.tEnd)).map (markBlock c)
  let evs := (r.events.filter fun x => decide (from' ≤ (x.1 : Int)) && decide ((x.1 : Int) < c.tEnd)).map (·.2)
  { c with blocks := blocks, marks := evs.take 64, marksLost := evs.length - 64, complete := true, bytes := blockBytes blocks }

/-- A later trigger with its stamp in the window is a mark, and with EXTEND moves t_end, never past t_trig + MAX (R409). -/
def Rec.addMark (r : Rec) (c : Capture) (x : Int) : Capture :=
  { c with trigMarks := c.trigMarks ++ [x]
           tEnd := if r.extend then min (max c.tEnd (x + (r.post * 1000 : Nat))) (c.tTrig + (r.maxUs * 1000 : Nat)) else c.tEnd }

/-- A unit fires while a capture runs (R409): the earliest stamp sets t_trig, the lower unit on a tie, and the others are marks; one stamped at or
after t_end waits for the next capture. -/
def Rec.fireRunning (r : Rec) (unit : Nat) (stamp : Int) (c : Capture) : Rec :=
  if stamp < c.tTrig then
    let d := { c with tTrig := stamp, unit := unit, trigMarks := [], tEnd := stamp + (r.post * 1000 : Nat) }
    let d := (c.tTrig :: c.trigMarks).foldl (fun d x => if x < d.tEnd then r.addMark d x else d) d
    { r with cur := some d, newest := stamp, nextFires := if c.tTrig < d.tEnd then r.nextFires else (c.unit, c.tTrig) :: r.nextFires }
  else if stamp < c.tEnd then
    { r with cur := some (r.addMark { c with unit := if stamp = c.tTrig then min unit c.unit else c.unit } stamp) }
  else { r with nextFires := r.nextFires ++ [(unit, stamp)] }

/-- The recorder works: D8 is on and master 2 is not frozen (R41, R87). -/
def State.recWorks (s : State) : Bool := s.domainOn 8 && !s.isFrozen 2

/-- The record of REC_TRIGGERED fires the event triggers that wait for it: they are marks of the capture that it reports (R405, R409). -/
def recOwnTriggers (time : Nat) (s : State) : State :=
  (List.range 4).foldl (fun s k =>
    let u := s.recorder.trigs.getD k Trig.reset
    if u.typ = 4 ∧ 0x0A30 &&& u.emask = u.id &&& u.emask then
      let r := { s.recorder with trigs := upd s.recorder.trigs k fun u => { u with fired := time } }
      { s with recorder := match r.cur with | some c => r.fireRunning k time c | none => r }
    else s) s

/-- A trigger unit fires with a stamp (R408, R409): the armed recorder starts a capture, but takes none while it streams (R418); a running capture takes the trigger; a trigger in no state to start a capture is counted as lost while a capture would be due (R411). -/
def recFire (unit : Nat) (stamp : Int) (s : State) : State :=
  let r := s.recorder
  let r := { r with trigs := upd r.trigs unit fun u => { u with fired := stamp.toNat } }
  if r.state = 1 ∧ !r.stream then
    let c : Capture :=
      { id := r.nextId, tTrig := stamp, tEnd := stamp + (r.post * 1000 : Nat), unit := unit,
        blocks := r.history.filter fun b => b.endsAfter (stamp - (r.pre * 1000 : Nat)),
        marks := [], marksLost := 0, trigMarks := [], lostBefore := r.lostMark, overflow := decide (r.lostMark ≠ 0), trunc := false,
        complete := false, unread := true, committing := r.autoCommit, protect := false, bytes := 0, info := [] }
    let s := { s with recorder := { r with state := 2, cur := some c, nextId := (r.nextId + 1) % 65536, newest := stamp, lostMark := 0 } }
    recOwnTriggers (s.stamp s.time) (postBase s.time (ev 0x0A30 unit (le 2 c.id ++ leI 8 stamp)) s)
  else if r.state = 2 then
    { s with recorder := match r.cur with | some c => r.fireRunning unit stamp c | none => r }
  else if r.state = 4 then
    { s with recorder := { r with trigsLost := r.trigsLost + 1, lostMark := r.lostMark + 1 } }
  else { s with recorder := r }

/-- The event triggers (type 4) that an event fires; a record that reaches the recorder 1 ms or more after its TIME is counted as late
(R405, R407). -/
def recEventTriggers (time : Nat) (e : Ev) (s : State) : State :=
  if !s.recWorks then s
  else (List.range 4).foldl (fun s k =>
    let u := s.recorder.trigs.getD k Trig.reset
    if u.typ = 4 ∧ e.id &&& u.emask = u.id &&& u.emask then
      if s.time < time + 1000000 then recFire k time s
      else { s with recorder := { s.recorder with lateEvents := s.recorder.lateEvents + 1 } }
    else s) s

/-- An event posted with its stamp t (R16): to the rings, the sealed log and the recorder. -/
def State.post (t : Nat) (e : Ev) (s : State) : State :=
  recEventTriggers (s.stamp t) e (postBase t e s)

/-- Several events posted in order with one stamp. -/
def State.postAll (t : Nat) (es : List Ev) (s : State) : State := es.foldl (fun s e => s.post t e) s

/-- A splice recorded by the memory manager: in the health record, and by MEM_SPLICED, with the spares of the kind left
(spec/19_memory_lifecycle_spares.md R534, R540). -/
def memSpliced (t kind retired incoming pos left : Nat) (s : State) : State :=
  s.commitHealth.post t (ev 0x0F31 kind ([BitVec.ofNat 8 retired, BitVec.ofNat 8 incoming] ++ le 2 pos ++ le 2 left))

/-! ### Benmor sending (spec/16_networks_fleet.md R467 to R469) -/

/-- The 24-byte header of a datagram (R467). -/
def benHeader (btype len fleet src dst counter : Nat) : List Byte :=
  [1, BitVec.ofNat 8 btype] ++ le 2 len ++ le 4 fleet ++ le 3 src ++ le 3 dst ++ zeros 2 ++ le 8 counter

/-- A datagram originated by the device through ring 38: sent with the next counter, or held while the next counter has reached the
stored value (R469). A full ring 38 drops it, and so does an unconfigured one, to which nothing is produced (R590). A device without a fleet address
or key sends none (notes/assumptions/9.md), and there is no traffic while D9 is off (spec/01_architecture.md R29). -/
def benSend (btype dst : Nat) (payload : List Byte) (s : State) : State :=
  match s.net.addr, s.net.fleetKey with
  | some a, some _ =>
    let d := fun c => benHeader btype payload.length s.net.fleetId a dst c ++ payload
    if !s.d9On then s
    else if !(s.ring 38).configured then s.modRing 38 (Ring.lose s.sys.ready)
    else if s.net.benNext < s.net.benStored ∧ s.net.benHeld = [] then
      let n := s.net.benNext + 1
      { s with net := { s.net with benSent := d s.net.benNext :: s.net.benSent, benNext := n
                                   benCommit := s.net.benCommit || decide (s.net.benStored ≤ n + 4096) } }
    else if s.net.benHeld.length + 1 < (s.ring 38).size then
      { s with net := { s.net with benHeld := s.net.benHeld ++ [[BitVec.ofNat 8 btype] ++ le 3 dst ++ payload], benCommit := true } }
    else s.modRing 38 (Ring.lose s.sys.ready)
  | _, _ => s

/-- The held datagrams sent in order while counters below the stored value last (R469). -/
def benDrain : Nat → State → State
  | 0, s => s
  | n + 1, s =>
    match s.net.benHeld, s.net.addr with
    | h :: r, some a =>
      if s.d9On && decide (s.net.benNext < s.net.benStored) then
        let p := h.drop 4
        let d := benHeader (u8 h 0) p.length s.net.fleetId a (uN 3 h 1) s.net.benNext ++ p
        benDrain n { s with net := { s.net with benSent := d :: s.net.benSent, benNext := s.net.benNext + 1, benHeld := r } }
      else s
    | _, _ => s

/-- A command is accepted: from the first one on UART0 sends, and the events that waited for it on ring 16 leave (spec/02_startup_reset.md R53). -/
def firstAccepted (s : State) : State :=
  if s.cmd.first then s
  else
    let waiting := (s.ring 16).recs
    let s := s.modCmd fun c => { c with first := true }
    if s.host.uartHost then
      waiting.foldl (fun s b => uartSend b s) (s.modRing 16 fun r => { r with hostIndex := r.devIndex, recs := [] })
    else s

/-! ### Replies (R61, R72, R76, R83, R85) -/

/-- The bytes of a reply packet (R61). -/
def replyBytes (opcode : Nat) (tag : BitVec 16) (rflags status detail : Nat) (data : List Byte) : List Byte :=
  let b := le 2 (opcode ||| 0x8000) ++ le 2 tag.toNat ++ le 2 data.length ++ le 1 rflags ++ [1] ++ le 2 status ++ le 2 detail ++ data
  b ++ le 4 (crc32c b)

/-- The ring that answers a submission ring (R72). -/
def replyRing : Source → Option Nat
  | .hostRing n => some (n + 8)
  | .appRing k => some (52 + k)
  | _ => none

/-- A reply put on its ring, or kept waiting in the command processor while the ring is full (R76). Host-over-UART sends ring 15 at
once, so its slot is free again (R85). -/
def replyOn (n : Nat) (b : List Byte) (s : State) : State :=
  let r := s.ring n
  if n = 15 ∧ s.host.uartHost then
    uartSend b ((s.modRing 15 fun r =>
      { r with devIndex := (r.devIndex + 1) % r.size, hostIndex := (r.hostIndex + 1) % r.size, seq := (r.seq + 1) % 2 ^ 32 }).setRingInt 15)
  else if r.full then s.modCmd fun c => { c with held := c.held ++ [{ ring := n, bytes := b }] }
  else (s.modRing n fun r => r.push b).setRingInt n

/-- A reply sent to the source of its command. -/
def sendReply (src : Source) (b : List Byte) (s : State) : State :=
  match src with
  | .hostRing n => replyOn (n + 8) b s
  | .appRing k => replyOn (52 + k) b s
  | .net a => benSend 0x21 a b s
  | .escape =>
    ({ s with esc := { s.esc with busy := false, frame := [], replyReady := true, reply := b } }.modCmd
      fun c => { c with escServed := if s.sys.ready then (c.escServed + 1) % 2 ^ 32 else c.escServed }).setInt 26

/-- The stored block image is to be committed within 10 ms (spec/19_memory_lifecycle_spares.md R528). -/
def State.dirty (s : State) : State := { s with mem := { s.mem with blockDirty := true } }

/-- Sessions that end: closed, idle, or lost with their source (R70, spec/16_networks_fleet.md R473). A safety session unlocked by one of
them ends with it (spec/15_safety.md R451). -/
def State.dropSessions (gone : Session → Bool) (s : State) : State :=
  let ended : Bool := match s.safety.unlocked with
    | some v => s.cmd.sessions.any fun x => gone x && x.value == v
    | none => false
  let s := s.modCmd fun c => { c with sessions := c.sessions.filter fun x => !gone x }
  if ended then { s with safety := { s.safety with unlocked := none, staging := none } } else s

end Sys2Proof.Machine

namespace Sys2Proof

/-- The master that submits for a source (R71, R86). -/
def Source.master : Source → Nat
  | .hostRing _ => 5 | .appRing _ => 4 | .net _ => 3 | .escape => 0

/-- The session source of a command source; the escape frame is none (R71). -/
def Source.sid : Source → Option SrcId
  | .hostRing _ => some .host | .appRing _ => some .app | .net a => some (.net a) | .escape => none

end Sys2Proof
end

