-- ==== Sys2Proof/Machine/Command.lean ====
section
/-! DEFINITION. The command processor: what every command packet has in common (spec/03_command_interface.md R59 to R71). A command's own
chapter is a CmdSpec: its checks in the order of R63 and its effect. -/

namespace Sys2Proof.Machine

/-- What an accepted command does. -/
structure Effect where
  /-- The state with the effect applied. -/
  st : State
  /-- Reply data. -/
  data : List Byte := []
  /-- OK, or OK_DEFERRED where the effect comes at a later boundary that the opcode states. -/
  status : Status := .ok
  /-- Where the reply is kept when the opcode answers it later (R137 and the tests that answer at their end); none: it is sent now. -/
  keep : Option (DurReply → State → State) := none

/-- One opcode: its framing, its checks and its effect. Steps are those of R63. -/
structure CmdSpec where
  /-- OPCODE (R59). -/
  opcode : Nat
  /-- Step 9: the payload has the length of the opcode. -/
  lenOk : List Byte → Bool
  /-- SESSION 0 is accepted (R71). -/
  open0 : Bool := false
  /-- Step 6: life-cycle states in which the opcode is refused. -/
  lcBad : State → Packet → Bool := fun _ _ => false
  /-- Deferrable (R68). -/
  defer : Bool := false
  /-- The channel that the payload addresses, for the opcodes whose hitch group is the channel's own (R68). -/
  channel : Option (List Byte → Nat) := none
  /-- Step 7: E_STATE for the mode and state alone, whatever the payload is (R63). -/
  modeBad : State → Packet → Bool := fun _ _ => false
  /-- Step 7: E_STATE for what the payload names; a payload of the wrong length names nothing. -/
  stateBad : State → Packet → Bool := fun _ _ => false
  /-- Step 8: E_LOCKED. -/
  lockBad : State → Packet → Bool := fun _ _ => false
  /-- Step 10: range checks in payload order; an offset is one of the payload. -/
  checks : State → Packet → List Check := fun _ _ => []
  /-- Step 11: E_COMBINATION. -/
  comboBad : State → Packet → Bool := fun _ _ => false
  /-- Step 12: E_CONFLICT. -/
  conflictBad : State → Packet → Bool := fun _ _ => false
  /-- Step 13: E_BUSY. -/
  busyBad : State → Packet → Bool := fun _ _ => false
  /-- Step 14: E_ENERGY. -/
  energyBad : State → Packet → Bool := fun _ _ => false
  /-- Step 15: E_NOSPARE. -/
  spareBad : State → Packet → Bool := fun _ _ => false
  /-- E_AUTH of the opcode itself (a password, a signature), examined after the range checks. -/
  authBad : State → Packet → Bool := fun _ _ => false
  /-- The stored image its effect belongs to (R67): 0 block image, 1 Sheaf image, 2 safety image, 3 husk and health record. -/
  image : Option Nat := none
  /-- For image 0: how many leading payload bytes name the element configured (R528). -/
  key : Nat := 0
  /-- Reply data that a rejection carries all the same (R61, R148), with the status. -/
  rejectData : Status → State → Packet → List Byte := fun _ _ _ => []
  /-- Reply data of a dry run where it is drawn or assigned at execution: zeros (R66). -/
  dryData : Packet → Option (List Byte) := fun _ => none
  /-- What the opcode does with state besides its rejection (a failed password counts, R450). -/
  onReject : Status → Packet → State → State := fun _ _ s => s
  /-- The effect. -/
  run : Packet → State → Effect

end Sys2Proof.Machine

namespace Sys2Proof

open Machine

/-- HITCH_DEFER is set. -/
def Packet.hitch (p : Packet) : Bool := bit p.flags.toNat 2
/-- DRY_RUN is set. -/
def Packet.dry (p : Packet) : Bool := bit p.flags.toNat 1
/-- ACK_ON_DURABLE is set. -/
def Packet.ack (p : Packet) : Bool := bit p.flags.toNat 0
/-- DEFER_GROUP. -/
def Packet.deferGroup (p : Packet) : Nat := bits p.flags.toNat 6 3

end Sys2Proof

namespace Sys2Proof.Machine

/-- Whether the session value is open for the source, or needs none (R70, R71): step 5 passes. -/
def sessionOk (open0 : Bool) (p : Packet) (s : State) : Bool :=
  match p.src.sid with
  | none => true
  | some src => (p.session = 0 && open0) || (p.session ≠ 0 && s.cmd.sessions.any fun x => x.src == src && x.value == p.session)

/-- The opcodes that the escape port accepts now (R84): none is a status of refusal. -/
def escapeBad (opcode : Nat) (s : State) : Option Status :=
  if s.isFrozen 5 then (if opcode = 0x0101 ∨ opcode = 0x0103 then none else some .eFrozen)
  else if s.sys.recovery then (if opcode = 0x0100 ∨ opcode = 0x0101 ∨ opcode = 0x0F01 then none else some .eState)
  else if !s.sys.ready then (if opcode = 0x0100 ∨ opcode = 0x0101 then none else some .eState)
  else if opcode = 0x0100 ∨ opcode = 0x0101 ∨ opcode = 0x0103 ∨ opcode = 0x0102 then none else some .eState

/-- The switched domain that holds the blocks of an opcode's group, where a fault can leave it off from Ready on (spec/01_architecture.md R21,
R29). -/
def groupDomain (opcode : Nat) : Option Nat :=
  match opcode / 256 with
  | 0x05 => some 8 | 0x06 => some 8 | 0x0A => some 8 | 0x07 => some 6 | 0x09 => some 6 | 0x0D => some 6 | 0x08 => some 7 | 0x0C => some 9 | _ => none

/-- The blocks of a group answer: a request into a domain that is off ends with an error (spec/01_architecture.md R34), which the command processor
answers with E_STATE (notes/assumptions/45.md). The comparators and monitors of group 0x09xx lie in D7 (R21), those of its commands that address them
need it as well. -/
def State.blockOn (s : State) (opcode : Nat) : Bool :=
  (match groupDomain opcode with | some d => s.domainOn d | none => true) &&
  (s.domainOn 7 || !(opcode == 0x0902 || opcode == 0x0903 || opcode == 0x0906))

/-- Steps 6 to 15 of R63, with what HITCH_DEFER adds at steps 7 (hs), 10 (hr) and 13 (hb) (R68, R146). -/
def CmdSpec.coreFails (c : CmdSpec) (hs hr hb : Bool) (p : Packet) (s : State) : Option (Status × Nat) :=
  if c.lcBad s p then some (.eLifecycle, 0)
  else if hs || !s.blockOn c.opcode || c.modeBad s p || (c.lenOk p.payload && c.stateBad s p) then some (.eState, 0)
  else if c.lockBad s p then some (.eLocked, 0)
  else if !c.lenOk p.payload then some (.eLength, 4)
  else if hr then some (.eRange, 6)
  else match firstBad (c.checks s p) with
  | some o => some (.eRange, 12 + o)
  | none =>
  if c.authBad s p then some (.eAuth, 0)
  else if c.comboBad s p then some (.eCombination, 0)
  else if c.conflictBad s p then some (.eConflict, 0)
  else if hb || c.busyBad s p then some (.eBusy, 0)
  else if c.energyBad s p then some (.eEnergy, 0)
  else if c.spareBad s p then some (.eNospare, 0)
  else none

/-- The first step of R63, from FLAGS [7] on, that a packet of a known opcode fails, with its DETAIL. -/
def CmdSpec.fails (c : CmdSpec) (p : Packet) (s : State) : Option (Status × Nat) :=
  if bit p.flags.toNat 7 then some (.eRange, 6)
  else match (if p.src = .escape then escapeBad c.opcode s else none) with
  | some st => some (st, 0)
  | none =>
  if p.src ≠ .escape ∧ s.isFrozen p.src.master then some (.eFrozen, 0)
  else if !sessionOk c.open0 p s then some (.eAuth, 0)
  else c.coreFails (p.hitch && !c.defer) (p.deferGroup != 0 && (!p.hitch || c.channel.isSome))
    (p.hitch && decide (64 ≤ s.cmd.deferred.length)) p s

/-- The hitch group that a deferred packet waits for (R68). -/
def CmdSpec.hitchGroup (c : CmdSpec) (p : Packet) (s : State) : Nat :=
  match c.channel with
  | some f => bits (uN 4 (Mem.readN s.eng.run (f p.payload * 0x400) 4) 0) 23 20
  | none => p.deferGroup

/-- A command counted as accepted (R92). -/
def countAccepted (s : State) : State := s.modCmd fun c => { c with accepted := (c.accepted + 1) % 2 ^ 32 }

/-- A command counted as rejected, and by its status (R92). -/
def countRejected (st : Status) (s : State) : State :=
  s.modCmd fun c =>
    { c with rejected := (c.rejected + 1) % 2 ^ 32, rejBy := upd c.rejBy (st.code - 0x0101) (satInc 65535) }

/-- A dry run counted (R66, R92). -/
def countDry (s : State) : State := s.modCmd fun c => { c with dryRuns := (c.dryRuns + 1) % 2 ^ 32 }

/-- Counters count from Ready (R92). -/
def whenReady (f : State → State) (s : State) : State := if s.sys.ready then f s else s

/-- RFLAGS (R61): DEFERRED with OK_DEFERRED, DRY_RUN echoed, DURABLE. -/
def rflags (st : Status) (dry durable : Bool) : Nat := flagAt (st == .okDeferred) 2 + flagAt dry 1 + flagAt durable 0

/-- A prepared reply with DURABLE set in its RFLAGS, its CRC made anew. -/
def setDurable (b : List Byte) : List Byte :=
  replyBytes (u16 b 0) (BitVec.ofNat 16 (u16 b 2)) (u8 b 6 ||| 1) (u16 b 8) (u16 b 10) (slice b 12 (u16 b 4))

/-- The reply of a packet. -/
def CmdSpec.reply (c : CmdSpec) (p : Packet) (st : Status) (detail : Nat) (durable : Bool) (data : List Byte) : List Byte :=
  replyBytes c.opcode p.tag (rflags st p.dry durable) st.code detail data

/-- A stored configuration command noted for the block image (spec/19_memory_lifecycle_spares.md R528): it takes the place of an earlier
one for the same element. -/
def noteBlock (opcode key : Nat) (payload : List Byte) (l : List (Nat × List Byte)) : List (Nat × List Byte) :=
  (l.filter fun e => !(e.1 == opcode && e.2.take key == payload.take key)) ++ [(opcode, payload)]

/-- What a stored effect leaves to be committed (R67, R528): for the block image, the command noted and the image marked. -/
def CmdSpec.noted (c : CmdSpec) (p : Packet) (s : State) : State :=
  if c.image = some 0 then
    ({ s with mem := { s.mem with blockNext := noteBlock c.opcode c.key p.payload s.mem.blockNext } }).dirty
  else s

/-- The submission ring of a source (R72). -/
def ringOf : Source → Option Nat
  | .hostRing n => some n | .appRing k => some (48 + k) | .net _ => some 46 | .escape => none

/-- Producer and consumer masters of ring n with the given owner (R72, R94). -/
def ringEnds (n owner : Nat) : Nat × Nat :=
  if n < 16 then (5, 0) else if n < 24 then (0, owner) else if n < 32 then (2, owner)
  else if n ≤ 36 then (4, 3) else if n = 38 then (0, 3) else if n = 46 then (3, 0) else if n < 48 then (3, owner) else (4, 0)

/-- What R75 finds wrong with a descriptor of ring n: 1 reserved bits, 2 a buffer that does not lie in the permitted region
(notes/assumptions/46.md), 3 VALID_LEN > BUF_LEN; 0 nothing. -/
def descriptorBad (n : Nat) (d : List Byte) (s : State) : Nat :=
  let e := ringEnds n (s.ring n).owner
  if u8 d 12 / 8 ≠ 0 ∨ uN 3 d 13 ≠ 0 then 1
  else if !sharedArea e.1 e.2 (u32 d 0) (max 1 (u16 d 4)) then 2
  else if u16 d 4 < u16 d 6 then 3
  else 0

/-- Descriptor i of ring n. -/
def State.descriptor (s : State) (n i : Nat) : List Byte := s.load ((s.ring n).base + 16 * i) 16

/-- Descriptor i of ring n is not executed: what R75 finds wrong with it, or a memory error. -/
def State.rejects (s : State) (n i : Nat) : Bool := (s.ring n).bad.contains i || descriptorBad n (s.descriptor n i) s != 0

/-- A descriptor's flags byte with bits set (R73, R75). -/
def markDescriptor (n i : Nat) (flags : Byte) (s : State) : State :=
  let a := (s.ring n).base + 16 * i + 12
  s.store a [(s.load a 1).getD 0 0 ||| flags]

/-- Descriptor i of ring n is used: one that is not executed is marked DONE and ERROR, and RING_ERROR is posted and flagged (R75), which a memory
error did when it was found; any other is marked DONE (R73). -/
def useDescriptor (t n : Nat) (s : State) (i : Nat) : State :=
  let c := descriptorBad n (s.descriptor n i) s
  if (s.ring n).bad.contains i then s.modRing n fun r => { r with bad := r.bad.erase i }
  else if c = 0 then markDescriptor n i 1 s
  else ((markDescriptor n i 3 s).setInt 24).post t (ev 0x0192 n (le 2 i ++ [0, BitVec.ofNat 8 c]))

/-- Descriptors at the head of ring n that are not executed are passed over (R75). -/
def passOver (t n : Nat) : Nat → State → State
  | 0, s => s
  | k + 1, s =>
    let r := s.ring n
    if r.devIndex ≠ r.hostIndex ∧ s.rejects n r.devIndex then
      passOver t n k ((useDescriptor t n s r.devIndex).modRing n fun r => { r with devIndex := (r.devIndex + 1) % r.size })
    else s

/-- The device looks at the head of ring n, which it consumes from Ready on (R51, R75), a transmit ring with D9 on (spec/01_architecture.md R29). -/
def passHeads (t n : Nat) (s : State) : State :=
  if s.sys.ready && (s.domainOn 9 || !(decide (32 ≤ n) && decide (n ≤ 36))) then passOver t n (s.ring n).size s else s

/-- The descriptors from index i of ring n on that hold a packet of `need` bytes (R73): up to the one with LAST, or the one whose VALID_LEN completes it
(notes/assumptions/46.md); none beyond the producer index (R74). One that is not executed adds nothing to the packet (R75). -/
def State.spanOf (s : State) (n : Nat) : Nat → Nat → Nat → List Nat
  | 0, _, _ => []
  | fuel + 1, i, need =>
    let r := s.ring n
    if i = r.hostIndex then []
    else
      let d := s.descriptor n i
      if s.rejects n i then i :: s.spanOf n fuel ((i + 1) % r.size) need
      else if bit (u8 d 12) 2 ∨ need ≤ u16 d 6 then [i] else i :: s.spanOf n fuel ((i + 1) % r.size) (need - u16 d 6)

/-- The packet is taken from its ring: its descriptors are used and the consumer index moves on (R73, R74, R94). -/
def takePacket (p : Packet) (s : State) : State :=
  let adv (n : Nat) (s : State) : State :=
    let r := s.ring n
    let span := s.spanOf n r.size r.devIndex (16 + p.payload.length)
    passHeads p.t n ((span.foldl (useDescriptor p.t n) s).modRing n fun r => { r with devIndex := (r.devIndex + span.length) % r.size })
  match p.src with
  | .hostRing n => adv n s
  | .appRing k => adv (48 + k) s
  | .net _ => if (s.ring 46).recs = [] then s
      else s.modRing 46 fun r => { r with hostIndex := (r.hostIndex + 1) % r.size, recs := r.recs.drop 1 }
  | .escape => s

/-- The session of the packet has been used (spec/16_networks_fleet.md R473). -/
def touchSession (p : Packet) (s : State) : State :=
  s.modCmd fun c => { c with sessions := c.sessions.map fun x =>
    (if some x.src = p.src.sid ∧ x.value = p.session then { x with lastUsed := s.time } else x) }

/-- The reply of a command sent, or held until its effect is stored (R67). -/
def finishReply (c : CmdSpec) (p : Packet) (e : Effect) (s : State) : State :=
  let durable := p.ack && c.image.isSome
  let b := c.reply p e.status 0 durable e.data
  let d : DurReply := { src := p.src, image := c.image.getD 0, bytes := b }
  match e.keep with
  | some k => k d s
  | none => if durable then s.modCmd fun q => { q with durable := q.durable ++ [d] } else sendReply p.src b s

/-- A packet that passes every check (R63): a dry run answers what the command would and changes nothing (R66); a deferred command is
queued (R68); any other has its effect, is counted and is answered. -/
def CmdSpec.accept (c : CmdSpec) (p : Packet) (s : State) : State :=
  if p.dry then
    let e := c.run p s
    let st := if p.hitch then .okDeferred else e.status
    let data := if p.hitch then [] else (c.dryData p).getD e.data
    sendReply p.src (c.reply p st 0 false data)
      (whenReady countDry s)
  else if p.hitch then
    let s := (firstAccepted s).modCmd fun q => { q with deferred := q.deferred ++ [{ group := c.hitchGroup p s, opcode := c.opcode, pkt := p }] }
    let s := whenReady countAccepted s
    if p.ack && c.image.isSome then s else sendReply p.src (c.reply p .okDeferred 0 false []) s
  else
    let e := c.run p (firstAccepted s)
    finishReply c p e (whenReady countAccepted (c.noted p e.st))

/-- A packet that fails a check: answered and counted, and nothing else changes (R65). -/
def CmdSpec.reject (c : CmdSpec) (p : Packet) (st : Status) (detail : Nat) (s : State) : State :=
  let b := c.reply p st detail false (c.rejectData st s p)
  if p.dry then sendReply p.src b (whenReady countDry s)
  else sendReply p.src b (whenReady (countRejected st) (c.onReject st p s))

/-- A packet validated and answered. -/
def CmdSpec.process (c : CmdSpec) (p : Packet) (s : State) : State :=
  match c.fails p s with
  | some (st, d) => c.reject p st d s
  | none => c.accept p (touchSession p s)

/-- A kept reply with DURABLE set, its effect in the block image: it goes out once that image is committed (R67). -/
def sendStored (d : DurReply) (s : State) : State :=
  let d := { d with image := 0, bytes := setDurable d.bytes }
  let keep (s : State) : State := s.modCmd fun q => { q with durable := q.durable ++ [d] }
  if s.mem.blockDirty then keep s
  else if s.mem.blockBusy then keep { s with mem := { s.mem with blockAck := s.mem.blockAck + 1 } }
  else sendReply d.src d.bytes s

/-- What the reply of a command waits for whose effect has reached the MRAM when it is applied (R67): it goes out at once, with DURABLE set where
ACK_ON_DURABLE asked for it. -/
def durableNow (p : Packet) : Option (DurReply → State → State) :=
  if p.ack then some fun d s => sendReply d.src (setDurable d.bytes) s else none

/-- The bytes of a command packet (R59). -/
def packetBytes (opcode : Nat) (p : Packet) : List Byte :=
  let b := le 2 opcode ++ le 2 p.tag.toNat ++ le 2 p.payload.length ++ le 1 p.flags.toNat ++ [1] ++ le 4 p.session.toNat ++ p.payload
  b ++ le 4 (crc32c b)

/-- Whether the command processor takes a packet now: rings only from Ready (R51), with a descriptor exposed (R74), and no further command of a ring
whose reply waits (R76); none of the application core while D10 is off (spec/01_architecture.md R29); the escape port from the end of the wipe, the
frame that it holds, and not while it holds a reply (R83, R84). -/
def takes (bytes : List Byte) (p : Packet) (s : State) : Bool :=
  match ringOf p.src with
  | none => s.esc.on && s.esc.busy && !s.esc.replyReady && s.esc.frame == bytes
  | some n => s.sys.ready && (s.ring n).devIndex != (s.ring n).hostIndex && !(s.cmd.held.any fun h => some h.ring == replyRing p.src) &&
      (n < 48 || s.sys.domains.getD 10 0 == 2)

/-- Whether the packet's source exists (R72). -/
def sourceOk : Source → Bool
  | .hostRing n => n < 8 | .appRing k => k < 4 | .net _ => true | .escape => true

/-- The state in which a packet is looked at: at its time, with what stands before it on its ring and is not executed passed over (R75). -/
def arrived (p : Packet) (s : State) : State :=
  match p.src with
  | .hostRing n => passHeads p.t n (s.advance p.t)
  | .appRing k => passHeads p.t (48 + k) (s.advance p.t)
  | _ => s.advance p.t

/-- A command packet. One that the device does not take now stays with its source, and nothing changes. -/
def runCommand (c : CmdSpec) (p : Packet) (s : State) : Res :=
  if !sourceOk p.src then .fault .noSuchUnit
  else
    let s := arrived p s
    .next (if takes (packetBytes c.opcode p) p s then c.process p (takePacket p s) else s)

/-- A deferred command at its swap (R145): applied when it passes its checks against the present state, else dropped with the status it
fails. A reply held for its storage is then kept until the commit, or sent with the status it failed, DEFERRED set (R67). -/
def CmdSpec.applyDeferred (c : CmdSpec) (p : Packet) (s : State) : State × Option Status :=
  let held := p.ack && c.image.isSome
  match c.coreFails false false false p s with
  | some (st, d) =>
    let b := replyBytes c.opcode p.tag 4 st.code d []
    (if held then sendReply p.src b s else s, some st)
  | none =>
    let s := c.noted p (c.run p s).st
    let d : DurReply := { src := p.src, image := c.image.getD 0, bytes := c.reply p .okDeferred 0 true [] }
    (if held then s.modCmd fun q => { q with durable := q.durable ++ [d] } else s, none)

end Sys2Proof.Machine
end

