-- ==== Sys2Proof/Machine/Channel.lean ====
section
/-! DEFINITION. Sheaf channels as other groups see them: header, map and limit fields (spec/05_sheaf_table.md R114 to R121), the value an
input slot reads (R116, spec/06_control_engine.md R158), stores to destinations (R117), ownership (R118), start and stop (R111, R134). -/

namespace Sys2Proof.Machine

/-- Address of byte `off` of entry n in a copy of the table. -/
def entryAt (n off : Nat) : Nat := n * 0x400 + off

/-- The 32-bit word at an offset of entry n in a copy. -/
def ew (m : Mem) (n off : Nat) : Nat := uN 4 (Mem.readN m (entryAt n off) 4) 0

/-- ENABLE (R115). -/
def chEnable (m : Mem) (n : Nat) : Bool := bit (ew m n 0) 31
/-- LIVE_WRITE. -/
def chLive (m : Mem) (n : Nat) : Bool := bit (ew m n 0) 30
/-- TEMPLATE. -/
def chTemplate (m : Mem) (n : Nat) : Bool := bit (ew m n 0) 29
/-- BANK_SEL. -/
def chBank (m : Mem) (n : Nat) : Bool := bit (ew m n 0) 28
/-- RATE_GROUP. -/
def chGroup (m : Mem) (n : Nat) : Nat := bits (ew m n 0) 26 24
/-- HITCH. -/
def chHitch (m : Mem) (n : Nat) : Nat := bits (ew m n 0) 23 20
/-- N_CPW. -/
def chLen (m : Mem) (n : Nat) : Nat := bits (ew m n 0) 13 8
/-- TEMPLATE_ID. -/
def chTid (m : Mem) (n : Nat) : Nat := bits (ew m n 0) 5 0
/-- PGROUP. -/
def chPgroup (m : Mem) (n : Nat) : Nat := bits (ew m n 4) 14 12
/-- REACTION. -/
def chReaction (m : Mem) (n : Nat) : Nat := bits (ew m n 4) 11 8
/-- MODE_MASK. -/
def chModes (m : Mem) (n : Nat) : Nat := bits (ew m n 4) 6 0
/-- The channel runs in a mode (R111, R115). -/
def chInMode (m : Mem) (n mode : Nat) : Bool := 1 ≤ mode && bit (chModes m n) (mode - 1)
/-- Input-map slot i. -/
def inSlot (m : Mem) (n i : Nat) : Nat := ew m n (0x40 + 4 * i)
/-- Output-map slot i. -/
def outSlot (m : Mem) (n i : Nat) : Nat := ew m n (0x340 + 4 * i)
/-- KIND and INDEX of a slot; SUB and INVERT of an input slot; DISABLED of an output slot (R116, R117). -/
def slotKind (w : Nat) : Nat := bits w 31 28
def slotIndex (w : Nat) : Nat := bits w 23 16
def slotSub (w : Nat) : Nat := bits w 15 8
def slotInvert (w : Nat) : Bool := bit w 0
def slotDisabled (w : Nat) : Int := signed 16 w
/-- LO and HI of limit pair k (R119). -/
def limLo (m : Mem) (n k : Nat) : Int := signed 16 (ew m n (0x300 + 4 * k))
def limHi (m : Mem) (n k : Nat) : Int := signed 16 (ew m n (0x300 + 4 * k) / 65536)
/-- Coefficient i of bank b (R114). -/
def coef (m : Mem) (n : Nat) (b : Bool) (i : Nat) : Int :=
  signed 16 (uN 2 (Mem.readN m (entryAt n (if b then 0x280 else 0x200) + 2 * i) 2) 0)

/-- D8 is on (spec/01_architecture.md R41, spec/09_islanding.md R262). -/
def State.d8On (s : State) : Bool := s.sys.domains.getD 8 0 == 2

/-- The mode injects: grid-following or grid-forming, with the restart gate open (spec/09_islanding.md R264, R278). -/
def State.awnMode (s : State) : Bool := (s.modes.mode == 4 || s.modes.mode == 5) && !s.rt.gateClosed

/-- Injection runs: in Learning or Armed only, with D8 on (spec/09_islanding.md R262, R264). -/
def State.injecting (s : State) : Bool := s.awnMode && s.d8On && (s.isl.state == 1 || s.isl.state == 2)

/-- The value an input source holds for a pass that starts at t: the value, the aperture when it is marked invalid, and the aperture of the
sample read (R116, R133, R158). An input that has given no result reads 0, invalid (notes/assumptions/15.md). -/
def State.source (s : State) (t w : Nat) : Int × Option Nat × Nat :=
  let i := slotIndex w
  match slotKind w with
  | 1 =>
    match ((s.ain i).outs.getD (slotSub w) Decim.reset).past.find? fun r => r.1 ≤ t with
    | some r => (r.2.1, if r.2.2 then none else some r.1, r.1)
    | none => (0, some t, 0)
  | 2 => let h := s.hk i; ((h.code * 8 : Nat), if h.valid then none else some h.stamp, h.stamp)
  | 3 => let g := s.gen i; (if slotSub w = 0 then fQ15Up g.p else fQ15Up (fdiv g.v g.vScale), none, 0)
  | 4 => ((s.grid.trk.outputs.getD (slotSub w) 0).toInt, none, 0)
  | 5 => ((s.eng.links.getD i 0).toInt, none, 0)
  | 6 => ((s.pv i).posted.toInt, none, 0)
  | 7 => (if s.injecting && s.modes.mode == 4 then (s.isl.inject.getD i 0).toInt else 0, none, 0)
  | _ => (0, none, 0)

/-- Q15 negation: −1.0 gives 0x7FFF (R116, R121). -/
def q15Neg (v : Int) : Int := if v = -32768 then 32767 else -v

/-- A slot's value after INVERT for a pass that starts at t: value, aperture when invalid, stamp, whether the negation saturated (R116). -/
def State.slotValue (s : State) (t w : Nat) : Int × Option Nat × Nat × Bool :=
  let (v, bad, stamp) := s.source t w
  if slotInvert w then (q15Neg v, bad, stamp, v == -32768) else (v, bad, stamp, false)

/-- A write of a leg's shadow register completes at t (spec/11_pwm.md R325, R326); what an earlier write gave is kept for a load event at that
same instant. -/
def Leg.write (t : Nat) (duty phase : Option (BitVec 16)) (l : Leg) : Leg :=
  { l with shDuty := duty.getD l.shDuty, shPhase := phase.getD l.shPhase, shNew := true, shAt := t
           shOld := if l.shNew then (if l.shAt < t then some (l.shDuty, l.shPhase) else l.shOld) else none }

/-- A Q15 value stored to a destination of R117. A generator that is held keeps the target as pending (spec/06_control_engine.md R178); a
write of a different target lets its arrival be posted again (R176). A leg's store goes to its shadow register (R325). -/
def destWrite (kind index : Nat) (v : Int) (s : State) : State :=
  match kind with
  | 1 => s.modLeg index (Leg.write s.time (some (BitVec.ofInt 16 v)) none)
  | 2 => s.modLeg index (Leg.write s.time none (some (BitVec.ofInt 16 v)))
  | 3 => s.modGen index fun g =>
      if g.held then { g with pendTarget := some (BitVec.ofInt 16 v) }
      else { g with target := BitVec.ofInt 16 v, arrived := g.arrived && g.target == BitVec.ofInt 16 v }
  | 4 => s.modEng fun e => { e with links := e.links.set index (BitVec.ofInt 16 v) }
  | _ => s

/-- The DISABLED values of a channel's output map written to its destinations (R111, R134, R150). -/
def writeDisabled (m : Mem) (n : Nat) (s : State) : State :=
  (List.range 16).foldl (fun s i => let w := outSlot m n i; destWrite (slotKind w) (slotIndex w) (slotDisabled w) s) s

/-- A channel stopped: it runs no passes and its outputs go to their disabled values; its state is kept (R111, R150). -/
def stopChan (n : Nat) (s : State) : State :=
  writeDisabled s.eng.act n ((s.modChan n fun c => { c with running := false }).modEng fun e => { e with due := e.due.filter fun r => r.ch != n })

/-- The state word that an init selector of no input slot loads, if it loads one; whether the negation saturated (R121). -/
def State.initWord (s : State) (m : Mem) (n sel : Nat) : Option Int × Bool :=
  let neg := bit sel 12
  let q (v : Int) : Option Int × Bool := if neg then (some (q15Neg v * 65536), v == -32768) else (some (v * 65536), false)
  match bits sel 15 13 with
  | 0 => (some 0, false)
  | 2 =>
    let w := outSlot m n (bits sel 11 8)
    let l := s.leg (slotIndex w)
    q (if slotKind w = 1 then l.acDuty.toInt else l.acPhase.toInt)
  | _ => (none, false)

/-- An init selector names an input slot, which is read as the first pass reads it (R121, spec/06_control_engine.md R158). -/
def initWaits (sel : Nat) : Bool := bits sel 15 13 == 1

/-- The state words set by the init selectors of the entry (R121); those of an input slot wait for the first pass. -/
def initWords (m : Mem) (n : Nat) (s : State) : State :=
  (List.range 12).foldl (fun s j =>
    let sel := uN 2 (Mem.readN m (entryAt n (0x18 + 2 * j)) 2) 0
    if initWaits sel then s.modChan n fun c => { c with initSel := c.initSel ++ [(j, sel)] }
    else
      let (v, sat) := s.initWord m n sel
      s.modChan n fun c => { c with words := match v with | some x => c.words.set j x | none => c.words, sat := c.sat || sat })
    (s.modChan n fun c => { c with initSel := [] })

/-- A channel started on its boundary: state words initialised, and it runs (R111, R121, R150). -/
def startChan (n : Nat) (s : State) : State :=
  (initWords s.eng.act n s).modChan n fun c => { c with running := true, invSince := none }

/-- Entry n copied from the running copy to the copy that passes execute: what a boundary does with a placed effect (R137). -/
def loadEntry (n : Nat) (s : State) : State :=
  s.modEng fun e =>
    { e with act := (e.act.filter fun c => c.1 < entryAt n 0) ++ (e.run.filter fun c => entryAt n 0 ≤ c.1 && c.1 < entryAt n 0x400) ++
        (e.act.filter fun c => entryAt n 0x400 ≤ c.1) }

/-- The lowest enabled channel that owns a destination, if any (R118). A channel that was disabled but has not reached its boundary owns
no more. -/
def State.owner (s : State) (kind index : Nat) : Option Nat :=
  (List.range 256).find? fun n =>
    chEnable s.eng.run n && (List.range 16).any fun i =>
      let w := outSlot s.eng.run n i; slotKind w == kind && slotIndex w == index

/-- Whether an enabled channel owns a destination. -/
def State.owned (s : State) (kind index : Nat) : Bool := (s.owner kind index).isSome

/-- The multiple of a rate group, 0 when it is not in use (spec/06_control_engine.md R156). -/
def State.mult (s : State) (g : Nat) : Nat := (s.eng.groups.getD g RateGrp.reset).mult

/-- A rate group is in use: a base tick is configured and its multiple is not 0. -/
def State.groupUsed (s : State) (g : Nat) : Bool := s.eng.hasRate && s.mult g != 0

/-- The base tick with the engine's present index is a boundary of group g (R156). -/
def State.isBoundary (s : State) (g : Nat) : Bool := s.groupUsed g && s.eng.tick % s.mult g == 0

/-- The channels of the table in ascending order that meet a condition. -/
def chansWhere (f : Nat → Bool) : List Nat := (List.range 256).filter f

end Sys2Proof.Machine
end

