-- ==== Sys2Proof/Machine/Actions.lean ====
section
/-! DEFINITION. Actions that several groups share: leg states and permission (spec/11_pwm.md R327 to R329), protection trips
(spec/13_protection.md R380 to R388), channel reactions (spec/05_sheaf_table.md R134), safety outputs' open orders
(spec/15_safety.md R422 to R430) and mode changes (spec/04_operating_modes.md R101 to R106). -/

namespace Sys2Proof.Machine

/-! ### Legs -/

/-- One output edge. -/
def Leg.edge (l : Leg) (e : Int × Bool × Bool) : Leg := if e.2.1 then { l with pwmH := e.2.2 } else { l with pwmL := e.2.2 }

/-- The time of the latest turn-on edge of one output, edges that have happened in this interval included (for blanking,
spec/13_protection.md R374). -/
def Leg.lastOn (d : D6Clock) (l : Leg) (h : Bool) (done : List (Int × Bool × Bool)) : Nat :=
  done.foldl (fun m e => if e.2.1 == h && e.2.2 then max m (d.ns (l.loadD + e.1)) else m) (if h then l.onH else l.onL)

/-- The edges that have happened by time t. -/
def Leg.done (d : D6Clock) (t : Nat) (l : Leg) : List (Int × Bool × Bool) := l.edges.filter fun e => decide (e.1 ≤ d.steps t - l.loadD)

/-- The pins brought to time t: the edges up to it have happened, and those after it never will (R381: no new edge is started). -/
def Leg.settle (d : D6Clock) (t : Nat) (l : Leg) : Leg :=
  let done := l.done d t
  { done.foldl Leg.edge l with edges := [], ideal := none, onPut := false, cur := none, onH := l.lastOn d true done, onL := l.lastOn d false done }

/-- Pins of a leg in a state it rests in (R327): Disabled low with STO asserted; Starting, Switching and Test with STO released. Pulses in
progress are cut (R329). -/
def Leg.enter (st : Nat) (l : Leg) : Leg :=
  let l := if st = 2 then l else { l with applied := 0 }
  if st = 0 then { l with state := 0, pwmH := false, pwmL := false, sto := true, preDone := false }
  else if st = 1 then { l with state := 1, pwmH := false, pwmL := false, sto := false, preDone := l.bootPre == 0 }
  else if st = 3 then { l with state := 3, sto := true }
  else { l with state := st, sto := false }

/-- Leg n taken to a state, with PWM_LEG_STATE when it changes; cause 0 permission, 1 protection, 2 test, 3 command (R327, R337). -/
def legTo (t n st cause : Nat) (s : State) : State :=
  let l := s.leg n
  if l.state = st then s
  else (s.modLeg n fun l => { (l.settle s.pwm.d6 t).enter st with startedAt := if st = 1 ∨ st = 4 then t else l.startedAt }).post t
    (ev 0x0730 n [BitVec.ofNat 8 l.state, BitVec.ofNat 8 st, BitVec.ofNat 8 cause])

/-- The protection group that holds a leg (R380). -/
def State.groupOf (s : State) (leg : Nat) : Option Nat := (List.range 8).find? fun g => (s.pgroup g).legs.contains leg

/-- Leg n belongs to a protection group that is not Armed: a command that would alter the leg is answered E_STATE (spec/13_protection.md R384,
spec/01_architecture.md R26). -/
def State.legReacting (s : State) (n : Nat) : Bool := match s.groupOf n with | some g => (s.pgroup g).state != 0 | none => false

/-- A waiting leg configuration in force (R333, R335): its initial phase goes to the shadow register (R325), but for the roles of R321. -/
def Leg.configure (t : Nat) (c : LegCfg) (l : Leg) : Leg :=
  let l := { l with
    tb := c.tb, hasCfg := true, next := none, lmode := c.lmode, loads := c.loads, boot := c.boot, cmp := c.cmp, dtH := c.dtH, dtL := c.dtL
    minPulse := c.minPulse, dMax := c.dMax, bootHold := c.bootHold, bootRefresh := c.bootRefresh, bootPre := c.bootPre }
  if l.role = 5 ∨ l.role = 6 then l else l.write t none (some c.phase)

/-- The leg as configured, whether its configuration is in force yet or not: what the checks of later commands go by. -/
def Leg.asked (l : Leg) : Leg := match l.next with | some c => l.configure l.shAt c | none => l

/-- A role of a grid or chopper leg (R319). -/
def gridRole (r : Nat) : Bool := 2 ≤ r && r ≤ 5
/-- Group g holds a grid or chopper leg (R105, R113). -/
def State.holdsGrid (s : State) (g : Nat) : Bool := (s.pgroup g).legs.any fun n => let r := (s.leg n).role; gridRole r || r == 9

/-- A trip function of the ride-through monitor requests the trip of the current channel's group in islanded supply (spec/08_ride_through.md R243). -/
def State.islandTrip (s : State) (g : Nat) : Bool :=
  s.modes.mode == 7 && (match s.grid.cfg with | some c => chPgroup s.eng.act c.curChan == g | none => false) &&
  s.rt.trips.any fun x => x.enable && decide (x.tTicks ≤ x.count)

/-- A source of group g, described by whether it is ready and whether it is asserted (R380). -/
def State.groupSources (s : State) (g : Nat) : List (Bool × Bool) :=
  ((s.pgroup g).legs.map fun n => let f := s.prot.flts.getD n Flt.reset
    if f.kind = 3 then (false, false)
    else if f.kind = 0 then (f.ready, f.asserted)
    else let c := s.cmp f.cmp; (c.ready, c.main || c.hard)) ++
  ((s.prot.cmps.filter fun c => c.input == 1 && c.action == 1 && c.group == g && c.cell.isSome).map fun c => (c.ready, c.main || c.hard)) ++
  ((s.prot.mons.filter fun m => m.hasCfg && m.action == 1 && m.group == g).map fun m => (m.ready, m.acted)) ++ [(true, s.islandTrip g)]

/-- Every source of group g is ready and not asserted (R386). -/
def State.sourcesClear (s : State) (g : Nat) : Bool := (s.groupSources g).all fun x => x.1 && !x.2

/-- Every source of group g is ready (R369). -/
def State.sourcesReady (s : State) (g : Nat) : Bool := (s.groupSources g).all fun x => x.1

/-- The PV port that claims a leg; the battery port that claims a leg (R286). -/
def State.pvOfLeg (s : State) (n : Nat) : Option Nat :=
  (List.range 16).find? fun p => match (s.pv p).cfg with | some c => c.legs.contains n | none => false
def State.batOfLeg (s : State) (n : Nat) : Option Nat :=
  (List.range 4).find? fun p => match (s.bat p).cfg with | some c => c.legs.contains n | none => false

/-- The mode that leg permission follows: safe stop once the ramp of a change to it has ended; no switching grid leg while the disconnect
opens for islanded supply; islanded supply itself while its voltage is soft-started (R101, R102). -/
def State.legMode (s : State) : Nat :=
  match s.modes.trans with
  | none => s.modes.mode
  | some tr =>
    if tr.target = 1 ∧ !s.modes.ramping then 1
    else if tr.target = 7 ∧ (tr.prev = 4 ∨ tr.prev = 5) then 6
    else if tr.target = 7 ∧ tr.softAt.isSome then 7
    else s.modes.mode

/-- The role's own condition of R328. -/
def State.roleAllows (s : State) (n : Nat) : Bool :=
  let l := s.leg n
  let m := s.legMode
  let out := m != 0 && m != 1 && m != 2
  if gridRole l.role then (m == 4 || m == 5 || m == 7) && !s.rt.gateClosed && !s.rt.gateOpening && !s.grid.legsHeld
  else if l.role = 6 then match s.pvOfLeg n with | some p => let st := (s.pv p).state; 2 ≤ st && st ≤ 5 | none => false
  else if l.role = 7 ∨ l.role = 8 then
    match s.batOfLeg n with | some p => let st := (s.bat p).state; (st == 3 || st == 4) && out | none => false
  else if l.role = 9 then out
  else if l.role = 1 then out && (s.owned 1 n || l.duSet)
  else false

/-- Protection permits the leg (R328, R369): D6 on, the leg held by an Armed group, its FLT kind configured, every source of the group
ready. -/
def State.protAllows (s : State) (n : Nat) : Bool :=
  match s.groupOf n with
  | none => false
  | some g => s.sys.domains.getD 6 0 == 2 && (s.pgroup g).state == 0 && (s.prot.flts.getD n Flt.reset).kind != 3 && s.sourcesReady g

/-- A leg is permitted to switch (R328, R369). -/
def State.permitted (s : State) (n : Nat) : Bool := s.protAllows n && s.roleAllows n

/-- The group that holds leg n is in its reaction, which nothing else alters (spec/01_architecture.md R25, R26). -/
def State.inReaction (s : State) (n : Nat) : Bool := match s.groupOf n with | some g => (s.pgroup g).state == 1 | none => false

/-- Permission granted or withdrawn for every leg (R329): a Disabled leg starts, a Starting or Switching leg goes to Disabled; a leg whose test runs in
maintenance is in Test while protection permits it (R328), an unassigned leg (R319) and a grid leg that its new configuration holds disabled excepted
(spec/07_grid_current.md R186). A leg whose group reacts is left to the reaction (spec/01_architecture.md R25). -/
def legsUpdate (t : Nat) (s : State) : State :=
  (List.range 48).foldl (fun s n =>
    let st := (s.leg n).state
    if s.inReaction n then s
    else if st = 0 ∧ t < (s.leg n).testEnd ∧ s.modes.mode = 2 ∧ s.protAllows n ∧ (s.leg n).role ≠ 0 ∧ !(gridRole (s.leg n).role && s.grid.legsHeld) then
      legTo t n 4 2 s
    else if st = 0 ∧ s.permitted n then legTo t n 1 0 s
    else if st = 4 ∧ !s.protAllows n then legTo t n 0 0 s
    else if (st = 1 ∨ st = 2) ∧ !s.permitted n then legTo t n 0 0 s
    else s) s

/-- Whether every leg is Disabled or Tripped (R58, R102). -/
def State.legsOff (s : State) : Bool := s.pwm.legs.all fun l => l.state == 0 || l.state == 3

/-- Every leg that is not Tripped taken to Disabled (R102); a leg of a group whose reaction runs, STO asserted already, is left to it
(R381). -/
def allLegsOff (t : Nat) (s : State) : State :=
  (List.range 48).foldl (fun s n =>
    if (s.leg n).state == 3 || s.inReaction n then s else legTo t n 0 0 s) s

/-! ### Safety outputs (orders only; their states are the safety group's) -/

/-- An item of the active safety image: function i = 0..3, output i, pair i (R448). -/
def State.sfByte (s : State) (i o : Nat) : Nat := u8 s.safety.active (8 * i + o)
def State.outByte (s : State) (i o : Nat) : Nat := u8 s.safety.active (32 + 8 * i + o)
def State.pairByte (s : State) (i o : Nat) : Nat := u8 s.safety.active (64 + 8 * i + o)

/-- The mode that the operational requests follow (R422): during a transition, its target once any safe-stop ramp has ended. -/
def State.requestMode (s : State) : Nat :=
  match s.modes.trans with
  | none => s.modes.mode
  | some tr => if s.modes.ramping then tr.prev else if tr.resync then tr.prev else tr.target

/-- Whether the operational request of output i is closed (R422). -/
def State.opRequest (s : State) (i : Nat) : Bool :=
  let f := s.outByte i 1
  let m := s.requestMode
  if 4 ≤ f then false
  else match s.sfByte f 1 with
    | 1 => 3 ≤ m && m ≤ 6
    | 2 => m != 0 && m != 1
    | 3 => (s.safety.outs.getD i SOut.reset).req
    | _ => false

/-- A safety output can be driven at all: VDD_HV is good and the interface die sees the D1 heartbeat (spec/01_architecture.md R36,
spec/02_startup_reset.md R43). -/
def State.canDrive (s : State) : Bool := s.sys.railHv && s.safety.heartbeat

/-- Whether output i is to be driven closed (R425), VDD_HV and the heartbeat included. -/
def State.outWanted (s : State) (i : Nat) : Bool :=
  let f := s.outByte i 1
  f < 4 && (s.safety.fns.getD f Sf.reset).state == 3 && s.opRequest i && s.canDrive &&
  (s.safety.outs.getD i SOut.reset).state != 4

/-- The orders of one tick or decision to the outputs (R425, R430): an output no longer wanted opens both switches at once; one wanted
closed starts its light tests, SOH alone first. A test in progress ends with an open order (R447); a close order withdrawn during its
light tests leaves the output Open. Without VDD_HV or the heartbeat both switches open whatever the state, a test that would end a fault included
(spec/01_architecture.md R36). -/
def outputOrders (t : Nat) (s : State) : State :=
  let step (i : Nat) (o : SOut) : SOut :=
    if o.state = 4 then (if s.canDrive then o else { o with light := 0, recover := false, soh := false, sol := false })
    else if s.outWanted i then
      if o.state = 0 ∧ o.light = 0 then { o with light := 1, soh := true, sol := false, chgAt := t, testing := false } else o
    else if o.state = 1 ∨ o.state = 2 then
      { o with state := 3, light := 0, dark := 0, soh := false, sol := false, chgAt := t, waitAt := t, testing := false, openLoadAt := none }
    else if o.state = 0 ∧ o.light ≠ 0 ∧ (!o.testing || !s.canDrive) then
      { o with light := 0, soh := false, sol := false, chgAt := t, testing := false }
    else o
  { s with safety := { s.safety with outs := (List.range 4).map fun i => step i (s.safety.outs.getD i SOut.reset) } }

/-- The outputs of kind-1 functions: the grid disconnect (R422). -/
def State.disconnectOuts (s : State) : List Nat := (List.range 4).filter fun i => s.outByte i 1 < 4 && s.sfByte (s.outByte i 1) 1 == 1

/-- The grid disconnect is closed, or open, by readback: every output of it (R430). An installation that configures none reads as asked. -/
def State.disconnectClosed (s : State) : Bool := s.disconnectOuts.all fun i => (s.safety.outs.getD i SOut.reset).state == 2
def State.disconnectOpen (s : State) : Bool := s.disconnectOuts.all fun i => (s.safety.outs.getD i SOut.reset).state == 0

/-- A safety demand is present (R426): a kind-1 or kind-2 function is not in Run. -/
def State.safetyDemand (s : State) : Bool :=
  (List.range 4).any fun i => (s.sfByte i 1 == 1 || s.sfByte i 1 == 2) && (s.safety.fns.getD i Sf.reset).state != 3

/-! ### Modes -/

/-- The stop of power set-points at the start of a safe-stop ramp (spec/06_control_engine.md R179): a hold is released, pending targets
are discarded, and the ramp runs from the present position. A disabled generator keeps its outputs (R184). -/
def Gen.rampStart (g : Gen) : Gen :=
  if g.powerSp && g.enable then { g with held := false, pendTarget := none, rampP := g.p } else g

/-- A power set-point at rest at zero (R179). -/
def Gen.rest (g : Gen) : Gen := if g.powerSp && g.enable then { g with p := 0, v := 0, a := 0, target := 0, held := false, pendTarget := none, arrived := g.arrived && g.target == 0 && feq g.p 0 } else g

/-- The end of a safe-stop ramp (R102): power set-points rest at 0, every leg is off, and the grid and DC disconnects are ordered open. A
ramp toward standby-synchronised takes the grid legs off, and the disconnect stays closed (R101). -/
def endRamp (t : Nat) (s : State) : State :=
  let s := { s with gens := s.gens.map Gen.rest, modes := { s.modes with ramping := false } }
  match s.modes.trans with
  | some tr =>
    if tr.target = 3 then (List.range 48).foldl (fun s n => if gridRole (s.leg n).role && (s.leg n).state != 3 && !s.inReaction n then legTo t n 0 0 s else s) s
    else outputOrders t (allLegsOff t s)
  | none => outputOrders t (allLegsOff t s)

/-- The safety outputs open: a ramp still in progress ends there (R102). -/
def cutRamp (t : Nat) (s : State) : State := if s.modes.ramping then endRamp t s else s

/-- A safe-stop ramp begins, or one in progress is shortened or left as it is (R102); a ramp of 0 ends at once. -/
def beginRamp (t ms : Nat) (s : State) : State :=
  if ms = 0 then endRamp t s
  else
    let e := t + ms * 1000000
    if s.modes.ramping ∧ s.modes.rampEnd < e then s
    else { s with gens := s.gens.map Gen.rampStart, modes := { s.modes with ramping := true, rampFrom := t, rampEnd := e } }

/-- The supervisor's ramp for a cause of safe stop (R102): 0 for a safety demand and DC-link OV2, 1 ms for a supervisor fault or the loss
of both PLLs, otherwise the stored default. A trip of the grid windows and an islanding decision take the grid legs off within 100 µs
(spec/08_ride_through.md R232, spec/09_islanding.md R272): ramp 0. -/
def State.causeRamp (s : State) (cause : Nat) : Nat :=
  if cause = 0x01 ∨ cause = 0x03 ∨ cause = 0x05 ∨ cause = 0x07 then 0 else if cause = 0x02 then 1 else s.modes.rampMs

/-- A safe-stop ramp is in progress, and one of this cause would end no later (R102): it supersedes the one in progress. -/
def State.stopsSooner (s : State) (t cause : Nat) : Bool := s.modes.ramping && decide (t + s.causeRamp cause * 1000000 ≤ s.modes.rampEnd)

/-- The device is going to safe stop. -/
def State.stopping (s : State) : Bool := match s.modes.trans with | some tr => tr.target == 1 | none => false

/-- Restart and reconnection disarmed (R106). -/
def disarmRestart (s : State) : State := s.modModes fun m => { m with restartArmed := false, reconnect := 0 }

/-- A transition begun toward a mode (R101, R104). Momentary cessation, by a cause or by command, notes the power mode to return to (R101). -/
def beginTrans (target cause next : Nat) (resync : Bool) (s : State) : State :=
  s.modModes fun m =>
    { m with
      trans := some { target := target, prev := m.mode, cause := cause, next := next, resync := resync, evals := 0, ms := m.rampMs, softAt := none }
      beforeCess := if target = 6 then m.mode else m.beforeCess }

/-- Modes in which the grid legs switch (R97). -/
def switchingMode (m : Nat) : Bool := m == 4 || m == 5 || m == 7

/-- The priority of an autonomous cause (R105). -/
def causePrio (cause : Nat) : Nat :=
  if cause ≤ 3 then 1 else if cause = 4 then 2 else if cause = 5 then 3 else if cause ≤ 8 then 4 else 5

/-- A cause of a lower priority number has decided the mode at the evaluation of t (R105). -/
def State.outranked (s : State) (t cause : Nat) : Bool := s.modes.forcedAt == some t && decide (s.modes.forcedPrio < causePrio cause)

/-- The change in progress was decided at the evaluation of t by a cause of a higher priority number, which this cause overrides (R105). -/
def State.overrides (s : State) (t cause : Nat) : Bool := s.modes.forcedAt == some t && decide (causePrio cause < s.modes.forcedPrio)

/-- The device is in mode m or on its way there (R104, R108). -/
def State.modeOrTarget (s : State) (m : Nat) : Bool :=
  s.modes.mode == m || match s.modes.trans with | some tr => tr.target == m | none => false

/-- The grid legs switch in the present mode or in that of the transition in progress (R97, R108). -/
def State.switchesNow (s : State) : Bool := s.modeOrTarget 4 || s.modeOrTarget 5 || s.modeOrTarget 7

/-- Arming of restart and reconnection by a forced change (R106). -/
def armAfter (cause target : Nat) (m : Modes) : Modes :=
  let prior := if m.mode = 6 then m.beforeCess else m.mode
  if 1 ≤ cause ∧ cause ≤ 4 then { m with restartArmed := false, reconnect := 0 }
  else if (cause = 5 ∨ cause = 7) ∧ target = 1 then
    { m with restartArmed := m.startMode == 3 || m.startMode == 4 || m.startMode == 5 }
  else if cause = 5 ∧ target = 7 then { m with reconnect := prior, restartArmed := false }
  else m

/-- An autonomous change of mode (R105, R106): MODE_FORCED is posted and the transition begins. A change to safe stop runs the ramp of its
cause; a change to a mode without switching legs withdraws the legs' permission when it is entered. DESIGN CHOICE (notes/assumptions/26.md): a forced
change to safe stop also ends the attempt at the start mode. -/
def forceMode (t cause target next : Nat) (resync : Bool) (s : State) : State :=
  let prev := s.modes.mode
  let s := s.modModes fun m => { armAfter cause target m with forcedAt := some t, forcedPrio := causePrio cause }
  let s := beginTrans target cause next resync s
  let s := s.post t (ev 0x0184 0 [BitVec.ofNat 8 prev, BitVec.ofNat 8 target, BitVec.ofNat 8 cause])
  if target = 1 then beginRamp t (s.causeRamp cause) ((s.count (0x10 + cause)).modModes fun m => { m with startWanted := false })
  else s

/-- A cause of priority 1 or 2 acts from any mode (R105) and disarms (R106). In safe stop with nothing in progress it changes no mode; a
safe-stop ramp in progress goes on where it ends sooner (R102). -/
def forceSafeStop (t cause : Nat) (s : State) : State :=
  if s.modes.mode = 0 then s
  else match s.modes.trans with
    | some tr => if tr.target = 1 ∧ !s.stopsSooner t cause then disarmRestart s else forceMode t cause 1 0 false s
    | none => if s.modes.mode = 1 then disarmRestart s else forceMode t cause 1 0 false s

/-! ### Protection trips (R381 to R386) -/

/-- The first step of a reaction on one leg (R381): STO asserted; a hard reaction also takes PWMH low, and PWML low except on roles 3
and 4; a soft one holds both at their levels. -/
def Leg.react (hard : Bool) (l : Leg) : Leg :=
  if l.state = 1 ∨ l.state = 2 ∨ l.state = 4 then
    if hard then { l with sto := true, pwmH := false, pwmL := l.pwmL && (l.role == 3 || l.role == 4) } else { l with sto := true }
  else l

/-- Causes that latch (R385). -/
def latches (cause : Nat) : Bool := 6 ≤ cause && cause ≤ 10

/-- MODE degraded flag (R113): while a group with grid or chopper legs is Reacting or Waiting. -/
def modeDegraded (s : State) : State :=
  let b := (List.range 8).any fun g => ((s.pgroup g).state == 1 || (s.pgroup g).state == 2) && s.holdsGrid g
  s.modSys fun y => { y with modeDegraded := b }

/-- A trip request reaches group g (R386): recorded by PROT_TRIP whatever the state; an Armed group starts its reaction. A latching
request, or one with the tries used up, is to end in Latched; the tries of a group Armed without a trip for RETRY_CLEAR count from 0. `val` is the threshold code or monitor value of R399. -/
def tripGroup (t g source cause val : Nat) (s : State) : State :=
  let p := s.pgroup g
  let armed := p.state == 0
  let p := if armed ∧ p.armedAt + p.retryClear * 1000000000 ≤ t then { p with tries := 0 } else p
  let latch := latches cause || p.retries ≤ p.tries
  let tries := if armed && !latch then p.tries + 1 else p.tries
  let tie := s.prot.tripStamp == some (t / 2)
  let e : Ev := { ev 0x0930 source ([BitVec.ofNat 8 g, BitVec.ofNat 8 cause, BitVec.ofNat 8 tries, if armed then 1 else 0] ++ le 2 val) with tie := tie }
  let s := { s with prot := { s.prot with tripStamp := some (t / 2) } }
  let s := s.post t e
  if !armed then s
  else
    let s := p.legs.foldl (fun s n => s.modLeg n fun l => Leg.react p.hard (l.settle s.pwm.d6 t)) s
    modeDegraded <| (s.modPGroup g fun p =>
      { p with state := 1, tries := tries, latchPend := latch, retryAt := if latch then p.retryAt else t + p.tRetry * 1000000,
               lastCause := cause, lastSource := source, step1 := !p.hard, reactAt := t }).count (0x700 + 4 * g)

/-- A trip request to every group (causes 8 and 9, R385). -/
def tripAll (t source cause val : Nat) (s : State) : State :=
  (List.range 8).foldl (fun s g => tripGroup t g source cause val s) s

/-- Group g latched: posted and counted; with grid or chopper legs it is cause 0x04 (R387). DESIGN CHOICE (notes/assumptions/26.md): "any with
switching legs" of R105 is every mode but safe stop and maintenance, whether a leg test runs or not. -/
def latchGroup (t g : Nat) (s : State) : State :=
  let s := modeDegraded ((s.modPGroup g fun p => { p with state := 3 }).count (0x701 + 4 * g)).commitHealth
  let p := s.pgroup g
  let s := s.post t (ev 0x0932 g [BitVec.ofNat 8 p.lastCause, BitVec.ofNat 8 p.tries])
  if s.holdsGrid g ∧ s.modes.mode ≠ 0 ∧ s.modes.mode ≠ 1 ∧ s.modes.mode ≠ 2 then forceSafeStop t 0x04 s else s

/-- Held outputs of a group's comparators cleared: the live input decides again (R376). -/
def clearHeld (g : Nat) (s : State) : State :=
  let mine (x : Cmp) : Bool :=
    (x.input == 1 && x.action == 1 && x.group == g) || (x.input == 2 && (s.pgroup g).legs.contains x.index)
  let cmps := s.prot.cmps.map fun x => if mine x then { x with hard := false, main := x.live } else x
  { s with prot := { s.prot with cmps := cmps } }

/-- The legs of a group that are Tripped return to Disabled (R329, R386). -/
def releaseLegs (t g : Nat) (s : State) : State :=
  (s.pgroup g).legs.foldl (fun s n => if (s.leg n).state = 3 then legTo t n 0 1 s else s) s

/-! ### Channel reactions (R134) -/

/-- Channel n takes its REACTION (R134): stopped with its outputs at their disabled values and FAULTED; with code 1 its protection group
trips as well, cause 6 (R385). -/
def chanReaction (t n : Nat) (s : State) : State :=
  let r := chReaction s.eng.act n
  let g := chPgroup s.eng.act n
  let s := (stopChan n s).modChan n fun c => { c with faulted := true, stopped := true, pendStart := false }
  if r = 1 then tripGroup t g (0x300 + n) 6 0 s else s

/-- The reaction with its event CHANNEL_FAULT (R133, R151, R169). -/
def chanFault (t n cause : Nat) (s : State) : State :=
  let r := chReaction s.eng.act n
  (chanReaction t n s).post t (ev 0x0232 n [BitVec.ofNat 8 cause, BitVec.ofNat 8 r])

/-! ### The recorder's captures -/

/-- The recorder changed. -/
def State.withRec (f : Rec → Rec) (s : State) : State := { s with recorder := f s.recorder }

/-- Each lane as a capture header shows it (spec/14_recorder.md R417): source, UNIT, physical full scale and delay. -/
def laneInfo (s : State) : List Byte :=
  (List.range 16).flatMap fun i =>
    let x := s.recorder.lanes.getD i Lane.reset
    let (u, fs) := if x.kind = 2 then ((s.hk x.input).punit, (s.hk x.input).fs) else ((s.ain x.input).unit, (s.ain x.input).fs)
    le 1 x.kind ++ le 1 x.input ++ le 1 x.out ++ le 1 u ++ le 4 fs.toNat ++ leI 4 x.delay

/-- A capture as it ends, with its lanes as they are then. -/
def State.finished (s : State) (c : Capture) : Capture := s.recorder.finish { c with info := laneInfo s }

/-! ### The end of a capture, its commit and the next one (spec/14_recorder.md R409, R411, R413) -/

/-- MRAM bytes free (R413). -/
def Rec.mramFree (r : Rec) : Nat := 2097152 - r.mram.foldl (fun a c => a + c.bytes) 0

/-- The oldest unprotected committed captures deleted until n bytes are free. -/
def makeRoom (n : Nat) : Nat → Rec → Rec
  | 0, r => r
  | f + 1, r =>
    if n ≤ r.mramFree then r
    else match r.mram.find? fun c => !c.protect with
      | some c => makeRoom n f { r with mram := r.mram.erase c }
      | none => r

/-- A commit of a capture can make room. -/
def Rec.roomFor (r : Rec) (n : Nat) : Bool := decide (n ≤ (makeRoom n r.mram.length r).mramFree)

/-- A capture committed, or refused for want of room (R413); REC_COMMITTED reports either. -/
def commitCapture (t : Nat) (c : Capture) (s : State) : State :=
  let r := s.recorder
  if r.roomFor c.bytes then
    let r := makeRoom c.bytes r.mram.length r
    let put : Capture := { c with committing := false }
    let s := { s with recorder := { r with mram := r.mram ++ [put], done := r.done.map fun d : Capture => if d.id = c.id then put else d } }
    s.post t (ev 0x0A33 0 (le 2 c.id ++ [1]))
  else
    let s := s.withRec fun r => { r with done := r.done.map fun d : Capture => if d.id = c.id then { d with committing := false } else d }
    s.post t (ev 0x0A33 0 (le 2 c.id ++ [0]))

/-- Triggers that came after the end of the capture before belong to this one, or are lost when there is none (R409, R411). -/
def fireNext (s : State) : State :=
  s.recorder.nextFires.foldl (fun s x => recFire x.1 x.2 s) (s.withRec fun r => { r with nextFires := [] })

/-- The recorder armed in a free slot; with none, the decision of R411. -/
def armRecorder (t : Nat) (s : State) : State :=
  fireNext <|
  let armed (r : Rec) : Rec := { r with state := 1, history := [], opn := [], cur := none }
  let stop (s : State) : State :=
    let s := if s.recorder.ovfPosted then s else s.post t (ev 0x0A32 0 [0])
    s.withRec fun r => { r with state := 4, ovfPosted := true }
  let r := s.recorder
  if r.stream ∨ r.done.length < r.slots then s.withRec armed
  else if r.stopOvf then stop s
  else match r.done.find? fun c => !c.unread && !c.committing with
    | some c => s.withRec fun r => armed { r with done := r.done.erase c }
    | none => stop s

/-- A capture complete: its blocks closed and cut to the window, its bytes counted (R408, R411, R412). -/
def finishCapture (t : Nat) (s : State) : State :=
  match s.recorder.cur with
  | none => s
  | some c =>
    let c := s.finished c
    let s := s.withRec fun r => { r with state := 3, cur := none, history := [], opn := [], done := r.done ++ [c], nextFires := if r.rep then r.nextFires else [] }
    let s := s.post t (ev 0x0A31 0 (le 2 c.id ++ [BitVec.ofNat 8 (flagAt c.trunc 0 + flagAt c.overflow 1), 0] ++ le 4 c.bytes))
    if c.committing then commitCapture t c s else s

/-! ### Freeze (spec/03_command_interface.md R87) -/

/-- A master other than the supervisor and the engine violates the firewall: frozen, FREEZE set, the event posted. A frozen recorder ends
its capture truncated (spec/14_recorder.md R414). -/
def freezeMaster (t m addr : Nat) (write : Bool) (s : State) : State :=
  let s := s.modHost fun h => { h with frozen := h.frozen ||| BitVec.ofNat 7 (2 ^ m)
                                       appFrozenAt := if m = 4 then t else h.appFrozenAt
                                       appFreezes := if m = 4 then (t :: h.appFreezes.filter fun x => t < x + 600000000000) else h.appFreezes }
  let s := if m = 2 ∧ (s.recorder.state = 1 ∨ s.recorder.state = 2) then
      (finishCapture t (s.withRec fun r => { r with cur := r.cur.map fun c => { c with trunc := true, tEnd := min c.tEnd t } })).withRec fun r =>
        { r with state := 0, rearm := true, opn := [], history := [], nextFires := [] }
    else s
  (s.setInt 27).post t (ev 0x0190 m (le 4 addr ++ [if write then 1 else 0]))

end Sys2Proof.Machine
end

