-- ==== Sys2Proof/Machine/Cpw.lean ====
section
/-! DEFINITION. Control program words (spec/05_sheaf_table.md R125 to R135): their fields, the checks of a program, and one pass of a
program over a channel's registers. -/

namespace Sys2Proof.Machine

/-! ### Encoding (R128) -/

/-- The fields of a control program word (R128). -/
structure Cpw where
  op : Nat
  n : Nat
  bc : Bool
  d : Nat
  a : Nat
  b : Nat
  c : Nat
  s : Nat
  l : Nat
  e : Nat
  x : Nat
  imm : Nat
deriving DecidableEq, Repr

/-- The word of 64 bits taken apart (R128). -/
def Cpw.ofWord (w : Nat) : Cpw :=
  { op := bits w 63 58, n := bits w 57 55, bc := bit w 54, d := bits w 53 50, a := bits w 49 46, b := bits w 45 42,
    c := bits w 41 36, s := bits w 35 32, l := bits w 31 28, e := bits w 27 24, x := bits w 23 16, imm := bits w 15 0 }

/-- VLane count n. -/
def Cpw.lanes (w : Cpw) : Nat := w.n + 1

/-- X as the signed multiplier of PARK, IPARK and TRIG (R131). -/
def Cpw.mul (w : Cpw) : Int := signed 8 w.x

/-- What an operation uses (R131): which fields, its lane counts, the size of a coefficient set, state words per lane, accumulators. -/
structure OpUse where
  /-- VLane counts. -/
  lanes : List Nat := [1, 2, 3, 4, 5, 6, 7, 8]
  /-- D is used. -/
  d : Bool := false
  /-- A is used. -/
  a : Bool := false
  /-- B is used. -/
  b : Bool := false
  /-- Coefficients per set, 0 when none is read. -/
  set : Nat := 0
  /-- State words per lane, 0 when none is used. -/
  states : Nat := 0
  /-- L is used. -/
  l : Bool := false
  /-- E is used. -/
  e : Bool := false
  /-- X is used. -/
  x : Bool := false
  /-- The greatest IMM. -/
  imm : Nat := 0
  /-- D, or A, names an accumulator. -/
  accD : Bool := false
  accA : Bool := false

/-- The table of R131; none for an OP that is not listed. SEL uses X only with IMM 3, STE uses L only with IMM 1..3. -/
def Cpw.use (w : Cpw) : Option OpUse :=
  match w.op with
  | 0x00 => some { lanes := [1] }
  | 0x01 => some { d := true, x := true }
  | 0x02 => some { d := true, states := 1 }
  | 0x03 => some { d := true, states := 1, accD := true }
  | 0x04 => some { d := true, set := 1 }
  | 0x08 => some { d := true, a := true, set := 1, e := true, accD := true }
  | 0x09 => some { d := true, a := true, set := 1, e := true, accD := true }
  | 0x0A => some { d := true, a := true, b := true, e := true, accD := true }
  | 0x0B => some { d := true, a := true, b := true, e := true, accD := true }
  | 0x0C => some { d := true, a := true, b := true }
  | 0x0D => some { d := true, a := true, b := true }
  | 0x0E => some { d := true, a := true, e := true, accA := true }
  | 0x0F => some { d := true, a := true, e := true, l := true, accA := true }
  | 0x10 => some { lanes := [1, 2, 3, 4], d := true, a := true, set := 5, states := 2, e := true }
  | 0x11 => some { d := true, a := true, set := 2, states := 1, e := true, l := true }
  | 0x12 => some { lanes := [1, 2, 3, 4], d := true, a := true, set := 2, states := 2, e := true, x := true, accD := true }
  | 0x14 => some { lanes := [3], d := true, a := true }
  | 0x15 => some { lanes := [3], d := true, a := true }
  | 0x16 => some { lanes := [2, 4, 6, 8], d := true, a := true, b := true, x := true }
  | 0x17 => some { lanes := [2, 4, 6, 8], d := true, a := true, b := true, x := true }
  | 0x18 => some { d := true, a := true, x := true, imm := 1 }
  | 0x19 => some { d := true, a := true, l := true }
  | 0x1A => some { d := true, a := true, b := true, x := w.imm == 3, imm := 3 }
  | 0x1C => some { a := true, x := true }
  | 0x1D => some { a := true, x := true }
  | 0x1E => some { a := true, x := true }
  | 0x1F => some { a := true, l := w.imm != 0, imm := 3 }
  | _ => none

/-! ### Checks of a program (R135) -/

/-- An input slot that holds a listed source (R116, R193); kind 0 is an unused slot. -/
def inSlotOk (w : Nat) : Bool :=
  let i := slotIndex w
  let u := slotSub w
  bits w 27 24 == 0 && bits w 7 1 == 0 &&
  (match slotKind w with
   | 0 => true
   | 1 => i < 24 && u < 4
   | 2 => i < 64 && u == 0
   | 3 => i < 32 && u < 2
   | 4 => i == 0 && u < 16
   | 5 => i < 64 && u == 0
   | 6 => i < 16 && u == 0
   | 7 => i < 3 && u == 0
   | _ => false)

/-- An output slot that holds a listed destination (R117). -/
def outSlotOk (w : Nat) : Bool :=
  bits w 27 24 == 0 &&
  (match slotKind w with
   | 0 => true
   | 1 => slotIndex w < 48
   | 2 => slotIndex w < 48
   | 3 => slotIndex w < 32
   | 4 => slotIndex w < 64
   | _ => false)

/-- The output slots a word stores (R131). -/
def Cpw.stores (w : Cpw) : List Nat :=
  if w.op = 0x1C ∨ w.op = 0x1D ∨ w.op = 0x1E then (List.range w.lanes).map fun k => w.x + k else []

/-- The input slots a word reads. -/
def Cpw.reads (w : Cpw) : List Nat := if w.op = 0x01 then (List.range w.lanes).map fun k => w.x + k else []

/-- The kind that a storing operation asks of an output slot (R131). -/
def Cpw.kindOk (w : Cpw) (kind : Nat) : Bool :=
  if w.op = 0x1C then kind == 1 || kind == 2 else if w.op = 0x1D then kind == 3 else kind == 4

/-- X lies in the range that the operation gives it (R131, R132). -/
def Cpw.xOk (w : Cpw) : Bool :=
  if w.op = 0x12 then 1 ≤ w.x && w.x ≤ 50
  else if w.op = 0x16 ∨ w.op = 0x17 ∨ w.op = 0x18 then decide (-50 ≤ w.mul) && decide (w.mul ≤ 50) && decide (w.mul ≠ 0)
  else true

/-- One word passes R135 against the maps of a channel; `done` are the output slots that earlier words store. With `maps` false only what
does not rest on a channel's maps is checked. -/
def Cpw.ok (maps : Bool) (inMap outMap : Nat → Nat) (done : List Nat) (w : Cpw) : Bool :=
  match w.use with
  | none => false
  | some u =>
    u.lanes.contains w.lanes && (u.set != 0 || !w.bc) && (u.d || w.d == 0) && (u.a || w.a == 0) && (u.b || w.b == 0) &&
    (u.set != 0 || w.c == 0) && (u.states != 0 || w.s == 0) && (u.l || w.l == 0) && (u.e || w.e == 0) && (u.x || w.x == 0) &&
    w.imm ≤ u.imm && w.xOk && w.e ≤ 8 && (!u.accD || w.d < 4) && (!u.accA || w.a < 4) &&
    (u.set == 0 || w.c + (if w.bc then u.set else w.lanes * u.set) ≤ 64) &&
    (u.states == 0 || w.s + w.lanes * u.states ≤ 12) &&
    w.reads.all (fun i => i < 16 && (!maps || (slotKind (inMap i) != 0 && inSlotOk (inMap i)))) &&
    w.stores.all (fun i => i < 16 && !done.contains i && (!maps || w.kindOk (slotKind (outMap i))))

/-- The index of the first word of a program that fails R135. -/
def progBad (maps : Bool) (inMap outMap : Nat → Nat) : List Nat → List Nat → Nat → Option Nat
  | [], _, _ => none
  | v :: r, done, i =>
    let w := Cpw.ofWord v
    if w.ok maps inMap outMap done then progBad maps inMap outMap r (done ++ w.stores) (i + 1) else some i

/-- The words of a program of n words from its bytes. -/
def progWords (n : Nat) (bs : List Byte) : List Nat := (List.range n).map fun i => u64 bs (8 * i)

/-- An input slot of kind 5 is read by a word (R159, R161). -/
def readsLink (inMap : Nat → Nat) (prog : List Nat) : Bool :=
  prog.any fun v => (Cpw.ofWord v).reads.any fun i => slotKind (inMap i) == 5

/-! ### Arithmetic (R129, R130) -/

/-- A value with 31 fraction bits held within A40, and whether it had to be (R129). -/
def a40Sat (v : Int) : Int × Bool :=
  if v < -(2 ^ 39) then (-(2 ^ 39), true) else if 2 ^ 39 ≤ v then (2 ^ 39 - 1, true) else (v, false)

/-- num / 2^k as an A40 value: exact where it is a whole number. Where it is not, R129 does not say which of the two A40 values beside
it results: a free value between the two (notes/assumptions/14.md). -/
def a40Div (num : Int) (k : Nat) : Int :=
  if num % 2 ^ k = 0 then num / 2 ^ k else num / 2 ^ k + (if Config.roundUp num k then 1 else 0)

/-- The Q15 value of an A40 value, and whether it saturated (R13). -/
def a40Q (v : Int) : Int × Bool := (a40ToQ15 v, a40Sats v)

/-- A Q15 sum held in range, and whether it saturated (R129). -/
def q15Sat (v : Int) : Int × Bool := (sat16 v, decide (v ≠ sat16 v))

/-- π/2 with 60 fraction bits. -/
def halfPi : Int := 1811004864519280711

/-- The Taylor terms of a sine, from the term t of order 2i − 1: the sum of the remaining terms; values have 60 fraction bits. -/
def sinTerms : Nat → Nat → Int → Int → Int
  | 0, _, _, _ => 0
  | fuel + 1, i, t, x2 => t + sinTerms fuel (i + 1) (-(t * x2 / 2 ^ 60) / (2 * i * (2 * i + 1))) x2

/-- 2^31 × sin of a quarter turn × k / 16,384, k = 0..16,384. -/
def sinQuarter (k : Nat) : Int :=
  let x := halfPi * k / 16384
  (sinTerms 14 1 x (x * x / 2 ^ 60) + 2 ^ 28) / 2 ^ 29

/-- 2^31 × the sine of an angle of k / 65,536 turn. -/
def sinExact (angle : Int) : Int :=
  let k := (angle % 65536).toNat
  if k ≤ 16384 then sinQuarter k else if k ≤ 32768 then sinQuarter (32768 - k)
  else if k ≤ 49152 then -sinQuarter (k - 32768) else -sinQuarter (65536 - k)

/-- The sine that the lookup gives for an angle (R130): Q15 with bit 0 at 0 and at most 2^−13 from the exact value. Which such value it is
is free (notes/assumptions/14.md). -/
def sinQ15 (angle : Int) : Int :=
  let s := sinExact angle
  let near := min 32766 (2 * ((s + 2 ^ 16) / 2 ^ 17))
  let v := near + 2 * Config.sinError (angle % 65536)
  if -32768 ≤ v ∧ v ≤ 32766 ∧ (v * 65536 - s).natAbs ≤ 4 * 65536 then v else near

/-- The cosine of an angle (R130). -/
def cosQ15 (angle : Int) : Int := sinQ15 (angle + 16384)

/-- Whole part of z × √3, downward. -/
def timesRoot3 (z : Int) : Int := if z < 0 then -(Nat.sqrt (3 * z.natAbs * z.natAbs)) - 1 else Nat.sqrt (3 * z.natAbs * z.natAbs)

/-! ### One pass (R125 to R133) -/

/-- One lane of a register: its value, and the aperture of the sample that cleared its valid tag, if one did (R133). -/
structure VLane where
  v : Int
  bad : Option Nat
deriving DecidableEq, Repr

/-- A register of 8 lanes. -/
abbrev LaneReg := List VLane

/-- The tags of two lanes joined: clear where either is, from the earlier aperture. -/
def joinBad (a b : Option Nat) : Option Nat :=
  match a, b with
  | none, b => b
  | a, none => a
  | some x, some y => some (min x y)

/-- What a pass reads of its channel: coefficients of the active bank, limits, input slots (value, aperture of an invalid sample, stamp
of the sample, saturated negation), state words at its start, the mode code and Δθ. -/
structure PassEnv where
  coef : Nat → Int
  lo : Nat → Int
  hi : Nat → Int
  read : Nat → Int × Option Nat × Nat × Bool
  words : List Int
  mode : Nat
  dth : Int

/-- What a pass holds until its end (R132, R159). -/
structure Pass where
  /-- V0..V15. -/
  v : List LaneReg
  /-- A0..A3. -/
  acc : List LaneReg
  /-- Stores: output slot and value, in program order. -/
  stores : List (Nat × Int)
  /-- State words written, in program order. -/
  sets : List (Nat × Int)
  /-- Events whose condition held: their lanes. -/
  evts : List (List Int)
  /-- The saturation flag. -/
  sat : Bool
  /-- The limit flag. -/
  lim : Bool
  /-- The pass is invalid, from an aperture. -/
  inv : Option Nat
  /-- The newest aperture read. -/
  newest : Nat
deriving DecidableEq, Repr

/-- The start of a pass: registers 0, tags set (R125, R133). -/
def Pass.start : Pass :=
  let r : LaneReg := List.replicate 8 { v := 0, bad := none }
  { v := List.replicate 16 r, acc := List.replicate 4 r, stores := [], sets := [], evts := [], sat := false, lim := false, inv := none, newest := 0 }

def Pass.vl (p : Pass) (r l : Nat) : VLane := (p.v.getD r []).getD l { v := 0, bad := none }
def Pass.al (p : Pass) (r l : Nat) : VLane := (p.acc.getD r []).getD l { v := 0, bad := none }

/-- VLane l of a V register, or of an accumulator, written with its tag; a saturation noted (R126, R129). -/
def Pass.putV (r l : Nat) (x : Int × Bool) (bad : Option Nat) (p : Pass) : Pass :=
  { p with v := upd p.v r fun q => q.set l { v := x.1, bad := bad }, sat := p.sat || x.2 }
def Pass.putA (r l : Nat) (x : Int × Bool) (bad : Option Nat) (p : Pass) : Pass :=
  { p with acc := upd p.acc r fun q => q.set l { v := x.1, bad := bad }, sat := p.sat || x.2 }

/-- A clear tag that reaches a store, an event or an x input makes the pass invalid (R133). -/
def Pass.reach (bad : Option Nat) (p : Pass) : Pass := { p with inv := joinBad p.inv bad }

/-- A value clamped to a limit pair: the limit flag is set only when it changes (R131). -/
def Pass.clampTo (lo hi v : Int) (p : Pass) : Int × Pass :=
  let c := if hi < v then hi else if v < lo then lo else v
  (c, { p with lim := p.lim || decide (c ≠ v) })

/-- A state word to be written at the end (R132). -/
def Pass.setWord (j : Nat) (x : Int × Bool) (p : Pass) : Pass := { p with sets := p.sets ++ [(j, x.1)], sat := p.sat || x.2 }

/-- Coefficient k of lane l's set (R128 BC). -/
def PassEnv.cf (env : PassEnv) (w : Cpw) (set l k : Nat) : Int := env.coef (w.c + (if w.bc then 0 else l * set) + k)

/-- State word j at the start of the pass. -/
def PassEnv.word (env : PassEnv) (j : Nat) : Int := env.words.getD j 0

/-- BIQ on lane l (R132). -/
def laneBiq (env : PassEnv) (w : Cpw) (l : Nat) (p : Pass) : Pass :=
  let x := p.vl w.a l
  let g (k : Nat) : Int := env.cf w 5 l k * 2 ^ w.e
  let y := a40Sat (2 * g 0 * x.v + env.word (w.s + l))
  let n1 := a40Sat (a40Div ((2 * g 1 * x.v + env.word (w.s + w.lanes + l)) * 32768 - g 3 * y.1) 15)
  let n2 := a40Sat (a40Div (2 * g 2 * x.v * 32768 - g 4 * y.1) 15)
  let q := a40Q y.1
  ((((p.reach x.bad).putV w.d l (q.1, q.2 || y.2) x.bad).setWord (w.s + l) n1).setWord (w.s + w.lanes + l) n2)

/-- PI with anti-windup on lane l (R132). -/
def lanePi (env : PassEnv) (w : Cpw) (l : Nat) (p : Pass) : Pass :=
  let x := p.vl w.a l
  let i := env.word (w.s + l)
  let lo := env.lo w.l
  let hi := env.hi w.l
  let u := a40Sat (2 * env.cf w 2 l 0 * 2 ^ w.e * x.v + i)
  let q := a40Q u.1
  let (y, p) := (p.reach x.bad).clampTo lo hi q.1
  let p := p.putV w.d l (y, q.2 || u.2) x.bad
  if (hi * 65536 < u.1 ∧ 0 < x.v) ∨ (u.1 < lo * 65536 ∧ x.v < 0) then p
  else
    let n := a40Sat (i + 2 * env.cf w 2 l 1 * x.v)
    let (c, p) := p.clampTo (lo * 65536) (hi * 65536) n.1
    p.setWord (w.s + l) (c, n.2)

/-- RES on lane l (R132, spec/07_grid_current.md R199). -/
def laneRes (env : PassEnv) (w : Cpw) (l : Nat) (p : Pass) : Pass :=
  let x := p.vl w.a l
  let phi := (w.x : Int) * env.dth
  let cs := cosQ15 phi
  let sn := sinQ15 phi
  let del := max 0 (env.cf w 2 l 1)
  let x1 := env.word (w.s + l)
  let x2 := env.word (w.s + w.lanes + l)
  let n1 := a40Sat (a40Div ((32768 - del) * (x1 * cs - x2 * sn) + 2 * env.cf w 2 l 0 * 2 ^ w.e * x.v * 2 ^ 30) 30)
  let n2 := a40Sat (a40Div ((32768 - del) * (x1 * sn + x2 * cs)) 30)
  let o := p.al w.d l
  let s := a40Sat (o.v + n1.1)
  ((((p.reach x.bad).setWord (w.s + l) n1).setWord (w.s + w.lanes + l) n2).putA w.d l s (joinBad o.bad x.bad))

/-- CLK and ICLK write three lanes at once (R131). -/
def clarke (inv : Bool) (w : Cpw) (p : Pass) : Pass :=
  let a := p.vl w.a 0
  let b := p.vl w.a 1
  let c := p.vl w.a 2
  let bad := joinBad a.bad (joinBad b.bad c.bad)
  let third (n : Int) : Int := if n % 3 = 0 then n / 3 else n / 3 + (if Config.roundUp n 3 then 1 else 0)
  let root (n : Int) : Int := if n = 0 then 0 else timesRoot3 n + (if Config.roundUp n 33 then 1 else 0)
  let rootThird (n : Int) : Int :=
    if n = 0 then 0 else timesRoot3 n / 3 + (if Config.roundUp n 32 then 1 else 0)
  let r : List Int :=
    if inv then
      let h := root (b.v * 32768)
      [(a.v + c.v) * 65536, (2 * c.v - a.v) * 32768 + h, (2 * c.v - a.v) * 32768 - h]
    else [third ((2 * a.v - b.v - c.v) * 65536), rootThird ((b.v - c.v) * 65536), third ((a.v + b.v + c.v) * 65536)]
  (List.range 3).foldl (fun p l => p.putV w.d l (a40Q (r.getD l 0)) bad) p

/-- PARK and IPARK on the pair (2k, 2k + 1) (R131). -/
def pairPark (inv : Bool) (w : Cpw) (k : Nat) (src : Pass) (p : Pass) : Pass :=
  let u := src.vl w.a (2 * k)
  let z := src.vl w.a (2 * k + 1)
  let th := src.vl w.b 0
  let phi := w.mul * th.v
  let cs := cosQ15 phi
  let sn := if inv then -sinQ15 phi else sinQ15 phi
  let bad := joinBad th.bad (joinBad u.bad z.bad)
  (p.putV w.d (2 * k) (a40Q (2 * (u.v * cs + z.v * sn))) bad).putV w.d (2 * k + 1) (a40Q (2 * (z.v * cs - u.v * sn))) bad

/-- One lane of the operations that work lane by lane (R131). -/
def lane (env : PassEnv) (w : Cpw) (l : Nat) (p : Pass) : Pass :=
  let a := p.vl w.a l
  let b := p.vl w.b l
  let acc := p.al w.d l
  let ab := joinBad a.bad b.bad
  let g : Int := 2 ^ w.e
  match w.op with
  | 0x01 =>
    let (v, bad, stamp, sat) := env.read (w.x + l)
    ({ p with newest := max p.newest stamp }).putV w.d l (v, sat) bad
  | 0x02 => p.putV w.d l (a40Q (env.word (w.s + l))) none
  | 0x03 => (p.reach acc.bad).setWord (w.s + l) (acc.v, false)
  | 0x04 => p.putV w.d l (env.cf w 1 l 0, false) none
  | 0x08 => p.putA w.d l (a40Sat (2 * a.v * env.cf w 1 l 0 * g)) a.bad
  | 0x09 => p.putA w.d l (a40Sat (acc.v + 2 * a.v * env.cf w 1 l 0 * g)) (joinBad acc.bad a.bad)
  | 0x0A => p.putA w.d l (a40Sat (2 * a.v * b.v * g)) ab
  | 0x0B => p.putA w.d l (a40Sat (acc.v + 2 * a.v * b.v * g)) (joinBad acc.bad ab)
  | 0x0C => p.putV w.d l (q15Sat (a.v + b.v)) ab
  | 0x0D => p.putV w.d l (q15Sat (a.v - b.v)) ab
  | 0x0E => let s := p.al w.a l; p.putV w.d l (a40Q (s.v * g)) s.bad
  | 0x0F =>
    let s := p.al w.a l
    let q := a40Q (s.v * g)
    let (c, p) := p.clampTo (env.lo w.l) (env.hi w.l) q.1
    p.putV w.d l (c, q.2) s.bad
  | 0x10 => laneBiq env w l p
  | 0x11 => lanePi env w l p
  | 0x12 => laneRes env w l p
  | 0x18 => p.putV w.d l ((if bit w.imm 0 then cosQ15 (w.mul * a.v) else sinQ15 (w.mul * a.v)), false) a.bad
  | 0x19 =>
    let (c, p) := p.clampTo (env.lo w.l) (env.hi w.l) a.v
    p.putV w.d l (c, false) a.bad
  | 0x1A =>
    if w.imm = 0 then p.putV w.d l (max a.v b.v, false) ab
    else if w.imm = 1 then p.putV w.d l (min a.v b.v, false) ab
    else if w.imm = 2 then (if a.bad = none then p.putV w.d l (a.v, false) none else p.putV w.d l (b.v, false) b.bad)
    else if env.mode = w.x then p.putV w.d l (a.v, false) a.bad
    else p.putV w.d l (b.v, false) b.bad
  | 0x1C => { p.reach a.bad with stores := p.stores ++ [(w.x + l, a.v)] }
  | 0x1D => { p.reach a.bad with stores := p.stores ++ [(w.x + l, a.v)] }
  | 0x1E => { p.reach a.bad with stores := p.stores ++ [(w.x + l, a.v)] }
  | _ => p

/-- STE (R131): one event when the condition holds on any lane. -/
def passEvent (env : PassEnv) (w : Cpw) (p : Pass) : Pass :=
  let ls := (List.range w.lanes).map fun l => p.vl w.a l
  let hit (x : VLane) : Bool :=
    w.imm == 0 || (bit w.imm 0 && decide (env.hi w.l ≤ x.v)) || (bit w.imm 1 && decide (x.v < env.lo w.l))
  let p := ls.foldl (fun p x => p.reach x.bad) p
  if ls.any hit then { p with evts := p.evts ++ [ls.map (·.v)] } else p

/-- One word of a pass. Sources are read as they stood before the word, also where the destination is a source. -/
def passWord (env : PassEnv) (w : Cpw) (p : Pass) : Pass :=
  match w.op with
  | 0x14 => clarke false w p
  | 0x15 => clarke true w p
  | 0x16 => (List.range (w.lanes / 2)).foldl (fun q k => pairPark false w k p q) p
  | 0x17 => (List.range (w.lanes / 2)).foldl (fun q k => pairPark true w k p q) p
  | 0x1F => passEvent env w p
  | _ => (List.range w.lanes).foldl (fun q l => lane env w l q) p

/-- A program run from the start of a pass to its end. -/
def runPass (env : PassEnv) (prog : List Nat) : Pass := prog.foldl (fun p v => passWord env (Cpw.ofWord v) p) Pass.start

end Sys2Proof.Machine
end

