-- ==== Sys2Proof/Machine/Reset.lean ====
section
/-! DEFINITION. The device reset (spec/02_startup_reset.md R47 to R50): what it wipes and what it keeps. -/

namespace Sys2Proof.Machine

/-! ### Supply monitors (R43, R47, R55) -/

/-- Rising, falling and overvoltage thresholds of rail 0 VDD_CORE, 1 VDD_AN, 2 VDD_IO, 3 VDD_HV, µV (R43). -/
def railRise (r : Nat) : Nat := [765000, 1710000, 2970000, 11500000].getD r 0
def railFall (r : Nat) : Nat := [740000, 1660000, 2850000, 11000000].getD r 0
def railOver (r : Nat) : Nat := [880000, 1980000, 3800000, 38000000].getD r 0

/-- The power-on level of rail 0..2, µV (R47). -/
def powerOnLevel (r : Nat) : Nat := [400000, 900000, 1500000].getD r 0

/-- A rail that is not good becomes good in [rising, overvoltage) (R43). -/
def railRisen (r uv : Nat) : Bool := decide (railRise r ≤ uv) && decide (uv < railOver r)

/-- A rail that is good stays so in [falling, overvoltage) (R43, R19). -/
def railStays (r uv : Nat) : Bool := decide (railFall r ≤ uv) && decide (uv < railOver r)

/-- The monitor of rail r: a side of its thresholds counts once it has been kept for 1 µs (R43). -/
def railNext (r : Nat) (good : Bool) (o : RailObs) : Bool :=
  if o.held < 1000 then good else if good then railStays r o.uv else railRisen r o.uv

/-- The verdict of rail r's monitor. -/
def Sys.rail (y : Sys) (r : Nat) : Bool :=
  if r = 0 then y.railCore else if r = 1 then y.railAn else if r = 2 then y.railIo else y.railHv

/-- The verdict of rail r's monitor set. -/
def Sys.setRail (r : Nat) (b : Bool) (y : Sys) : Sys :=
  if r = 0 then { y with railCore := b } else if r = 1 then { y with railAn := b } else if r = 2 then { y with railIo := b } else { y with railHv := b }

/-- What a row tells of rail r: its voltage, and a fall below its power-on level (R47). -/
def Sys.noteRail (r : Nat) (o : RailObs) (y : Sys) : Sys :=
  { y with railUv := y.railUv.set r o.uv, belowPowerOn := y.belowPowerOn || (decide (r < 3) && decide (o.low < powerOnLevel r)) }

/-- The system part after a device reset: the boot chain that MRAM holds and the recorded cause are kept; every monitor starts not good and is good
again above its rising threshold (R55), and the power-on-reset hold begins once the three are (R44). -/
def Sys.afterReset (cause : Nat) (y : Sys) : Sys :=
  let good (r : Nat) : Bool := railRisen r (y.railUv.getD r 0)
  { Sys.reset with
    boot := if good 0 && good 1 && good 2 then .hold else .off
    railCore := good 0, railAn := good 1, railIo := good 2, railHv := good 3, railUv := y.railUv
    belowPowerOn := false, resetCause := cause, dieRev := y.dieRev, supSlotB := y.supSlotB, appSlotB := y.appSlotB }

/-- The engine after a device reset: core assignments are in the health record (R529) and the stored Sheaf images in MRAM; the rest of it
is lost. -/
def Engine.afterReset (e : Engine) : Engine :=
  { Engine.reset with
    cores := e.cores.map fun c => if c = 2 then 3 else c
    noSpare := e.noSpare, degraded := e.degraded, stored := e.stored, storedPrev := e.storedPrev }

/-- Converter and SAR assignments, in the health record (R529), and the corrections of the last calibration outlive the reset; the rest of the sensing
group starts anew. Of the spares one shadows, from AIN 0 on, and the other converts the test bus (spec/12_sensing.md R351, R353). -/
def Sense.afterReset (x : Sense) : Sense :=
  let spare (c : Nat) : Bool := let r := x.roles.getD c 4; r == 1 || r == 2 || r == 3
  let shadow := match (List.range 26).find? fun c => x.roles.getD c 4 == 2 with
    | some c => some c
    | none => (List.range 26).find? spare
  { Sense.reset with
    roles := (List.range 26).map fun c => if shadow = some c then 2 else if spare c then 1 else x.roles.getD c 4
    convAin := (List.range 26).map fun c => if shadow = some c then 0 else if spare c then 255 else x.convAin.getD c 255
    convOn := x.convOn, sarOn := x.sarOn, gainCorr := x.gainCorr, offCorr := x.offCorr, trims := x.trims, sarOff := x.sarOff, sarGain := x.sarGain
    ains := (List.range 24).map fun i => { Ain.reset with conv := (x.ains.getD i Ain.reset).conv }
    sars := (List.range 6).map fun i => { Sar.reset with logical := (x.sars.getD i Sar.reset).logical } }

/-- Protection after a reset: every group Armed with no tries, every comparator and input in its start state (R55, R386); cells retired
stay retired, and the health record names the cell of each comparator (R370, R529). -/
def Prot.afterReset (p : Prot) : Prot := { Prot.reset with cellOk := p.cellOk, cellOn := p.cellOn, named := p.named }

/-- The recorder after a reset: committed captures are kept (R414). -/
def Rec.afterReset (r : Rec) : Rec := { Rec.reset with mram := r.mram, nextId := r.nextId }

/-- A cooling drive after a reset: what the health record in MRAM holds of it (R493). -/
def Drive.afterReset (d : Drive) : Drive :=
  { Drive.reset with
    counters := d.kept.take 6, baseline := d.kept.getD 6 0, blHours := d.kept.getD 7 0, blSum := d.kept.getD 8 0, blN := d.kept.getD 9 0
    hourly := d.kept.getD 10 0, refSpeed := d.kept.getD 11 0, kept := d.kept }

/-- The safety group after a reset: images, change log and password record are in MRAM (R525); every function starts Safe, or Off when
its kind is 0, and every enabled connection starts Waiting (R423, R443). -/
def Safety.afterReset (x : Safety) : Safety :=
  let a := x.applyNext.getD x.active
  { Safety.reset with
    active := a, pending := x.pending, log := x.log
    fns := (List.range 4).map fun i => { Sf.reset with state := if u8 a (8 * i + 1) = 0 then 0 else 1 }
    conns := (List.range 4).map fun i => { VConn.reset with state := if bit (u8 a (136 + 16 * i + 1)) 0 then 1 else 0 } }

/-- The network group after a reset: the fleet key and the Benmor counter are in MRAM (R525, R468). -/
def Net.afterReset (n : Net) : Net := { Net.reset with fleetKey := n.fleetKey, benStored := n.benStored, benNext := n.benStored }

/-- The clock loops after a reset, with the stored XREF frequency (spec/18_clocks_islands.md R498): a retired loop stays retired, lifetime counters stand
(R504, R529). -/
def Clk.afterReset (hz : Nat) (c : Clk) : Clk :=
  { Clk.reset with
    loops := c.loops.map fun l => { Loop.reset with state := if l.state = 3 then 3 else 0, losses := l.losses }
    xrefHz := hz, xrefInUse := hz, xref := c.xref, switches := c.switches }

/-- The memory group after a reset: SRAM wiped, everything in MRAM kept, the health record as last committed (R48, R537). -/
def MemSys.afterReset (m : MemSys) : MemSys :=
  { m with
    sram := [], nonce := none, rowErrs := [], secErrs := [], scrubAt := 0, health := m.healthStored, hoursAt := 0
    jtagIr := MemSys.reset.jtagIr, jtagDr := 0, lcPend := m.lcPend.filter LcPend.recorded, blockAck := 0, blockDirty := false, blockBusy := false, blockNext := [], blockCap := [], extestPins := [] }

/-- Health counters at a device reset: resets by cause (R537). -/
def resetCount (cause : Nat) (s : State) : State := (s.count cause).commitHealth

/-- The RTC's count as device time stops (spec/00_scope.md R15): it differs from device time by its resolution of 1 / 32,768 s and 20 ppm of the time
since the supervisor last wrote it at most; a free value within that bound. -/
def State.rtcCount (s : State) : Nat :=
  if s.timeLoaded then
    let b := 30517 + (s.time - s.husk.rtcWritten) / 50000
    s.time + Config.freeNat "RTC deviation" s.freeCtr % (2 * b + 1) - b
  else s.time

/-- The device settings in a block image (R100, R101, R85): the opcode of SYS_MODE, then the start mode, the default ramp time, and two bits, backup
enabled and host-over-UART selected. No command sets those two. -/
def deviceSettings (block : List (Nat × List Byte)) : List Byte :=
  match block.find? fun e => e.1 == 0x0104 with
  | some e => e.2
  | none => [1, 100, 0, 0]

/-- The device settings of the present state, as the block image holds them. -/
def State.settings (s : State) : List Byte :=
  [BitVec.ofNat 8 s.modes.startMode] ++ le 2 s.modes.rampMs ++ le 1 (flagAt s.modes.backup 0 + flagAt s.host.uartHost 1)

/-- The device settings put in force. -/
def applySettings (b : List Byte) (s : State) : State :=
  { s with
    modes := { s.modes with startMode := u8 b 0, rampMs := u16 b 1, backup := bit (u8 b 3) 0 }
    host := { s.host with uartHost := bit (u8 b 3) 1 } }

/-- The XREF frequency that MRAM holds, in the block image, applied at each reset (spec/18_clocks_islands.md R498). -/
def storedXref (block : List (Nat × List Byte)) : Nat :=
  match block.find? fun e => e.1 == 0x0E00 with
  | some e => u32 e.2 0
  | none => 25000000

/-- What a device reset leaves (R48): the control die starts anew; MRAM, the life cycle, the health record and the husk are kept; device
time stops and reads 0 (R15). -/
def afterReset (cause : Nat) (s : State) : State :=
  { State.reset with
    pending := s.pending, freeCtr := s.freeCtr + 1, time := s.rtcCount
    sys := s.sys.afterReset cause
    eng := s.eng.afterReset, sense := s.sense.afterReset, prot := s.prot.afterReset, recorder := s.recorder.afterReset
    cool := { Cool.reset with drives := s.cool.drives.map Drive.afterReset, hvGood := (s.sys.afterReset cause).railHv }
    safety := s.safety.afterReset, net := s.net.afterReset, clk := s.clk.afterReset (storedXref s.mem.block), mem := s.mem.afterReset, husk := s.husk }

/-- The device reset of R48 with the recorded cause, at the power-on-reset hold. -/
def deviceReset (cause : Nat) (s : State) : State := resetCount cause (afterReset cause s)

/-- A reset requested by command or button (R58, R93): the device goes to safe stop with the stored ramp; with every leg off already it
begins without a ramp, on the next tick. Of causes that meet, the lowest is kept (R49). -/
def requestReset (t cause : Nat) (s : State) : State :=
  let s := s.modSys fun y => { y with resetPending := if y.resetPending = 0 then cause else min y.resetPending cause }
  if s.legsOff ∧ !s.modes.ramping then s
  else
    let s := if s.stopping || (s.modes.trans.isNone && s.modes.mode == 1) then s else beginTrans 1 0x0B 0 false s
    beginRamp t s.modes.rampMs (s.modModes fun m => { m with startWanted := false })

end Sys2Proof.Machine
end

