-- ==== Sys2Proof/Machine/System.lean ====
section
/-! DEFINITION. The system command group and the host's accesses (spec/03_command_interface.md). -/

namespace Sys2Proof.Machine

/-- A payload of exactly n bytes. -/
def len (n : Nat) (pl : List Byte) : Bool := pl.length == n

/-! ### SYS_INFO, SYS_STATUS, SYS_RESET, SYS_UNFREEZE -/

/-- The fleet address field of SYS_INFO (R594, spec/16_networks_fleet.md R470). -/
def State.fleetField (s : State) : Nat :=
  match s.net.addr with
  | some a => a + flagAt (!s.net.conflict) 31
  | none => 0

/-- The 32 bytes of SYS_INFO (R594). -/
def infoReply (s : State) : List Byte :=
  le 2 0x8256 ++ le 1 s.sys.dieRev ++ le 1 (flagAt s.sys.supSlotB 0 + flagAt s.sys.appSlotB 1 + flagAt s.sys.d10Held 2) ++
  le 4 s.sys.fwVersion ++ fit 8 (s.mem.serial.getD []) ++ le 1 s.mem.lc ++ zeros 3 ++ le 4 s.fleetField ++ zeros 8

def specSysInfo : CmdSpec :=
  { opcode := 0x0100, lenOk := len 0, open0 := true, run := fun _ s => { st := s, data := infoReply s } }

/-- The 256 bytes of SYS_STATUS (R92). -/
def statusReply (s : State) : List Byte :=
  s.windowBytes ++ ((List.range 64).flatMap fun n => le 2 (s.ring n).lost) ++
  le 4 s.cmd.accepted ++ le 4 s.cmd.rejected ++ ((List.range 14).flatMap fun c => le 2 (s.cmd.rejBy.getD c 0)) ++
  le 4 s.cmd.escServed ++ le 4 s.degradedFlags ++ le 4 s.cmd.trunc4k ++ le 4 s.cmd.escDiscarded ++ le 4 s.cmd.dryRuns ++ zeros 8

def specSysStatus : CmdSpec :=
  { opcode := 0x0101, lenOk := len 0, open0 := true, run := fun _ s => { st := s, data := statusReply s } }

def specSysReset : CmdSpec :=
  { opcode := 0x0102, lenOk := len 4
    checks := fun _ p => [inW p.payload 0 0x01025A5A 0x01025A5A]
    run := fun p s => { st := requestReset p.t 0x04 s } }

/-- The master that an event names as the issuer of SYS_UNFREEZE (R591); an escape frame is the host's (R89). -/
def issuer : Source → Nat
  | .escape => 5
  | src => src.master

/-- The issuer may unfreeze master m (R89): the host any, the host bridge only by the escape frame; the application core 2 and 3. -/
def mayUnfreeze (src : Source) (m : Nat) : Bool :=
  match src with
  | .escape => true
  | .hostRing _ => m != 5
  | .appRing _ => m == 2 || m == 3
  | .net _ => false

/-- Master m released (R89): its stalled accesses end with an error, MASTER_UNFROZEN is posted; a recorder that was armed re-arms
(spec/14_recorder.md R414). -/
def unfreeze (t m by' : Nat) (s : State) : State :=
  let s := s.modHost fun h => { h with frozen := h.frozen &&& ~~~ (BitVec.ofNat 7 (2 ^ m)), stalled := h.stalled.set m 0 }
  let s := if m = 2 ∧ s.recorder.rearm then armRecorder t (s.withRec fun r => { r with rearm := false }) else s
  s.post t (ev 0x0191 m [BitVec.ofNat 8 by'])

def specSysUnfreeze : CmdSpec :=
  { opcode := 0x0103, lenOk := len 4
    stateBad := fun s p => let m := u8 p.payload 0; 1 ≤ m && m ≤ 6 && !s.isFrozen m
    checks := fun _ p => inB p.payload 0 1 6 :: resv p.payload 1 3
    conflictBad := fun _ p => !mayUnfreeze p.src (u8 p.payload 0)
    run := fun p s => { st := unfreeze p.t (u8 p.payload 0) (issuer p.src) s } }

/-! ### RING_CONFIG -/

/-- A ring with a settable owner (R94). -/
def ringOwned (n : Nat) : Bool := (16 ≤ n && n ≤ 31) || (40 ≤ n && n ≤ 47)

/-- The range checks of R94 and R461. -/
def ringChecks (pl : List Byte) : List Check :=
  let n := u8 pl 0
  let e := ringEnds n (u8 pl 2)
  [(0, n ≤ 55 && n != 37 && n != 39 && n != 45 && n != 47), inB pl 1 4 12,
   (2, if ringOwned n then u8 pl 2 == 4 || u8 pl 2 == 5 else u8 pl 2 == 0),
   (3, u8 pl 3 == 0 || (u8 pl 3 == 1 && 8 ≤ n && n ≤ 31)),
   (4, u32 pl 4 % 16 == 0 && sharedArea e.1 e.2 (u32 pl 4) (2 ^ u8 pl 1 * 16)),
   (8, (16 ≤ n && n ≤ 23) || u16 pl 8 == 0)] ++ resv pl 10 2 ++ resv pl 12 4

/-- The ring a RING_CONFIG payload describes, both indexes at 0 (R94). DESIGN CHOICE (notes/assumptions/46.md): its SEQ begins at 0, its ESEQ, its lost
counter and a pending OVERRUN go on. -/
def ringSet (pl : List Byte) (r : Ring) : Ring :=
  { r with configured := true, k := u8 pl 1, owner := u8 pl 2, irq := bit (u8 pl 3) 0, base := u32 pl 4, mask := u16 pl 8,
           hostIndex := 0, devIndex := 0, seq := 0, bad := [], recs := [] }

def specRingConfig : CmdSpec :=
  { opcode := 0x0110, lenOk := len 16, image := some 0, key := 1
    stateBad := fun _ p => let n := u8 p.payload 0; 56 ≤ n && n ≤ 63
    checks := fun _ p => ringChecks p.payload
    busyBad := fun s p => let r := s.ring (u8 p.payload 0); r.devIndex != r.hostIndex
    run := fun p s => { st := s.modRing (u8 p.payload 0) (ringSet p.payload) } }

/-! ### Sessions -/

/-- A session value: a free value, never 0 (R70; notes/assumptions/1.md). -/
def State.sessionValue (s : State) : BitVec 32 := if s.freeWord = 0 then 1 else s.freeWord

/-- A session opened for a source (R70). -/
def openSession (src : SrcId) (s : State) : State :=
  (s.modCmd fun c => { c with sessions := c.sessions ++ [{ src := src, value := s.sessionValue, lastUsed := s.time }] }).drawn 1

def specSessionOpen : CmdSpec :=
  { opcode := 0x0111, lenOk := len 0, open0 := true, dryData := fun _ => some (zeros 4)
    busyBad := fun s _ => 16 ≤ s.cmd.sessions.length
    run := fun p s => match p.src.sid with
      | some src => { st := openSession src s, data := le 4 s.sessionValue.toNat }
      | none => { st := s } }

def specSessionClose : CmdSpec :=
  { opcode := 0x0112, lenOk := len 0
    run := fun p s => { st := s.dropSessions fun x => some x.src == p.src.sid && x.value == p.session } }

def execSysInfo (p : Packet) (s : State) : Res := runCommand specSysInfo p s
def execSysStatus (p : Packet) (s : State) : Res := runCommand specSysStatus p s
def execSysReset (p : Packet) (s : State) : Res := runCommand specSysReset p s
def execSysUnfreeze (p : Packet) (s : State) : Res := runCommand specSysUnfreeze p s
def execRingConfig (p : Packet) (s : State) : Res := runCommand specRingConfig p s
def execSessionOpen (p : Packet) (s : State) : Res := runCommand specSessionOpen p s
def execSessionClose (p : Packet) (s : State) : Res := runCommand specSessionClose p s

/-! ### Packets that fail their framing or name no opcode (R62, R63) -/

/-- The opcodes of the device, group by group (R91 and the command table of each chapter). -/
def knownOpcode (o : Nat) : Bool :=
  let g := o / 256
  let c := o % 256
  match g with
  | 0x01 => c ≤ 0x04 || (0x10 ≤ c && c ≤ 0x12)
  | 0x02 => c ≤ 0x0D || c == 0x10 || c == 0x11
  | 0x03 => c ≤ 0x03
  | 0x04 => c ≤ 0x06 || (0x20 ≤ c && c ≤ 0x27)
  | 0x05 => c ≤ 0x05
  | 0x06 => c ≤ 0x0B
  | 0x07 => c ≤ 0x04
  | 0x08 => c ≤ 0x07
  | 0x09 => c ≤ 0x07
  | 0x0A => c ≤ 0x0B
  | 0x0B => c ≤ 0x0A
  | 0x0C => c ≤ 0x0B
  | 0x0D => c ≤ 0x03
  | 0x0E => c ≤ 0x02
  | 0x0F => c ≤ 0x09
  | 0x10 => c ≤ 0x03
  | _ => false

/-- The first of steps 1 to 3 of R63 that raw packet bytes with a descriptor's valid length fail. With VERSION and FLAGS [7] both wrong, DETAIL is 6,
the first offending byte (R61). -/
def framingFails (b : List Byte) (valid : Nat) : Option (Status × Nat) :=
  let n := u16 b 4
  if 4076 < n ∨ n + 16 ≠ valid then some (.eLength, 4)
  else if crc32c (b.take (12 + n)) ≠ u32 b (12 + n) then some (.eCrc, 0)
  else if bit (u8 b 6) 7 then some (.eRange, 6)
  else if u8 b 7 ≠ 1 then some (.eRange, 7)
  else if !knownOpcode (u16 b 0) then some (.eOpcode, 0)
  else none

/-- A raw packet as its header reads, for the parts of the processor that need one. -/
def rawPacket (src : Source) (t : Nat) (b : List Byte) : Packet :=
  { src := src, t := t, tag := BitVec.ofNat 16 (u16 b 2), flags := BitVec.ofNat 8 (u8 b 6), session := BitVec.ofNat 32 (u32 b 8), payload := b.drop 16 }

/-- A packet that fails its framing or its opcode is answered and counted, and changes nothing else (R62, R65); with DRY_RUN it counts as a dry run
alone (R66). The escape port answers an opcode it does not accept as R84 gives. Bytes that fail nothing are another row's packet. -/
def execUnknownOpcodePacket (src : Source) (t : Nat) (bytes : List Byte) (valid : Nat) (s : State) : Res :=
  if !sourceOk src then .fault .noSuchUnit
  else
    let p := rawPacket src t bytes
    let s := arrived p s
    match framingFails bytes valid with
    | none => .next s
    | some (st, d) =>
      let (st, d) := if st = .eOpcode ∧ src = .escape then ((escapeBad 0xFFFF s).getD .eState, 0) else (st, d)
      if takes bytes p s then
        .next (sendReply src (replyBytes (u16 bytes 0) p.tag (flagAt p.dry 1) st.code d [])
          (whenReady (if p.dry then countDry else countRejected st) (takePacket p s)))
      else .next s

/-! ### The system register block (R77 to R80) -/

/-- Whether the device consumes ring n (R72). -/
def deviceConsumes (n : Nat) : Bool := n < 8 || (32 ≤ n && n < 40) || n == 46 || (48 ≤ n && n < 52)

/-- Whether master m is the party of ring n that may write its doorbell (R78). -/
def isParty (m n : Nat) (s : State) : Bool :=
  if n < 16 then m == 5
  else if (32 ≤ n && n ≤ 36) || (48 ≤ n && n ≤ 55) then m == 4
  else if (16 ≤ n && n ≤ 31) || (40 ≤ n && n ≤ 47 && n != 46) then (m == 4 || m == 5) && (s.ring n).owner == m
  else false

/-- A doorbell value outside what R78 accepts is discarded: RING_ERROR with cause 1 and the value. -/
def doorbellReject (t n v : Nat) (s : State) : State :=
  (s.setInt 24).post t (ev 0x0192 n (le 2 v ++ [1, 0]))

/-- A doorbell write by the ring's party (R78): a producer index exposes descriptors, the first of which the device looks at (R75); a consumer index
releases records. -/
def doorbell (t n v : Nat) (s : State) : State :=
  let r := s.ring n
  if !r.configured ∨ r.size ≤ v then doorbellReject t n v s
  else if deviceConsumes n then
    let d := (v + r.size - r.hostIndex) % r.size
    if d ≤ (r.devIndex + r.size - r.hostIndex - 1) % r.size then passHeads t n (s.modRing n fun r => { r with hostIndex := v })
    else doorbellReject t n v s
  else
    let d := (v + r.size - r.hostIndex) % r.size
    if d ≤ (r.devIndex + r.size - r.hostIndex) % r.size then s.modRing n fun r => { r with hostIndex := v, recs := r.recs.drop d }
    else doorbellReject t n v s

/-- An address in a buffer of a recorder ring that the consumer has configured (R86, R590). -/
def State.recBuffer (s : State) (a : Nat) : Bool :=
  (List.range 8).any fun k =>
    let r := s.ring (24 + k)
    r.configured && (List.range r.size).any fun i => let b := s.bufAddr (24 + k) i; decide (b ≤ a) && decide (a < b + 4096)

/-- Whether master m may make an access (R86): the recorder writes outside its own region only into its rings' buffers. -/
def State.mayReach (s : State) (m : Nat) (write : Bool) (a : Nat) : Bool :=
  allowedAt s.mem.lc m write a && (m != 2 || regionOf a == some .recorderSram || !write || s.recBuffer a)

/-- A violation by master m at an address (R87, R88): the supervisor's leads to safe stop, an engine access is the cores' own row; any
other master is frozen. -/
def violate (t m addr : Nat) (write : Bool) (s : State) : State :=
  if m = 0 then forceSafeStop t 0x02 s
  else if m = 1 then forceSafeStop t 0x02 ((tripAll t 0xFF00 9 0 (s.modHost fun h => { h with frozen := h.frozen ||| 2 })).setInt 27)
  else freezeMaster t m addr write s

/-- An access of a frozen master stalls (R87); the host bridge's is discarded. -/
def stall (m : Nat) (s : State) : State := s.modHost fun h => { h with stalled := upd h.stalled m (· + 1) }

/-- A 32-bit write of master m into the system register block (R77 to R79). A write that sets a reserved bit is discarded whole (R10). -/
def sysWrite (t m off v : Nat) (s : State) : State :=
  if s.isFrozen m then stall m s
  else if off < 0x100 ∧ off % 4 = 0 then
    if !isParty m (off / 4) s then violate t m (0x40000000 + off) true s
    else if v / 4096 % 16 ≠ 0 ∨ 2 ^ 28 ≤ v then s
    else doorbell t (off / 4) (v % 4096) s
  else if off = 0x100 ∧ (m = 4 ∨ m = 5 ∨ m = 0 ∨ (m = 6 ∧ debugMay s.mem.lc true .systemRegs)) then
    if 2 ^ 28 ≤ v then s else s.modHost fun h => { h with intStatus := h.intStatus &&& ~~~ (BitVec.ofNat 32 v) }
  else violate t m (0x40000000 + off) true s

/-- The word at an offset of the system register block (R77, R78, R79, R80); every other address reads 0. -/
def State.sysRead (s : State) (off : Nat) : Nat :=
  if off < 0x100 then let r := s.ring (off / 4); r.devIndex % 4096 * 65536 + r.hostIndex % 4096
  else if off = 0x100 then s.host.intStatus.toNat
  else if 0x200 ≤ off ∧ off < 0x240 then s.windowWord ((off - 0x200) / 4)
  else 0

/-- A read of word 4 of the status window latches word 5 (R80). -/
def latchTime (s : State) : State := s.modHost fun h => { h with timeLatch := BitVec.ofNat 32 (s.now / 2 ^ 32) }

/-- A write of a ring's doorbell by master m (R78). -/
def execDoorbellWrite (t m n v : Nat) (s : State) : Res := within n 64 (sysWrite t m (4 * n) v (s.advance t))

/-- A write to INT_STATUS by master m: 1s clear their bits (R79). -/
def execIntStatusWrite (t m : Nat) (v : Word) (s : State) : Res := .next (sysWrite t m 0x100 v.toNat (s.advance t))

/-- A read of status-window word 4 by master m (R80). -/
def execTimeLoRead (t m : Nat) (s : State) : Res :=
  let s := s.advance t
  .next (if s.isFrozen m then stall m s else latchTime s)

/-- A write by master m to any other register address (R77): a violation in the system block; elsewhere a configuration access, which
only the supervisor may make (R23, R86). A write that a master may make into SRAM lands there (spec/05_sheaf_table.md R114, R138). What a supervisor's
write does elsewhere is its firmware's own, reached only through commands. -/
def execRegisterWrite (t m addr : Nat) (v : Word) (s : State) : Res :=
  let s := s.advance t
  .next (if s.isFrozen m then stall m s
    else if 0x40000000 ≤ addr ∧ addr < 0x40010000 then sysWrite t m (addr - 0x40000000) v.toNat s
    else if s.mayReach m true addr then (if 0x20000000 ≤ addr ∧ addr < 0x40000000 then s.store (addr - addr % 4) (le 4 v.toNat) else s)
    else violate t m addr true s)

/-! ### HSPI_ (R81, R82) -/

/-- Bytes of a transfer before the next 4 KB boundary (R82). -/
def served (addr n : Nat) : Nat := min n (4096 - addr % 4096)

/-- A register that a word write of the system block may name (R77). -/
def sysRegister (off : Nat) : Bool := off < 0x100 || off == 0x100

/-- A transfer that reaches a 4 KB boundary with more to come is counted (R82). -/
def countTrunc (addr n : Nat) (s : State) : State :=
  if served addr n < n then whenReady (fun s => s.modCmd fun c => { c with trunc4k := (c.trunc4k + 1) % 2 ^ 32 }) s else s

/-- The host bridge's write of one byte: SRAM it may write takes it; anything else is a violation, which freezes the bridge and discards
the rest. A register takes whole aligned words, at their last byte (notes/assumptions/13.md); any other address of the block is none (R77). -/
def hspiWriteByte (t addr : Nat) (data : List Byte) (i : Nat) (s : State) : State :=
  let a := addr + i
  if s.isFrozen 5 then s
  else if 0x40000000 ≤ a ∧ a < 0x40010000 then
    if a % 4 = 3 ∧ 3 ≤ i then sysWrite t 5 (a - 3 - 0x40000000) (u32 data (i - 3)) s
    else if sysRegister (a / 4 * 4 - 0x40000000) then s
    else violate t 5 a true s
  else if allowedAt s.mem.lc 5 true a then s.store a [data.getD i 0]
  else violate t 5 a true s

/-- A memory write of the host bridge (R82, R87). -/
def hspiWrite (t addr : Nat) (data : List Byte) (s : State) : State :=
  if s.isFrozen 5 then s.modHost fun h => { h with spiOut := [] }
  else countTrunc addr data.length
    ((List.range (served addr data.length)).foldl (fun s i => hspiWriteByte t addr data i s) (s.modHost fun h => { h with spiOut := [] }))

/-- The host bridge's read of one byte (R80, R82, R87): 0xFF once the bridge is frozen. -/
def hspiReadByte (t a : Nat) (s : State) : Byte × State :=
  if s.isFrozen 5 then (0xFF, s)
  else if 0x40000000 ≤ a ∧ a < 0x40010000 then
    let off := a - 0x40000000
    let s := if off = 0x210 then latchTime s else s
    (BitVec.ofNat 8 (s.sysRead (off / 4 * 4) / 256 ^ (off % 4)), s)
  else if allowedAt s.mem.lc 5 false a then (s.shown a, s)
  else (0xFF, violate t 5 a false s)

/-- The bytes of a read from an address, each against the firewall. -/
def hspiReadBytes (t : Nat) : Nat → Nat → State → List Byte × State
  | 0, _, s => ([], s)
  | n + 1, a, s =>
    let (b, s) := hspiReadByte t a s
    let (r, s) := hspiReadBytes t n (a + 1) s
    (b :: r, s)

/-- A memory read of the host bridge: bytes past the 4 KB boundary read 0xFF (R82). -/
def hspiRead (t addr n : Nat) (s : State) : State :=
  let (b, s') := hspiReadBytes t (served addr n) addr s
  let s' := if s.isFrozen 5 then s' else countTrunc addr n s'
  s'.modHost fun h => { h with spiOut := b ++ List.replicate (n - served addr n) 0xFF }

def execHspiWrite (t addr : Nat) (data : List Byte) (s : State) : Res := .next (hspiWrite t addr data (s.advance t))
def execHspiQuadWrite (t addr : Nat) (data : List Byte) (s : State) : Res := .next (hspiWrite t addr data (s.advance t))
def execHspiRead (t addr n : Nat) (s : State) : Res := .next (hspiRead t addr n (s.advance t))
def execHspiQuadRead (t addr n : Nat) (s : State) : Res := .next (hspiRead t addr n (s.advance t))

/-! ### The escape port (R83, R84) and UART0 (R85) -/

/-- A 0xE5 frame: taken into the port, or discarded whole and counted while BUSY or REPLY_READY is set (R83). Before the port has started
it is discarded (R84). The packet it holds is then processed as the row of its opcode. -/
def execEscapeWrite (t : Nat) (frame : List Byte) (s : State) : Res :=
  let s := s.advance t
  .next (if !s.esc.on ∨ frame = [] then s
    else if s.esc.busy ∨ s.esc.replyReady then whenReady (fun s => s.modCmd fun c => { c with escDiscarded := (c.escDiscarded + 1) % 2 ^ 32 }) s
    else { s with esc := { s.esc with busy := true, frame := frame } })

/-- ESC_STATUS (R83). -/
def State.escStatus (s : State) : Nat := flagAt s.esc.busy 1 + flagAt s.esc.replyReady 0

/-- A 0xE6 read of n bytes after the dummy clocks: ESC_STATUS, then the reply when one is held; REPLY_READY clears when its last byte has
been read (R83). -/
def execEscapeRead (t n : Nat) (s : State) : Res :=
  let s := s.advance t
  let out := fit n (BitVec.ofNat 8 s.escStatus :: (if s.esc.replyReady then s.esc.reply else []))
  let s := s.modHost fun h => { h with spiOut := out }
  .next (if s.esc.replyReady ∧ s.esc.reply.length < n then { s with esc := { s.esc with replyReady := false, reply := [] } } else s)

/-- The instruction bytes of R81. -/
def spiInstruction (b : Byte) : Bool := b == 0x02 || b == 0x32 || b == 0x0B || b == 0x6B || b == 0xE5 || b == 0xE6

/-- An SPI instruction byte outside R81: the rest of the transaction is ignored, and nothing is shifted out. A listed byte is another
row's. -/
def execUnknownInstruction (t : Nat) (b : Byte) (s : State) : Res :=
  let s := s.advance t
  .next (if spiInstruction b then s else s.modHost fun h => { h with spiOut := [] })

/-- The bytes of a UART frame between its flags, unescaped (R85). -/
def uartUnescape : List Byte → List Byte
  | [] => []
  | 0x7D :: x :: r => (x ^^^ 0x20) :: uartUnescape r
  | x :: r => x :: uartUnescape r

/-- The buffer in which the device places a packet it received on UART0 (R85, R590). -/
def State.uartBuf (s : State) (i : Nat) : Nat := s.placed (s.ring 7).base "buffer of ring 7" i

/-- A 0x7E-framed packet on UART0 is placed on ring 7 by the device (R85), when host-over-UART is selected and the ring has room: its
producer index moves on, and the packet then stands at the head of ring 7 as the row of its opcode. -/
def execHostUartPacket (t : Nat) (frame : List Byte) (s : State) : Res :=
  let s := s.advance t
  let r := s.ring 7
  let inner := uartUnescape ((frame.drop 1).dropLast)
  .next (if s.host.uartHost ∧ frame.head? = some 0x7E ∧ frame.getLast? = some 0x7E ∧ 16 ≤ inner.length ∧
      inner.length ≤ 4092 ∧ (r.hostIndex + 1) % r.size ≠ r.devIndex then
      let b := s.uartBuf r.hostIndex
      let d := le 4 b ++ le 2 4096 ++ le 2 inner.length ++ le 4 r.seq ++ [4] ++ zeros 3
      ((s.store b inner).store (r.base + 16 * r.hostIndex) d).modRing 7 fun r =>
        { r with hostIndex := (r.hostIndex + 1) % r.size, seq := (r.seq + 1) % 2 ^ 32 }
    else s)

/-- The held reply of a ring written once a slot is free (R76). -/
def execHeldReply (t n : Nat) (s : State) : Res :=
  let s := s.advance t
  within n 64 (match s.cmd.held.find? fun h => h.ring == n with
    | none => s
    | some h =>
      if (s.ring n).full then s
      else ((s.modCmd fun c => { c with held := c.held.erase h }).modRing n fun r => r.push h.bytes).setRingInt n)

/-! ### Violations and freezes (R87 to R89) -/

/-- An access outside a master's rights (R87, R88). For the control engine the row says which cores presented it: some of the voting cores
make those cores dissent, every voting core alike freezes the engine, trips every group and leads to safe stop. An access within the
rights is no violation. -/
def execFirewallViolation (t m addr : Nat) (write : Bool) (cores : List Nat) (s : State) : Res :=
  let s := s.advance t
  within m 7 (if s.mayReach m write addr ∨ s.isFrozen m then s
    else if m = 1 then
      if (List.range 4).all fun c => s.eng.cores.getD c 0 != 1 || cores.contains c then violate t 1 addr write s
      else s.modEng fun e => { e with forceDissent := e.forceDissent ++ (cores.filter fun c => decide (c < 4)).map (· + 8) }
    else violate t m addr write s)

/-- A domain set to a state of R80: 0 off, 1 starting, 2 on, 3 fault. Its clock output is disabled before the domain is opened, and enabled again,
from the main loop or else the ring oscillator, once it is good (spec/18_clocks_islands.md R500); D8 to D10 are opened for their restart. -/
def setDomain (d st : Nat) (s : State) : State :=
  let src := s.clk.sources.getD d 3
  let src' := if st = 0 ∨ (st = 3 ∧ 8 ≤ d) then 3 else if src = 3 ∧ st ≠ 3 then (if s.clk.main = 0xFF then 2 else s.clk.pick.getD d 0) else src
  d6Follow s.time { s with sys := { s.sys with domains := s.sys.domains.set d st }, clk := { s.clk with sources := s.clk.sources.set d src' } }

/-- The domain-off event, posted by the supervisor (spec/01_architecture.md R34); its number in the system group and its data are not stated
(notes/assumptions/45.md). -/
def domainOffEv (d : Nat) : Ev := ev (0x0100 + Config.freeNat "domain-off EVENT_ID" d % 256) d (List.replicate 16 (BitVec.ofNat 8 (Config.freeNat "domain-off DATA" d)))

/-- A domain that is up is switched off, in state 0, or 3 for the restart of one that failed, with the domain-off event (R31, R34). -/
def domainOff (t d st : Nat) (s : State) : State :=
  let was := s.sys.domains.getD d 0
  let s := setDomain d st s
  if was = 0 then s else s.post t (domainOffEv d)

/-- D10 restarted by the supervisor after 60 s frozen or at the third freeze within 600 s (R89): the freeze is cleared, the application
core's sessions end with it. -/
def execFrozenD10Restart (t : Nat) (s : State) : Res :=
  let s := s.advance t
  .next (if s.isFrozen 4 ∧ (s.host.appFrozenAt + 60000000000 ≤ t ∨ 3 ≤ s.host.appFreezes.length) then
      (setDomain 10 1 (domainOff t 10 0 (unfreeze t 4 0xFF (s.modHost fun h => { h with appFreezes := if 3 ≤ h.appFreezes.length then [] else h.appFreezes })))).dropSessions
        fun x => x.src == .app
    else s)

end Sys2Proof.Machine
end

