-- ==== Sys2Proof/Machine/Sheaf.lean ====
section
/-! DEFINITION. The Sheaf command group (spec/05_sheaf_table.md R114 to R152), the checks of an entry, the load (spec/06_control_engine.md
R155 to R161) and how a configuration effect reaches a channel on its boundary (R137). -/

namespace Sys2Proof.Machine

/-! ### Base tick and rate groups (spec/06_control_engine.md R155, R156, R181) -/

/-- The rate configuration as it will stand: the accepted one (R69, R181). -/
def State.rateCfg (s : State) : Option RateCfg :=
  match s.eng.ratePend with
  | some c => some c
  | none => if s.eng.hasRate then some s.eng.rate else none

/-- The multiple of group g in a configuration. -/
def RateCfg.mult (c : RateCfg) (g : Nat) : Nat := bits (c.groups.getD g 0) 15 0

/-- The base tick in ns of a rate configuration on a timebase configuration (R155, spec/11_pwm.md R314). -/
def tickOf (c : RateCfg) (tb : TbCfg) : Nat := if tb.mode = 2 ∧ c.event = 2 then tb.n else tb.n * 2

/-- The base tick as the accepted configurations give it, in ns. -/
def State.tickNs (s : State) (c : RateCfg) : Nat := tickOf c (s.pwm.tbs.getD c.tb Tb.reset).cfg

/-- Group g is in use in the accepted configuration (R156). -/
def State.inUse (s : State) (g : Nat) : Bool :=
  match s.rateCfg with | some c => c.mult g != 0 | none => false

/-- Period of group g in ns; 0 when it is not in use. -/
def State.period (s : State) (g : Nat) : Nat :=
  match s.rateCfg with | some c => c.mult g * s.tickNs c | none => 0

/-! ### Entries as images -/

/-- The configuration bytes 0x000..0x37F of entry n in a copy. -/
def entryImg (m : Mem) (n : Nat) : List Byte := Mem.readN m (entryAt n 0) 0x380

/-- The length of template i, 0 when it was never written (R136). -/
def State.tplLen (s : State) (i : Nat) : Nat := (Mem.read s.eng.templates (i * 0x200 + 0x180)).toNat

/-- The words of template i. -/
def State.tplWords (s : State) (i : Nat) : List Nat := progWords (s.tplLen i) (Mem.readN s.eng.templates (i * 0x200) (8 * s.tplLen i))

/-- The program that an entry image names (R115, R136). -/
def State.imgProg (s : State) (img : List Byte) : List Nat :=
  let w0 := u32 img 0
  if bit w0 29 then s.tplWords (bits w0 5 0) else progWords (bits w0 13 8) (img.drop 0x80)

/-- ENABLE and RATE_GROUP of an image. -/
def imgEnable (img : List Byte) : Bool := bit (u32 img 0) 31
def imgGroup (img : List Byte) : Nat := bits (u32 img 0) 26 24
/-- HITCH of an image. -/
def imgHitch (img : List Byte) : Nat := bits (u32 img 0) 23 20

/-- Range checks of an input slot at an entry offset, byte by byte (R116, R193). -/
def inSlotChecks (img : List Byte) (o : Nat) : List Check :=
  let w := u32 img o
  let k := slotKind w
  let subMax := if k = 1 then 3 else if k = 3 then 1 else if k = 4 then 15 else 0
  let idxMax := if k = 1 then 23 else if k = 2 then 63 else if k = 3 then 31 else if k = 4 then 0 else if k = 5 then 63 else if k = 6 then 15 else 2
  [(o, bits w 7 1 == 0), (o + 1, k == 0 || 8 ≤ k || slotSub w ≤ subMax), (o + 2, k == 0 || 8 ≤ k || slotIndex w ≤ idxMax),
   (o + 3, k < 8 && bits w 27 24 == 0)]

/-- Range checks of an output slot at an entry offset (R117). -/
def outSlotChecks (img : List Byte) (o : Nat) : List Check :=
  let w := u32 img o
  let k := slotKind w
  let idxMax := if k = 3 then 31 else if k = 4 then 63 else 47
  [(o + 2, k == 0 || 5 ≤ k || slotIndex w ≤ idxMax), (o + 3, k < 5 && bits w 27 24 == 0)]

/-- The checks of an entry image, by ascending entry offset (R115 to R119, R121, R135, R136). -/
def State.entryChecks (s : State) (img : List Byte) : List Check :=
  let w0 := u32 img 0
  let en := bit w0 31
  let tpl := bit w0 29
  let tid := bits w0 5 0
  let n := bits w0 13 8
  let inMap (i : Nat) := u32 img (0x40 + 4 * i)
  let outMap (i : Nat) := u32 img (0x340 + 4 * i)
  let fs : F32 := BitVec.ofNat 32 (u32 img 8)
  let init (j : Nat) : List Check :=
    let v := u16 img (0x18 + 2 * j)
    let src := bits v 15 13
    let i := bits v 11 8
    [(0x18 + 2 * j, bits v 7 0 == 0),
     (0x19 + 2 * j, src ≤ 3 && (src != 1 || slotKind (inMap i) != 0) && (src != 2 || slotKind (outMap i) == 1 || slotKind (outMap i) == 2))]
  [(0, bits w0 7 6 == 0 && (tpl || tid == 0) && (!tpl || !en || 1 ≤ s.tplLen tid)),
   (1, bits w0 15 14 == 0 && (if tpl then n == 0 else n ≤ 48 && (!en || 1 ≤ n))),
   (2, bits w0 19 16 == 0), (4, bits (u8 img 4) 7 7 == 0), (5, bits (u8 img 5) 7 7 == 0 && bits (u8 img 5) 3 0 ≤ 1)] ++
  resv img 6 2 ++ [(8, !en || (ffinite fs && flt 0 fs)), (12, u16 img 12 ≤ 7)] ++ resv img 14 2 ++
  (List.range 12).flatMap init ++ resv img 0x30 16 ++
  ((List.range 16).flatMap fun i => inSlotChecks img (0x40 + 4 * i)) ++
  (match progBad true inMap outMap (s.imgProg img) [] 0 with | some i => [(0x80 + 8 * i, false)] | none => []) ++
  ((List.range 16).map fun k => (0x300 + 4 * k, decide (s16 img (0x300 + 4 * k) ≤ s16 img (0x302 + 4 * k)))) ++
  ((List.range 16).flatMap fun i => outSlotChecks img (0x340 + 4 * i))

/-! ### Ownership (R118, spec/07_grid_current.md R202, spec/10_pv_battery_ports.md R288, R290) -/

/-- A destination that a manager writes and no channel may own. -/
def State.managed (s : State) (kind index : Nat) : Bool :=
  (kind == 4 && ((match s.grid.cfg with | some c => c.linkBase ≤ index && index < c.linkBase + 8 | none => false) ||
    (s.ports.hasShare && s.ports.linkBase ≤ index && index < s.ports.linkBase + 10))) ||
  (kind == 3 && s.ports.bat.any fun b => match b.cfg with | some c => c.gen == index | none => false)

/-- The entry offset of the first output slot of an enabled image that would give a destination a second owner, channels in `but` left
out of the owners. -/
def State.conflictAt (s : State) (but : Nat → Bool) (img : List Byte) : Option Nat :=
  if imgEnable img then
    ((List.range 16).find? fun i =>
      let w := u32 img (0x340 + 4 * i)
      let k := slotKind w
      k != 0 && (s.managed k (slotIndex w) || (match s.owner k (slotIndex w) with
        | some m => !but m || (List.range 256).any fun c => c != m && !but c && chEnable s.eng.run c &&
            (List.range 16).any fun j => let v := outSlot s.eng.run c j; slotKind v == k && slotIndex v == slotIndex w
        | none => false))).map fun i => 0x340 + 4 * i
  else none

/-! ### Load (spec/06_control_engine.md R161) -/

/-- The weight of an image: its program length, and 28 more when it reads a link register. -/
def State.weight (s : State) (img : List Byte) : Nat :=
  let p := s.imgProg img
  p.length + (if readsLink (fun i => u32 img (0x40 + 4 * i)) p then 28 else 0)

/-- An entry image with a deferred command applied, for the load only: deferred commands count from their acceptance. -/
def deferImg (d : Deferred) (img : List Byte) : List Byte :=
  let b := d.pkt.payload
  if d.opcode = 0x0202 then
    img.set 3 (BitVec.ofNat 8 (u8 img 3 % 128 + (if bit (u8 b 2) 0 then 128 else 0)))
  else if d.opcode = 0x0208 then
    patch img ((if u8 b 2 = 0 then 0x40 else 0x340) + 4 * u8 b 3) (slice b 8 (4 * u8 b 4))
  else img

/-- An image of entry n with what deferred commands will change. -/
def State.deferOn (s : State) (n : Nat) (img : List Byte) : List Byte :=
  (s.cmd.deferred.filter fun d => u16 d.pkt.payload 0 == n).foldl (fun img d => deferImg d img) img

/-- Entry n as the load counts it: the running copy with what deferred commands will change. -/
def State.loadImg (s : State) (n : Nat) : List Byte := s.deferOn n (entryImg s.eng.run n)

/-- The load in CPW per second, exact as (numerator, denominator) (R161). -/
def State.loadFrac (s : State) (c : RateCfg) (img : Nat → List Byte) : Nat × Nat :=
  let big := (List.range 8).foldl (fun a g => max a (c.mult g)) 1
  let one (n : Nat) : Nat :=
    let e := img n
    if imgEnable e then s.weight e * (big / max 1 (c.mult (imgGroup e))) else 0
  ((List.range 256).foldl (fun a n => a + one n) 0 * 1000000000, big * s.tickNs c)

/-- The load of images stays within the limit; with no rate configuration nothing runs. -/
def State.loadOk (s : State) (img : Nat → List Byte) : Bool :=
  match s.rateCfg with
  | none => true
  | some c => let f := s.loadFrac c img; f.1 ≤ 510000000 * f.2

/-- The load with entry n changed by f: before what deferred commands will change, or after it by a command that is itself deferred. -/
def State.loadOkWith (s : State) (n : Nat) (deferred : Bool) (f : List Byte → List Byte) : Bool :=
  let e := if deferred then f (s.loadImg n) else s.deferOn n (f (entryImg s.eng.run n))
  s.loadOk fun k => if k = n then e else s.loadImg k

/-! ### Placing an effect (R137 to R140) -/

/-- Bytes of entry n written in memory and in the running copy together (R137). -/
def placeEntry (n off : Nat) (b : List Byte) (s : State) : State :=
  (s.store (0x20300000 + entryAt n off) b).modEng fun e => { e with run := Mem.writeN e.run (entryAt n off) b }

/-- Byte 3 of a header with the bits of a mask taken from another. -/
def mixBits (mask old new : Byte) : Byte := (old &&& ~~~ mask) ||| (new &&& mask)

/-- Bits of byte 3 of entry n's header written in memory, where its other bits keep what a direct write left there (R114, R138). -/
def memBits (n : Nat) (mask b : Byte) (s : State) : State :=
  let a := 0x20300000 + entryAt n 3
  s.store a [mixBits mask (Mem.read s.mem.sram a) b]

/-- The device's own fields of entry n as memory shows them after a change that has taken effect (R114): BANK_SEL, SWAP_ARMED, CFG_CRC and GENERATION
of the running copy. -/
def showOwn (n : Nat) (s : State) : State :=
  (memBits n 0x18 (Mem.read s.eng.run (entryAt n 3)) s).store (0x20300000 + entryAt n 0x10) (Mem.readN s.eng.run (entryAt n 0x10) 8)

/-- BANK_SEL and SWAP_ARMED of entry n written by the device, in every copy (R114, R145). -/
def deviceBits (n : Nat) (f : Nat → Nat) (s : State) : State :=
  let a := entryAt n 3
  let set (m : Mem) : Mem := Mem.write m a (mixBits 0x18 (Mem.read m a) (BitVec.ofNat 8 (f (Mem.read s.eng.run a).toNat)))
  showOwn n (s.modEng fun e => { e with run := set e.run, act := set e.act })

/-- An image with the device's own fields taken from the running copy: BANK_SEL, SWAP_ARMED, CFG_CRC, GENERATION (R114, R139). -/
def keepOwn (run img : List Byte) : List Byte :=
  let b3 := u8 img 3 - bits (u8 img 3) 4 3 * 8 + bits (u8 run 3) 4 3 * 8
  patch (img.set 3 (BitVec.ofNat 8 b3)) 0x10 (slice run 0x10 8)

/-- CFG_CRC of an image (R115). -/
def cfgCrc (img : List Byte) : Nat :=
  crc32c (patch (img.set 3 (BitVec.ofNat 8 (u8 img 3 - bits (u8 img 3) 4 3 * 8))) 0x10 (zeros 8))

/-- GENERATION counts the change and CFG_CRC is computed anew (R115, R139). DESIGN CHOICE (notes/assumptions/17.md): changes that take effect on one
boundary count once, and a hitch swap counts as none. -/
def stampEntry (n : Nat) (s : State) : State :=
  let img := entryImg s.eng.run n
  showOwn n (placeEntry n 0x10 (le 4 (cfgCrc img) ++ le 4 ((u32 img 0x14 + 1) % 2 ^ 32)) s)

/-- The replies that waited for an effect are sent (R137). -/
def sendWaiting (n : Nat) (s : State) : State :=
  (s.chan n).replies.foldl (fun s d => sendReply d.src d.bytes s) (s.modChan n fun c => { c with replies := [] })

/-- A placed effect reaches channel n (R137): the copy that passes execute is taken from the running copy; a channel that loses ENABLE stops,
one that gains it is to start on its next boundary; words of SHEAF_STATE_SET are loaded. A start that SHEAF_ENABLE or RESET_STATE does not ask for
keeps the state words (R139; DESIGN CHOICE for SHEAF_ENTRY_WRITE, notes/assumptions/17.md). -/
def effectNow (n : Nat) (s : State) : State :=
  let was := chEnable s.eng.act n
  let now := chEnable s.eng.run n
  let s := if was && !now && (s.chan n).running then stopChan n s else s
  let s := if (s.chan n).pending then stampEntry n s else s
  let s := loadEntry n s
  let s := s.modChan n fun c =>
    { c with
      words := c.pendWords.foldl (fun w x => w.set x.1 x.2) c.words
      pendWords := [], pending := false
      pendStart := now && c.pendStart
      pendRun := now && (c.pendRun || !was)
      pendReset := c.pendReset && now
      pendStop := c.pendStop && now }
  sendWaiting n s

/-- Channel n is the current channel of the grid configuration. -/
def State.isCurChan (s : State) (n : Nat) : Bool := match s.grid.cfg with | some c => c.curChan == n | none => false

/-- DESIGN CHOICE (notes/assumptions/17.md): a SHEAF_ENABLE with enable = 1 on a running channel initialises it only with RESET_STATE.
A start due on channel n's boundary (R111, R121, R139, R150): the restart of a stopped channel, which SHEAF_ENABLE or RESET_STATE alone asks for (R134);
a start when the mode is in its mask and the restart gate does not hold it (spec/08_ride_through.md R236); or a running channel initialised by
RESET_STATE. -/
def startDue (n : Nat) (s : State) : State :=
  let c := s.chan n
  let asked := c.pendStart || c.pendReset
  if asked || c.pendRun then
    let s := s.modChan n fun c => { c with pendStart := false, pendReset := false, pendRun := false, stopped := c.stopped && !asked }
    if (c.stopped && !asked) || !chInMode s.eng.act n s.modes.mode || (s.rt.gateClosed && s.isCurChan n) then s
    else if !c.running then
      if asked then startChan n s else s.modChan n fun c => { c with running := true, invSince := none, initSel := [] }
    else if c.pendReset then initWords s.eng.act n s
    else s
  else s

/-- What channel n's boundary does before its pass: pending effects, then starts. -/
def boundaryChan (n : Nat) (s : State) : State :=
  let c := s.chan n
  let s := if c.pending || c.pendWords != [] || c.replies != [] then effectNow n s else s
  startDue n s

/-- An effect placed on channel n: it waits for the boundary of an enabled channel, and acts at once on a disabled one (R137). -/
def placed (was : Bool) (n : Nat) (s : State) : State :=
  let s := s.modChan n fun c => { c with pending := true }
  if was then s else effectNow n s

/-- A reply on a running channel waits for its effect (R137). -/
def keepOn (was : Bool) (n : Nat) : Option (DurReply → State → State) :=
  if was then some fun d s => s.modChan n fun c => { c with replies := c.replies ++ [d] } else none

/-- Channel n is enabled. -/
def State.enabled (s : State) (n : Nat) : Bool := chEnable s.eng.run n

/-- Channel n runs: enabled, or with its last pass still to end (R150). -/
def State.live (s : State) (n : Nat) : Bool := s.enabled n || (s.chan n).pendStop

/-- The effect of a change of channel n's configuration. -/
def chanEffect (n : Nat) (f : State → State) (s : State) : Effect :=
  let was := s.live n
  { st := placed was n (f s), keep := keepOn was n }

/-- The channel of a payload; a check that it is one (R148). -/
def chOf (pl : List Byte) : Nat := u16 pl 0
def chCheck (pl : List Byte) : Check := (1, chOf pl < 256)

/-- The hitch group of channel n is armed. -/
def State.armedOf (s : State) (n : Nat) : Bool := (s.eng.hitch.getD (chHitch s.eng.run n) Hitch.reset).armed

/-- Moving channel n out of or into an armed hitch group (R140). -/
def State.hitchBusy (s : State) (n : Nat) (img : List Byte) : Bool :=
  let old := chHitch s.eng.run n
  let new := imgHitch img
  old != new && ((s.eng.hitch.getD old Hitch.reset).armed || (s.eng.hitch.getD new Hitch.reset).armed)

/-- E_STATE of an image for channel n: a change of RATE_GROUP on an enabled channel (R140), or enabling in a group not in use (R160). -/
def State.imgState (s : State) (n : Nat) (img : List Byte) : Bool :=
  (s.enabled n && imgGroup img != chGroup s.eng.run n) || (imgEnable img && !s.inUse (imgGroup img))

/-! ### SHEAF_ENTRY_WRITE, SHEAF_ENTRY_READ -/

/-- The image of an ENTRY_WRITE payload written: the running copy keeps the device's own fields, and so does memory, with what a direct write left
there (R114, R138). -/
def writeImg (n : Nat) (img : List Byte) (s : State) : State :=
  let a := 0x20300000 + entryAt n 0
  let s := memBits n 0xE7 (img.getD 3 0) (((s.store a (img.take 3)).store (a + 4) (slice img 4 12)).store (a + 0x18) (img.drop 0x18))
  s.modEng fun e => { e with run := Mem.writeN e.run (entryAt n 0) (keepOwn (entryImg e.run n) img) }

def specSheafEntryWrite : CmdSpec :=
  { opcode := 0x0200, lenOk := len 900
    stateBad := fun s p => chOf p.payload < 256 && s.imgState (chOf p.payload) (slice p.payload 4 0x380)
    checks := fun s p => [(0, 256 ≤ chOf p.payload || s.loadOkWith (chOf p.payload) false fun _ => slice p.payload 4 0x380), chCheck p.payload, maskB p.payload 2 1] ++
      resv p.payload 3 1 ++ (s.entryChecks (slice p.payload 4 0x380)).map fun c => (c.1 + 4, c.2)
    conflictBad := fun s p => (s.conflictAt (fun m => m == chOf p.payload) (slice p.payload 4 0x380)).isSome
    busyBad := fun s p =>
      let n := chOf p.payload
      let img := slice p.payload 4 0x380
      s.hitchBusy n img || (s.armedOf n && slice img 0x200 0x100 != slice (entryImg s.eng.run n) 0x200 0x100)
    run := fun p s => chanEffect (chOf p.payload) (fun s =>
      (writeImg (chOf p.payload) (slice p.payload 4 0x380) s).modChan (chOf p.payload) fun c =>
        { c with pendReset := c.pendReset || bit (u8 p.payload 2) 0 }) s }

/-- The 96 bytes of the state area of channel n (R120). -/
def Chan.stateBytes (c : Chan) : List Byte := (List.range 12).flatMap fun j => leI 8 (c.words.getD j 0)

/-- The flags [4:0] of R122. -/
def Chan.flags (c : Chan) : Nat := flagAt c.faulted 4 + flagAt c.overrun 3 + flagAt c.invalid 2 + flagAt c.lim 1 + flagAt c.sat 0

/-- The 32 bytes of the statistics area (R122). -/
def Chan.statBytes (c : Chan) : List Byte :=
  le 4 c.passes ++ le 2 c.satCount ++ le 2 c.limCount ++ le 2 c.invCount ++ le 2 c.evtSupp ++ le 2 c.flags ++ le 2 c.disCount ++
  le 8 c.lastTime ++ le 4 c.maxClocks ++ zeros 4

/-- The 1,024 bytes of an entry as the engine holds it. -/
def entryBytes (s : State) (n : Nat) : List Byte := entryImg s.eng.run n ++ (s.chan n).stateBytes ++ (s.chan n).statBytes

def specSheafEntryRead : CmdSpec :=
  { opcode := 0x0201, lenOk := len 4
    checks := fun _ p => chCheck p.payload :: resv p.payload 2 2
    run := fun p s => { st := s, data := entryBytes s (chOf p.payload) } }

/-! ### SHEAF_ENABLE (R150) -/

/-- An image with ENABLE set. -/
def enableOn (e : List Byte) : List Byte := e.set 3 (BitVec.ofNat 8 (u8 e 3 % 128 + 128))

/-- Entry n's running copy with ENABLE set. -/
def enabledImg (s : State) (n : Nat) : List Byte := enableOn (entryImg s.eng.run n)

/-- Channel n stops after its current pass: now when none is under way (R150). -/
def stopAfterPass (n : Nat) (s : State) : State :=
  if (s.chan n).running then
    if s.eng.due.any fun d => d.ch == n then s.modChan n fun c => { c with pendStop := true } else stopChan n s
  else s

/-- Channel n disabled by command (R150): it stops after its current pass; one that does not run gives its destinations their DISABLED values at
once. -/
def disableChan (n : Nat) (s : State) : State := if (s.chan n).running then stopAfterPass n s else writeDisabled s.eng.run n s

/-- ENABLE of entry n written, and no other bit (R138). -/
def writeEnable (n : Nat) (on : Bool) (s : State) : State :=
  let b : Byte := if on then 0x80 else 0
  (memBits n 0x80 b s).modEng fun e => { e with run := Mem.write e.run (entryAt n 3) (mixBits 0x80 (Mem.read e.run (entryAt n 3)) b) }

/-- SHEAF_ENABLE on channel n (R134, R150): a stop takes effect with the end of the current pass, at once where none is under way; a group stopped by its reaction runs again with its channels (spec/06_control_engine.md R166). -/
def sheafEnable (n : Nat) (on reset : Bool) (s : State) : Effect :=
  if on then
    chanEffect n (fun s =>
      ((writeEnable n true s).modChan n fun c => { c with pendStart := true, pendReset := c.pendReset || reset }).modEng fun e =>
        { e with groups := upd e.groups (chGroup e.run n) fun g => { g with stopped := false } }) s
  else if s.enabled n then
    let s := disableChan n (s.modChan n fun c => { c with pendStart := false, pendRun := false })
    { st := placed (s.chan n).pendStop n (writeEnable n false s), keep := keepOn (s.chan n).pendStop n }
  else { st := s }

def specSheafEnable : CmdSpec :=
  { opcode := 0x0202, lenOk := len 4, defer := true, channel := some chOf
    stateBad := fun s p => chOf p.payload < 256 && bit (u8 p.payload 2) 0 && !s.inUse (chGroup s.eng.run (chOf p.payload))
    checks := fun s p =>
      let n := chOf p.payload
      let on := bit (u8 p.payload 2) 0
      [(0, !on || 256 ≤ n || ((s.entryChecks (enabledImg s n)).all (·.2) && s.loadOkWith n p.hitch enableOn)), chCheck p.payload,
       maskB p.payload 2 3] ++ resv p.payload 3 1
    conflictBad := fun s p =>
      bit (u8 p.payload 2) 0 && (s.conflictAt (fun m => m == chOf p.payload) (enabledImg s (chOf p.payload))).isSome
    run := fun p s => sheafEnable (chOf p.payload) (bit (u8 p.payload 2) 0) (bit (u8 p.payload 2) 1) s }

/-! ### Coefficients (R142 to R147) -/

/-- The offset of coefficient i of the inactive (or active) bank of entry n. -/
def bankAt (s : State) (n : Nat) (active : Bool) (i : Nat) : Nat := (if chBank s.eng.run n == active then 0x280 else 0x200) + 2 * i

/-- A count outside its range is answered E_LENGTH, whatever LENGTH says (DESIGN CHOICE, notes/assumptions/17.md): no payload length belongs to it. -/
def specSheafCoefStage : CmdSpec :=
  { opcode := 0x0203, lenOk := fun b => 1 ≤ u8 b 3 && u8 b 3 ≤ 64 && b.length == 4 + 2 * u8 b 3
    checks := fun _ p => [chCheck p.payload, inB p.payload 2 0 63, (3, u8 p.payload 2 + u8 p.payload 3 ≤ 64)]
    busyBad := fun s p => s.armedOf (chOf p.payload)
    run := fun p s => chanEffect (chOf p.payload)
      (fun s => placeEntry (chOf p.payload) (bankAt s (chOf p.payload) false (u8 p.payload 2)) (p.payload.drop 4) s) s }

def specSheafCoefLive : CmdSpec :=
  { opcode := 0x0204, lenOk := len 6
    stateBad := fun s p => chOf p.payload < 256 && !chLive s.eng.run (chOf p.payload)
    checks := fun _ p => [chCheck p.payload, inB p.payload 2 0 63] ++ resv p.payload 3 1
    busyBad := fun s p => s.armedOf (chOf p.payload)
    run := fun p s => chanEffect (chOf p.payload)
      (fun s => placeEntry (chOf p.payload) (bankAt s (chOf p.payload) true (u8 p.payload 2)) (slice p.payload 4 2) s) s }

/-! ### Hitch groups (R142 to R146) -/

/-- The members of hitch group g: channels whose HITCH equals it, enabled or not (R142). -/
def State.members (s : State) (g : Nat) : List Nat := chansWhere fun n => chHitch s.eng.run n == g

/-- CRC-32C over the inactive banks of all members (R144). -/
def State.stagedCrc (s : State) (g : Nat) : Nat :=
  crc32c ((s.members g).flatMap fun n => Mem.readN s.eng.run (entryAt n (bankAt s n false 0)) 128)

/-- The base tick known last: its index and device time. A configuration still pending restarts the count at the next tick; where none has
ticked yet, the carrier's phase is not known to this state and that tick is a free value (notes/assumptions/16.md). -/
def State.lastTick (s : State) (now tick : Nat) : Nat × Nat :=
  if s.eng.hasRate then (if s.eng.ratePend.isSome then (2 ^ 64 - 1, s.eng.tickAt) else (s.eng.tick, s.eng.tickAt))
  else (2 ^ 64 - 1, now + Config.freeNat "first base tick" now % tick - tick)

/-- The first base tick at or after a time whose index is a multiple of l: its device time. -/
def boundaryAfter (i0 t0 tick l req : Nat) : Nat :=
  let j := max 1 ((req - t0 + tick - 1) / tick)
  let i := (i0 + j) % 2 ^ 64
  let j := j + (l - i % l) % l
  t0 + j * tick

/-- The swap boundary of group g for a requested time (R143); none when there is no member or no base tick. -/
def State.swapBoundary (s : State) (g req now : Nat) : Option Nat :=
  match s.rateCfg with
  | none => none
  | some c =>
    let ms := s.members g
    if ms = [] then none
    else
      let l := ms.foldl (fun a n => max a (c.mult (chGroup s.eng.run n))) 1
      let tick := s.tickNs c
      let k := s.lastTick now tick
      some (boundaryAfter k.1 k.2 tick l (max req now))

/-- Whether the arm finds its boundary within 1 s of acceptance (R143). -/
def armState (s : State) (p : Packet) : Bool :=
  match s.swapBoundary (u8 p.payload 0) (u64 p.payload 4) p.t with
  | none => true
  | some b => p.t + 1000000000 < b

/-- Hitch group g armed for a boundary: SWAP_ARMED in every member. -/
def arm (g req b : Nat) (s : State) : State :=
  let s := (s.members g).foldl (fun s n => deviceBits n (fun v => v ||| 8) s) s
  s.modEng fun e => { e with hitch := e.hitch.set g { armed := true, request := req, boundary := b } }

def specSheafHitchArm : CmdSpec :=
  { opcode := 0x0205, lenOk := len 16
    stateBad := fun s p => u8 p.payload 0 < 16 && armState s p
    checks := fun s p => [inB p.payload 0 0 15] ++ resv p.payload 1 3 ++ [(12, u32 p.payload 12 == s.stagedCrc (u8 p.payload 0))]
    busyBad := fun s p => (s.eng.hitch.getD (u8 p.payload 0) Hitch.reset).armed
    run := fun p s =>
      let req := if u64 p.payload 4 = 0 then p.t else u64 p.payload 4
      let b := (s.swapBoundary (u8 p.payload 0) req p.t).getD 0
      { st := arm (u8 p.payload 0) req b s, data := le 8 b, status := .okDeferred } }

/-- Hitch group g disarmed; its deferred commands stay queued (R146). -/
def disarm (g : Nat) (s : State) : State :=
  let s := (s.members g).foldl (fun s n => deviceBits n (fun v => v - bits v 3 3 * 8) s) s
  s.modEng fun e => { e with hitch := upd e.hitch g fun h => { h with armed := false } }

def specSheafHitchCancel : CmdSpec :=
  { opcode := 0x0206, lenOk := len 4
    stateBad := fun s p =>
      let h := s.eng.hitch.getD (u8 p.payload 0) Hitch.reset
      u8 p.payload 0 < 16 && (!h.armed || decide (h.boundary < p.t + 1000))
    checks := fun _ p => inB p.payload 0 0 15 :: resv p.payload 1 3
    run := fun p s => { st := disarm (u8 p.payload 0) s } }

/-! ### SHEAF_LIMITS_SET, SHEAF_MAP_SET, SHEAF_STATE_SET, SHEAF_STATS -/

/-- A count outside its range is answered E_LENGTH (DESIGN CHOICE, notes/assumptions/17.md). -/
def specSheafLimitsSet : CmdSpec :=
  { opcode := 0x0207, lenOk := fun b => 1 ≤ u8 b 3 && u8 b 3 ≤ 16 && b.length == 4 + 4 * u8 b 3, defer := true, channel := some chOf
    checks := fun _ p => [chCheck p.payload, inB p.payload 2 0 15, (3, u8 p.payload 2 + u8 p.payload 3 ≤ 16)] ++
      (List.range (u8 p.payload 3)).map fun i => (4 + 4 * i, decide (s16 p.payload (4 + 4 * i) ≤ s16 p.payload (6 + 4 * i)))
    run := fun p s => chanEffect (chOf p.payload) (fun s => placeEntry (chOf p.payload) (0x300 + 4 * u8 p.payload 2) (p.payload.drop 4) s) s }

/-- The entry offset of the first slot of a MAP_SET payload. -/
def mapBase (pl : List Byte) : Nat := (if u8 pl 2 = 0 then 0x40 else 0x340) + 4 * u8 pl 3

/-- An image with the slots of a MAP_SET payload. -/
def mapOn (pl img : List Byte) : List Byte := patch img (mapBase pl) (pl.drop 8)

/-- The running copy with the slots of a MAP_SET payload. -/
def mapImg (s : State) (pl : List Byte) : List Byte := mapOn pl (entryImg s.eng.run (chOf pl))

/-- The checks of the entry that results, as offsets of the payload: a slot written at its own byte, any other byte of the entry at the
first slot written (notes/assumptions/17.md). -/
def mapChecks (s : State) (pl : List Byte) : List Check :=
  (s.entryChecks (mapImg s pl)).map fun c =>
    (if mapBase pl ≤ c.1 ∧ c.1 < mapBase pl + 4 * u8 pl 4 then 8 + c.1 - mapBase pl else 8, c.2)

/-- A count outside its range is answered E_LENGTH (DESIGN CHOICE, notes/assumptions/17.md). -/
def specSheafMapSet : CmdSpec :=
  { opcode := 0x0208, lenOk := fun b => 1 ≤ u8 b 4 && u8 b 4 ≤ 16 && b.length == 8 + 4 * u8 b 4, defer := true, channel := some chOf
    checks := fun s p => [chCheck p.payload, inB p.payload 2 0 1, inB p.payload 3 0 15,
      (4, u8 p.payload 3 + u8 p.payload 4 ≤ 16 && s.loadOkWith (chOf p.payload) p.hitch (mapOn p.payload))] ++ resv p.payload 5 3 ++ mapChecks s p.payload
    conflictBad := fun s p => (s.conflictAt (fun m => m == chOf p.payload) (mapImg s p.payload)).isSome
    run := fun p s => chanEffect (chOf p.payload) (fun s => placeEntry (chOf p.payload) (mapBase p.payload) (p.payload.drop 8) s) s }

/-- Word i of a STATE_SET payload. -/
def stateWord (pl : List Byte) (i : Nat) : Int := signed 40 (uN 5 pl (4 + 8 * i))

/-- State words set on channel n (R148): at the next boundary of a running channel, at once on a disabled one. It is no change of the
entry's configuration. -/
def setWords (n : Nat) (l : List (Nat × Int)) (s : State) : Effect :=
  if s.live n then
    { st := s.modChan n fun c => { c with pendWords := c.pendWords ++ l }
      keep := some fun d s => s.modChan n fun c => { c with replies := c.replies ++ [d] } }
  else { st := s.modChan n fun c => { c with words := l.foldl (fun w x => w.set x.1 x.2) c.words } }

def specSheafStateSet : CmdSpec :=
  { opcode := 0x0209, lenOk := fun b => b.length == 4 + 8 * u8 b 3
    checks := fun _ p => [chCheck p.payload, inB p.payload 2 0 11, (3, u8 p.payload 2 + u8 p.payload 3 ≤ 12)] ++
      (List.range (u8 p.payload 3)).map fun i => (4 + 8 * i + 5, decide (signed 64 (u64 p.payload (4 + 8 * i)) = stateWord p.payload i))
    run := fun p s => setWords (chOf p.payload) ((List.range (u8 p.payload 3)).map fun i => (u8 p.payload 2 + i, stateWord p.payload i)) s }

/-- Counters, or flags, of a channel cleared (R123). -/
def Chan.clear (counters flags : Bool) (c : Chan) : Chan :=
  let c := if counters then { c with passes := 0, limCount := 0, satCount := 0, evtSupp := 0, invCount := 0, disCount := 0 } else c
  if flags then { c with faulted := false, overrun := false, invalid := false, lim := false, sat := false } else c

def specSheafStats : CmdSpec :=
  { opcode := 0x020A, lenOk := len 4
    checks := fun _ p => [chCheck p.payload, maskB p.payload 2 3] ++ resv p.payload 3 1
    run := fun p s =>
      { st := s.modChan (chOf p.payload) (Chan.clear (bit (u8 p.payload 2) 0) (bit (u8 p.payload 2) 1))
        data := (s.chan (chOf p.payload)).statBytes } }

/-! ### SHEAF_TEMPLATE_WRITE (R136) -/

/-- The channels that reference template i. -/
def State.users (s : State) (i : Nat) : List Nat := chansWhere fun n => chTemplate s.eng.run n && chTid s.eng.run n == i

/-- The payload offset of the first word that fails R135, on its own or against a referencing channel's maps. -/
def templateBad (s : State) (pl : List Byte) : Option Nat :=
  let prog := progWords (u8 pl 1) (pl.drop 4)
  let one := progBad false (fun _ => 0) (fun _ => 0) prog [] 0
  ((s.users (u8 pl 0)).foldl (fun b n =>
    match b with
    | some i => some i
    | none => progBad true (inSlot s.eng.run n) (outSlot s.eng.run n) prog [] 0) one).map fun i => 4 + 8 * i

/-- Template i written with its length, in memory and in the cores. -/
def writeTemplate (i : Nat) (pl : List Byte) (s : State) : State :=
  let b := fit 0x180 (pl.drop 4) ++ le 1 (u8 pl 1) ++ zeros 0x7F
  (s.store (0x20340000 + i * 0x200) b).modEng fun e => { e with templates := Mem.writeN e.templates (i * 0x200) b }

/-- A count outside its range is answered E_LENGTH (DESIGN CHOICE, notes/assumptions/17.md). -/
def specSheafTemplateWrite : CmdSpec :=
  { opcode := 0x020B, lenOk := fun b => 1 ≤ u8 b 1 && u8 b 1 ≤ 48 && b.length == 4 + 8 * u8 b 1
    checks := fun s p => [inB p.payload 0 0 63,
        (1, (s.users (u8 p.payload 0)).all (fun n => !imgEnable (s.loadImg n)) || (writeTemplate (u8 p.payload 0) p.payload s).loadOk s.loadImg)] ++
      resv p.payload 2 2 ++
      (match templateBad s p.payload with | some o => [(o, false)] | none => [])
    busyBad := fun s p => (s.users (u8 p.payload 0)).any fun n => s.enabled n
    run := fun p s => { st := writeTemplate (u8 p.payload 0) p.payload s } }

/-! ### SHEAF_INVALIDATE (R138 to R140) -/

/-- Entry n as memory holds it. -/
def memImg (s : State) (n : Nat) : List Byte := Mem.readN s.mem.sram (0x20300000 + entryAt n 0) 0x380

/-- The channels of an INVALIDATE payload. -/
def invRange (pl : List Byte) : List Nat := (List.range (u16 pl 2)).map fun i => u16 pl 0 + i

/-- The first channel of a range whose entry in memory fails a range check, with the entry offset; then, with the load exceeded, the first
channel of the range (notes/assumptions/17.md). -/
def invBad (s : State) (pl : List Byte) : Option (Nat × Nat) :=
  let r := invRange pl
  match r.findSome? fun n => (firstBad (s.entryChecks (memImg s n))).map fun o => (n, o) with
  | some x => some x
  | none => if s.loadOk fun k => if r.contains k then memImg s k else s.loadImg k then none else some (u16 pl 0, 0)

/-- The first channel of a range that would give a destination a second owner, with the entry offset. -/
def invConflict (s : State) (pl : List Byte) : Option (Nat × Nat) :=
  let r := invRange pl
  r.findSome? fun n =>
    match s.conflictAt (fun m => r.contains m) (memImg s n) with
    | some o => some (n, o)
    | none =>
      ((List.range 16).find? fun i =>
        let w := u32 (memImg s n) (0x340 + 4 * i)
        imgEnable (memImg s n) && slotKind w != 0 && r.any fun m => m < n && imgEnable (memImg s m) && (List.range 16).any fun j =>
          let v := u32 (memImg s m) (0x340 + 4 * j)
          slotKind v == slotKind w && slotIndex v == slotIndex w).map fun i => (n, 0x340 + 4 * i)

/-- The fields of an INVALIDATE payload are in range. -/
def invFields (pl : List Byte) : List Check :=
  [(1, decide (u16 pl 0 < 256)), (2, 1 ≤ u16 pl 2 && u16 pl 0 + u16 pl 2 ≤ 256), maskB pl 4 1] ++ resv pl 5 3

/-- The reply data of a refused INVALIDATE. -/
def invData (st : Status) (s : State) (pl : List Byte) : List Byte :=
  if !(invFields pl).all (·.2) then []
  else
    let d (x : Option (Nat × Nat)) : List Byte := match x with | some (n, o) => le 2 n ++ le 2 o | none => []
    if st = .eRange then d (invBad s pl) else if st = .eConflict then d (invConflict s pl) else []

/-- Entry n loaded from memory (R139), where the device's own fields are replaced as the change takes effect (R114). -/
def loadFromMemory (n : Nat) (reset : Bool) (s : State) : State :=
  let was := s.live n
  let img := memImg s n
  placed was n ((s.modEng fun e => { e with run := Mem.writeN e.run (entryAt n 0) (keepOwn (entryImg e.run n) img) }).modChan n fun c =>
    { c with pendReset := c.pendReset || reset })

/-- The running channel of a range whose boundary comes last: that of the group with the greatest multiple. -/
def slowest (s : State) (r : List Nat) : Option Nat :=
  (r.filter fun n => s.live n).foldl (fun b n =>
    match b with
    | none => some n
    | some m => if s.mult (chGroup s.eng.run m) < s.mult (chGroup s.eng.run n) then some n else some m) none

def specSheafInvalidate : CmdSpec :=
  { opcode := 0x020C, lenOk := len 8
    stateBad := fun s p => (invFields p.payload).all (·.2) && (invRange p.payload).any fun n => s.imgState n (memImg s n)
    checks := fun s p => invFields p.payload ++
      [((match invBad s p.payload with | some (_, 0) => 2 | _ => 0), (invBad s p.payload).isNone)]
    conflictBad := fun s p => (invConflict s p.payload).isSome
    busyBad := fun s p => (invRange p.payload).any fun n => s.armedOf n || s.hitchBusy n (memImg s n)
    rejectData := fun st s p => invData st s p.payload
    run := fun p s =>
      { st := (invRange p.payload).foldl (fun s n => loadFromMemory n (bit (u8 p.payload 4) 0) s) s
        keep := (slowest s (invRange p.payload)).map fun n d s => s.modChan n fun c => { c with replies := c.replies ++ [d] } } }

/-! ### SHEAF_COMMIT (R149) -/

/-- The stored image of the running configuration: 256 entries of 896 bytes with BANK_SEL, then the 64 templates. -/
def sheafImage (s : State) : List Byte :=
  ((List.range 256).flatMap fun n => entryImg s.eng.run n) ++ Mem.readN s.eng.templates 0 (64 * 0x200)

/-- The image as it is kept: entries at n × 0x400, templates from 0x4_0000. -/
def sheafStored (s : State) : Mem :=
  (s.eng.run.filter fun c => c.1 % 0x400 < 0x380) ++ s.eng.templates.map fun c => (c.1 + 0x40000, c.2)

def specSheafCommit : CmdSpec :=
  { opcode := 0x020D, lenOk := len 0, image := some 1
    busyBad := fun s _ => s.eng.sheafCommit
    run := fun _ s =>
      { st := s.modEng fun e => { e with sheafCommit := true, commitImg := sheafStored s }
        data := le 4 (crc32c (sheafImage s)) } }

def execSheafEntryWrite (p : Packet) (s : State) : Res := runCommand specSheafEntryWrite p s
def execSheafEntryRead (p : Packet) (s : State) : Res := runCommand specSheafEntryRead p s
def execSheafEnable (p : Packet) (s : State) : Res := runCommand specSheafEnable p s
def execSheafCoefStage (p : Packet) (s : State) : Res := runCommand specSheafCoefStage p s
def execSheafCoefLive (p : Packet) (s : State) : Res := runCommand specSheafCoefLive p s
def execSheafHitchArm (p : Packet) (s : State) : Res := runCommand specSheafHitchArm p s
def execSheafHitchCancel (p : Packet) (s : State) : Res := runCommand specSheafHitchCancel p s
def execSheafLimitsSet (p : Packet) (s : State) : Res := runCommand specSheafLimitsSet p s
def execSheafMapSet (p : Packet) (s : State) : Res := runCommand specSheafMapSet p s
def execSheafStateSet (p : Packet) (s : State) : Res := runCommand specSheafStateSet p s
def execSheafStats (p : Packet) (s : State) : Res := runCommand specSheafStats p s
def execSheafTemplateWrite (p : Packet) (s : State) : Res := runCommand specSheafTemplateWrite p s
def execSheafInvalidate (p : Packet) (s : State) : Res := runCommand specSheafInvalidate p s
def execSheafCommit (p : Packet) (s : State) : Res := runCommand specSheafCommit p s

end Sys2Proof.Machine
end

