-- ==== Sys2Proof/Machine/Profile.lean ====
section
/-! DEFINITION. Profile generators and the profile command group (spec/06_control_engine.md R174 to R179, R183 to R185, R595). -/

namespace Sys2Proof.Machine

/-- Two and four as binary32. -/
def f2 : F32 := 0x40000000
def f4 : F32 := 0x40800000

/-- A period in ns as binary32 seconds. -/
def secondsF (ns : Nat) : F32 := ratF false ns 1000000000

/-- vstop of R175. -/
def vstop (aMax jMax x : F32) : F32 :=
  if fle x (fdiv (fmul (fmul aMax aMax) aMax) (fmul jMax jMax)) then fcbrt (fmul jMax (fmul x x))
  else
    fadd (fdiv (fneg (fmul aMax aMax)) (fmul f2 jMax))
      (fsqrt (fadd (fdiv (fmul (fmul (fmul aMax aMax) aMax) aMax) (fmul f4 (fmul jMax jMax))) (fmul (fmul f2 aMax) x)))

/-- The step of R175 toward a desired velocity: from (p, v, a) to the next. -/
def Gen.step (g : Gen) (vdes T : F32) : F32 × F32 × F32 :=
  let va0 := fadd g.v (fdiv (fmul g.a (fabs g.a)) (fmul f2 g.jMax))
  let dv := fsub vdes va0
  let ades := fmul (fsign dv) (fmin g.aMax (fsqrt (fmul (fmul f2 g.jMax) (fabs dv))))
  let j := fclamp (fdiv (fsub ades g.a) T) (fneg g.jMax) g.jMax
  let a := fclamp (fadd g.a (fmul j T)) (fneg g.aMax) g.aMax
  let v := fadd g.v (fmul a T)
  (fadd g.p (fmul v T), v, a)

/-- The goal: the hold point while held, else the target (R175). -/
def Gen.goal (g : Gen) : F32 := if g.held then g.holdPoint else q15F g.target.toInt

/-- One update (R175). -/
def Gen.update (g : Gen) (T : F32) : Gen :=
  let d := fsub g.goal g.p
  if fle (fabs d) 0x38000000 && fle (fabs g.v) (fmul (fmul g.jMax T) T) && fle (fabs g.a) (fmul g.jMax T) then
    { g with p := g.goal, v := 0, a := 0 }
  else
    let (p, v, a) := g.step (fmul (fsign d) (fmin g.vMax (vstop g.aMax g.jMax (fabs d)))) T
    { g with p := p, v := v, a := a }

/-- The position at which a generator comes to rest (R178): the update run forward with vdes 0 to the first step that gives v = 0 or a
change in its sign. A run that never gives one has no such position: a free value (notes/assumptions/18.md). -/
def Gen.holdAt : Nat → Gen → F32 → F32
  | 0, g, _ => Config.freeFloat "hold point of a generator that does not stop" [g.p, g.v, g.a]
  | fuel + 1, g, T =>
    let (p, v, a) := g.step 0 T
    if feq v 0 || (flt v 0 && flt 0 g.v) || (flt 0 v && flt g.v 0) then p
    else Gen.holdAt fuel { g with p := p, v := v, a := a } T

/-- More updates than there are states (p, v, a) of a generator: a forward run that has not ended by then repeats a state and never ends. -/
def genFuel : Nat := 2 ^ 96

/-- The hold taken or released (R178): the hold point is fixed once; releasing resumes toward the newest target. -/
def Gen.hold (on : Bool) (T : F32) (g : Gen) : Gen :=
  if on then (if g.held then g else { g with held := true, holdPoint := if T = 0 then g.p else g.holdAt genFuel T })
  else
    match g.pendTarget with
    | some x => { g with held := false, pendTarget := none, target := x, arrived := g.arrived && g.target == x }
    | none => { g with held := false }

/-- A target written (R174, R176, R178). -/
def Gen.setTarget (x : BitVec 16) (g : Gen) : Gen :=
  if g.held then { g with pendTarget := some x } else { g with target := x, arrived := g.arrived && g.target == x }

/-- The events of an update from g to g' (R176): whether the target was passed (from one side of it, or from it while moving, to the other), whether the arrival is new; and the generator with its
arrival noted. -/
def Gen.notice (g g' : Gen) : Bool × Bool × Gen :=
  let d := fsub g.goal g.p
  let d' := fsub g'.goal g'.p
  let passed := ((flt 0 d && flt d' 0) || (flt d 0 && flt 0 d') || (feq d 0 && !feq g.v 0 && !feq d' 0)) && !feq g'.v 0
  let inside := fle (fabs d') (intF (g'.band : Nat) 32768)
  let here := inside && feq g'.v 0
  (passed, here && !g.arrived, { g' with arrived := if inside then g.arrived || here else false })

/-- The position and velocity that the safe-stop ramp gives a power set-point at t (R102, R179). -/
def Gen.onRamp (g : Gen) (t start stop : Nat) : Gen :=
  { g with p := fmul g.rampP (ratF false (stop - t) (stop - start)), v := fneg (fdiv g.rampP (secondsF (stop - start))), a := 0 }

/-- Generator k is that of a battery port in Override: its position is the charge limit and no profile moves it (spec/10_pv_battery_ports.md R306). -/
def State.genOverridden (s : State) (k : Nat) : Bool :=
  s.ports.bat.any fun b => b.state == 4 && match b.cfg with | some c => c.gen == k | none => false

/-- The position, velocity and acceleration as they stand are committed (R169). -/
def Gen.commit (g : Gen) : Gen := { g with pWas := g.p, vWas := g.v, aWas := g.a, sWas := g.vScale }

/-- Generator k updated on its boundary at t (R174, R176, R179). A disabled generator keeps its outputs (R184), an overridden one its position. -/
def updateGen (t k : Nat) (s : State) : State :=
  let g := s.gen k
  if !g.enable || s.genOverridden k then s
  else
    let next := if s.modes.ramping && g.powerSp then
        (if t < s.modes.rampEnd then g.onRamp t s.modes.rampFrom s.modes.rampEnd else { g with p := 0, v := 0, a := 0 })
      else g.update (secondsF (s.period g.group))
    let (passed, arrived, g') := g.notice { next with vScale := g.vMax }
    let s := s.modGen k fun _ => g'
    let s := if passed then s.post t (ev 0x0331 k (le 2 g'.target.toNat ++ leI 2 (fQ15Up g'.p))) else s
    if arrived && g'.arrEvt then s.post t (ev 0x0330 k (leI 2 (fQ15Up g'.p))) else s

/-- A power set-point initialised on the entry into a mode (R112, R179): p at the value of INIT_SRC, 0 when that is not valid.
A disabled generator keeps its outputs (R184). -/
def initGen (t k : Nat) (s : State) : State :=
  let g := s.gen k
  if g.powerSp && g.enable then
    let (v, bad, _) := s.slotValue t g.initSrc.toNat
    s.modGen k fun g => { g with p := if bad.isSome then 0 else q15F v, v := 0, a := 0 }
  else s

/-! ### Commands -/

/-- A binary32 field that is above 0 and at most a bound (R184). -/
def inF (pl : List Byte) (o : Nat) (max : F32) : Check :=
  let x : F32 := BitVec.ofNat 32 (u32 pl o)
  (o, flt 0 x && fle x max)

/-- INIT_SRC (R184): an input slot of kind 0, 1, 2, 4, 5 or 6; kind 0 with every field 0. -/
def initSrcChecks (pl : List Byte) (o : Nat) : List Check :=
  let w := u32 pl o
  let k := slotKind w
  if k = 0 then (resv pl o 3) ++ [(o + 3, bits w 27 24 == 0)]
  else inSlotChecks pl o ++ [(o + 3, k != 3 && k != 7)]

def specProfileConfig : CmdSpec :=
  { opcode := 0x0300, lenOk := len 24, image := some 0, key := 1
    stateBad := fun s p => u8 p.payload 1 < 8 && !s.inUse (u8 p.payload 1)
    checks := fun _ p => [inB p.payload 0 0 31, inB p.payload 1 0 7, maskB p.payload 2 7] ++ resv p.payload 3 1 ++
      [inF p.payload 4 0x49742400, inF p.payload 8 0x4E6E6B28, inF p.payload 12 0x5368D4A5] ++ initSrcChecks p.payload 16 ++
      [inH p.payload 20 1 32767] ++ resv p.payload 22 2
    run := fun p s =>
      let b := p.payload
      { st := s.modGen (u8 b 0) fun g =>
          { g with
            group := u8 b 1, enable := bit (u8 b 2) 0, arrEvt := bit (u8 b 2) 1, powerSp := bit (u8 b 2) 2
            vMax := BitVec.ofNat 32 (u32 b 4), aMax := BitVec.ofNat 32 (u32 b 8), jMax := BitVec.ofNat 32 (u32 b 12)
            initSrc := BitVec.ofNat 32 (u32 b 16), band := u16 b 20 } } }

def specProfileTarget : CmdSpec :=
  { opcode := 0x0301, lenOk := len 4, defer := true
    stateBad := fun s p => u8 p.payload 0 < 32 && !(s.gen (u8 p.payload 0)).enable
    checks := fun _ p => inB p.payload 0 0 31 :: resv p.payload 1 1
    conflictBad := fun s p => s.owned 3 (u8 p.payload 0) || s.managed 3 (u8 p.payload 0)
    run := fun p s => { st := s.modGen (u8 p.payload 0) (Gen.setTarget (BitVec.ofNat 16 (u16 p.payload 2))) } }

def specProfileHold : CmdSpec :=
  { opcode := 0x0302, lenOk := len 2, defer := true
    stateBad := fun s p => u8 p.payload 0 < 32 && !(s.gen (u8 p.payload 0)).enable
    checks := fun _ p => [inB p.payload 0 0 31, maskB p.payload 1 1]
    run := fun p s =>
      let T := secondsF (s.period (s.gen (u8 p.payload 0)).group)
      { st := s.modGen (u8 p.payload 0) (Gen.hold (bit (u8 p.payload 1) 0) T) } }

/-- Updates until the present plan arrives; none when it never does. -/
def Gen.arrivalSteps : Nat → Gen → F32 → Option Nat
  | 0, _, _ => none
  | fuel + 1, g, T => if feq g.p g.goal && feq g.v 0 then some 0 else (Gen.arrivalSteps fuel (g.update T) T).map (· + 1)

/-- Time to arrival in µs on the present plan (R183): whole updates, in µs rounded downward; a plan that never arrives gives a
free value (notes/assumptions/18.md). -/
def Gen.arrivalUs (g : Gen) (ns : Nat) : Nat :=
  match g.arrivalSteps (if ns = 0 then 0 else genFuel) (secondsF ns) with
  | some n => min (n * ns / 1000) 0xFFFFFFFF
  | none => Config.freeNat "profile arrival" g.p.toNat % 2 ^ 32

/-- PROFILE_READ (R183). DESIGN CHOICE (notes/assumptions/18.md): a generator is moving while its velocity or its acceleration is not 0. -/
def specProfileRead : CmdSpec :=
  { opcode := 0x0303, lenOk := len 2
    checks := fun _ p => inB p.payload 0 0 31 :: resv p.payload 1 1
    run := fun p s =>
      let k := u8 p.payload 0
      let g := s.gen k
      let moving := !(feq g.v 0 && feq g.a 0)
      let flags := flagAt g.enable 0 + flagAt moving 1 + flagAt g.held 2 + flagAt (s.owned 3 k) 3 + flagAt g.arrived 4
      { st := s
        data := leI 2 (fQ15Up g.p) ++ leI 2 (fQ15Up (fdiv g.v g.vMax)) ++ leI 2 (fQ15Up (fdiv g.a g.aMax)) ++ le 2 g.target.toNat ++
          le 1 flags ++ zeros 3 ++ le 4 (g.arrivalUs (s.period g.group)) } }

def execProfileConfig (p : Packet) (s : State) : Res := runCommand specProfileConfig p s
def execProfileTarget (p : Packet) (s : State) : Res := runCommand specProfileTarget p s
def execProfileHold (p : Packet) (s : State) : Res := runCommand specProfileHold p s
def execProfileRead (p : Packet) (s : State) : Res := runCommand specProfileRead p s

end Sys2Proof.Machine
end

