-- ==== Sys2Proof/Machine/Engine.lean ====
section
/-! DEFINITION. The control engine (spec/06_control_engine.md R153 to R173, R180 to R182): its commands, passes and votes, overruns, dissents and
the splice of a core. -/

namespace Sys2Proof.Machine

/-! ### Health counters (spec/19_memory_lifecycle_spares.md R537): one index for each counter of each element -/

/-- Safe stops by cause; resets by cause have the cause as index. -/
def hcSafeStop (cause : Nat) : Nat := 0x10 + cause
/-- Counter k of a core: dissents by kind 0..3, 8 splices, 9 powered hours. -/
def hcCore (c k : Nat) : Nat := 0x100 + 16 * c + k
/-- Counter k of a converter: suspects by check 1..4, 5 faulty verdicts, 6 and 7 last shadow offset and gain, 8 powered hours. -/
def hcConv (c k : Nat) : Nat := 0x200 + 16 * c + k
/-- Counter k of a SAR unit: 0 test failures, 1 powered hours. -/
def hcSar (u k : Nat) : Nat := 0x400 + 4 * u + k
/-- Counter k of a comparator cell: 0 test failures, 1 suspects, 2 powered hours. -/
def hcCell (c k : Nat) : Nat := 0x500 + 4 * c + k
/-- Counter k of a loop: 0 losses, 1 switchovers. -/
def hcLoop (l k : Nat) : Nat := 0x680 + 4 * l + k
/-- Counter k of an SRAM bank: 0 corrections, 1 double-bit errors, 2 rows spliced. -/
def hcBank (b k : Nat) : Nat := 0x800 + 4 * b + k
/-- MRAM: lines written in region r at r, corrections at 32, sectors spliced at 33. -/
def hcMram (k : Nat) : Nat := 0x900 + k
/-- Counter k of a safety output: 0 close operations, 1 overcurrents, 2 output faults. -/
def hcOut (o k : Nat) : Nat := 0x980 + 4 * o + k
/-- Powered hours of the device. -/
def hcHours : Nat := 0x60

/-! ### ENGINE_RATE_SET, ENGINE_STATUS (R180 to R182) -/

/-- The configuration of an ENGINE_RATE_SET payload (R181). -/
def rateOf (pl : List Byte) : RateCfg :=
  { tb := u8 pl 0, event := u8 pl 1, groups := (List.range 8).map fun g => u32 pl (4 + 4 * g) }

/-- An enabled channel stands in group g. -/
def State.groupHasEnabled (s : State) (g : Nat) : Bool := (List.range 256).any fun n => s.enabled n && chGroup s.eng.run n == g

/-- Mode is safe stop or maintenance. -/
def State.quiet (s : State) : Bool := s.modes.mode == 1 || s.modes.mode == 2

/-- E_STATE of ENGINE_RATE_SET (R180). -/
def rateState (s : State) (c : RateCfg) : Bool :=
  match s.rateCfg with
  | none => false
  | some old =>
    (List.range 8).any (fun g => old.mult g != c.mult g && s.groupHasEnabled g) ||
    (!s.quiet && (old.tb != c.tb || old.event != c.event))

/-- The range checks of a group word (R156, R181). -/
def groupChecks (s : State) (pl : List Byte) (g : Nat) : List Check :=
  let c := rateOf pl
  let m := c.mult g
  let lower := (List.range g).filter fun h => c.mult h != 0
  [(4 + 4 * g, (m == 0 || decide (m * s.tickNs c ≤ 400000)) && (lower.all fun h => m == 0 || m % c.mult h == 0) &&
      (g != 0 || m != 0 || (List.range 8).all fun h => c.mult h == 0)),
   (6 + 4 * g, bits (u32 pl (4 + 4 * g)) 19 16 ≤ 2 && !bit (u32 pl (4 + 4 * g)) 23), (7 + 4 * g, u8 pl (7 + 4 * g) == 0)]

/-- Whether the load fits under a new rate configuration (R161). -/
def rateLoadOk (s : State) (c : RateCfg) : Bool :=
  let f := s.loadFrac c fun n => s.loadImg n
  f.1 ≤ 510000000 * f.2

/-- The payload offset of the field that raises the load: the first group with a smaller multiple that holds a channel the load counts; else
the timebase, or the event when the timebase is unchanged (R161). -/
def rateLoadAt (s : State) (c : RateCfg) : Nat :=
  match s.rateCfg with
  | none => 0
  | some old =>
    match (List.range 8).find? fun g => c.mult g < old.mult g && (List.range 256).any fun n => let e := s.loadImg n; imgEnable e && imgGroup e == g with
    | some g => 4 + 4 * g
    | none => if old.tb = c.tb then 1 else 0

def specEngineRateSet : CmdSpec :=
  { opcode := 0x0210, lenOk := len 36, image := some 0
    stateBad := fun s p => rateState s (rateOf p.payload)
    checks := fun s p =>
      let c := rateOf p.payload
      let tb := (s.pwm.tbs.getD c.tb Tb.reset).cfg
      [(0, c.tb < 8 && tb.enable && decide (s.tickNs c ≤ 400000)), (1, c.event ≤ 2 && (c.event != 2 || tb.mode == 2) && decide (1000 ≤ s.tickNs c))] ++
      resv p.payload 2 2 ++ ((List.range 8).flatMap fun g => groupChecks s p.payload g) ++ [(rateLoadAt s c, rateLoadOk s c)]
    run := fun p s => { st := s.modEng fun e => { e with ratePend := some (rateOf p.payload) } } }

/-- The number of cores in a state of R154. -/
def State.coresIn (s : State) (st : Nat) : Nat := (s.eng.cores.filter fun c => c == st).length

/-- The 80 bytes of ENGINE_STATUS (R182). The load is given in whole CPW per second, rounded downward (notes/assumptions/19.md). -/
def engineStatus (s : State) : List Byte :=
  let f := match s.rateCfg with | some c => s.loadFrac c fun n => s.loadImg n | none => (0, 1)
  let eng := if s.coresIn 1 = 3 then 0 else if s.eng.splice.isSome then 1 else 2
  le 4 (f.1 / max 1 f.2) ++ le 4 510000000 ++ ((List.range 4).flatMap fun c => le 1 (s.eng.cores.getD c 0)) ++
  le 1 eng ++ le 1 (s.coresIn 0) ++ zeros 2 ++
  (List.range 8).flatMap fun g =>
    let r := s.eng.groups.getD g RateGrp.reset
    le 4 (s.period g) ++ le 2 r.overruns ++ le 1 r.consec ++ zeros 1

def specEngineStatus : CmdSpec :=
  { opcode := 0x0211, lenOk := len 0, run := fun _ s => { st := s, data := engineStatus s } }

def execEngineRateSet (p : Packet) (s : State) : Res := runCommand specEngineRateSet p s
def execEngineStatus (p : Packet) (s : State) : Res := runCommand specEngineStatus p s

/-! ### Passes (R157 to R159) -/

/-- The program that channel n runs. -/
def State.progOf (s : State) (n : Nat) : List Nat := s.imgProg (entryImg s.eng.act n)

/-- Δθ of a group: the fundamental advance per sample as a Q15 fraction of a turn (R132, spec/07_grid_current.md R199), at the tracker's latched
frequency. Which Q15 value stands for an advance between two is not stated: a free choice of the two (notes/assumptions/14.md). -/
def dTheta (s : State) (g : Nat) : Int :=
  let num : Int := (s.grid.trk.f * (s.mult g * s.tickNs s.eng.rate) * 65536 : Nat)
  let den : Int := 10000000000000
  num / den + (if num % den = 0 then 0 else if Config.roundUp num 13 then 1 else 0)

/-- A pass issued for channel n at its boundary t: the sources of kinds 2, 3, 4, 6 and 7, the links of the grid manager and Δθ are taken as of t (R158,
spec/07_grid_current.md R203). -/
def issuePass (t n : Nat) (s : State) : PassRec :=
  { ch := n, group := chGroup s.eng.act n, atT := t, timeouts := [], links := none, bound := s.eng.links, dth := dTheta s (chGroup s.eng.act n)
    ins := (List.range 16).map fun i => s.slotValue t (inSlot s.eng.act n i) }

/-- The next pass in order begins (R125, R127): every register of its bank is 0, and it sees the link registers as they stand. -/
def Engine.begin (e : Engine) : Engine :=
  match e.due with
  | x :: l =>
    if x.links.isSome then e
    else { e with due := { x with links := some e.links } :: l, groups := upd e.groups x.group fun g => { g with v := zeroBank 16, acc := zeroBank 4 } }
  | [] => e

/-- The grid manager writes link register i (spec/07_grid_current.md R202). -/
def State.managerLink (s : State) (i : Nat) : Bool := match s.grid.cfg with | some c => decide (c.linkBase ≤ i) && decide (i < c.linkBase + 8) | none => false

/-- What a pass reads from input slot i: a pipeline sample as it has arrived, a link register as the pass began, one of the grid manager and any other
source as taken at the boundary (R127, R158, spec/07_grid_current.md R203). -/
def readSlot (s : State) (r : PassRec) (i : Nat) : Int × Option Nat × Nat × Bool :=
  let w := inSlot s.eng.act r.ch i
  if slotKind w = 1 ∧ !r.timeouts.contains i then s.slotValue r.atT w
  else if slotKind w = 5 then
    let v := ((if s.managerLink (slotIndex w) then r.bound else r.links.getD s.eng.links).getD (slotIndex w) 0).toInt
    if slotInvert w then (q15Neg v, none, 0, v == -32768) else (v, none, 0, false)
  else r.ins.getD i (0, none, 0, false)

/-- The state words that the first pass of channel n loads with the samples it reads (spec/05_sheaf_table.md R121). -/
def resolveInit (r : PassRec) (s : State) : State :=
  (s.chan r.ch).initSel.foldl (fun s x =>
    let (v, _, _, sat) := readSlot s r (bits x.2 11 8)
    let w := if bit x.2 12 then q15Neg v else v
    s.modChan r.ch fun c => { c with words := c.words.set x.1 (w * 65536), sat := c.sat || sat || (bit x.2 12 && v == -32768) })
    s |>.modChan r.ch fun c => { c with initSel := [] }

/-- The pass at hand run to its end (R125 to R133). -/
def State.passResult (s : State) (r : PassRec) : Pass :=
  let m := s.eng.act
  runPass
    { coef := fun i => coef m r.ch (chBank m r.ch) i
      lo := fun k => limLo m r.ch k
      hi := fun k => limHi m r.ch k
      read := readSlot s r
      words := (s.chan r.ch).words
      mode := s.modes.mode
      dth := r.dth } (s.progOf r.ch)

/-- A channel event within its rate limit, or counted as suppressed (R152). -/
def channelEvent (t n : Nat) (lanes : List Int) (s : State) : State :=
  match (s.chan n).evtAt with
  | some w =>
    if t < w + 100000 then s.modChan n fun c => { c with evtSupp := satInc 65535 c.evtSupp }
    else (s.modChan n fun c => { c with evtAt := some t }).post t (ev 0x0230 n (lanes.flatMap fun v => leI 2 v))
  | none => (s.modChan n fun c => { c with evtAt := some t }).post t (ev 0x0230 n (lanes.flatMap fun v => leI 2 v))

/-- The result of a pass as the voter compares it (R167): every store with its destination and value, every event, the flags raised and the state words at
its end. An invalid pass stores nothing, posts nothing and leaves its state words (spec/05_sheaf_table.md R133). -/
structure PassResult where
  stores : List (Nat × Nat × Int)
  evts : List (List Int)
  flags : Nat
  words : List Int
deriving DecidableEq, Repr

/-- The result that the inputs of a pass give. -/
def State.resultOf (s : State) (r : PassRec) : PassResult :=
  let p := s.passResult r
  let w := (s.chan r.ch).words
  match p.inv with
  | some _ => { stores := [], evts := [], flags := 4, words := w }
  | none =>
    { stores := p.stores.map fun x => let o := outSlot s.eng.act r.ch x.1; (slotKind o, slotIndex o, x.2)
      evts := p.evts, flags := flagAt p.sat 0 + flagAt p.lim 1, words := p.sets.foldl (fun w x => w.set x.1 x.2) w }

/-- What a core claims as the result of a pass. -/
def claimResult (c : CoreClaim) : PassResult := { stores := c.stores, evts := c.evts, flags := c.flags % 16, words := c.words }

/-- CRC-32C of the state words (R167). -/
def wordsCrc (w : List Int) : Nat := crc32c ((List.range 12).flatMap fun j => leI 8 (w.getD j 0))

/-- Two results agree bit for bit, the state words by their CRC-32C (R167). -/
def PassResult.same (a b : PassResult) : Bool := a.stores == b.stores && a.evts == b.evts && a.flags == b.flags && wordsCrc a.words == wordsCrc b.words

/-- The bank of a pass's rate group as the pass leaves it (R125). -/
def leaveBank (r : PassRec) (s : State) : State :=
  let p := s.passResult r
  let reg (l : List LaneReg) : List (List (Int × Bool)) := l.map fun q => q.map fun y => (y.v, y.bad.isNone)
  s.modEng fun e => { e with groups := upd e.groups r.group fun g => { g with v := reg p.v, acc := reg p.acc } }

/-- The agreed result of a pass committed (R133, R159, R168): its stores, state words, flags and events together; an invalid one only counts. It took no fewer
clocks than its CPW and 28 more (spec/05_sheaf_table.md R126). LAST_TIME of a pass that reads no sample stays (DESIGN CHOICE, notes/assumptions/17.md). -/
def commitPass (t : Nat) (r : PassRec) (x : PassResult) (clocks : Nat) (s : State) : State :=
  let clocks := max clocks ((s.progOf r.ch).length + 28)
  let p := s.passResult r
  let s := leaveBank r s
  let s := x.stores.foldl (fun s y => destWrite y.1 y.2.1 y.2.2 s) s
  let s := s.modChan r.ch fun c =>
    { c with
      words := x.words
      sat := c.sat || bit x.flags 0, lim := c.lim || bit x.flags 1, invalid := c.invalid || bit x.flags 2, overrun := c.overrun || bit x.flags 3
      satCount := if bit x.flags 0 then satInc 65535 c.satCount else c.satCount
      limCount := if bit x.flags 1 then satInc 65535 c.limCount else c.limCount
      invCount := if bit x.flags 2 then satInc 65535 c.invCount else c.invCount
      invSince := if bit x.flags 2 then some (c.invSince.getD (p.inv.getD r.atT)) else none
      invAt := r.atT
      passes := (c.passes + 1) % 2 ^ 32, lastTime := if p.newest = 0 then c.lastTime else p.newest, maxClocks := max c.maxClocks clocks }
  x.evts.foldl (fun s e => channelEvent t r.ch e s) s

/-- The pass taken off the queue; the one that begins next sees the link registers as they stand (R127). Once every pass of the boundary has committed, a run of
overruns ends (R165). -/
def retirePass (r : PassRec) (done : Bool) (s : State) : State :=
  s.modEng fun e =>
    let e := Engine.begin { e with due := e.due.drop 1 }
    let more := e.due.any fun x => x.group == r.group
    { e with
      groups := upd e.groups r.group fun g => { g with consec := if done && !more && !g.lost then 0 else g.consec, lost := g.lost || !done } }

/-- What follows a pass of channel n: a stop that waited for it (R150). -/
def afterPass (n : Nat) (s : State) : State :=
  if (s.chan n).pendStop && !s.eng.due.any fun d => d.ch == n then
    let s := stopChan n (s.modChan n fun c => { c with pendStop := false })
    if (s.chan n).pending && !s.enabled n then effectNow n s else s
  else s

/-! ### Dissents and the splice of a core (R168 to R172) -/

/-- The cores that vote. -/
def State.voters (s : State) : List Nat := (List.range 4).filter fun c => s.eng.cores.getD c 0 == 1

/-- Every enabled channel of a list of rate groups that runs. -/
def State.runningIn (s : State) (gs : List Nat) : List Nat :=
  chansWhere fun n => chEnable s.eng.act n && (s.chan n).running && gs.contains (chGroup s.eng.act n)

/-- The engine reported degraded, with the cores left (R171, R172, R185). -/
def engineDegraded (t core : Nat) (s : State) : State :=
  let v := s.voters
  (s.modEng fun e => { e with noSpare := true, degraded := true }).post t
    (ev 0x0243 core [BitVec.ofNat 8 (v.getD 0 0xFF), BitVec.ofNat 8 (v.getD 1 0xFF)])

/-- A core that dissented is retired at the vote (R170): excluded from every later vote, CORE_DISSENT posted; with a spare the splice begins,
without one the engine is degraded (R172). -/
def retireCore (t core ch kind : Nat) (s : State) : State :=
  let spare := (List.range 4).find? fun c => s.eng.cores.getD c 0 == 0
  let s := s.modEng fun e => { e with cores := e.cores.set core 3, forceDissent := e.forceDissent.filter fun c => c % 8 != core }
  let s := ((s.count (hcCore core kind)).commitHealth).post t
    (ev 0x0242 core (le 2 ch ++ [BitVec.ofNat 8 kind, if spare.isSome then 1 else 0]))
  match spare with
  | some c => s.modEng fun e => { e with splice := some { CoreSplice.reset with incoming := c, retired := core, since := t } }
  | none => engineDegraded t core s

/-- The splice given up (R171). -/
def abortSplice (t : Nat) (s : State) : State :=
  match s.eng.splice with
  | none => s
  | some sp =>
    engineDegraded t sp.incoming (domainOff t (2 + sp.incoming) 0
      (s.modEng fun e => { e with splice := none, cores := e.cores.set sp.incoming 3 }))

/-- The splice completes once every group is exported and every channel, generator and the tracker have joined (R171). -/
def finishSplice (t : Nat) (s : State) : State :=
  match s.eng.splice with
  | some sp =>
    if sp.moved && (sp.exports.all fun x => 2 ≤ x.2) && (sp.toJoin.filter fun n => (s.chan n).running) == [] && sp.units == [] then
      let s := ((s.modEng fun e => { e with splice := none, cores := e.cores.set sp.incoming 1 }).count (hcCore sp.incoming 8)).commitHealth.post t
        (ev 0x0244 sp.incoming ([BitVec.ofNat 8 sp.retired, 0] ++ le 2 (min 65535 ((t - sp.since) / 1000))))
      memSpliced t 1 sp.retired sp.incoming 0 (s.coresIn 0) s
    else s
  | none => s

/-- The splice changed. -/
def modSplice (f : CoreSplice → CoreSplice) (s : State) : State := s.modEng fun e => { e with splice := e.splice.map f }

/-- The rate group whose boundary exports unit u: a generator's own, the grid rate group for the tracker (R171). -/
def State.unitGroup (s : State) (u : Nat) : Nat := if u < 32 then (s.gen u).group else match s.grid.cfg with | some c => c.group | none => 0

/-- Group g's state has been exported to the incoming core (R171). -/
def CoreSplice.exported (sp : CoreSplice) (g : Nat) : Bool := sp.exports.any fun x => x.1 == g && decide (2 ≤ x.2)

/-- A pass of a channel that is still to join compared with the incoming core's result (R171): equal, the core votes on it from then on; a
first mismatch exports its state again; a second one ends the splice. -/
def joinPass (t : Nat) (r : PassRec) (equal : Bool) (s : State) : State :=
  match s.eng.splice with
  | some sp =>
    if sp.moved && sp.toJoin.contains r.ch && sp.exported r.group then
      if equal then modSplice (fun sp => { sp with toJoin := sp.toJoin.filter fun n => n != r.ch, joined := r.ch :: sp.joined }) s
      else if sp.mismatch.contains r.ch then abortSplice t s
      else modSplice (fun sp => { sp with mismatch := r.ch :: sp.mismatch }) s
    else s
  | none => s

/-- The incoming core's values of a generator or of the tracker differ from the committed ones (R171): the state is exported again once; a second mismatch ends
the splice. -/
def joinUnit (t u : Nat) (equal : Bool) (s : State) : State :=
  match s.eng.splice with
  | some sp =>
    if equal || !(sp.moved && sp.units.contains u && sp.exported (s.unitGroup u)) then s
    else if sp.unitMiss.any fun x => x.1 == u then abortSplice t s
    else modSplice (fun sp => { sp with unitMiss := (u, false) :: sp.unitMiss }) s
  | none => s

/-- A boundary of group g seen by the splice (R171): the first one after the transfer is b0; from the next one, b1, the group is exported and the incoming core
runs it; a generator or the tracker without a mismatch since its last export has joined by the boundary after. -/
def exportGroup (g : Nat) (s : State) : State :=
  modSplice (fun sp =>
    let mine (u : Nat) : Bool := s.unitGroup u == g && sp.exported g
    let fresh (u : Nat) : Bool := sp.unitMiss.any fun x => x.1 == u && !x.2
    { sp with
      exports := sp.exports.map fun x => if x.1 = g then (g, min 2 (x.2 + 1)) else x
      units := sp.units.filter fun u => !mine u || fresh u
      unitMiss := sp.unitMiss.map fun x => if mine x.1 then (x.1, true) else x }) s

/-- A pass without a majority (R169, R170): nothing is committed, and the channel takes its reaction; it is left out of a running splice. -/
def noMajority (t : Nat) (r : PassRec) (s : State) : State :=
  let s := chanFault t r.ch 2 (retirePass r false (leaveBank r s))
  modSplice (fun sp => { sp with toJoin := sp.toJoin.filter fun n => n != r.ch, joined := sp.joined.filter fun n => n != r.ch }) s

/-- The cores that vote on a subject: the voting cores, and an incoming core that has joined on it (R171). -/
def State.votersOn (s : State) (joined : CoreSplice → Bool) : List Nat :=
  s.voters ++ match s.eng.splice with | some sp => if sp.moved && joined sp then [sp.incoming] else [] | none => []

/-- Dissents that a firewall violation, a lost clock or MEM_SPLICE has ordered for the next vote, as core and kind (R168). -/
def State.forced (s : State) : List (Nat × Nat) :=
  s.eng.forceDissent.map fun c => (c % 8, if 16 ≤ c then 1 else if 8 ≤ c then 2 else 3)

/-- What a vote comes to (R168, R169): the agreed result, if at least two cores that neither are late nor dissent by order present it, and the dissents with their
kinds. With two of three cores dissenting by order there is no majority (DESIGN CHOICE, notes/assumptions/47.md). -/
def ballot {α : Type} (same : α → α → Bool) (voters : List Nat) (late : List Nat) (forced : List (Nat × Nat)) (of : Nat → α) :
    Option α × List (Nat × Nat) :=
  let free := voters.filter fun c => !late.contains c && !forced.any fun f => f.1 == c
  let agreed := (free.find? fun c => decide (2 ≤ (free.filter fun d => same (of c) (of d)).length)).map of
  let kind (c : Nat) : Option (Nat × Nat) :=
    match forced.find? fun f => f.1 == c with
    | some f => some f
    | none =>
      if late.contains c then some (c, 1)
      else match agreed with | some x => if same x (of c) then none else some (c, 0) | none => none
  (agreed, voters.filterMap kind)

/-- Channels that a dissent without a spare concerns take their reaction (R40, R172), with CHANNEL_FAULT (DESIGN CHOICE of its cause,
notes/assumptions/47.md). -/
def dissentReaction (t : Nat) (chans : List Nat) (cause : Nat) (spare : Bool) (s : State) : State :=
  if spare then s else chans.foldl (fun s n => chanFault t n cause s) s

/-- The channels that read a source of a kind, and of an index where that is given (R169). -/
def State.readers (s : State) (kind : Nat) (index : Option Nat) : List Nat :=
  chansWhere fun n => chEnable s.eng.act n && (List.range 16).any fun i =>
    let w := inSlot s.eng.act n i; slotKind w == kind && (index.isNone || index == some (slotIndex w))

/-- The dissent of a vote whose majority has been committed (R170 to R173): the dissenting core is retired; without a spare the channels concerned take their
reaction. A dissent of the incoming core ends the splice (DEDUCED, notes/assumptions/47.md). `ch` is the channel, 0xFFFF for a generator or the tracker. -/
def dissented (t ch : Nat) (chans : List Nat) (cause : Nat) (d : Nat × Nat) (s : State) : State :=
  if s.eng.cores.getD d.1 0 = 2 then abortSplice t s
  else dissentReaction t chans cause ((s.coresIn 0) != 0) (retireCore t d.1 (if d.2 = 3 then 0xFFFF else ch) d.2 s)

/-- A dissent of one of the two source cores while a splice runs has no majority that counts (R40, R173): it is handled as in duplex. -/
def State.duplexDissent (s : State) (ds : List (Nat × Nat)) : Bool := s.eng.splice.isSome && ds.any fun d => s.eng.cores.getD d.1 0 == 1

/-- Ordered dissents are used up by the vote that counts them (R168). -/
def usedForced (s : State) : State := s.modEng fun e => { e with forceDissent := [] }

/-- The vote on the pass that is next in order (R167 to R173): every core presents what its inputs give but for the claims; `late` are the cores whose
result has not arrived in time. -/
def votePass (t : Nat) (claims : List CoreClaim) (late : List Nat) (clocks : Nat) (s : State) : State :=
  match s.eng.due with
  | [] => s
  | r :: _ =>
    let s := resolveInit r s
    let own := s.resultOf r
    let of (c : Nat) : PassResult := match claims.find? fun x => x.core == c with | some x => claimResult x | none => own
    let (agreed, ds) := ballot PassResult.same (s.votersOn fun sp => sp.joined.contains r.ch) late s.forced of
    let dup := s.duplexDissent ds
    let incoming := s.eng.splice.map fun sp => sp.incoming
    let s := usedForced s
    match (if dup then none else agreed) with
    | none => finishSplice t (noMajority t r s)
    | some x =>
      let s := retirePass r true (commitPass t r x clocks s)
      let s := match ds with
        | d :: _ => dissented t r.ch [r.ch] 2 d (s.modChan r.ch fun c => { c with disCount := satInc 65535 c.disCount })
        | [] => match incoming with | some c => joinPass t r (x.same (of c)) s | none => s
      finishSplice t (afterPass r.ch s)

/-- The vote on a profile generator without a majority (R169): it is disabled at its last committed position, velocity and acceleration, and its readers take
their reaction. -/
def genNoMajority (t k : Nat) (s : State) : State :=
  (s.readers 3 (some k)).foldl (fun s n => chanFault t n 3 s)
    (s.modGen k fun g => { g with enable := false, p := g.pWas, v := g.vWas, a := g.aWas, vScale := g.sWas })

/-- The values that the voter compares of a unit: p, v and a of a generator, the outputs of the tracker (R167). -/
def State.unitVals (s : State) (u : Nat) : List Int :=
  if u < 32 then let g := s.gen u; [(g.p.toNat : Int), (g.v.toNat : Int), (g.a.toNat : Int)] else s.grid.trk.outputs.map fun x => x.toInt

/-- The agreed values of a unit committed. -/
def setUnit (u : Nat) (v : List Int) (s : State) : State :=
  if u < 32 then
    s.modGen u fun g => Gen.commit { g with p := BitVec.ofInt 32 (v.getD 0 0), v := BitVec.ofInt 32 (v.getD 1 0), a := BitVec.ofInt 32 (v.getD 2 0) }
  else { s with grid := { s.grid with trk := { s.grid.trk with outputs := (List.range 16).map fun i => BitVec.ofInt 16 (v.getD i 0) } } }

/-- The vote of a base tick on generator u < 32, or on the tracker with the virtual machine, u = 32 (R167 to R170). A tracker without a majority takes the device
to safe stop. -/
def voteUnit (t u : Nat) (claims : List CoreClaim) (late : List Nat) (s : State) : State :=
  let own := s.unitVals u
  let of (c : Nat) : List Int := match claims.find? fun x => x.core == c with | some x => x.vals | none => own
  let (agreed, ds) := ballot (· == ·) (s.votersOn fun sp => !sp.units.contains u) late s.forced of
  let dup := s.duplexDissent ds
  let incoming := s.eng.splice.map fun sp => sp.incoming
  let s := usedForced s
  match (if dup then none else agreed) with
  | none => if u < 32 then genNoMajority t u s else forceSafeStop t 0x02 s
  | some x =>
    let s := setUnit u x s
    match ds with
    | d :: _ => dissented t 0xFFFF (if u < 32 then s.readers 3 (some u) else s.readers 4 none) (if u < 32 then 3 else 2) d s
    | [] => match incoming with | some c => joinUnit t u (x == of c) s | none => s

/-- A vote (R167 to R170): subject 0 the pass next in order, 1 profile generator `unit`, 2 the tracker with the virtual machine; `late` are the cores whose
result has not arrived within 1 µs of the second. -/
def execPassVote (t subject unit : Nat) (claims : List CoreClaim) (late : List Nat) (clocks : Nat) (s : State) : Res :=
  let s := s.advance t
  if subject = 0 then .next (votePass t claims late clocks s)
  else if subject = 1 then within unit 32 (voteUnit t unit claims late s)
  else .next (voteUnit t 32 claims late s)

/-- A result that does not arrive within 1 µs of the second (R168, R169): a late dissent on the pass next in order where two others agree, no
majority where they differ, or where only two cores vote. -/
def execVoteLate (t core : Nat) (r : LateVote) (s : State) : Res :=
  let s := s.advance t
  within core 4 (if (s.votersOn fun sp => match s.eng.due with | r :: _ => sp.joined.contains r.ch | [] => false).contains core then votePass t r.claims [core] r.clocks s else s)

/-- The time from one result of an output to the next, ns (spec/12_sensing.md R342). -/
def State.resultEvery (s : State) (d : Decim) : Nat :=
  if d.typ = 0 then 10 else if d.typ = 3 then let l := s.leg d.leg; loadInterval (s.pwm.tbs.getD l.tb Tb.reset).inForce l.loads / 8 else 10 * d.d

/-- The sample that a pass of boundary b reads from an output has arrived (R158): the newest at or before b is the last before b, or a later one has
come. -/
def State.sampleCame (s : State) (d : Decim) (b : Nat) : Bool :=
  d.past.any fun r => decide (b < r.1 + s.resultEvery d)

/-- A sample awaited by a pass has not arrived 300 ns after its aperture and delay: its slots load the previous sample, marked invalid
(R158). -/
def execSampleTimeout (t ain out : Nat) (s : State) : Res :=
  let s := s.advance t
  let hit (r : PassRec) (i : Nat) : Bool :=
    let w := inSlot s.eng.act r.ch i
    slotKind w == 1 && slotIndex w == ain && slotSub w == out && !s.sampleCame ((s.ain ain).outs.getD out Decim.reset) r.atT
  let late (r : PassRec) : PassRec :=
    let idx := (List.range 16).filter fun i => hit r i && !r.timeouts.contains i
    { r with
      timeouts := r.timeouts ++ idx
      ins := (List.range 16).map fun i =>
        let v := r.ins.getD i (0, none, 0, false)
        if idx.contains i then
          let x := s.slotValue r.atT (inSlot s.eng.act r.ch i)
          (x.1, some (x.2.1.getD x.2.2.1), x.2.2.1, x.2.2.2)
        else v }
  within ain 24 (s.modEng fun e => { e with due := e.due.map late })

/-- The newest pass of channel n, an invalid one, falls 100 µs or more after the aperture that made the first of its run invalid: the channel takes its
reaction, cause 1 (R133). -/
def faultDue (t n : Nat) (s : State) : State :=
  let c := s.chan n
  match c.invSince with
  | some a => if c.running ∧ a + 100000 ≤ c.invAt then (chanFault t n 1 s).modChan n fun c => { c with invSince := none } else s
  | none => s

/-- Passes invalid without a break for 100 µs (R133): the boundary of the channel runs the same in its place. -/
def execChannelFault (t ch : Nat) (s : State) : Res := within ch 256 (faultDue t ch (s.advance t))

/-! ### Overruns (R164 to R166) -/

/-- The reaction of a rate group (R166). DESIGN CHOICE (notes/assumptions/19.md): reactions 1 and 2, which are no channel reactions of R134, leave
FAULTED as it is. -/
def groupReaction (t g : Nat) (s : State) : State :=
  let r := s.eng.groups.getD g RateGrp.reset
  let chans := chansWhere fun n => chEnable s.eng.act n && chGroup s.eng.act n == g
  let s := s.modEng fun e => { e with groups := upd e.groups g fun x => { x with stopped := true } }
  let s :=
    if r.reaction = 0 then chans.foldl (fun s n => chanReaction t n s) s
    else chans.foldl (fun s n => (stopChan n s).modChan n fun c => { c with stopped := true, pendStart := false }) s
  let s := if r.reaction = 1 then tripGroup t r.pgroup (0x400 + g) 7 0 s else if r.reaction = 2 then forceSafeStop t 0x02 s else s
  s.post t (ev 0x0241 g [BitVec.ofNat 8 r.reaction])

/-- Passes of group g abandoned at its boundary t (R164, R165); on the third overrun in a row the group takes its reaction. -/
def overrun (t g : Nat) (gone : List PassRec) (s : State) : State :=
  if gone = [] then s
  else
    let s := gone.foldl (fun s r => (resolveInit r s).modChan r.ch fun c => { c with overrun := true }) s
    let s := s.modEng fun e =>
      { e with
        due := e.due.filter fun r => !gone.contains r
        groups := upd e.groups g fun x => { x with overruns := satInc 65535 x.overruns, consec := min 255 (x.consec + 1), lost := true } }
    let s := gone.foldl (fun s r => afterPass r.ch s) s
    let n := (s.eng.groups.getD g RateGrp.reset).consec
    let low := gone.foldl (fun a r => min a r.ch) 255
    let s := s.post t (ev 0x0240 g ([BitVec.ofNat 8 n, 0] ++ le 2 low))
    if n = 3 then groupReaction t g s else s

/-- What a boundary of group g finds of the boundary before (R164, R165): passes not committed are abandoned; where every pass committed, and none was due, the
count of overruns is 0. -/
def boundaryOverrun (t g : Nat) (s : State) : State :=
  let gone := s.eng.due.filter fun r => r.group == g && decide (r.atT < t)
  let s := overrun t g gone s
  s.modEng fun e => { e with groups := upd e.groups g fun x => { x with consec := if gone == [] && !x.lost then 0 else x.consec, lost := false } }

/-- The group's next boundary has come with passes not committed (R164): those of boundaries at least one period old. -/
def execRateOverrun (t g : Nat) (s : State) : Res :=
  let s := s.advance t
  within g 8 (overrun t g (s.eng.due.filter fun r => r.group == g && s.period g != 0 && decide (r.atT + s.period g ≤ t)) s)

/-! ### Domains and the transfer (R170, R171) -/

/-- 10 µs after a dissent the retired core's domain opens, and the spare's is ordered on (R170). -/
def execCoreDomainOff (t core : Nat) (s : State) : Res :=
  let s := s.advance t
  within core 4 (if s.eng.cores.getD core 0 = 3 then
      let s := domainOff t (2 + core) 0 s
      match s.eng.splice with
      | some sp => if sp.retired = core ∧ !sp.moved then setDomain (2 + sp.incoming) 1 s else s
      | none => s
    else s)

/-- The units that join the splice: those whose rate group is in use (R171). -/
def State.unitsIn (s : State) (gs : List Nat) : List Nat := (List.range 33).filter fun u => gs.contains (s.unitGroup u)

/-- The static transfer ends (R171). `differed` are the items whose two copies differed, with the number of sends on which they did: an item that differs
twice ends the splice; else every item has come alike from both cores and the incoming core is Joining. -/
def execCoreSpliceTransfer (t : Nat) (differed : List (Nat × Nat)) (s : State) : Res :=
  let s := s.advance t
  .next (match s.eng.splice with
    | some sp =>
      if sp.moved then s
      else if differed.any fun x => decide (2 ≤ x.2) then abortSplice t s
      else
        let gs := (List.range 8).filter fun g => s.groupUsed g
        let s := setDomain (2 + sp.incoming) 2 s
        finishSplice t (s.modEng fun e =>
          { e with cores := e.cores.set sp.incoming 2
                   splice := some { sp with moved := true, exports := gs.map fun g => (g, 0), toJoin := s.runningIn gs, units := s.unitsIn gs } })
    | none => s)

/-! ### What a core holds (R153, R154) -/

/-- The local memory of a core (R153). -/
structure CoreMem where
  /-- The running copies of the 256 entries, and as the passes execute them. -/
  run : Mem
  act : Mem
  templates : Mem
  links : List (BitVec 16)
  gens : List Gen
  trk : Tracker
  /-- State words of the channels whose state the core has. -/
  words : List (Nat × List Int)
  /-- The eight register banks, one for each rate group: V0..V15 and A0..A3 (spec/05_sheaf_table.md R125). -/
  banks : List (List (List (Int × Bool)) × List (List (Int × Bool)))
deriving DecidableEq, Repr

/-- What core c holds in its local memory (R153, R154, R171): the voting cores hold the same state bit for bit up to the vote that retires the one that differs; a
joining core what it has been sent; a spare and a retired core, whose domain is off, hold none (notes/assumptions/47.md). -/
def State.coreHolds (s : State) (c : Nat) : Option CoreMem :=
  let mem (has : Nat → Bool) : CoreMem :=
    { run := s.eng.run, act := s.eng.act, templates := s.eng.templates, links := s.eng.links, gens := s.gens, trk := s.grid.trk
      words := (chansWhere has).map fun n => (n, (s.chan n).words)
      banks := s.eng.groups.map fun g => (g.v, g.acc) }
  match s.eng.cores.getD c 0 with
  | 1 => some (mem fun _ => true)
  | 2 => s.eng.splice.map fun sp => mem fun n => sp.joined.contains n || (sp.toJoin.contains n && sp.exported (chGroup s.eng.act n))
  | _ => none

end Sys2Proof.Machine
end

