-- ==== Sys2Proof/Machine/Grid.lean ====
section
/-! DEFINITION. The grid group (spec/07_grid_current.md R186 to R222): the phase tracker's states, the grid manager, the virtual
synchronous machine and the grid command group. -/

namespace Sys2Proof.Machine

/-! ### The grid stage (R186 to R189, R216) -/

/-- Phases of a wiring kind (R187). -/
def phasesOf (wiring : Nat) : Nat := if wiring = 1 then 1 else if wiring = 2 then 2 else 3

/-- Legs per phase (R188). -/
def legsPerPhase (kind levels : Nat) : Nat := if kind = 1 then 1 else if kind = 4 then levels - 1 else 2

/-- Number of grid legs: those of the phases and of the neutral (R188). -/
def gridLegCount (wiring kind levels : Nat) (neutral : Bool) : Nat :=
  legsPerPhase kind levels * (phasesOf wiring + if neutral then 1 else 0)

/-- Whether a front input i = 0..3 (a, b, c, n) is used by a wiring kind (R187). -/
def frontUsed (wiring i : Nat) : Bool :=
  match wiring with
  | 1 => i == 0 || i == 3
  | 2 => i == 0 || i == 1 || i == 3
  | 3 => i ≤ 2
  | _ => true

/-- Range checks of four front inputs at payload offset o (R216). -/
def frontChecks (pl : List Byte) (o : Nat) : List Check :=
  (List.range 4).map fun i => (o + i, decide (if frontUsed (u8 pl 0) i then u8 pl (o + i) < 24 else u8 pl (o + i) = 0xFF))

/-- A binary32 field that is a finite number in lo..hi. -/
def inR (pl : List Byte) (o : Nat) (lo hi : F32) : Check :=
  let x : F32 := BitVec.ofNat 32 (u32 pl o)
  (o, fle lo x && fle x hi)

/-- The binary32 field at an offset. -/
def f32 (pl : List Byte) (o : Nat) : F32 := BitVec.ofNat 32 (u32 pl o)

/-- The configuration of a GRID_CONFIG payload (R216). -/
def gridCfgOf (pl : List Byte) : GridCfg :=
  let kind := u8 pl 1 % 16
  let levels := u8 pl 1 / 16
  let neutral := bit (u8 pl 2) 0
  { wiring := u8 pl 0, kind := kind, levels := levels, neutral := neutral, group := u8 pl 3
    legs := (List.range (gridLegCount (u8 pl 0) kind levels neutral)).map fun i => u8 pl (4 + i)
    frontG := (List.range 4).map fun i => u8 pl (20 + i), frontL := (List.range 4).map fun i => u8 pl (24 + i)
    decim := u8 pl 28, fNom60 := u8 pl 29 == 1, curChan := u16 pl 30
    vNom := f32 pl 32, sRated := f32 pl 36, iRated := f32 pl 40, frontFs := f32 pl 44, linkBase := u8 pl 48, measLink := u8 pl 49 }

/-- Range checks of GRID_CONFIG (R188, R216). -/
def gridCfgChecks (s : State) (pl : List Byte) : List Check :=
  let w := u8 pl 0
  let kind := u8 pl 1 % 16
  let levels := u8 pl 1 / 16
  let n := gridLegCount w kind levels (bit (u8 pl 2) 0)
  let noL := (List.range 4).all fun i => u8 pl (24 + i) == 0xFF
  [inB pl 0 1 4,
   (1, match kind with | 1 => levels == 2 | 2 => levels == 3 | 3 => levels == 3 | 4 => 3 ≤ levels && levels ≤ 5 | _ => false),
   (2, u8 pl 2 ≤ 1 && (u8 pl 2 == 0 || w == 1 || w == 4)), (3, u8 pl 3 < 8 && s.inUse (u8 pl 3))] ++
  ((List.range 16).map fun i => (4 + i, decide (if i < n then u8 pl (4 + i) < 48 else u8 pl (4 + i) = 0xFF))) ++
  frontChecks pl 20 ++ (if noL then [] else frontChecks pl 24) ++
  [inB pl 28 0 3, inB pl 29 0 1, (31, u8 pl 31 == 0), inR pl 32 0x42C80000 0x447A0000, inR pl 36 0x447A0000 0x48435000,
   inR pl 40 0x3F800000 0x43C80000, inR pl 44 0x42C80000 0x44FA0000, inB pl 48 0 56,
   (49, u8 pl 49 ≤ 62 && (u8 pl 49 < u8 pl 48 || u8 pl 48 + 7 < u8 pl 49))] ++ resv pl 50 2

/-- A leg is claimed by a port or is the chopper leg (R189, spec/10_pv_battery_ports.md R286). -/
def State.portLeg (s : State) (n : Nat) : Bool := (s.pvOfLeg n).isSome || (s.batOfLeg n).isSome || s.ports.chopper == n

/-- E_CONFLICT of GRID_CONFIG: a leg listed twice or claimed by the ports group, or a link register of the manager that already has an
owner (R189, R202). -/
def gridConflict (s : State) (c : GridCfg) : Bool :=
  decide (c.legs.dedup.length ≠ c.legs.length) || c.legs.any s.portLeg ||
  (List.range 8).any fun i => s.owned 4 (c.linkBase + i) ||
    (s.ports.hasShare && decide (s.ports.linkBase ≤ c.linkBase + i) && decide (c.linkBase + i < s.ports.linkBase + 10))

/-- The role of the i-th grid leg (spec/11_pwm.md R319): neutral legs are two-level. -/
def gridLegRole (c : GridCfg) (i : Nat) : Nat :=
  let lpp := legsPerPhase c.kind c.levels
  if phasesOf c.wiring * lpp ≤ i then 2
  else if c.kind = 1 then 2 else if c.kind = 4 then 5 else if i % lpp = 0 then 3 else 4

/-- A leg given to a group, with its role and, when the group sets it, its carrier phase (R319, R321). -/
def claimLeg (n role : Nat) (phase : Option (BitVec 16)) (s : State) : State :=
  s.modLeg n fun l =>
    let l := { l with role := role }
    match phase with | some p => l.write s.time none (some p) | none => l

/-- A leg given up by its group: auxiliary when it is configured, else unassigned (R319). -/
def dropLeg (n : Nat) (s : State) : State := s.modLeg n fun l => { l with role := if l.asked.hasCfg then 1 else 0 }

/-- The carrier phase of cell i of n cells: i × 360° / n, as a Q15 fraction of a turn (R130, R321). -/
def cellPhase (i n : Nat) : BitVec 16 := BitVec.ofNat 16 ((i * 65536 * 2 + n) / (2 * n))

/-- A grid configuration put in force: leg roles, carrier phases, and the legs held disabled until a switching mode is entered, a leg in a test
among them (R186). -/
def applyGridCfg (t : Nat) (c : GridCfg) (s : State) : State :=
  let old := match s.grid.cfg with | some o => o.legs | none => []
  let s := old.foldl (fun s n => dropLeg n s) s
  let lpp := legsPerPhase c.kind c.levels
  let s := (List.range c.legs.length).foldl (fun s i =>
    let role := gridLegRole c i
    claimLeg (c.legs.getD i 0) role (if role = 5 then some (cellPhase (i % lpp) lpp) else none) s) s
  let s := c.legs.foldl (fun s n => if (s.leg n).state = 4 then legTo t n 0 3 (s.modLeg n fun l => { l with testEnd := t }) else s) s
  legsUpdate t { s with grid := { s.grid with cfg := some c, legsHeld := true } }

def specGridConfig : CmdSpec :=
  { opcode := 0x0400, lenOk := len 52, image := some 0
    modeBad := fun s _ => !s.quiet
    stateBad := fun s p => ((gridCfgOf p.payload).legs ++ match s.grid.cfg with | some o => o.legs | none => []).any s.legReacting
    checks := fun s p => gridCfgChecks s p.payload
    conflictBad := fun s p => gridConflict s (gridCfgOf p.payload)
    run := fun p s => { st := applyGridCfg p.t (gridCfgOf p.payload) s } }

/-! ### The phase tracker (R190 to R200) -/

/-- f_nom in 0.1 mHz. -/
def GridCfg.fNom (c : GridCfg) : Nat := if c.fNom60 then 600000 else 500000

/-- f_nom in Hz as binary32. -/
def GridCfg.fNomF (c : GridCfg) : F32 := if c.fNom60 then 0x42700000 else 0x42480000

/-- Voltage is present at front G (R194). -/
def State.gridPresent (s : State) : Bool := (s.grid.tcfg.coastPu + 5) * 10000 ≤ s.grid.trk.vPlus

/-- The tracker changed. -/
def State.modTrk (f : Tracker → Tracker) (s : State) : State := { s with grid := { s.grid with trk := f s.grid.trk } }

/-- The frequency lies within 40.0..70.0 Hz (R194). -/
def fInRange (f : Nat) : Bool := 400000 ≤ f && f ≤ 700000

/-- The tracker enters a state, with its event (R194, R222). -/
def trackerTo (t st : Nat) (s : State) : State :=
  let old := s.grid.trk.state
  if old = st then s
  else (s.modTrk fun k => { k with state := st, lockCount := 0, badCount := 0, lockedAt := if st = 2 then t else k.lockedAt }).post t
    (ev 0x0430 0 ([BitVec.ofNat 8 old, BitVec.ofNat 8 st, 0, 0] ++ le 4 s.grid.trk.f))

/-- A full turn in the unit of the angles held here. -/
def turn : Nat := 2 ^ 32

/-- An angle in −1/2 (included) to 1/2 turn. -/
def wrapAngle (x : Int) : Int := (x + turn / 2) % turn - turn / 2

/-- The advance of a frequency in 0.1 mHz over dt ns, in 2⁻³² turn. -/
def advanceOf (f dt : Nat) : Nat := f * dt * turn / 10000000000000

/-- θ+ of front G while the tracker coasts, at t: at f_c from the last latch (R195). -/
def Tracker.coastTheta (k : Tracker) (t : Nat) : Nat := (k.theta + advanceOf k.fc (t - k.thetaAt)) % turn

/-- A measured angle noted, with those of the last 10 ms (R190). -/
def Tracker.noteAngle (k : Tracker) (t a : Nat) : Tracker :=
  { k with angles := (t, a % turn) :: k.angles.filter fun x => decide (t ≤ x.1 + 10000000) && decide (x.1 < t) }

/-- The measured angles with stamps in [t − w, t) (spec/00_scope.md R17), newest first. -/
def Tracker.anglesIn (k : Tracker) (t w : Nat) : List (Nat × Nat) := k.angles.filter fun x => decide (t ≤ x.1 + w) && decide (x.1 < t)

/-- The turn made between the oldest and the newest of a list of angles, newest first, in 2⁻³² turn. -/
def turned : List (Nat × Nat) → Int
  | x :: y :: r => wrapAngle ((x.2 : Int) - y.2) + turned (y :: r)
  | _ => 0

/-- The frequency of θ_m over [t − w, t), 0.1 mHz (R196, spec/08_ride_through.md R224): the turn from the first to the last angle in the window over
their time. With fewer than two angles there it is a free value (notes/assumptions/20.md). -/
def Tracker.angleFreq (k : Tracker) (t w : Nat) : Nat :=
  let l := k.anglesIn t w
  match l.head?, l.getLast? with
  | some b, some a =>
    if b.1 ≤ a.1 then Config.freeNat "frequency of θ_m without two angles in the window" t
    else (turned l * 10000000000000 / (turn * ((b.1 : Int) - a.1))).toNat
  | _, _ => Config.freeNat "frequency of θ_m without two angles in the window" t

/-- ε in 0.01°, nearest, from an angle difference. -/
def centiDeg (x : Int) : Int := (wrapAngle x * 36000 + turn / 2) / turn

/-- ε while the tracker coasts (R195): θ_m − θ+ down to 0.05 pu, below it 0 and not valid. -/
def coastEps (t thetaM vPlus : Nat) (k : Tracker) : Tracker :=
  if 50000 ≤ vPlus then { k with eps := centiDeg ((thetaM : Int) - k.coastTheta t), epsInvalid := false }
  else { k with eps := 0, epsInvalid := true }

/-- A Locked tracker begins to coast at the frequency held on the last tick before (R194, R195). -/
def startCoasting (t : Nat) (s : State) : State :=
  if s.grid.trk.state = 2 then trackerTo t 3 (s.modTrk fun k => { k with fc := k.tickF, f := k.tickF }) else s

/-- A phase jump found at t that began at `began`, acted on (R197): θ+ set to θ_m on the next tracker sample from JUMP_SNAP_DEG, its event from
JUMP_EVENT_DEG. -/
def jumpEvent (t began : Nat) (jump : Int) (reacq : Bool) (s : State) : State :=
  let c := s.grid.tcfg
  let m := jump.natAbs
  let snap := decide (c.snapDeg * 100 ≤ m)
  let s := s.modTrk fun k => { k with jump := jump, snap := k.snap || snap || reacq, jumpFrom := if snap || decide (c.eventDeg * 100 ≤ m) then t else k.jumpFrom }
  if c.eventDeg * 100 ≤ m then
    s.post began (ev 0x0431 0 (leI 2 jump ++ [if snap then 1 else 0, if reacq then 1 else 0]))
  else s

/-- Re-acquisition (R196): within f_c ± 2 Hz θ+ is set to θ_m and f to the measured value, or the tracker starts anew. The difference θ_m − θ+ counts
as a jump (R197). -/
def reacquire (t : Nat) (o : GridObs) (s : State) : State :=
  let fc := s.grid.trk.fc
  let f := s.grid.trk.angleFreq t 1000000
  let s := s.modTrk fun k => { k with reacq := true, reacqUntil := t + 20000000 }
  if f ≤ fc + 20000 ∧ fc ≤ f + 20000 then
    let jump := s.grid.trk.eps
    trackerTo t 2 (jumpEvent t t jump true (s.modTrk fun k =>
      { k with f := f, eps := 0, epsInvalid := false, theta := o.thetaM % turn, thetaAt := t }))
  else trackerTo t 1 (s.modTrk fun k => { k with f := o.f })

/-- The measurements of a tick taken over (R192, R195, R221). For wiring 1 and 2 the negative and zero sequence are 0 (R191). -/
def trackerMeasure (t : Nat) (o : GridObs) (s : State) : State :=
  let seq := match s.grid.cfg with | some c => decide (3 ≤ c.wiring) | none => false
  s.modTrk fun k =>
    let k := (k.noteAngle t o.thetaM)
    let k := { k with rocof := o.rocof, vPlus := o.vPlus, vMinus := if seq then o.vMinus else 0, vZero := if seq then o.vZero else 0, rms := o.rms }
    if k.state = 3 then coastEps t o.thetaM o.vPlus { k with f := k.fc }
    else
      { k with
        f := o.f, eps := centiDeg ((o.thetaM : Int) - o.theta), epsInvalid := false, theta := if k.snap then o.thetaM % turn else o.theta % turn
        thetaAt := t }

/-- Acquiring to Locked after 20 ticks (R194). -/
def trackerLock (t : Nat) (s : State) : State := if s.grid.trk.state = 1 ∧ 20 ≤ s.grid.trk.lockCount then trackerTo t 2 s else s

/-- Locked to Acquiring after 3 ticks of 5° or more, or when the frequency leaves its range (R194). -/
def trackerUnlock (t : Nat) (s : State) : State :=
  if s.grid.trk.state = 2 ∧ (3 ≤ s.grid.trk.badCount ∨ !fInRange s.grid.trk.f) then trackerTo t 1 s else s

/-- REACQ clears 20 ms after a re-acquisition (R196). -/
def reacqClear (t : Nat) (s : State) : State :=
  if s.grid.trk.reacq ∧ s.grid.trk.reacqUntil ≤ t then s.modTrk fun k => { k with reacq := false } else s

/-- The tracker's state evaluation on a tick (R194, R196), before the monitors read it. -/
def trackerTick (t : Nat) (o : GridObs) (s : State) : State :=
  if s.grid.cfg.isNone then s
  else
    let s := reacqClear t (trackerMeasure t o s)
    let k := s.grid.trk
    let s := if k.state = 1 then
      trackerLock t (s.modTrk fun k =>
        { k with lockCount := if s.gridPresent && fInRange o.f && decide (k.eps.natAbs < 100) then satInc 65535 k.lockCount else 0 })
    else if k.state = 2 then
      if o.vPlus < s.grid.tcfg.coastPu * 10000 then
        (startCoasting t s).modTrk (coastEps t o.thetaM o.vPlus)
      else trackerUnlock t (s.modTrk fun k => { k with badCount := if 500 ≤ k.eps.natAbs then satInc 65535 k.badCount else 0 })
    else if s.gridPresent ∧ s.modes.mode ≠ 6 then reacquire t o s
    else s
    s.modTrk fun k => { k with tickF := k.f }

/-- The rows of the tracker: the same evaluations as in the tick's own course, which leaves them nothing to do unless their condition stands. -/
def execTrackerLocked (t : Nat) (s : State) : Res := .next (trackerLock t (s.advance t))
def execTrackerAcquiring (t : Nat) (s : State) : Res := .next (trackerUnlock t (s.advance t))
def execReacqClear (t : Nat) (s : State) : Res := .next (reacqClear t (s.advance t))

/-- θ+ of front G at a stamp, in 2⁻³² turn (R190, R195). -/
def State.thetaAtStamp (s : State) (t : Nat) : Nat :=
  let k := s.grid.trk
  if k.state = 3 then k.coastTheta t
  else if k.thetaAt ≤ t then (k.theta + advanceOf k.f (t - k.thetaAt)) % turn
  else (k.theta + turn - advanceOf k.f (k.thetaAt - t) % turn) % turn

/-- The change of ε from a measured angle to a later one beyond what a frequency explains, 0.01° (R197). -/
def phaseChange (f : Nat) (x y : Nat × Nat) : Int := centiDeg ((y.2 : Int) - x.2 - advanceOf f (y.1 - x.1))

/-- The sample at which a jump found at t began (R197): the oldest of the window from which on every sample differs from the window's first in the
direction of the jump (notes/assumptions/20.md). The samples come newest first. -/
def jumpBegan (t f : Nat) (jump : Int) (first : Nat × Nat) (old : List (Nat × Nat)) : Nat :=
  ((old.takeWhile fun y => (phaseChange f first y).sign == jump.sign).getLast?.map (·.1)).getD t

/-- A measured angle of a front-G sample with aperture t (R190, R197): while Locked, the change of ε in [t − 1 ms, t) beyond what the present
frequency explains is a phase jump. -/
def angleSample (t a : Nat) (s : State) : State :=
  let k := s.grid.trk
  let old := (k.anglesIn t 1000000).filter fun x => decide (k.jumpFrom ≤ x.1)
  let s := s.modTrk fun k => k.noteAngle t a
  match old.getLast? with
  | some x =>
    let jump := phaseChange k.f x (t, a)
    if k.state = 2 ∧ jump ≠ 0 then
      let s := jumpEvent t (jumpBegan t k.f jump x old) jump false s
      { s with isl := { s.isl with jumpSeen := min 65535 (max s.isl.jumpSeen jump.natAbs) } }
    else s
  | none => s

/-! ### Curves and functions (R208 to R210, R218) -/

/-- A curve through points, flat beyond the outer ones (R209). -/
def curve : List (F32 × F32) → F32 → F32
  | [], _ => 0
  | [p], _ => p.2
  | p :: q :: r, x =>
    if fle x p.1 then p.2
    else if flt x q.1 then fadd p.2 (fdiv (fmul (fsub q.2 p.2) (fsub x p.1)) (fsub q.1 p.1))
    else curve (q :: r) x

/-- The gain of a first-order filter with τ = response / 2.3 for one 1 ms evaluation T (R210). The spec gives no discretisation: the gain is a free
value between those of the two Euler forms, T / (τ + T) and T / τ, which hold the exact 1 − e^(−T/τ) between them
(notes/assumptions/20.md). -/
def filterGain (resp : F32) : F32 :=
  let x := fdiv (fmul 0x3A83126F 0x40133333) resp
  fclamp (Config.freeFloat "filter gain over 1 ms" [resp]) (fdiv x (fadd f1 x)) (fmin f1 x)

/-- A value as a filter holds it, 2⁻⁶⁴ pu: fine enough that a filter of the longest response time does not stall short of its goal (R209, R210). -/
def toAcc (x : F32) : Int := fround x (2 ^ 64)

/-- One step of a first-order filter. -/
def filter1 (resp : F32) (acc goal : Int) : Int := acc + toAcc (filterGain resp) * (goal - acc) / 2 ^ 64

/-- The output of a function's filter. -/
def GridFn.out (f : GridFn) : F32 := intF f.acc (2 ^ 64)

/-- √(1 − x²) / x: reactive power per active power at a power-factor magnitude. -/
def qPerP (pf : F32) : F32 := fdiv (fsqrt (fsub f1 (fmul pf pf))) pf

/-- Reactive power at a signed power factor (negative absorbs). -/
def qOfPf (p pf : F32) : F32 := fmul (fsign pf) (fmul (fabs p) (qPerP (fabs pf)))

/-- The power factor of reactive function 5 at power p. Between two points of opposite sign the linear course leaves the range of a
power factor; the result there is a free value (notes/assumptions/21.md). -/
def pfAt (pts : List (F32 × F32)) (p : F32) : F32 :=
  let mixed := (List.range (pts.length - 1)).any fun i =>
    let a := pts.getD i (0, 0)
    let b := pts.getD (i + 1) (0, 0)
    flt a.1 p && flt p b.1 && !feq (fsign a.2) (fsign b.2)
  if mixed then fclamp (Config.freeFloat "power factor between points of opposite sign" [p]) 0xBF800000 f1 else curve pts p

/-- Parameter i of a function. -/
def GridFn.par (f : GridFn) (i : Nat) : F32 := f.params.getD i 0

/-- The goal of the reactive function in pu of S_RATED: V and measured P as they stand (R208, R209). -/
def reactiveGoal (f : GridFn) (v p vRef : F32) : F32 :=
  let sh := fun x => fadd x (fsub vRef f1)
  match f.code with
  | 1 => fmul (f.par 1) (fmul (fabs p) (qPerP (f.par 0)))
  | 2 => f.par 0
  | 3 => curve [(sh (f.par 0), f.par 4), (sh (f.par 1), f.par 5), (sh (f.par 2), f.par 6), (sh (f.par 3), f.par 7)] v
  | 4 => curve [(f.par 0, f.par 3), (f.par 1, f.par 4), (f.par 2, f.par 5)] p
  | 5 => qOfPf p (pfAt [(f.par 0, f.par 3), (f.par 1, f.par 4), (f.par 2, f.par 5)] p)
  | _ => 0

/-- Deviation of the frequency-droop function at f (0.1 mHz): negative above the dead band, positive below it, 0 inside (R210). -/
def droopGoal (fn : GridFn) (c : GridCfg) (f : Nat) : F32 :=
  let d := intF ((f : Int) - c.fNom) 10000
  if flt (fn.par 0) d then fneg (fdiv (fsub d (fn.par 0)) (fmul (fn.par 2) c.fNomF))
  else if flt d (fneg (fn.par 1)) then fdiv (fsub (fneg d) (fn.par 1)) (fmul (fn.par 3) c.fNomF)
  else 0

/-- The frequency lies outside the dead band. -/
def droopOutside (fn : GridFn) (c : GridCfg) (f : Nat) : Bool :=
  let d := intF ((f : Int) - c.fNom) 10000
  flt (fn.par 0) d || flt d (fneg (fn.par 1))

/-- Function i. -/
def Grid.fn (g : Grid) (i : Nat) : GridFn := g.fns.getD i GridFn.reset

/-- The measured power of a link register, in pu of S_RATED (R203). -/
def State.measured (s : State) (c : GridCfg) (i : Nat) : F32 := q15F (s.eng.links.getD (c.measLink + i) 0).toInt

/-- V+ of front G in pu. -/
def State.vPu (s : State) : F32 := intF s.grid.trk.vPlus 1000000

/-- The output of a function after one evaluation and whether it still leads its output back (R210): on, its filter steps toward the goal; just
switched off, toward what the off function gives, without a step, until the two are one in Q15; then at rest there. -/
def GridFn.stepped (f : GridFn) (goal rest : F32) : GridFn :=
  let back := { f with acc := filter1 f.resp f.acc (toAcc rest) }
  if f.code ≠ 0 then { f with acc := filter1 f.resp f.acc (toAcc goal), fading := true }
  else if f.fading ∧ fQ15Up back.out ≠ fQ15Up rest then back
  else { f with acc := toAcc rest, fading := false }

/-- The function acts: on, or still leading its output back after it was switched off. -/
def GridFn.acts (f : GridFn) : Bool := f.code != 0 || f.fading

/-- P_pre on an evaluation (R210): P_ref on the last tick before the dead band was left, held until the frequency is back inside; the limit that the
filter leads back from there starts from the same P_pre (notes/assumptions/21.md). -/
def preNow (g : Grid) (outside : Bool) (fd : GridFn) : Option F32 :=
  if outside then (if g.droopOut then some (g.pPre.getD g.pRef) else some g.pRef)
  else if fQ15Up fd.out ≠ 0 then g.pPre else none

/-- The functions' filters stepped by one evaluation (R209, R210). An off function rests at what it then gives: Q_set, no limit, no
deviation, V_ref 1.0. -/
def functionsStep (c : GridCfg) (s : State) : State :=
  let g := s.grid
  let v := s.vPu
  let p := s.measured c 0
  let va := (g.fn 3).stepped v f1
  let r := (g.fn 0).stepped (reactiveGoal (g.fn 0) v p va.out) g.qSet
  let vw := (g.fn 1).stepped (curve [((g.fn 1).par 0, f1), ((g.fn 1).par 1, (g.fn 1).par 2)] v) f1
  let fd := (g.fn 2).stepped (droopGoal (g.fn 2) c g.trk.f) 0
  let outside := fd.code != 0 && droopOutside fd c g.trk.f
  { s with grid := { g with vRef := va.out, pPre := preNow g outside fd, droopOut := outside, fns := [r, vw, fd, va] } }

/-! ### The grid manager (R202 to R206, R239 to R241) -/

/-- √2 and √3 as binary32. -/
def fSqrt2 : F32 := 0x3FB504F3

/-- Power available from the ports in pu of S_RATED: the PV ports' MPP power and the battery discharge limits (R210). -/
def State.portPower (s : State) (c : GridCfg) : F32 :=
  let w := (s.ports.pv.foldl (fun a p => a + p.pMpp) 0) + s.ports.bat.foldl (fun a b => a + b.disMw) 0
  fdiv (intF (w : Nat) 1000) c.sRated

/-- The mandatory behaviour is in force: the class is mandatory, or permissive and acting so (R227, R239). -/
def State.rtMandatory (s : State) : Bool := s.rt.cls == 1 || (s.rt.cls == 2 && s.rt.permissive == 0)

/-- PRIORITY in force (R205, R239). -/
def State.priorityNow (s : State) : Nat :=
  if s.rtMandatory && (s.modes.mode == 4 || s.modes.mode == 5) then s.rt.rtPriority else s.grid.lim.priority

/-- (P_lower, P_upper) of R206. -/
def powerBounds (c : GridCfg) (s : State) : F32 × F32 :=
  let g := s.grid
  let pu := fun x => fdiv x c.sRated
  let up := fmin (pu g.lim.sMax) (pu g.lim.exportW)
  let up := if (g.fn 1).acts then fmin up (g.fn 1).out else up
  let lo := fmax (fneg (pu g.lim.sMax)) (fneg (pu g.lim.importW))
  let (lo, up) := match g.pPre with
    | some pre =>
      let d := (g.fn 2).out
      if flt d 0 then (lo, fmin up (fadd pre d))
      else if !flt 0 d then (lo, up)
      else (fmax lo (fmin (fmin (fadd pre d) g.pSet) (s.portPower c)), up)
    | none => (lo, up)
  (lo, match s.rt.term with | some x => fmin up x | none => up)

/-- (P_ref, Q_ref) of R206 from the clamped P and the reactive reference: the quantity without priority is reduced to the circle. -/
def onCircle (prio : Nat) (sMax p q : F32) : F32 × F32 :=
  if fle (fadd (fmul p p) (fmul q q)) (fmul sMax sMax) then (p, q)
  else if prio = 0 then
    let r := fsqrt (fmax 0 (fsub (fmul sMax sMax) (fmul p p)))
    (p, fclamp q (fneg r) r)
  else
    let q := fclamp q (fneg sMax) sMax
    let r := fsqrt (fmax 0 (fsub (fmul sMax sMax) (fmul q q)))
    (fclamp p (fneg r) r, q)

/-- A value as a link register carries it, and whether the conversion saturates (R204). -/
def toLink (x : F32) : BitVec 16 × Bool := (BitVec.ofInt 16 (fQ15Up x), decide (32767 < fCounts x) || decide (fCounts x < -32768) || !ffinite x)

/-- The reactive current that dynamic support adds, in pu of √2 × I_RATED, positive injecting (R240). -/
def supportPu (s : State) : F32 :=
  let u : Int := s.rt.vLo
  let o : Int := s.rt.vHi
  let dv := if s.rt.underSets then 1000000 - u else o - 1000000
  let x := max 0 (dv - (s.rt.dB * 1000 : Nat))
  let m := fmul (intF (s.rt.kSupport : Nat) 100) (intF x 1000000)
  if s.rt.underSets then m else fneg m

/-- Dynamic support acts (R240). -/
def State.supports (s : State) : Bool := s.rtMandatory && s.rt.kSupport != 0 && (s.modes.mode == 4 || s.modes.mode == 5)

/-- The eight link values of an evaluation, whether a clamp of R205 acts, and whether a conversion saturates (R202, R204, R205). -/
def linkValues (c : GridCfg) (s : State) (pRef qRef : F32) : List (BitVec 16) × Bool × Bool :=
  let fs := f32 (entryImg s.eng.run c.curChan) 8
  let vPk := fmul (fmul (fmax s.vPu 0x3DCCCCCD) fSqrt2) c.vNom
  let perAmp := fmul 0x3FC00000 vPk
  let amp := fun w => fdiv (fdiv (fmul w c.sRated) perAmp) fs
  let iMax := fdiv (fmul fSqrt2 s.grid.lim.iMax) fs
  let id := amp pRef
  let add := if s.supports then fdiv (fmul (supportPu s) (fmul fSqrt2 c.iRated)) fs else 0
  let iq := fsub (fneg (amp qRef)) add
  let root := fun x => fsqrt (fmax 0 (fsub (fmul iMax iMax) (fmul x x)))
  let (iqR, iqM, idM, lim) :=
    if s.priorityNow = 0 then
      let m := root (fmin (fabs id) iMax)
      let r := fclamp iq (fneg m) m
      (r, m, iMax, !feq r iq || flt iMax (fabs id))
    else
      let r := fclamp iq (fneg iMax) iMax
      (r, iMax, root r, !feq r iq)
  let vals := [pRef, qRef, idM, fneg idM, iqR, iqM, iMax, id].map toLink
  (vals.map (·.1), lim, vals.any (·.2))

/-- One evaluation of the grid manager (R203 to R206): references, bounds, links, and GRID_CURRENT_LIMIT when a clamp begins or ends to
act. Set-points come into force (R215), and a ride-through term that begins on this tick takes its P_ref (spec/08_ride_through.md R241). -/
def gridManager (t : Nat) (s : State) : State :=
  match s.grid.cfg with
  | none => s
  | some c =>
    let s := functionsStep c s
    let g := s.grid
    let act := s.modes.mode == 4 || s.modes.mode == 5
    let (lo, up) := powerBounds c s
    let p := fclamp g.pSet lo up
    let q := if (g.fn 0).acts then (g.fn 0).out else g.qSet
    let (pR, qR) := if act then onCircle s.priorityNow (fdiv g.lim.sMax c.sRated) p q else (0, 0)
    let (links, lim, sat) := linkValues c s pR qR
    let s := { s with
      grid := { g with pRef := pR, qRef := qR, pUpper := up, pLower := lo, limited := lim, curtailed := act && flt pR g.pSet
                       linkSat := sat, linkOut := some links, vForce := g.vSet, qForce := g.qSet }
      rt := { s.rt with supportOn := s.supports, term := if s.rt.termHold then some (fmax pR 0) else s.rt.term, termHold := false } }
    if lim ≠ g.limited then s.post t (ev 0x0432 c.curChan [if lim then 1 else 0, BitVec.ofNat 8 s.priorityNow]) else s

/-- The links of the last evaluation delivered to every core on a boundary of the grid rate group (R203). -/
def deliverLinks (s : State) : State :=
  match s.grid.cfg, s.grid.linkOut with
  | some c, some l =>
    let ls := (List.range 8).foldl (fun a i => a.set (c.linkBase + i) (l.getD i 0)) s.eng.links
    { s with grid := { s.grid with linkOut := none }, eng := { s.eng with links := ls } }
  | _, _ => s

/-! ### The virtual synchronous machine (R211 to R214) -/

/-- θ+ of front G in turns, as latched (R130, R192). -/
def State.thetaPlus (s : State) : F32 := intF (s.grid.trk.outputs.getD 0 0).toInt 65536

/-- Tracker frequency in pu of f_nom. -/
def State.fPu (s : State) (c : GridCfg) : F32 := intF s.grid.trk.f c.fNom

/-- E_v − 0.01 pu per ms as a step of one period: (0.01 × T) / 1 ms. -/
def evStep (T : F32) : F32 := fdiv (fmul 0x3C23D70A T) 0x3A83126F

/-- One update of the virtual machine over a period T with the F_SET in force (R211); whether the angle limit acted, and δ then. -/
def Vsm.update (v : Vsm) (c : GridCfg) (T fSet pm pe qe fTrk theta vSet qSet : F32) (gridOn : Bool) : Vsm × Option F32 :=
  let fg := if gridOn then fTrk else v.fV
  let sum := fsub (fsub (fsub pm pe) (fdiv (fsub v.fV fSet) v.rf)) (fmul v.kd (fsub v.fV fg))
  let fv := fadd v.fV (fmul (fdiv T (fmul f2 v.h)) sum)
  let w := fdiv v.fLim c.fNomF
  let fv := fclamp fv (fsub fSet w) (fadd fSet w)
  let th := fmod1 (fadd v.theta (fmul (fmul c.fNomF fv) T))
  let delta := fwrap (fsub th theta)
  let dMax := fdiv v.deltaMax 0x43B40000
  let hit := gridOn && fle dMax (fabs delta)
  let th := if hit then fadd theta (fmul (fsign delta) dMax) else th
  let fv := if hit then fg else fv
  let qf := fadd v.qf (fdiv (fmul (fsub qe v.qf) T) v.tq)
  let goal := fadd vSet (fmul v.rq (fsub qSet qf))
  let e := fadd v.ev (fclamp (fsub goal v.ev) (fneg (evStep T)) (evStep T))
  ({ v with fV := fv, theta := th, qf := qf, ev := e, limited := hit }, if hit then some (fmul (fsign delta) dMax) else none)

/-- The frequency that resynchronisation leads f_v to, pu (R103, R213): the grid's, less or more by a slip of 0.5 Hz that closes the phase error; within
5° of the grid the slip is a free value up to that (notes/assumptions/22.md). -/
def resyncGoal (c : GridCfg) (s : State) : F32 :=
  let m := fdiv 0x3F000000 c.fNomF
  let d := fwrap (fsub s.grid.vsm.theta s.thetaPlus)
  let slip := if flt (fabs d) (ratF false 5 360) then fclamp (Config.freeFloat "resynchronisation slip" [s.grid.vsm.theta, s.thetaPlus]) 0 m else m
  if flt 0 d then fsub (s.fPu c) slip else fadd (s.fPu c) slip

/-- F_SET during resynchronisation (R103, R213): the goal with the droop of the present load made good, RF × (Pm − Pe) (notes/assumptions/22.md). -/
def resyncFSet (c : GridCfg) (s : State) : F32 :=
  fsub (resyncGoal c s) (fmul s.grid.vsm.rf (fsub s.grid.pRef (s.measured c 0)))

/-- f_v held within 0.5 Hz of the grid during resynchronisation, or no farther from it than before (R103). -/
def resyncHold (c : GridCfg) (s : State) (old new : F32) : F32 :=
  let g := s.fPu c
  let m := fmax (fdiv 0x3F000000 c.fNomF) (fabs (fsub old g))
  fclamp new (fsub g m) (fadd g m)

/-- Resynchronisation from islanded supply is in progress, its disconnect still to close (R103). -/
def State.syncing (s : State) : Bool :=
  match s.modes.trans with | some tr => tr.prev == 7 && (tr.target == 4 || tr.target == 5) | none => false

/-- The formed voltage in a soft start (R101): no more than the elapsed share of RAMP_MS of V_SET. -/
def softCap (t : Nat) (s : State) (e : F32) : F32 :=
  match s.modes.trans with
  | some tr =>
    match tr.softAt with
    | some a => if t < a + tr.ms * 1000000 then fmin e (fmul s.grid.vForce (ratF false (t - a) (tr.ms * 1000000))) else e
    | none => e
  | none => e

/-- The three-evaluation count of R103: phase error below 5° and magnitudes that differ by less than 3 %. -/
def resyncCount (s : State) : State :=
  match s.modes.trans with
  | some tr =>
    if tr.resync then
      let d := fabs (fwrap (fsub s.grid.vsm.theta s.thetaPlus))
      let ok := flt d (ratF false 5 360) && flt (fabs (fsub s.grid.vsm.ev s.vPu)) (fmul 0x3CF5C28F s.vPu)
      s.modModes fun m => { m with trans := some { tr with evals := if ok then satInc 3 tr.evals else 0 } }
    else s
  | none => s

/-- The virtual machine on a boundary of the grid rate group (R211, R214), with F_SET 1.0 in grid-forming unless resynchronisation sets it, and the
configured one otherwise (R212, R213). On the boundary of its initialisation it stays as initialised. -/
def vsmBoundary (t : Nat) (s : State) : State :=
  match s.grid.cfg with
  | none => s
  | some c =>
    let v := s.grid.vsm
    if v.fresh then { s with grid := { s.grid with vsm := { v with fresh := false } } }
    else
    let fSet := if s.syncing then resyncFSet c s else if s.modes.mode = 5 then f1 else v.fSet
    let (w, hit) := v.update c (secondsF (s.period c.group)) fSet s.grid.pRef (s.measured c 0) (s.measured c 1) (s.fPu c) s.thetaPlus
      s.grid.vForce s.grid.qForce (s.gridPresent && s.modes.mode == 5)
    let v := { w with ev := softCap t s w.ev, fV := if s.syncing then resyncHold c s v.fV w.fV else w.fV }
    let due := hit.isSome && (match v.limitAt with | some a => decide (a + 100000000 ≤ t) | none => true)
    let v := if due then { v with limitAt := some t } else v
    let s := resyncCount { s with grid := { s.grid with vsm := v } }
    match hit with
    | some d => if due then s.post t (ev 0x0433 0 (leI 2 (fround d 36000))) else s
    | none => s

/-- The virtual machine on entry into a mode (R212, R213): into grid-forming; into islanded supply from a mode it does not already run
in, with f_v and Qf there as notes/assumptions/22.md says. -/
def vsmEnter (prev mode : Nat) (s : State) : State :=
  match s.grid.cfg with
  | none => s
  | some c =>
    let v := s.grid.vsm
    if mode = 5 then
      { s with grid := { s.grid with vsm :=
          { v with theta := fmod1 s.thetaPlus, fV := s.fPu c, qf := s.measured c 1, ev := s.vPu, fresh := true } } }
    else if mode = 7 ∧ prev ≠ 5 then
      let fromStop := prev == 1
      { s with grid := { s.grid with vsm :=
          { v with theta := if fromStop && s.grid.trk.state != 2 then 0 else fmod1 s.thetaPlus
                   fV := if fromStop && s.grid.trk.state != 2 then v.fSet else s.fPu c
                   qf := s.measured c 1, ev := if fromStop then 0 else s.vPu, fresh := true } } }
    else s

/-- θ in turns as a Q15 angle (R130). -/
def angleQ15 (x : F32) : BitVec 16 := BitVec.ofInt 16 (fround (fmod1 x) 65536)

/-- The awn code's modulation of E_v in grid-forming, pu, as it stands since the last boundary of the grid rate group (spec/09_islanding.md R263). -/
def State.awnModulation (s : State) : F32 := if s.injecting ∧ s.modes.mode = 5 then s.isl.evMod else 0

/-- An angle in 2⁻³² turn as Q15 (R130), nearest. -/
def turnQ15 (a : Nat) : BitVec 16 := BitVec.ofNat 16 ((a + 32768) / 65536)

/-- The lead of the tracker: f × LEAD_NS, in 2⁻³² turn (R192, R200). -/
def State.leadAngle (s : State) : Nat := advanceOf s.grid.trk.f s.grid.tcfg.leadNs

/-- The tracker at a base tick t (R190, R195 to R197): θ+ is the loop's, θ_m where the tracker snaps, or the advance at f_c while it coasts; ε is
θ_m − θ+. -/
def latchTheta (t : Nat) (o : TrackObs) (k : Tracker) : Tracker :=
  if k.state = 3 then { k with f := k.fc }
  else { k with theta := if k.snap then o.thetaM % turn else o.theta % turn, thetaAt := t, snap := false, f := o.f }

/-- The sixteen outputs of a base tick (R190 to R195, R200): the sequence components are the filters'; the angles, the phase error, the lock
indicator, the frequency and the virtual machine's outputs are computed. -/
def setOutputs (t : Nat) (o : TrackObs) (s : State) : State :=
  match s.grid.cfg with
  | none => s
  | some c =>
    let k := s.grid.trk
    let v := s.grid.vsm
    let noL := c.frontL.all fun x => x == 0xFF
    let seq := 3 ≤ c.wiring
    let q := fun x : Int => BitVec.ofInt 16 (sat16 x)
    let th := if k.state = 3 then k.coastTheta t else k.theta
    let lead := intF (s.leadAngle : Nat) turn
    let val (i : Nat) : BitVec 16 :=
      match i with
      | 0 => turnQ15 th
      | 1 => turnQ15 (th + s.leadAngle)
      | 2 => BitVec.ofInt 16 (fQ15Up (intF ((k.f : Int) - c.fNom) 100000))
      | 3 => q o.vd
      | 4 => q o.vq
      | 5 => if seq then q o.nd else 0
      | 6 => if seq then q o.nq else 0
      | 7 => if seq then q o.v0 else 0
      | 8 => if k.epsInvalid then 0 else turnQ15 ((wrapAngle ((o.thetaM : Int) - th)) % turn).toNat
      | 9 => if k.state = 2 then 0x7FFF else 0
      | 10 => angleQ15 v.theta
      | 11 => BitVec.ofInt 16 (fQ15Up (fdiv (fmul (fsub v.fV f1) c.fNomF) 0x41200000))
      | 12 => BitVec.ofInt 16 (fQ15Up (fdiv (fmul (fmul (fadd v.ev s.awnModulation) fSqrt2) c.vNom) c.frontFs))
      | 13 => angleQ15 (fadd v.theta lead)
      | 14 => if noL then turnQ15 th else turnQ15 o.thetaL
      | _ => if noL then q o.vd else q o.vdL
    s.modTrk fun k => { k with outputs := (List.range 16).map val }

/-- The tracker and its outputs latched at a base tick (R190). -/
def latchOutputs (t : Nat) (o : TrackObs) (s : State) : State :=
  if s.grid.cfg.isNone then s else setOutputs t o (s.modTrk (latchTheta t o))

/-- Configurations that wait for a boundary of the grid rate group (R215). -/
def gridPendings (s : State) : State :=
  let g := s.grid
  let vsm := match g.vsmPend with
    | some p => { g.vsm with h := p.h, rf := p.rf, kd := p.kd, rq := p.rq, tq := p.tq, deltaMax := p.deltaMax, fLim := p.fLim, fSet := p.fSet }
    | none => g.vsm
  { s with grid := { g with tcfg := g.tcfgPend.getD g.tcfg, tcfgPend := none, vsm := vsm, vsmPend := none } }

/-! ### The command group (R215 to R221) -/

def specGridTrackerConfig : CmdSpec :=
  { opcode := 0x0401, lenOk := len 8, defer := true, image := some 0
    modeBad := fun s _ => s.grid.cfg.isNone
    checks := fun _ p => [inH p.payload 0 5 100, inB p.payload 4 5 50, inB p.payload 5 5 90, inB p.payload 6 5 180] ++ resv p.payload 7 1
    run := fun p s =>
      let b := p.payload
      let c : TrackCfg := { bw := u16 b 0, leadNs := u16 b 2, coastPu := u8 b 4, snapDeg := u8 b 5, eventDeg := u8 b 6 }
      { st := { s with grid := { s.grid with tcfgPend := some c } } } }

/-- A natural number as 16 bits of 0.001 from millionths, rounded to nearest and held. -/
def milli16 (micro : Nat) : Nat := min 65535 ((micro + 500) / 1000)

/-- The 64 bytes of GRID_STATUS (R221). -/
def gridStatus (s : State) : List Byte :=
  let g := s.grid
  let k := g.trk
  let (frontL, lacks, fnom) := match g.cfg with
    | some c => (c.frontL.any fun x => x != 0xFF,
        !(List.range 16).any fun i => slotKind (inSlot s.eng.run c.curChan i) == 7, c.fNomF)
    | none => (false, false, 0)
  let flags := flagAt frontL 0 + flagAt k.reacq 1 + flagAt g.limited 2 + flagAt g.vsm.limited 3 + flagAt g.curtailed 4 +
    flagAt g.linkSat 5 + flagAt k.epsInvalid 6 + flagAt lacks 7
  le 1 k.state ++ le 1 flags ++ zeros 2 ++ le 4 k.f ++ leI 4 k.rocof ++ leI 2 k.eps ++ le 2 (milli16 k.vPlus) ++ le 2 k.vMinus ++
  le 2 k.vZero ++ ((List.range 3).flatMap fun i => le 2 (k.rms.getD i 0)) ++ zeros 2 ++
  le 4 g.pRef.toNat ++ le 4 g.qRef.toNat ++ le 4 g.pUpper.toNat ++ le 4 g.pLower.toNat ++
  leI 4 (fround (fmul g.vsm.fV fnom) 10000) ++ leI 2 (fround (fwrap (fsub g.vsm.theta s.thetaPlus)) 36000) ++
  leI 2 (fround g.vsm.ev 1000) ++ le 8 k.lockedAt ++ zeros 4

def specGridStatus : CmdSpec :=
  { opcode := 0x0402, lenOk := len 0, run := fun _ s => { st := s, data := gridStatus s } }

/-- A parameter i of GRID_FUNCTION as a payload field in lo..hi. -/
def parIn (pl : List Byte) (i : Nat) (lo hi : F32) : Check := inR pl (8 + 4 * i) lo hi

/-- Parameter i is finite. -/
def parFin (pl : List Byte) (i : Nat) : Check := (8 + 4 * i, ffinite (f32 pl (8 + 4 * i)))

/-- Parameters from i on are unused: 0 (R218). -/
def parZero (pl : List Byte) (i : Nat) : List Check := resv pl (8 + 4 * i) (32 - 4 * i)

/-- Parameter j is above parameter i, or at least equal where eq. -/
def parOver (pl : List Byte) (i j : Nat) (eq : Bool) : Check :=
  (8 + 4 * j, flt (f32 pl (8 + 4 * i)) (f32 pl (8 + 4 * j)) || (eq && feq (f32 pl (8 + 4 * i)) (f32 pl (8 + 4 * j))))

/-- A power factor of a signed magnitude 0.80..1.00. -/
def parPf (pl : List Byte) (i : Nat) : Check :=
  let x := fabs (f32 pl (8 + 4 * i))
  (8 + 4 * i, fle 0x3F4CCCCD x && fle x f1)

/-- −1.0. -/
def fm1 : F32 := 0xBF800000

/-- Range checks of GRID_FUNCTION (R218). -/
def gridFnChecks (pl : List Byte) : List Check :=
  let head := [inB pl 0 0 3, inB pl 1 0 (if u8 pl 0 = 0 then 5 else 1)] ++ resv pl 2 2
  let resp := fun lo hi => inR pl 4 lo hi
  if u8 pl 1 = 0 then head ++ [(4, ffinite (f32 pl 4))] ++ parZero pl 0
  else match u8 pl 0, u8 pl 1 with
  | 0, 1 => head ++ [resp 0x3E4CCCCD 0x42B40000, parIn pl 0 0x3F4CCCCD f1, (12, feq (f32 pl 12) f1 || feq (f32 pl 12) fm1)] ++ parZero pl 2
  | 0, 2 => head ++ [resp 0x3E4CCCCD 0x42B40000, parIn pl 0 fm1 f1] ++ parZero pl 1
  | 0, 3 => head ++ [resp f1 0x42B40000, parIn pl 0 0x3F451EB8 0x3F9D70A4, parIn pl 1 0x3F451EB8 0x3F9D70A4, parOver pl 0 1 false,
      parIn pl 2 0x3F451EB8 0x3F9D70A4, parOver pl 1 2 true, parIn pl 3 0x3F451EB8 0x3F9D70A4, parOver pl 2 3 false,
      parIn pl 4 fm1 f1, parIn pl 5 fm1 f1, parIn pl 6 fm1 f1, parIn pl 7 fm1 f1]
  | 0, 4 => head ++ [resp f1 0x42B40000, parIn pl 0 0 f1, parIn pl 1 0 f1, parOver pl 0 1 false, parIn pl 2 0 f1, parOver pl 1 2 false,
      parFin pl 3, parFin pl 4, parFin pl 5] ++ parZero pl 6
  | 0, 5 => head ++ [resp f1 0x42B40000, parFin pl 0, parFin pl 1, parOver pl 0 1 false, parFin pl 2, parOver pl 1 2 false,
      parPf pl 3, parPf pl 4, parPf pl 5] ++ parZero pl 6
  | 1, _ => head ++ [resp 0x3F000000 0x42700000, parIn pl 0 f1 0x3F99999A, parIn pl 1 0 0x3FA00000, parOver pl 0 1 false,
      parIn pl 2 0 f1] ++ parZero pl 3
  | 2, _ => head ++ [resp 0x3E4CCCCD 0x41200000, parIn pl 0 0x3C8B4396 f1, parIn pl 1 0x3C8B4396 f1, parIn pl 2 0x3CA3D70A 0x3DF5C28F,
      parIn pl 3 0x3CA3D70A 0x3DF5C28F] ++ parZero pl 4
  | _, _ => head ++ [resp 0x43960000 0x459C4000] ++ parZero pl 0

def specGridFunction : CmdSpec :=
  { opcode := 0x0403, lenOk := len 40, defer := true, image := some 0, key := 1
    checks := fun _ p => gridFnChecks p.payload
    run := fun p s =>
      let b := p.payload
      let set (f : GridFn) : GridFn := { f with code := u8 b 1, resp := f32 b 4, params := (List.range 8).map fun i => f32 b (8 + 4 * i) }
      { st := { s with grid := { s.grid with fns := upd s.grid.fns (u8 b 0) set } } } }

/-- An accepted write of set-points; it cancels the expiry of a dispatch (spec/16_networks_fleet.md R472). -/
def specGridSetpoint : CmdSpec :=
  { opcode := 0x0404, lenOk := len 16, defer := true
    checks := fun _ p => [inR p.payload 0 fm1 f1, inR p.payload 4 fm1 f1, inR p.payload 8 0x3F666666 0x3F8CCCCD] ++ resv p.payload 12 4
    run := fun p s =>
      let b := p.payload
      { st := { s with grid := { s.grid with pSet := f32 b 0, qSet := f32 b 4, vSet := f32 b 8 }, net := { s.net with expiry := none } } } }

/-- A new value differs from the old one by more than a factor of 2 (R215). -/
def overFactor2 (old new : F32) : Bool := flt (fmul f2 old) new || flt (fmul f2 new) old

def specGridVsmConfig : CmdSpec :=
  { opcode := 0x0405, lenOk := len 36, defer := true, image := some 0
    stateBad := fun s p =>
      let v := s.grid.vsmPend.getD s.grid.vsm
      (s.modes.mode == 5 || s.modes.mode == 7) && (overFactor2 v.h (f32 p.payload 0) || overFactor2 v.rf (f32 p.payload 4))
    checks := fun _ p =>
      let b := p.payload
      [inR b 0 0x3DCCCCCD 0x41A00000, inR b 4 0x3C23D70A 0x3E4CCCCD, inR b 8 0 0x43480000, inR b 12 0 0x3E4CCCCD,
       inR b 16 0x3A83126F f1, inR b 20 0x41200000 0x42B40000, inR b 24 0x3F000000 0x40A00000, inR b 28 0x3F733333 0x3F866666] ++ resv b 32 4
    run := fun p s =>
      let b := p.payload
      let v : Vsm := { s.grid.vsm with
        h := f32 b 0, rf := f32 b 4, kd := f32 b 8, rq := f32 b 12, tq := f32 b 16, deltaMax := f32 b 20, fLim := f32 b 24, fSet := f32 b 28 }
      { st := { s with grid := { s.grid with vsmPend := some v } } } }

/-- A limit in W: finite and not negative, or +∞ (R220). -/
def limitW (pl : List Byte) (o : Nat) : Check := (o, fle 0 (f32 pl o))

/-- GRID_LIMITS (R220). DESIGN CHOICE (notes/assumptions/23.md): before any GRID_CONFIG its bounds are 0. -/
def specGridLimits : CmdSpec :=
  { opcode := 0x0406, lenOk := len 20, defer := true, image := some 0
    checks := fun s p =>
      let b := p.payload
      let (i, r) := match s.grid.cfg with | some c => (fmul 0x3F99999A c.iRated, c.sRated) | none => (0, 0)
      [inF b 0 i, inB b 4 0 1] ++ resv b 5 3 ++ [limitW b 8, limitW b 12, inF b 16 r]
    run := fun p s =>
      let b := p.payload
      let l : GridLim := { iMax := f32 b 0, priority := u8 b 4, exportW := f32 b 8, importW := f32 b 12, sMax := f32 b 16 }
      { st := { s with grid := { s.grid with lim := l } } } }

def execGridConfig (p : Packet) (s : State) : Res := runCommand specGridConfig p s
def execGridTrackerConfig (p : Packet) (s : State) : Res := runCommand specGridTrackerConfig p s
def execGridStatus (p : Packet) (s : State) : Res := runCommand specGridStatus p s
def execGridFunction (p : Packet) (s : State) : Res := runCommand specGridFunction p s
def execGridSetpoint (p : Packet) (s : State) : Res := runCommand specGridSetpoint p s
def execGridVsmConfig (p : Packet) (s : State) : Res := runCommand specGridVsmConfig p s
def execGridLimits (p : Packet) (s : State) : Res := runCommand specGridLimits p s

end Sys2Proof.Machine
end

