-- ==== Sys2Proof/Machine/Entry.lean ====
section
/-! DEFINITION. Entry conditions of the modes (spec/04_operating_modes.md R101, R104, R108, R113, spec/07_grid_current.md R201,
spec/08_ride_through.md R226), the mode change itself (R110 to R112), and port states (spec/10_pv_battery_ports.md R291, R302). -/

namespace Sys2Proof.Machine

/-! ### Entry conditions -/

/-- A trip function is at or past its threshold (R226, R242). -/
def State.tripTrue (s : State) : Bool := s.rt.trips.any fun f => f.enable && f.count != 0

/-- The grid windows are ready (R55, R226). -/
def State.gridReady (s : State) : Bool := s.grid.cfg.isSome && s.rt.cls == 0 && !s.tripTrue && s.rt.wins.all fun n => decide (3 ≤ n)

/-- The peak line-to-line voltage of the grid in V, from the highest phase magnitude (R101, R223). -/
def State.peakLL (s : State) (c : GridCfg) : F32 :=
  let k : F32 := if c.wiring = 1 then fSqrt2 else if c.wiring = 2 then 0x403504F3 else 0x401CC471
  fmul (fmul k c.vNom) (intF s.rt.vHi 1000000)

/-- V_dc in V (R246). -/
def State.vdcF (s : State) : F32 := intF s.dcl.vdc 32768

/-- DC link ≥ 1.05 × peak line-to-line grid voltage (R101). -/
def State.dcLinkOk (s : State) : Bool :=
  match s.grid.cfg with
  | some c => s.dcl.hasCfg && s.dcl.vdcValid && fle (fmul 0x3F866666 (s.peakLL c)) s.vdcF
  | none => false

/-- A PLL is locked. -/
def State.pllLocked (s : State) : Bool := s.clk.loops.any fun l => l.state == 1

/-- The current channel is enabled with the mode in its MODE_MASK (R201). -/
def State.curChanOk (s : State) (mode : Nat) : Bool :=
  match s.grid.cfg with
  | some c => chEnable s.eng.run c.curChan && chInMode s.eng.run c.curChan mode
  | none => false

/-- A battery port, or a port of either kind, is enabled (R101, R108). -/
def State.batEnabled (s : State) : Bool := s.ports.bat.any fun b => b.enable
def State.portEnabled (s : State) : Bool := s.batEnabled || s.ports.pv.any fun p => p.state != 0

/-- The conditions of R101 for a target entered from a mode, in the order listed, each by its place in that list: 1 PLL, 2 grid windows,
3 tracker, 4 DC link, 5 protection, 6 safety demand, 7 enter-service delay, 8 current channel, 9 disconnect, 10 backup, 11 ports. -/
def entryConds (s : State) (target from' : Nat) : List (Nat × Bool) :=
  let latched := s.prot.groups.any fun g => g.state == 3
  let sync := [(1, s.pllLocked), (2, s.gridReady), (3, s.grid.trk.state == 2), (4, s.dcLinkOk), (5, !latched), (6, !s.safetyDemand)]
  match target with
  | 3 => sync
  | 4 => sync ++ [(7, from' != 7 || s.rt.esDone), (8, s.curChanOk 4)]
  | 5 => sync ++ [(7, from' != 7 || s.rt.esDone), (8, s.curChanOk 5)]
  | 6 => [(9, s.disconnectClosed)]
  | 7 => [(1, s.pllLocked), (5, !(List.range 8).any fun g => (s.pgroup g).state == 3 && s.holdsGrid g), (10, s.modes.backup),
          (11, s.portEnabled), (9, from' != 1 || s.disconnectOpen)]
  | _ => []

/-- The entry condition not met, if any. -/
def entryBad (s : State) (target from' : Nat) : Option Nat := ((entryConds s target from').find? fun c => !c.2).map (·.1)

/-- Modes a target may be entered from (R101). -/
def fromOk (target from' : Nat) : Bool :=
  match target with
  | 1 => true
  | 2 => from' == 1
  | 3 => from' == 1 || from' == 4 || from' == 5
  | 4 => from' == 3 || from' == 5 || from' == 7
  | 5 => from' == 3 || from' == 4 || from' == 7
  | 6 => from' == 4 || from' == 5
  | 7 => from' == 1 || from' == 4 || from' == 5 || from' == 6
  | _ => false

/-- A refused combination (R108). -/
def comboRefused (s : State) (target : Nat) : Bool :=
  (target == 5 && !s.batEnabled) ||
  (switchingMode target && s.cool.drives.any fun d => d.stopped && (match d.cfg with | some c => c.required | none => false)) ||
  (target == 2 && s.net.authority)

/-! ### The ripple map (spec/10_pv_battery_ports.md R294, R295) -/

/-- The cells of column v: row and count. -/
def Pv.cells (x : Pv) (v : Nat) : List (Nat × Nat) := (x.map.filter fun e => e.1 % 128 == v).map fun e => (e.1 / 128, e.2)

/-- Column v is known. -/
def Pv.known (x : Pv) (v : Nat) : Bool := x.mppt.persist ≤ (x.cells v).foldl (fun a e => a + e.2) 0

/-- The centre voltage of column v, V. -/
def PvCfg.vc (c : PvCfg) (v : Nat) : F32 := intF (((2 * v + 1) * c.vFs : Nat)) 256

/-- The current I[v] of a known column, A: the count-weighted mean of the row centres of its persistent cells. A known column without such a
cell has no mean; its current is a free value (notes/assumptions/28.md). -/
def Pv.current (x : Pv) (c : PvCfg) (v : Nat) : F32 :=
  let l := (x.cells v).filter fun e => x.mppt.persist ≤ e.2
  let n := l.foldl (fun a e => a + e.2) 0
  if n = 0 then fclamp (Config.freeFloat "current of a known column without a persistent cell" [BitVec.ofNat 32 v]) 0 (intF (c.iFs : Nat) 10)
  else intF ((l.foldl (fun a e => a + (2 * e.1 + 1) * e.2) 0 * c.iFs : Nat)) (2560 * n)

/-- The known column with the greatest power within [V_MIN, V_MAX], if any. -/
def Pv.mapMpp (x : Pv) (c : PvCfg) : Option Nat :=
  let ok := (List.range 128).filter fun v => x.known v && fle (intF (c.vMin : Nat) 1) (c.vc v) && fle (c.vc v) (intF (c.vMax : Nat) 1)
  let p := fun v => fmul (c.vc v) (x.current c v)
  ok.foldl (fun b v => match b with | none => some v | some w => if flt (p w) (p v) then some v else some w) none

/-- The centre voltage of column v in 0.1 V. -/
def PvCfg.vcDeci (c : PvCfg) (v : Nat) : Nat := (2 * v + 1) * c.vFs * 10 / 256

/-! ### Port states -/

/-- PV port p in a state, with its event (R291, R313). -/
def pvTo (t p st : Nat) (s : State) : State :=
  let old := (s.pv p).state
  if old = st then s
  else (s.modPv p fun x => { x with state := st, inWin := 0, refF := 0, corr := 0, phase := if st = 2 ∨ st = 4 ∨ st = 5 then x.phase else 0 }).post t (ev 0x0631 p [BitVec.ofNat 8 old, BitVec.ofNat 8 st])

/-- Battery port b in a state, with its event (R302, R313). -/
def batTo (t b st : Nat) (s : State) : State :=
  let old := (s.bat b).state
  if old = st then s
  else (s.modBat b fun x => { x with state := st }).post t (ev 0x0633 b [BitVec.ofNat 8 old, BitVec.ofNat 8 st])

/-- Column of the ripple map for a voltage in 0.1 V (R294). -/
def PvCfg.column (c : PvCfg) (v : Nat) : Nat := min 127 (v * 128 / (c.vFs * 10))

/-- The columns between two voltages, the ends included. -/
def PvCfg.columns (c : PvCfg) (a b : Nat) : List Nat :=
  let x := c.column a
  let y := c.column b
  (List.range 128).filter fun k => min x y ≤ k && k ≤ max x y

/-- The crossed columns refreshed at the end of a sweep (R295): cleared, and every cell that received a pair set to PERSIST_MIN. -/
def Pv.refresh (x : Pv) (cols : List Nat) : Pv :=
  let inside (k : Nat) : Bool := cols.contains (k % 128)
  let fresh := (x.crossed.dedup.filter inside).map fun k => (k, x.mppt.persist)
  { x with map := ((x.map.filter fun e => !inside e.1) ++ fresh).mergeSort (fun a b => a.1 ≤ b.1), crossed := [] }

/-- A power in mW as the W of a reply or an event, 16 bits. -/
def wattOf (mw : Nat) : Nat := min 65535 (mw / 1000)

/-- The end of a sweep (R295, R297): the deficit is charged, the crossed columns are refreshed, PV_SWEEP is posted. `how` is 1 accepted,
2 returned, 3 aborted; `far` is the farthest reference reached. A sweep returned or aborted leaves the reference where it stands, to go back at
SWEEP_SLEW (phase 3). Powers are in mW; the deficit is the integral over the sample pairs, at most P_now × plan (R296). -/
def endSweep (t p how cause vAfter pAfter far : Nat) (s : State) : State :=
  let x := s.pv p
  let deficit := fmin (intF (x.loss : Nat) 1000000000000) x.reserve
  match x.cfg with
  | none => s
  | some c =>
    (s.modPv p fun x => { x.refresh (c.columns x.vNow far) with
        credit := fsub x.credit deficit, reserve := 0, lastSweep := t, ref := if how = 1 then vAfter else x.ref
        phase := if how = 1 ∨ x.ref = x.vNow then 0 else 3 }).post t
      (ev 0x0630 p ([BitVec.ofNat 8 how, BitVec.ofNat 8 cause] ++ le 2 x.vNow ++ le 2 vAfter ++ le 2 (wattOf x.pNow) ++ le 2 (wattOf pAfter) ++ le 4 deficit.toNat))

/-- A sweep of port p aborted (R297): the reference returns to the voltage before it, and the deficit so far is charged. -/
def abortSweep (t p cause : Nat) (s : State) : State :=
  let x := s.pv p
  if x.state = 3 then
    endSweep t p 3 cause x.vNow x.pNow x.farV s
  else s

/-- Every sweep in progress aborted with a cause (R297), the ports back in Tracking. -/
def abortSweeps (t cause : Nat) (s : State) : State :=
  (List.range 16).foldl (fun s p => if (s.pv p).state = 3 then pvTo t p 2 (abortSweep t p cause s) else s) s

/-- Boundaries of the grid rate group occur: it is configured and in use, and its timebase runs (spec/06_control_engine.md R155). -/
def State.gridBeats (s : State) : Bool :=
  match s.grid.cfg, s.rateCfg with
  | some c, some r => s.sys.ready && (s.pwm.tbs.getD r.tb Tb.reset).inForce.enable && r.mult c.group != 0
  | _, _ => false

/-- A mode change can take effect at t (R110): on a boundary of the grid rate group, and at once where none occurs (notes/assumptions/26.md). -/
def State.onGridBoundary (s : State) (t : Nat) : Bool :=
  !s.gridBeats || (s.eng.tickAt == t && match s.grid.cfg with | some c => s.isBoundary c.group | none => false)

/-- Legs and safety outputs follow a change that has just begun (R101, R329, R425). -/
def ordersNow (t : Nat) (s : State) : State := outputOrders t (legsUpdate t s)

/-! ### The mode change (R110 to R112) -/

/-- A leg of a PV port belongs to a latched protection group (spec/10_pv_battery_ports.md R291). -/
def State.pvLatched (s : State) (c : PvCfg) : Bool := c.legs.any fun n => match s.groupOf n with | some g => (s.pgroup g).state == 3 | none => false

/-- Channels stopped and started by a change to a mode (R111): one that is to stop ends with its last pass issued before; one stopped by a reaction
stays stopped. While the restart gate is closed none starts, and the current channel does not run (spec/08_ride_through.md R236). -/
def modeChannels (t mode : Nat) (s : State) : State :=
  (List.range 256).foldl (fun s n =>
    let c := s.chan n
    if !chEnable s.eng.act n then s
    else if chInMode s.eng.act n mode ∧ !(s.rt.gateClosed ∧ s.isCurChan n) then
      if c.running ∨ c.stopped ∨ s.rt.gateClosed then s else startChan n s
    else stopAfterPass n s) s

/-- Power set-points initialised (R112). -/
def initPower (t : Nat) (s : State) : State := (List.range 32).foldl (fun s k => initGen t k s) s

/-- The soft start of islanded supply from safe stop (R101): the virtual machine from zero voltage, power set-points, channels and legs; the formed
voltage then rises over RAMP_MS (spec/07_grid_current.md R213). -/
def softBegin (t : Nat) (s : State) : State :=
  match s.modes.trans with
  | some tr =>
    if tr.target = 7 ∧ tr.prev = 1 ∧ tr.softAt.isNone then
      let s := s.modModes fun m => { m with trans := some { tr with softAt := some t } }
      legsUpdate t (modeChannels t 7 (initPower t (vsmEnter 1 7 s)))
    else s
  | none => s

/-- The mode becomes `mode` (R99, R106, R110 to R112): MODE_ENTERED, channels and legs, set-points, tracker and virtual machine. -/
def enterMode (t mode cause : Nat) (s : State) : State :=
  let prev := s.modes.mode
  let soft := match s.modes.trans with | some tr => tr.softAt.isSome | none => false
  let s := s.modModes fun m => { m with mode := mode, trans := none }
  let back := prev == 6 && (mode == 4 || mode == 5)
  let s := { s with
    grid := { s.grid with legsHeld := s.grid.legsHeld && !switchingMode mode }
    rt := if mode = 4 ∨ mode = 5 ∨ mode = 6 then s.rt else { s.rt with gateClosed := false, gateOpening := false } }
  let s := if (mode = 4 ∨ mode = 5) ∧ (prev = 3 ∨ prev = 7) ∧ s.rt.afterTrip then
      { s with rt := { s.rt with term := some 0, termRise := 2, afterTrip := false } }
    else s
  let s := if mode = 6 then startCoasting t s else s
  let s := if back || soft then s else vsmEnter prev mode s
  let s := if switchingMode mode && !(prev == 4 || prev == 5) && !back && !soft then initPower t s else s
  let s := abortSweeps t 1 (modeChannels t mode s)
  legsUpdate t (s.post t (ev 0x0183 0 [BitVec.ofNat 8 prev, BitVec.ofNat 8 mode, BitVec.ofNat 8 cause]))

end Sys2Proof.Machine
end

