-- ==== Sys2Proof/Machine/RideThrough.lean ====
section
/-! DEFINITION. Fault ride-through, enter service and the DC-link defence (spec/08_ride_through.md R223 to R256). -/

namespace Sys2Proof.Machine

/-- The ride-through part changed. -/
def State.modRt (f : Rt → Rt) (s : State) : State := { s with rt := f s.rt }
/-- The defence changed. -/
def State.modDcl (f : Dcl → Dcl) (s : State) : State := { s with dcl := f s.dcl }

/-! ### Regions and classes (R223 to R227) -/

/-- The front that the monitor evaluates: front L in islanded supply when it is configured (R243). -/
def State.onFrontL (s : State) : Bool :=
  s.modes.mode == 7 && (match s.grid.cfg with | some c => c.frontL.any fun x => x != 0xFF | none => false)

/-- The frequency monitored at t and whether it counts (R224): the tracker's; while it coasts that of θ_m over [t − 10 ms, t); front L's where front L
is evaluated (R243). -/
def State.rtFreq (s : State) (t : Nat) (o : GridObs) : Nat × Bool :=
  if s.onFrontL then (o.fL, true)
  else if s.grid.trk.state = 3 then (if s.grid.trk.epsInvalid then s.grid.trk.f else s.grid.trk.angleFreq t 10000000, !s.grid.trk.epsInvalid)
  else (s.grid.trk.f, !s.grid.trk.epsInvalid)

/-- √6 as binary32. -/
def fSqrt6 : F32 := 0x401CC471

/-- A phase magnitude in mV peak, in 10⁻⁶ pu: of √2 × V_NOM, for wiring 3 of √6 × V_NOM (R223). -/
def GridCfg.magPu (c : GridCfg) (mv : Nat) : Nat :=
  (fround (fdiv (intF (mv : Nat) 1) (fmul (if c.wiring = 3 then fSqrt6 else fSqrt2) c.vNom)) 1000).toNat

/-- V_hi and V_lo of the wiring kind's phases (R223). -/
def GridCfg.hiLo (c : GridCfg) (mags : List Nat) : Nat × Nat :=
  let l := (List.range (phasesOf c.wiring)).map fun i => c.magPu (mags.getD i 0)
  (l.foldl max 0, l.foldl min (l.headD 0))

/-- The class of a tick and whether the under side sets it (R225): voltages in 10⁻⁶ pu against thresholds in 0.001 pu. -/
def Rt.tickClass (r : Rt) (hi lo : Nat) : Nat × Bool :=
  let b := fun i => r.b.getD i 0
  let under := if r.u1 * 1000 ≤ lo then 0 else if r.u2 * 1000 ≤ lo then b 0 else if r.u3 * 1000 ≤ lo then b 1 else b 2
  let above := if hi < r.o1 * 1000 then 0 else if hi < r.o2 * 1000 then b 3 else b 4
  (max under above, decide (above ≤ under))

/-- The ride-through term on entry into mandatory operation (R241): max(P_ref, 0) of this tick, which the grid manager sets when it has it, held. -/
def holdTerm (s : State) : State := s.modRt fun r => { r with termHold := true, termRise := 0 }

/-- The class becomes c (R226, R256). -/
def classTo (t c : Nat) (s : State) : State :=
  let r := s.rt
  let was := s.rtMandatory
  let s := s.modRt fun r => { r with cls := c, retCount := 0, retMax := 0 }
  let s := s.post t (ev 0x0440 0 ([BitVec.ofNat 8 r.cls, BitVec.ofNat 8 c] ++ le 2 (milli16 r.vHi) ++ le 2 (milli16 r.vLo)))
  let s := if s.rtMandatory && !was && (s.modes.mode == 4 || s.modes.mode == 5) then holdTerm s
    else if c = 0 then s.modRt fun r => { r with termRise := if r.term.isSome then 1 else r.termRise }
    else s
  let s := if c = 0 then s else abortSweeps t 2 s
  if c = 0 then s else s.modDcl fun d => { d with relSince := none }

/-- RETURN_TICKS ticks of a less severe class have passed (R226): the class returns to the most severe one among them. -/
def classReturn (t : Nat) (s : State) : State :=
  if s.rt.retCount ≠ 0 ∧ s.rt.returnTicks ≤ s.rt.retCount then classTo t s.rt.retMax s else s

/-- The class on a tick (R225, R226): more severe at once; less severe once it has been counted RETURN_TICKS times. -/
def classTick (t : Nat) (s : State) : State :=
  let (c, under) := s.rt.tickClass s.rt.vHi s.rt.vLo
  let s := if c = 0 then s else s.modRt fun r => { r with underSets := under }
  if s.rt.cls < c then classTo t c s
  else if c < s.rt.cls then classReturn t (s.modRt fun r => { r with retCount := satInc 255 r.retCount, retMax := max r.retMax c })
  else s.modRt fun r => { r with retCount := 0, retMax := 0 }

/-- The class acts as cessation (R227). -/
def State.rtCessation (s : State) : Bool := s.rt.cls == 3 || (s.rt.cls == 2 && s.rt.permissive == 1)

/-! ### Trip functions (R229 to R234) -/

/-- The condition of trip function k (R229). -/
def tripCond (r : Rt) (fNom f k : Nat) : Bool :=
  let th := (r.trips.getD k TripFn.reset).thr
  if k < 2 then decide (th * 1000 ≤ r.vHi) else if k < 4 then decide ((r.vLo : Int) < th * 1000)
  else if k < 6 then decide ((fNom : Int) + th * 10 ≤ f) else decide ((f : Int) < fNom + th * 10)

/-- The counts of the trip functions on a tick (R20, R224, R231). -/
def tripTick (f : Nat) (fOk : Bool) (s : State) : State :=
  let fNom := match s.grid.cfg with | some c => c.fNom | none => 500000
  let step (k : Nat) : TripFn :=
    let x := s.rt.trips.getD k TripFn.reset
    if !x.enable then { x with count := 0, tripped := false }
    else if 4 ≤ k ∧ !fOk then x
    else if tripCond s.rt fNom f k then { x with count := satInc 0xFFFFFFFF x.count }
    else { x with count := 0, tripped := false }
  s.modRt fun r => { r with trips := (List.range 8).map step }

/-- The functions that trip: true for T ticks and not acted on since (R229, R233). -/
def State.tripMask (s : State) : Nat :=
  (List.range 8).foldl (fun a k =>
    let x := s.rt.trips.getD k TripFn.reset
    a + flagAt (x.enable && x.tTicks ≤ x.count && !x.tripped) k) 0

/-- The enter-service delay starts again from 0, with its event when it had begun (R242). -/
def restartDelay (t : Nat) (s : State) : State :=
  if s.rt.esTicks ≠ 0 ∨ s.rt.esDone then
    (s.modRt fun r => { r with esTicks := 0, esDone := false }).post t (ev 0x0443 0 [0])
  else s

/-- The gate is still closed RESTART_MAX after the return, and that has not been acted on (R237). -/
def State.gateTimeout (s : State) (t : Nat) : Bool :=
  s.rt.gateClosed && !s.rt.gateOpening && !s.rt.gateTimed && (s.modes.mode == 4 || s.modes.mode == 5) &&
  decide (s.rt.gateAt + s.rt.restartMax * 1000000 ≤ t)

/-- The DC link has been below DCL_UV for 5 ms, and that has not been acted on (R248). -/
def State.uvTrip (s : State) : Bool := decide (5 ≤ s.rt.uvDcTicks) && !s.rt.uvActed

/-- The mask of everything that trips at t (R229, R233, R237, R248). -/
def State.tripsAt (s : State) (t : Nat) : Nat := s.tripMask + flagAt (s.gateTimeout t) 8 + flagAt s.uvTrip 9

/-- A trip (R229, R233, R237, R243, R248): one RT_TRIP for everything that trips on this tick, and what it does in the present mode. -/
def rtTrip (t : Nat) (s : State) : State :=
  let m := s.modes.mode
  let mask := s.tripsAt t + (if s.onFrontL then 1024 else 0)
  let s := s.modRt fun r =>
    { r with trips := r.trips.map fun x => { x with tripped := x.tripped || (x.enable && x.tTicks ≤ x.count) }
             gateTimed := r.gateTimed || s.gateTimeout t, uvActed := r.uvActed || s.uvTrip }
  let s := s.post t (ev 0x0441 0 (le 2 mask ++ le 2 (milli16 s.rt.vLo) ++ le 2 (milli16 s.rt.vHi) ++ le 4 s.rt.f))
  if m = 7 then
    match s.grid.cfg with
    | some c => tripGroup t (chPgroup s.eng.act c.curChan) 0xFF00 5 0 s
    | none => s
  else if 3 ≤ m ∧ m ≤ 6 then
    let s := s.modRt fun r => { r with afterTrip := true }
    if s.outranked t 0x07 || (s.stopping && !s.stopsSooner t 0x07 && !s.overrides t 0x07) then s else forceMode t 0x07 1 0 false s
  else restartDelay t s

/-- A trip function has been true for T ticks (R229). -/
def execRtTrip (t : Nat) (s : State) : Res :=
  let s := s.advance t
  .next (if s.tripMask ≠ 0 then rtTrip t s else s)

/-! ### Momentary cessation, return and restart (R235 to R238) -/

/-- The cessation class in grid-following or grid-forming: cause 0x06 (R227, R235). A gate that was to open stays closed (R237). A transition in progress
goes on (DESIGN CHOICE, notes/assumptions/26.md). -/
def cessation (t : Nat) (s : State) : State :=
  if s.rtCessation ∧ (s.modes.mode = 4 ∨ s.modes.mode = 5) ∧ !s.outranked t 0x06 ∧ (s.modes.trans = none ∨ s.overrides t 0x06) then
    forceMode t 0x06 6 0 false (s.modRt fun r => { r with gateOpening := false })
  else s

/-- The return from momentary cessation, cause 0x08, with the restart gate closed (R236). The condition of R105 is the class alone, so a commanded
cessation returns by it too (notes/assumptions/26.md). -/
def cessationReturn (t : Nat) (s : State) : State :=
  if s.modes.mode = 6 ∧ s.modes.trans = none ∧ s.rt.cls = 0 ∧ s.tripMask = 0 then
    forceMode t 0x08 s.modes.beforeCess 0 false
      (s.modRt fun r => { r with gateClosed := true, gateOpening := false, gateTimed := false, gateAt := t })
  else s

/-- The class returns (R226), and with it the device from momentary cessation (R236). -/
def execClassReturn (t : Nat) (s : State) : Res :=
  let s := s.advance t
  .next (if s.rt.retCount ≠ 0 ∧ s.rt.returnTicks ≤ s.rt.retCount then cessationReturn t (classReturn t s) else s)

/-- The restart gate opens on the first tick with the tracker Locked and |ε| < 5° (R236). -/
def gateTick (t : Nat) (s : State) : State :=
  let k := s.grid.trk
  if s.rt.gateClosed && !s.rt.gateOpening && (s.modes.mode == 4 || s.modes.mode == 5) && k.state == 2 && !k.epsInvalid && decide (k.eps.natAbs < 500) then
    s.modRt fun r => { r with gateOpening := true, gateEps := k.eps, gateOpenAt := t }
  else s

/-- The first grid-group boundary after the gate opens (R236, R238): the virtual machine, channels, set-points and legs start, and RT_RESTART is
posted. -/
def gateDue (t : Nat) (s : State) : State :=
  if s.rt.gateOpening then
    let r := s.rt
    let s := s.modRt fun r => { r with gateClosed := false, gateOpening := false }
    let s := legsUpdate t (modeChannels t s.modes.mode (initPower t (vsmEnter 6 s.modes.mode s)))
    s.post t (ev 0x0442 0 (leI 2 r.gateEps ++ le 4 (min 0xFFFFFFFF ((r.gateOpenAt - r.gateAt) / 1000))))
  else s

/-- The restart on a boundary of the grid rate group: the base tick of the boundary runs the same in its place. -/
def execRtRestart (t : Nat) (s : State) : Res :=
  let s := s.advance t
  .next (if s.onGridBoundary t then gateDue t s else s)

/-- The gate still closed RESTART_MAX after the return (R237). -/
def execRestartTimeout (t : Nat) (s : State) : Res :=
  let s := s.advance t
  .next (if s.gateTimeout t then rtTrip t s else s)

/-! ### Enter service (R242) -/

/-- A frequency inside the enter-service range (R242). -/
def State.inServiceF (s : State) (f : Nat) : Bool :=
  match s.grid.cfg with
  | none => false
  | some c => decide ((c.fNom : Int) + s.rt.esFLo * 10 ≤ f) && decide (f ≤ c.fNom + s.rt.esFHi * 10)

/-- The enter-service condition on a tick. -/
def State.esCond (s : State) : Bool :=
  let r := s.rt
  let k := s.grid.trk
  decide (r.esVLo * 1000 ≤ k.vPlus) && decide (k.vPlus ≤ r.esVHi * 1000) && s.inServiceF k.f && k.state == 2 && !s.tripTrue

/-- The delay is complete, with its event (R242). -/
def esComplete (t : Nat) (s : State) : State :=
  if s.rt.esDone ∨ s.rt.esTicks < s.rt.esDelay * 1000 ∨ !s.esCond then s
  else (s.modRt fun r => { r with esDone := true }).post t (ev 0x0443 0 [1])

/-- The delay counted to its end, or restarted with its event (R242). -/
def esTick (t : Nat) (s : State) : State :=
  if s.esCond then esComplete t (s.modRt fun r =>
    { r with esTicks := satInc 0xFFFFFFFF r.esTicks, esDone := r.esDone && r.esDelay * 1000 ≤ r.esTicks + 1 })
  else restartDelay t s

/-- The causes that wait for a completed delay (R105): 0x0A from safe stop with restart armed, 0x0C from islanded supply. -/
def serviceCauses (t : Nat) (s : State) : State :=
  if s.modes.trans.isSome || !s.rt.esDone then s
  else if s.modes.mode = 1 ∧ s.modes.restartArmed ∧ (entryBad s 3 1).isNone then
    let n := s.modes.startMode
    let s := forceMode t 0x0A 3 (if n = 4 ∨ n = 5 then n else 0) false s
    outputOrders t s
  else if s.modes.mode = 7 ∧ s.modes.reconnect ≠ 0 ∧ (entryBad s s.modes.reconnect 7).isNone then forceMode t 0x0C s.modes.reconnect 0 true s
  else s

/-- The enter-service delay completes (R242). -/
def execEnterServiceComplete (t : Nat) (s : State) : Res :=
  let s := s.advance t
  .next (serviceCauses t (esComplete t s))

/-! ### The monitor on a tick -/

/-- The far threshold of each grid window (spec/02_startup_reset.md R55, R56), lowest voltage, highest voltage and frequency: its end of the
enter-service range, on the ready side of the continuous band (DEDUCED, notes/assumptions/45.md). -/
def State.farCrossed (s : State) (f : Nat) : List Bool :=
  [decide (s.rt.esVLo * 1000 ≤ s.rt.vLo), decide (s.rt.vHi ≤ s.rt.esVHi * 1000), s.inServiceF f]

/-- A trip function of a list is at or past its threshold. -/
def Rt.anyTrue (r : Rt) (ks : List Nat) : Bool := ks.any fun k => let x := r.trips.getD k TripFn.reset; x.enable && x.count != 0

/-- The near threshold of each grid window: out of the continuous band, or at a trip function's threshold (R225, R229; DEDUCED,
notes/assumptions/45.md). -/
def State.nearCrossed (s : State) : List Bool :=
  let r := s.rt
  [(r.tickClass 0 r.vLo).1 != 0 || r.anyTrue [2, 3], (r.tickClass r.vHi 2000000).1 != 0 || r.anyTrue [0, 1], r.anyTrue [4, 5, 6, 7]]

/-- Consecutive in-window evaluations of each grid window (R55, R56): the first is one that crosses its far threshold; from then on one inside the
band counts, until one past its near threshold. -/
def windowTick (f : Nat) (s : State) : State :=
  let count (i : Nat) : Nat :=
    let n := s.rt.wins.getD i 0
    if (s.nearCrossed).getD i true then 0 else if n ≠ 0 ∨ (s.farCrossed f).getD i false then satInc 255 n else 0
  s.modRt fun r => { r with wins := (List.range 3).map count }

/-- What the ride-through term rises by, pu/s: P_RECOVER or 1 / ES_RAMP as they stand (R241, R249). -/
def Rt.rise (r : Rt) : F32 := if r.termRise = 1 then r.pRecover else ratF false 1 r.esRamp

/-- The ride-through term after the return or after a trip (R241): it rises, and is released at S_MAX. -/
def termTick (s : State) : State :=
  match s.rt.term, s.grid.cfg with
  | some x, some c =>
    if s.rt.termRise = 0 then s
    else
      let y := fadd x (fmul s.rt.rise 0x3A83126F)
      s.modRt fun r => { r with term := if fle (fdiv s.grid.lim.sMax c.sRated) y then none else some y }
  | _, _ => s

/-- What the monitor measures on a tick (R223, R224, R243, R248). -/
def rtMeasure (t : Nat) (o : GridObs) (c : GridCfg) (s : State) : State :=
  let m := c.hiLo (if s.onFrontL then o.magsL else o.mags)
  let uv := s.dcl.hasCfg && decide (s.dcl.vdc < (s.dcl.uv : Int) * 32768) && (s.modes.mode == 4 || s.modes.mode == 5)
  s.modRt fun r =>
    { r with vHi := m.1, vLo := m.2, f := (s.rtFreq t o).1, uvDcTicks := if uv then satInc 65535 r.uvDcTicks else 0, uvActed := r.uvActed && uv }

/-- The ride-through monitor on a tick, after the tracker (R223 to R243). Of what arises on one tick the trip decides first, then cessation, then the
return (R233). -/
def rtTick (t : Nat) (o : GridObs) (s : State) : State :=
  match s.grid.cfg with
  | none => s
  | some c =>
    let s := rtMeasure t o c s
    let s := windowTick s.rt.f (termTick (classTick t (tripTick s.rt.f (s.rtFreq t o).2 s)))
    let s := gateTick t (esTick t s)
    serviceCauses t (if s.tripsAt t ≠ 0 then rtTrip t s else cessationReturn t (cessation t s))

/-! ### The DC-link defence (R244 to R248) -/

/-- The DC-link over-limit (spec/02_startup_reset.md R55, R388, R249): V_dc at or above DCL_OV1, and from a reset until it has been below DCL_REL. -/
def State.dclOver (s : State) : Bool := s.dcl.hasCfg && !s.dcl.below

/-- V_dc in whole volts as events and RT_STATUS carry it, nearest. -/
def State.vdcV (s : State) : Nat := min 65535 ((s.dcl.vdc + 16384) / 32768).toNat

/-- DCL_DEFENCE (R256). -/
def dclEvent (t step : Nat) (s : State) : State := s.post t (ev 0x0445 0 ([BitVec.ofNat 8 step, 0] ++ le 2 s.vdcV))

/-- A battery port's generator set to its charge limit, at rest (spec/10_pv_battery_ports.md R306). -/
def overrideGen (b : Nat) (s : State) : State :=
  match (s.bat b).cfg with
  | some c => s.modGen c.gen fun g => { g with p := fneg (fdiv (intF ((s.bat b).chgMw : Nat) 1000) (intF ((c.pFs * 10 : Nat)) 1)), v := 0, a := 0 }
  | none => s

/-- Step 3 (R246): every group trips, every leg is off, the disconnects open, safe stop with ramp 0. -/
def dclStep3 (t : Nat) (s : State) : State :=
  let s := tripAll t 0xFF00 8 0 s
  let s := forceSafeStop t 0x03 s
  dclEvent t 3 (outputOrders t (allLegsOff t s))

/-- Steps 1 and 2 (R246): every PV port whose legs may switch to Defence, every battery port with a valid limit to Override. A Waiting port, whose legs
are disabled already, stays Waiting until the release (notes/assumptions/25.md). -/
def dclStep12 (t : Nat) (s : State) : State :=
  let s := (List.range 16).foldl (fun s p => if (s.pv p).state ≤ 1 then s else pvTo t p 6 (abortSweep t p 4 s)) s
  let s := legsUpdate t (s.modDcl fun d => { d with active := true })
  let s := (List.range 48).foldl (fun s n =>
    let l := s.leg n
    if l.role = 6 ∧ l.state ≠ 0 ∧ l.state ≠ 3 ∧ !s.inReaction n then legTo t n 0 0 (s.modLeg n fun l => { l with testEnd := 0 }) else s) s
  let s := dclEvent t 1 s
  let ports := (List.range 4).filter fun b => (s.bat b).state == 3
  if ports = [] then s
  else dclEvent t 2 (ports.foldl (fun s b => overrideGen b (batTo t b 4 (s.modBat b fun x => { x with overridden := true }))) (s.modDcl fun d => { d with step2 := true }))

/-- One evaluation of the defence (R246, R247). -/
def dclEval (t : Nat) (s : State) : State :=
  let d := s.dcl
  let at' (v : Nat) : Bool := decide ((v : Int) * 32768 ≤ d.vdc)
  let s := s.modDcl fun d =>
    { d with relSince := if !at' d.rel && s.rt.cls == 0 then some (d.relSince.getD t) else none }
  if at' d.ov2 then dclStep3 t s
  else if at' d.ov1 && s.chopFaultNow && !d.active then dclStep12 t s else s

/-- A result of a decimator output that the defence reads (R244, R245): value Q15, stamp t. -/
def dclSample (t ain out : Nat) (v : Int) (s : State) : State :=
  let d := s.dcl
  if !d.hasCfg then s
  else
    let s := if d.ain = ain ∧ d.out = out then
        dclEval t (s.modDcl fun d =>
          { d with vdc := v * (d.fs : Int), vdcValid := true, below := decide (v * (d.fs : Int) < (d.rel : Int) * 32768) || (d.below && decide (v * (d.fs : Int) < (d.ov1 : Int) * 32768)) })
      else s
    if d.chopAin = ain ∧ d.out = out then
      let cur := v * (d.chopFs : Int)
      let duty := (s.leg s.ports.chopper).applied.toInt
      let bad := s.ports.chopper != 255 && decide ((d.chopDMin : Int) ≤ duty) && decide (cur * 10 < (d.chopIMin : Int) * 32768)
      s.modDcl fun d => { d with chopCur := cur, chopSince := if bad then some (d.chopSince.getD t) else none }
    else s

/-- Chopper duty with no current for 20 µs (R245). -/
def execDclChopperFault (t : Nat) (s : State) : Res :=
  let s := s.advance t
  .next (match s.dcl.chopSince with
    | some a =>
      if a + 20000 ≤ t ∧ !s.dcl.chopFault then
        (s.modDcl fun d => { d with chopFault := true }).post t
          (ev 0x0444 s.ports.chopper (le 2 s.vdcV ++ le 2 (s.leg s.ports.chopper).applied.toNat))
      else s
    | none => s)

/-- A PV port restarted from its ripple map (R247): Tracking at the map's MPP, or at the held reference without one; Waiting in a mode with
its legs off. -/
def pvRestart (t p : Nat) (s : State) : State :=
  let x := s.pv p
  match x.cfg with
  | none => s
  | some c =>
    if s.quiet ∨ s.pvLatched c then pvTo t p 1 s
    else
      let ref := match x.mapMpp c with | some v => c.vcDeci v | none => x.ref
      pvTo t p 2 (s.modPv p fun x => { x with ref := ref })

/-- V_dc below DCL_REL with the class continuous for 10 ms (R247). -/
def execDclRelease (t : Nat) (s : State) : Res :=
  let s := s.advance t
  .next (match s.dcl.relSince with
    | some a =>
      if s.dcl.active ∧ a + 10000000 ≤ t then
        let s := s.modDcl fun d => { d with active := false, step2 := false }
        let s := (List.range 16).foldl (fun s p => if (s.pv p).state = 6 then pvRestart t p s else s) s
        let s := (List.range 4).foldl (fun s b =>
          (if (s.bat b).state = 4 then batTo t b 3 s else s).modBat b fun x => { x with overridden := false }) s
        dclEvent t 0 (legsUpdate t s)
      else s
    | none => s)

/-- V_dc below DCL_UV for 5 ms in grid-following or grid-forming (R248). -/
def execDclUndervoltage (t : Nat) (s : State) : Res :=
  let s := s.advance t
  .next (if s.uvTrip then rtTrip t s else s)

/-! ### Commands (R228, R230, R249 to R255) -/

/-- A trip function as a profile loads it: threshold and T in ms; T 0 is off. -/
def tripRow (thr : Int) (ms : Nat) : TripFn := { enable := ms != 0, thr := thr, tTicks := max 1 ms, count := 0, tripped := false }

/-- The trip defaults of a profile (R230). -/
def profileTrips (p : Nat) : List TripFn :=
  let of := [tripRow 2000 160, tripRow 1200 300000, tripRow (-1500) 300000, tripRow (-3500) 160]
  match p with
  | 1 => [tripRow 1200 160, tripRow 1100 2000, tripRow 700 2000, tripRow 450 160] ++ of
  | 2 => [tripRow 1200 160, tripRow 1100 2000, tripRow 700 10000, tripRow 450 160] ++ of
  | 3 => [tripRow 1200 160, tripRow 1100 13000, tripRow 880 21000, tripRow 500 2000] ++ of
  | _ => [tripRow 1250 100, tripRow 1100 3000, tripRow 850 1500, tripRow 150 200, tripRow 2000 100, tripRow 0 0, tripRow 0 0, tripRow (-2500) 100]

/-- The region defaults of a profile: U1, U2, U3, O1, O2 and B1..B5 (R228). -/
def profileRegions (p : Nat) : List Nat × List Nat :=
  match p with
  | 1 => ([880, 700, 500, 1100, 1200], [1, 2, 3, 2, 3])
  | 2 => ([880, 650, 300, 1100, 1200], [1, 2, 3, 2, 3])
  | 3 => ([880, 700, 500, 1100, 1200], [1, 1, 3, 3, 3])
  | _ => ([850, 500, 150, 1100, 1250], [1, 1, 3, 1, 3])

/-- A trip function's new settings: a running count goes on, that of a disabled one is cleared (R231). -/
def TripFn.keep (old new : TripFn) : TripFn := if new.enable then { new with count := old.count, tripped := old.tripped } else new

/-- A profile loaded (R228, R230). -/
def loadProfile (p : Nat) (r : Rt) : Rt :=
  let (v, b) := profileRegions p
  let u := fun i => v.getD i 0
  { r with
    profile := p, u1 := u 0, u2 := u 1, u3 := u 2, o1 := u 3, o2 := u 4, b := b
    trips := (List.range 8).map fun k => (r.trips.getD k TripFn.reset).keep ((profileTrips p).getD k TripFn.reset)
    rtPriority := 1, returnTicks := 3, permissive := 0, kSupport := 0, pRecover := f2, restartMax := 200 }

/-- E_STATE outside safe stop, maintenance and standby-synchronised. -/
def notIdle (s : State) : Bool := !(s.quiet || s.modes.mode == 3)

def specRtProfile : CmdSpec :=
  { opcode := 0x0420, lenOk := len 4, image := some 0
    modeBad := fun s _ => notIdle s
    checks := fun _ p => inB p.payload 0 1 4 :: resv p.payload 1 3
    run := fun p s => { st := s.modRt (loadProfile (u8 p.payload 0)) } }

def specRtRegionSet : CmdSpec :=
  { opcode := 0x0421, lenOk := len 12, image := some 0
    modeBad := fun s _ => notIdle s
    checks := fun _ p =>
      let b := p.payload
      let f := fun lo => let x := bits (u16 b 10) (lo + 1) lo; decide (x ≠ 0)
      [(0, u16 b 0 ≤ 1000), (2, u16 b 2 < u16 b 0), (4, 100 ≤ u16 b 4 && u16 b 4 < u16 b 2), (6, decide (1000 < u16 b 6)),
       (8, u16 b 6 < u16 b 8 && u16 b 8 ≤ 1400), (10, f 0 && f 2 && f 4 && f 6), (11, f 8 && u8 b 11 < 4)]
    run := fun p s =>
      let b := p.payload
      { st := s.modRt fun r =>
          { r with u1 := u16 b 0, u2 := u16 b 2, u3 := u16 b 4, o1 := u16 b 6, o2 := u16 b 8
                   b := (List.range 5).map fun i => bits (u16 b 10) (2 * i + 1) (2 * i) } } }

/-- The threshold's range by function (R251). -/
def tripThrOk (k : Nat) (pl : List Byte) : Bool :=
  if k < 2 then 1000 ≤ u16 pl 2 && u16 pl 2 ≤ 1400
  else if k < 4 then 100 ≤ u16 pl 2 && u16 pl 2 ≤ 1000
  else if k < 6 then decide (100 ≤ s16 pl 2) && decide (s16 pl 2 ≤ 10000)
  else decide (-10000 ≤ s16 pl 2) && decide (s16 pl 2 ≤ -100)

def specRtTripSet : CmdSpec :=
  { opcode := 0x0422, lenOk := len 8, image := some 0, key := 1
    checks := fun _ p => [inB p.payload 0 0 7, maskB p.payload 1 1, (2, tripThrOk (u8 p.payload 0) p.payload), inW p.payload 4 1 1000000]
    run := fun p s =>
      let b := p.payload
      let k := u8 b 0
      let x : TripFn := { enable := bit (u8 b 1) 0, thr := if k < 4 then (u16 b 2 : Int) else s16 b 2, tTicks := u32 b 4, count := 0, tripped := false }
      { st := s.modRt fun r => { r with trips := upd r.trips k fun o => o.keep x } } }

def specRtSupport : CmdSpec :=
  { opcode := 0x0423, lenOk := len 16, image := some 0
    checks := fun _ p =>
      let b := p.payload
      [inB b 0 0 1, inB b 1 1 20, inB b 2 0 1] ++ resv b 3 1 ++ [inH b 4 0 1000, inH b 6 0 200, inR b 8 0x3C23D70A 0x41200000, inH b 12 20 1000] ++
      resv b 14 2
    run := fun p s =>
      let b := p.payload
      { st := s.modRt fun r =>
          { r with rtPriority := u8 b 0, returnTicks := u8 b 1, permissive := u8 b 2, kSupport := u16 b 4, dB := u16 b 6
                   pRecover := f32 b 8, restartMax := u16 b 12 } } }

def specRtService : CmdSpec :=
  { opcode := 0x0424, lenOk := len 16, image := some 0
    checks := fun _ p =>
      let b := p.payload
      [inH b 0 880 1000, (2, 1000 ≤ u16 b 2 && u16 b 2 ≤ 1100 && u16 b 0 < u16 b 2), inS b 4 (-5000) 0, inH b 6 0 5000, inH b 8 0 600,
       inH b 10 1 1000] ++ resv b 12 4
    run := fun p s =>
      let b := p.payload
      { st := s.modRt fun r =>
          { r with esVLo := u16 b 0, esVHi := u16 b 2, esFLo := s16 b 4, esFHi := u16 b 6, esDelay := u16 b 8, esRamp := u16 b 10
                   esDone := r.esDone && u16 b 8 * 1000 ≤ r.esTicks } } }

def specRtDclinkConfig : CmdSpec :=
  { opcode := 0x0425, lenOk := len 20, image := some 0
    modeBad := fun s _ => !s.quiet
    checks := fun _ p =>
      let b := p.payload
      [inB b 0 0 23, maskB b 1 3, (2, u8 b 2 < 24 || u8 b 2 == 0xFF)] ++ resv b 3 1 ++
      [(6, decide (u16 b 4 < u16 b 6)), (8, decide (u16 b 6 < u16 b 8)), (10, u16 b 8 < u16 b 10 && u16 b 10 ≤ u16 b 12), inH b 12 100 2000, inH b 14 1 1000,
       (16, 1 ≤ u16 b 16 && u16 b 16 ≤ 10000 && u16 b 16 ≤ 10 * u16 b 14), inH b 18 328 32767]
    run := fun p s =>
      let b := p.payload
      { st := s.modDcl fun d =>
          { d with
            hasCfg := true, ain := u8 b 0, out := u8 b 1 % 4, chopAin := u8 b 2, uv := u16 b 4, rel := u16 b 6, ov1 := u16 b 8, ov2 := u16 b 10
            fs := u16 b 12, chopFs := u16 b 14, chopIMin := u16 b 16, chopDMin := u16 b 18, relSince := none, chopSince := none } } }

def specRtDclinkClear : CmdSpec :=
  { opcode := 0x0426, lenOk := len 0
    modeBad := fun s _ => s.dcl.active || s.dclOver
    run := fun _ s => { st := s.modDcl fun d => { d with chopFault := false, chopSince := none } } }

/-- The 48 bytes of RT_STATUS (R255). -/
def rtStatus (s : State) : List Byte :=
  let r := s.rt
  let flags := flagAt r.gateClosed 0 + flagAt s.modes.restartArmed 1 + flagAt (r.esTicks != 0 && !r.esDone) 2 + flagAt s.dcl.active 3 +
    flagAt s.dcl.step2 4 + flagAt s.chopFaultNow 5 + flagAt r.supportOn 6 + flagAt r.term.isSome 7
  let term := match r.term with | some x => min 0xFFFE (fround x 1000).toNat | none => 0xFFFF
  le 1 r.cls ++ le 1 r.profile ++ le 1 flags ++ le 1 r.retCount ++ le 2 (milli16 r.vHi) ++ le 2 (milli16 r.vLo) ++
  (r.trips.flatMap fun x => le 4 x.count) ++ le 2 s.vdcV ++ le 2 term ++
  le 2 (if r.esDone then 0 else (r.esDelay * 1000 - r.esTicks + 999) / 1000) ++ zeros 2

def specRtStatus : CmdSpec :=
  { opcode := 0x0427, lenOk := len 0, run := fun _ s => { st := s, data := rtStatus s } }

def execRtProfile (p : Packet) (s : State) : Res := runCommand specRtProfile p s
def execRtRegionSet (p : Packet) (s : State) : Res := runCommand specRtRegionSet p s
def execRtTripSet (p : Packet) (s : State) : Res := runCommand specRtTripSet p s
def execRtSupport (p : Packet) (s : State) : Res := runCommand specRtSupport p s
def execRtService (p : Packet) (s : State) : Res := runCommand specRtService p s
def execRtDclinkConfig (p : Packet) (s : State) : Res := runCommand specRtDclinkConfig p s
def execRtDclinkClear (p : Packet) (s : State) : Res := runCommand specRtDclinkClear p s
def execRtStatus (p : Packet) (s : State) : Res := runCommand specRtStatus p s

end Sys2Proof.Machine
end

