-- ==== Sys2Proof/Machine/Islanding.lean ====
section
/-! DEFINITION. Islanding detection and the awn code (spec/09_islanding.md R257 to R285). -/

namespace Sys2Proof.Machine

/-- The detector changed. -/
def State.modIsl (f : Isl → Isl) (s : State) : State := { s with isl := f s.isl }

/-! ### The code (R257 to R260) -/

/-- Parity of a number: whether it has an odd count of ones, over its low n bits. -/
def parity : Nat → Nat → Bool
  | 0, _ => false
  | n + 1, v => xor (v % 2 == 1) (parity n (v / 2))

/-- One step of a 19-bit register with the given taps (R257). -/
def lfsr (taps r : Nat) : Nat := r / 2 + flagAt (parity 19 (r &&& taps)) 18

/-- The registers after n steps. -/
def codeRegs : Nat → Nat × Nat → Nat × Nat
  | 0, r => r
  | n + 1, r => codeRegs n (lfsr 0x27 r.1, lfsr 0x63 r.2)

/-- chip(k, j): +1 or −1 (R257). -/
def chip (k j : Nat) : Int :=
  let r := codeRegs j (1, 0x40000 ||| k)
  if (r.1 ^^^ r.2) % 2 = 0 then 1 else -1

/-- The code index by its source, and which source: 0 explicit, 1 fleet address, 2 serial number (R259). -/
def State.awnCode (s : State) : Nat × Nat :=
  if s.isl.cfg.explicit then (s.isl.cfg.code, 0)
  else match (if s.net.conflict then none else s.net.addr) with
    | some a => (a, 1)
    | none => (crc32c (fit 8 (s.mem.serial.getD [])) % 2 ^ 18, 2)

/-- The device's own code, which correlator 0 holds, and its source (R259, R273): the one in use, else the one that an epoch would take. -/
def State.ownCode (s : State) : Nat × Nat := if s.isl.epochAt.isSome then (s.isl.codeInUse, s.isl.srcInUse) else s.awnCode

/-- The epoch is to be aligned to PTP (R260, R281). -/
def State.awnAlign (s : State) : Bool := s.net.ptpLocked && s.timeValid && !s.isl.cfg.freeRun

/-! ### States (R264, R268, R278) -/

/-- The current channel lacks a kind-7 slot (R201, R268). -/
def State.lacksAwnSlot (s : State) : Bool :=
  match s.grid.cfg with
  | some c => !(List.range 16).any fun i => slotKind (inSlot s.eng.run c.curChan i) == 7
  | none => true

/-- The detector enters a state, with AWN_STATE (R285). Leaving injection sets the set-points to 0 and clears the count; a suspension or Off ends the
epoch as well, and an injection that begins in No path begins an epoch of its own (R260). -/
def awnTo (t st cause : Nat) (s : State) : State :=
  let old := s.isl.state
  if old = st then s
  else
    let starts := (st == 1 || st == 2) && !(old == 1 || old == 2)
    let stop := st == 0 || st == 3 || (starts && old == 4)
    (s.modIsl fun x =>
      { x with
        state := st, noPathCount := 0
        count := if st = 1 ∨ st = 2 then x.count else 0
        inject := if st = 1 ∨ st = 2 then x.inject else [0, 0, 0], evMod := if st = 1 ∨ st = 2 then x.evMod else 0
        chipVal := if stop then 0 else x.chipVal, epochAt := if stop then none else x.epochAt, chips := if stop then [] else x.chips
        injFrom := if starts ∨ old = 0 ∨ old = 3 then t else x.injFrom }).post t
      (ev 0x0531 0 [BitVec.ofNat 8 old, BitVec.ofNat 8 st, BitVec.ofNat 8 cause])

/-- The state that the enable, the mode and the baseline give (R264, R278). -/
def State.awnGoal (s : State) : Nat :=
  if !s.isl.cfg.enable then 0 else if !s.awnMode then 3 else if s.lacksAwnSlot then 4 else if s.isl.zBase.isSome then 2 else 1

/-- The state follows a command or a mode change (R278). -/
def awnRefresh (t cause : Nat) (s : State) : State :=
  let g := s.awnGoal
  let was := s.isl.state
  if g = 0 ∨ g = 3 ∨ was = 0 ∨ was = 3 then awnTo t g (if g = 4 then 3 else cause) (s.modIsl fun x => { x with weak := false }) else s

/-! ### Chips and epochs (R260, R261) -/

/-- 1 s and one chip in ns. -/
def second : Nat := 1000000000
def chipNs : Nat := 500000

/-- Settings that wait for an epoch boundary come into force (R278). -/
def takeAwnCfg (s : State) : State := s.modIsl fun x => { x with cfg := x.cfgPend.getD x.cfg, cfgPend := none }

/-- The epoch of an injection that begins (R260): the present second where epochs are aligned, else the first 500 µs multiple of device time after it
began. -/
def startEpoch (t : Nat) (s : State) : State :=
  let s := takeAwnCfg s
  let k := s.awnCode
  s.modIsl fun x =>
    { x with
      epochAt := some (if s.awnAlign then t - t % second else (x.injFrom + chipNs - 1) / chipNs * chipNs), aligned := s.awnAlign
      codeInUse := k.1, srcInUse := k.2 }

/-- The chip in progress at t (R260, R261), with an empty record for its samples; a chip already in progress is left as it is. The window of an evaluation
and the chip in progress are kept. -/
def awnChip (t : Nat) (s : State) : State :=
  let s := awnRefresh t 1 s
  if s.isl.state = 0 ∨ s.isl.state = 3 ∨ !s.d8On then s
  else
    let s := if s.isl.epochAt.isNone then startEpoch t s else s
    s.modIsl fun x =>
      match x.epochAt with
      | some e =>
        if t < e then x
        else
          let n := (t - e) / chipNs
          let c := chip x.codeInUse (n % 2000)
          let new : AwnChip := { AwnChip.reset with start := e + n * chipNs, j := n % 2000, c := c }
          { x with
            chip := n % 2000, chipVal := c, aligned := x.aligned && s.awnAlign
            chips := if (x.chips.head?.map fun y => y.start) = some new.start then x.chips else (new :: x.chips).take 202 }
      | none => x

def execAwnChip (t : Nat) (s : State) : Res := .next (awnChip t (s.advance t))

/-- An epoch boundary, 1 s after the epoch began (R260, R278): new settings and the code apply; once PTP is locked again the epoch is realigned to the
second. -/
def awnEpoch (t : Nat) (s : State) : State :=
  match s.isl.epochAt with
  | none => s
  | some e =>
    if t < e + second then s
    else
      let x := s.isl
      let s := takeAwnCfg s
      let re := s.awnAlign && !x.aligned
      let k := s.awnCode
      awnChip t (s.modIsl fun y =>
        { y with
          epochAt := some (if s.awnAlign then t - t % second else e + (t - e) / second * second), aligned := s.awnAlign, codeInUse := k.1, srcInUse := k.2
          spanAt := if x.cfgPend.isSome || re || x.codeInUse != k.1 then some t else x.spanAt })

def execAwnEpoch (t : Nat) (s : State) : Res := .next (awnEpoch t (s.advance t))

/-- A boundary of the grid rate group resumes an injection that its opened gate allows (R278). -/
def awnResume (t : Nat) (s : State) : State := if s.isl.state = 3 ∧ s.awnMode then awnChip t s else s

/-- The modulation of E_v from a boundary of the grid rate group on (R261, R263): c_k × AWN_LEVEL × 0.2. -/
def awnLatch (s : State) : State :=
  s.modIsl fun x => { x with evMod := if s.injecting ∧ s.modes.mode = 5 then intF (x.chipVal * (x.cfg.level : Int)) 5000 else 0 }

/-- The injection set-points of a grid-group boundary (R261 to R263): −c_k × A × sin(θ+ − p × 120°) with the sine of R130, 0 when not
injecting and in grid-forming. -/
def awnBoundary (s : State) : State :=
  match s.grid.cfg with
  | none => s
  | some c =>
    let on := s.injecting && s.modes.mode == 4
    let fs := f32 (entryImg s.eng.run c.curChan) 8
    let a := fdiv (fmul (fmul (intF (s.isl.cfg.level : Nat) 1000) fSqrt2) c.iRated) fs
    let th := (s.grid.trk.outputs.getD 0 0).toInt
    let val (p : Nat) : BitVec 16 :=
      if on ∧ (p = 0 ∨ 3 ≤ c.wiring) then
        BitVec.ofInt 16 (fQ15Up (fmul (fmul (intF (-s.isl.chipVal) 1) a) (q15F (sinQ15 (th - (p * 65536 / 3 : Nat))))))
      else 0
    s.modIsl fun x => { x with inject := (List.range 3).map val }

/-! ### The samples of a chip (R265) -/

/-- The d and q contributions of a phase's sample at θ+, Q30 (R191, R265): of phase p of three at θ+ − p × 120°, or of phase a with its quadrature
signal for wiring 1 and 2. -/
def dqPart (wiring p : Nat) (th v quad : Int) : Int × Int :=
  if 3 ≤ wiring then
    let a := th - (p * 65536 / 3 : Nat)
    (v * cosQ15 a, -(v * sinQ15 a))
  else (v * cosQ15 th + quad * sinQ15 th, quad * cosQ15 th - v * sinQ15 th)

/-- The place 0..5 of an input in the sums of a chip: front G a, b, c, then the configured currents a, b, c; with wiring 1 and 2 phase a alone
(R265). -/
def State.awnPlace (s : State) (c : GridCfg) (ain : Nat) : List Nat :=
  (List.range 6).filter fun k =>
    decide (k % 3 < (if 3 ≤ c.wiring then 3 else 1)) && ((if k < 3 then c.frontG.getD k 0xFF else s.isl.cfg.inputs.getD (k - 3) 0xFF) == ain)

/-- A result of the configured decimator output counted in the chip that holds its stamp (R265). -/
def awnSample (stamp ain out : Nat) (v quad : Int) (s : State) : State :=
  match s.grid.cfg with
  | none => s
  | some c =>
    if s.isl.cfg.decim = out ∧ s.isl.chips ≠ [] then
      let th := (turnQ15 (s.thetaAtStamp stamp)).toInt
      let place := s.awnPlace c ain
      let put (x : AwnChip) (k : Nat) : AwnChip :=
        let q := dqPart c.wiring (k % 3) th v quad
        { x with acc := upd x.acc k fun a => (a.1 + q.1, a.2.1 + q.2, a.2.2 + 1) }
      s.modIsl fun x =>
        { x with chips := x.chips.map fun y => if y.start ≤ stamp ∧ stamp < y.start + chipNs then place.foldl put y else y }
    else s

/-- The complex mean over a chip of the voltages (o = 0) or the currents (o = 3), Q30, rounded downward (R265; notes/assumptions/30.md). -/
def AwnChip.mean (c : AwnChip) (wiring o : Nat) : Int × Int :=
  (List.range 3).foldl (fun m k =>
    let a := c.acc.getD (o + k) (0, 0, 0)
    let w : Int := if 3 ≤ wiring then 2 else 1
    let d : Int := (if 3 ≤ wiring then 3 * a.2.2 else a.2.2 : Nat)
    if a.2.2 = 0 then m else (m.1 + w * a.1 / d, m.2 + w * a.2.1 / d)) (0, 0)

/-! ### Evaluation and decision (R266 to R269, R273 to R275) -/

/-- Complex numbers with whole parts. -/
def cAdd (a b : Int × Int) : Int × Int := (a.1 + b.1, a.2 + b.2)
def cSub (a b : Int × Int) : Int × Int := (a.1 - b.1, a.2 - b.2)
def cScale (k : Int) (a : Int × Int) : Int × Int := (k * a.1, k * a.2)
def cMul (a b : Int × Int) : Int × Int := (a.1 * b.1 - a.2 * b.2, a.1 * b.2 + a.2 * b.1)
def cNorm (a : Int × Int) : Nat := (a.1 * a.1 + a.2 * a.2).toNat
def cSum (l : List (Int × Int)) : Int × Int := l.foldl cAdd (0, 0)

/-- The correlation Σ c_k (x_k − x̄) over n values, times n: its value over the window is this ÷ n² (R266). -/
def correlate (cs : List Int) (xs : List (Int × Int)) : Int × Int :=
  let m := cSum xs
  cSum ((cs.zip xs).map fun y => cScale y.1 (cSub (cScale xs.length y.2) m))

/-- What a window gives (R266), over n chips: Rv and Ri times n⁴ and the mean power of the residual times n⁹, all in Q30. `peers` are the codes of the peers
in the PCC map. -/
structure AwnWin where
  rv : Int × Int
  ri : Int × Int
  res : Nat
deriving DecidableEq, Repr

/-- A window of chips evaluated (R266): the components of the peers in the map are subtracted before Rv is formed. -/
def awnWindow (wiring : Nat) (peers : List Nat) (w : List AwnChip) : AwnWin :=
  let n : Int := w.length
  let cs := w.map fun c => c.c
  let v := w.map fun c => c.mean wiring 0
  let terms := peers.map fun k => let pc := w.map fun c => chip k c.j; (pc, correlate pc v)
  let peer (i : Nat) : Int × Int := cSum (terms.map fun x => cScale (x.1.getD i 0) x.2)
  let clean := (List.range w.length).map fun i => cSub (cScale (n * n) (v.getD i (0, 0))) (peer i)
  let rv := correlate cs clean
  let vs := cSum v
  let res := (List.range w.length).map fun i =>
    cNorm (cSub (cSub (cSub (cScale (n ^ 4) (v.getD i (0, 0))) (cScale (n ^ 3) vs)) (cScale (cs.getD i 0) rv)) (cScale (n * n) (peer i)))
  { rv := rv, ri := cScale (n * n) (correlate cs (w.map fun c => c.mean wiring 3)), res := res.sum }

/-- √(a ÷ b) of whole numbers as binary32. -/
def ratRoot (a b : Nat) : F32 := fsqrt (intF (a : Nat) b)

/-- The angles arctan 2⁻ⁱ, i = 0..31, in 10⁻⁹ degree. -/
def arctans : List Nat :=
  ([45000000000, 26565051177, 14036243468, 7125016349, 3576334375, 1789910608, 895173710, 447614171, 223810500, 111905677, 55952892, 27976453, 13988227, 6994114, 3497057, 1748528,
    874264, 437132, 218566, 109283, 54642, 27321, 13660, 6830, 3415, 1708, 854, 427, 213, 107, 53, 27])

/-- The direction of (x, y) with x > 0 in 10⁻⁹ degree: turned onto the x axis by the angles of a list, exactly. -/
def turnDown : List Nat → Nat → Int → Int → Int → Int
  | [], _, _, _, acc => acc
  | a :: r, i, x, y, acc =>
    if 0 < y then turnDown r (i + 1) (2 ^ i * x + y) (2 ^ i * y - x) (acc + a)
    else if y < 0 then turnDown r (i + 1) (2 ^ i * x - y) (2 ^ i * y + x) (acc - a)
    else acc

/-- The angle of a complex number, 0.01°, nearest, from −180° to 180°; none of 0. -/
def argCenti (z : Int × Int) : Option Int :=
  if z = (0, 0) then none
  else if z.1 = 0 then some (9000 * z.2.sign)
  else
    let a := if 0 < z.1 then turnDown arctans 0 z.1 z.2 0 else turnDown arctans 0 (-z.1) (-z.2) (if z.2 < 0 then -180000000000 else 180000000000)
    some ((a + 5000000) / 10000000)

/-- The measured quantities of an evaluation (R265, R266, R273). -/
structure AwnMeas where
  /-- |Ẑ| and |Ẑ1 − Ẑ2| in pu. -/
  z : F32
  diff : F32
  /-- |Ri| ÷ A. -/
  ri : F32
  /-- IR, 0.01. -/
  ir : Nat
  /-- |Rv ÷ Ri| in ohms. -/
  ohm : F32
  /-- |Rv_m| in V of each correlator. -/
  peerV : List F32
  /-- Angle of Rv ÷ Ri, 0.01°; none without a response. -/
  arg : Option Int
deriving DecidableEq, Repr

/-- The full scale of the configured currents in A: that of the current channel (notes/assumptions/30.md). -/
def State.awnFs (s : State) (c : GridCfg) : F32 := f32 (entryImg s.eng.run c.curChan) 8

/-- The measured quantities of a window of 200 chips, oldest first (R266). Without a current response the quotients have no value: free values. -/
def awnMeasure (c : GridCfg) (s : State) (w : List AwnChip) : AwnMeas :=
  let peers := (s.isl.corr.filter fun k => k.inMap).map fun k => k.code
  let a := awnWindow c.wiring peers w
  let b1 := awnWindow c.wiring peers (w.take 100)
  let b2 := awnWindow c.wiring peers (w.drop 100)
  let perAmp := fdiv c.frontFs (s.awnFs c)
  let zb := fdiv c.vNom c.iRated
  let free (n : String) : F32 := Config.freeFloat n [BitVec.ofNat 32 a.res]
  let ohm := if cNorm a.ri = 0 then fabs (free "impedance without a current response") else fmul (ratRoot (cNorm a.rv) (cNorm a.ri)) perAmp
  let two := cNorm b1.ri * cNorm b2.ri
  let diff := if two = 0 then fabs (free "impedance of half a window without a current response")
    else fmul (ratRoot (cNorm (cSub (cMul b1.rv b2.ri) (cMul b2.rv b1.ri))) two) perAmp
  let amp := fmul (fmul (intF (s.isl.cfg.level : Nat) 1000) fSqrt2) c.iRated
  let n4 : Nat := w.length ^ 4 * 2 ^ 30
  { z := fdiv ohm zb, diff := fdiv diff zb, ohm := ohm
    ri := fdiv (fmul (ratRoot (cNorm a.ri) (n4 * n4)) (s.awnFs c)) amp
    ir := if cNorm a.rv = 0 then Config.freeNat "IR without a voltage response" a.res % 65536
      else min 65535 ((2 * 100 * a.res + w.length * 200 * cNorm a.rv) / (2 * w.length * 200 * cNorm a.rv))
    peerV := s.isl.corr.map fun k =>
      fmul (ratRoot (cNorm (correlate (w.map fun x => chip k.code x.j) (w.map fun x => x.mean c.wiring 0)))
        ((w.length ^ 2 * 2 ^ 30) ^ 2)) c.frontFs
    arg := argCenti (cMul a.rv (a.ri.1, -a.ri.2)) }

/-- The window of an evaluation at t: the latest 200 chips that have ended, oldest first (R266). -/
def State.awnChips (s : State) (t : Nat) : List AwnChip :=
  ((s.isl.chips.filter fun c => decide (c.start + chipNs ≤ t)).take 200).reverse

/-- The window holds every chip of [t − 100 ms, t) (R266). -/
def State.awnFull (s : State) (t : Nat) : Bool :=
  let w := s.awnChips t
  w.length == 200 && (List.range 200).all fun i => (w.getD i AwnChip.reset).start + (200 - i) * chipNs == t

/-- The conditions of R267 that need no injection: Locked, class continuous, no realignment in a full window. -/
def State.awnQuiet (s : State) (t : Nat) : Bool :=
  s.grid.trk.state == 2 && s.rt.cls == 0 && s.awnFull t && (match s.isl.spanAt with | some a => decide (a + 100000000 ≤ t) | none => true)

/-- The two halves agree (R267). -/
def State.awnConsistent (s : State) (o : AwnMeas) : Bool :=
  fle o.diff (fmul (intF (s.isl.cfg.consist : Nat) 100) (fmax o.z (fdiv (intF (s.isl.cfg.zAbs : Nat) 1000) 0x41200000)))

/-- Validity of an evaluation at t (R267), the current response apart. -/
def State.awnValidBut (s : State) (t : Nat) (o : AwnMeas) : Bool :=
  s.awnQuiet t && s.injecting && decide (s.isl.injFrom + 100000000 ≤ t) && s.awnConsistent o

/-- 12,000 as binary32. -/
def f12000 : F32 := 0x463B8000

/-- The hits of R269. -/
def awnHit (x : Isl) (z : F32) : Bool × Bool :=
  let abs' := fle (intF (x.cfg.zAbs : Nat) 1000) z
  let ratio := x.state == 2 && (match x.zBase with | some b => fle (fmul (intF (x.cfg.ratio : Nat) 100) b) z | none => false)
  (abs' || ratio, abs')

/-- The evaluation of a valid window (R269). -/
def awnCount (t : Nat) (z : F32) (s : State) : State :=
  let x := s.isl
  let (hit, abs') := awnHit x z
  if hit then
    if x.cfg.nConf ≤ x.count + 1 then s.modIsl fun x => { x with count := 0, decided := if abs' then 1 else 2 }
    else s.modIsl fun x => { x with count := x.count + 1 }
  else if x.state = 1 then
    let n := x.n + 1
    let sum := fadd x.sum z
    if n = 2000 then awnTo t 2 2 (s.modIsl fun x => { x with count := 0, n := n, sum := sum, zBase := some (fdiv sum 0x44FA0000) })
    else s.modIsl fun x => { x with count := 0, n := n, sum := sum }
  else s.modIsl fun x => { x with count := 0, zBase := x.zBase.map fun b => fadd b (fdiv (fsub z b) f12000) }

/-- The amplitude that the peer table gives for a code, mA; none when it gives none (R273). -/
def State.peerAmp (s : State) (code : Nat) : Option Nat :=
  (s.net.peers.find? fun p => p.addr == code).bind fun p => if p.amp = 0 then none else some p.amp

/-- A peer correlator runs (R273). -/
def State.corrRuns (s : State) (c : Corr) : Bool := c.mode != 0 && c.held && s.isl.aligned && s.injecting

/-- A binary32 pu value in 0.001 pu, nearest, held to 16 bits. -/
def milliF (x : F32) : Nat := min 65535 (fround x 1000).toNat

/-- A peer correlator on an evaluation (R273 to R275): its share, its count toward the next change, and its dwell. -/
def corrStep (s : State) (valid : Bool) (o : AwnMeas) (m : Nat) (c : Corr) : Corr :=
  if !s.corrRuns c then c
  else
    let share := (s.peerAmp c.code).map fun a => milliF (fdiv (o.peerV.getD m 0) (fmul (intF (a : Nat) 1000) o.ohm))
    let c := { c with share := share }
    if !valid then { c with count := 0 }
    else
      let toward := match share with | some x => if c.inMap then decide (x < 300) else decide (500 ≤ x) | none => false
      { c with count := if toward then satInc 65535 c.count else 0, dwell := if c.mode = 2 ∧ !c.inMap then satInc 255 c.dwell else c.dwell }

/-- No path left once its cause is gone (R268): a slot is there again, or the current response is. The injection that R264 stops there is no condition of
this evaluation (notes/assumptions/30.md). -/
def State.pathBack (s : State) (t : Nat) (o : AwnMeas) : Bool :=
  !s.lacksAwnSlot && s.awnMode && s.d8On && s.awnQuiet t && (!s.isl.weak || (fle 0x3F000000 o.ri && s.awnConsistent o))

/-- An evaluation falls at t: every 10 chips on the epoch's chip grid (R266). -/
def State.awnDue (s : State) (t : Nat) : Bool := match s.isl.epochAt with | some e => decide (e ≤ t) && (t - e) % 5000000 == 0 | none => false

/-- The measured quantities kept and the peer correlators stepped by an evaluation (R266, R273, R283). -/
def awnKeep (t : Nat) (o : AwnMeas) (angle : Int) (rest valid : Bool) (s : State) : State :=
  s.modIsl fun x =>
    { x with
      z := o.z, zAngle := angle, riA := milliF o.ri, ir := o.ir, lastValid := valid, lastValidAt := if valid then t else x.lastValidAt
      noPathCount := if rest && !valid then satInc 65535 x.noPathCount else 0
      corr := (List.range 64).map fun m => if m = 0 then x.corr.getD 0 Corr.reset else corrStep s valid o m (x.corr.getD m Corr.reset) }

/-- An evaluation with its measured quantities (R266 to R269); a baseline reset comes first (R280). -/
def awnDecide (t : Nat) (o : AwnMeas) (angle : Int) (s : State) : State :=
  let s := if s.isl.relearn then
      let s := s.modIsl fun x => { x with relearn := false, n := 0, sum := 0, zBase := none, count := 0 }
      if s.isl.state = 2 then awnTo t 1 0 s else s
    else s
  let rest := s.awnValidBut t o
  let valid := rest && fle 0x3F000000 o.ri
  let s := awnKeep t o angle rest valid s
  if s.isl.state = 4 then
    if s.pathBack t o then awnChip t (awnTo t (if s.isl.zBase.isSome then 2 else 1) 4 s) else s.modIsl fun x => { x with count := 0 }
  else if s.lacksAwnSlot ∨ 200 ≤ s.isl.noPathCount then awnTo t 4 3 (s.modIsl fun x => { x with weak := !s.lacksAwnSlot })
  else if valid then awnCount t o.z s else s.modIsl fun x => { x with count := 0 }

/-- An evaluation (R266 to R269), while the detector runs. Without a response Ẑ has no angle: it is the one that the row gives
(notes/assumptions/30.md). -/
def awnEvaluate (t : Nat) (angle : Int) (s : State) : State :=
  match s.grid.cfg with
  | some c =>
    if s.awnDue t && s.d8On && s.isl.state != 0 && s.isl.state != 3 then
      let o := awnMeasure c s (s.awnChips t)
      awnDecide t o (o.arg.getD angle) s
    else s
  | none => s

def execAwnEvaluation (t : Nat) (angle : Int) (s : State) : Res := .next (awnEvaluate t angle (s.advance t))

/-- The device acts on an islanding decision, or only reports it (R105, R270, R276). With backup enabled a transition to safe stop goes on (DESIGN CHOICE,
notes/assumptions/26.md). -/
def islAct (t basis : Nat) (s : State) : State :=
  let m := s.modes.mode
  let act := (m == 4 || m == 5 || m == 6) && !s.outranked t 0x05 &&
    (!s.stopping || s.overrides t 0x05 || (!s.modes.backup && s.stopsSooner t 0x05))
  let s := s.post t (ev 0x0530 0 ([BitVec.ofNat 8 basis, if act then 1 else 0] ++ le 2 (milliF s.isl.z) ++
    le 2 (milliF (s.isl.zBase.getD 0)) ++ le 2 s.isl.ir))
  if act then
    if s.modes.backup then ordersNow t (forceMode t 0x05 7 0 false s)
    else forceMode t 0x05 1 0 false s
  else s

/-- The supervisor acts on a decision at its next tick (R270). -/
def islDecision (t : Nat) (s : State) : State :=
  if s.isl.decided = 0 then s else islAct t s.isl.decided (s.modIsl fun x => { x with decided := 0 })

/-- The row of a decision that waits: the safety tick acts on it in its own course. -/
def execIslDetected (t : Nat) (s : State) : Res := .next (islDecision t (s.advance t))

/-- A peer joins or leaves the PCC map (R275). -/
def execPeerPcc (t m : Nat) (s : State) : Res :=
  let s := s.advance t
  let c := s.isl.corr.getD m Corr.reset
  within m 64 (if m ≠ 0 ∧ ((!c.inMap ∧ 20 ≤ c.count) ∨ (c.inMap ∧ 200 ≤ c.count)) then
      (s.modIsl fun x => { x with corr := upd x.corr m fun c => { c with inMap := !c.inMap, count := 0, dwell := 0 } }).post t
        (ev 0x0532 m ([if c.inMap then 0 else 1] ++ le 3 c.code ++ le 2 (c.share.getD 0)))
    else s)

/-- The next peer-table entry above a code, in ascending address from the lowest again, that no other correlator holds, the device's
own among them (R273, R274). -/
def State.nextPeer (s : State) (m code : Nat) : Option Nat :=
  let held (a : Nat) : Bool := a == s.ownCode.1 || (List.range 64).any fun k => k != m && k != 0 && (let c := s.isl.corr.getD k Corr.reset; c.mode != 0 && c.held && c.code == a)
  let free := (s.net.peers.map fun p => p.addr).filter fun a => !held a
  match free.find? fun a => decide (code < a) with | some a => some a | none => free.head?

/-- An auto correlator moves on after 20 valid evaluations unless its peer has met R275, whose join is then due (R274). -/
def execAutoScanDwell (t m : Nat) (s : State) : Res :=
  let s := s.advance t
  let c := s.isl.corr.getD m Corr.reset
  within m 64 (if c.mode = 2 ∧ !c.inMap ∧ (!c.held ∨ (c.count < 20 ∧ 20 ≤ c.dwell)) then
      let next := s.nextPeer m c.code
      s.modIsl fun x => { x with corr := upd x.corr m fun c =>
        { c with code := next.getD c.code, held := c.held || next.isSome, dwell := 0, count := 0, share := none } }
    else s)

/-! ### Passive functions (R276, R277) -/

/-- The frequency of the passive functions at t: the tracker's, while it coasts that of θ_m over [t − 10 ms, t) (spec/08_ride_through.md R224). -/
def State.freqG (s : State) (t : Nat) : Nat :=
  if s.grid.trk.state = 3 ∧ !s.grid.trk.epsInvalid then s.grid.trk.angleFreq t 10000000 else s.grid.trk.f

/-- ROCOF has been at or above its threshold for T ticks, and that has not been acted on (R276). -/
def State.rocofDue (s : State) : Bool := s.isl.rocof.enable && !s.isl.rocof.acted && decide (s.isl.rocof.t ≤ s.isl.rocof.count)

/-- ROCOF trips (R276). -/
def rocofTrip (t : Nat) (s : State) : State :=
  if s.rocofDue then islAct t 3 (s.modIsl fun x => { x with rocof := { x.rocof with acted := true } }) else s

/-- ROCOF counted on a tick at which the frequency is f, with f of the ticks before (R276, R277). -/
def rocofTick (f : Nat) (s : State) : State :=
  let hist := (f :: s.isl.fHist).take 501
  let w := s.isl.rocof.w
  let full := decide (w < hist.length)
  let d : Int := (f : Int) - ((hist.getD w f : Nat) : Int)
  let cond := full && decide (s.isl.rocof.thr * w ≤ d.natAbs * 100)
  let hold := s.grid.trk.state == 3 && s.grid.trk.epsInvalid
  s.modIsl fun x =>
    { x with
      fHist := hist
      rocofW := if full then d * 100 / (max 1 w : Nat) else x.rocofW
      rocof := if !x.rocof.enable then { x.rocof with count := 0, acted := false }
        else if hold then x.rocof
        else if cond then { x.rocof with count := satInc 0xFFFFFFFF x.rocof.count }
        else { x.rocof with count := 0, acted := false } }

/-- The passive functions on a tick (R276, R277). A vector shift trips at once. -/
def passiveTick (t : Nat) (s : State) : State :=
  if s.grid.cfg.isNone then s
  else
    let s := rocofTrip t (rocofTick (s.freqG t) s)
    let s := if s.isl.vshift.enable ∧ s.isl.vshift.thr * 10 ≤ s.isl.jumpSeen then islAct t 4 s else s
    s.modIsl fun x => { x with jumpSeen := 0 }

/-- ROCOF at or above its threshold for T ticks (R276). -/
def execRocofTrip (t : Nat) (s : State) : Res := .next (rocofTrip t (s.advance t))

/-! ### Commands (R280 to R284) -/

/-- The configuration of an ISL_AWN_CONFIG payload (R281). -/
def awnCfgOf (pl : List Byte) : AwnCfg :=
  { enable := bit (u8 pl 0) 0, explicit := bit (u8 pl 0) 1, freeRun := bit (u8 pl 0) 2, level := u8 pl 1, nConf := u8 pl 2
    consist := u8 pl 3, code := u32 pl 4 % 2 ^ 18, zAbs := u16 pl 8, ratio := u16 pl 10
    inputs := [u8 pl 12, u8 pl 13, u8 pl 14], decim := u8 pl 15 % 4 }

/-- A configuration accepted (R278): while an epoch runs, level and code wait for its boundary. -/
def applyAwnCfg (t : Nat) (c : AwnCfg) (s : State) : State :=
  let old := s.isl.cfg
  let wait := s.isl.epochAt.isSome && (old.level != c.level || old.code != c.code || old.explicit != c.explicit)
  let now := if wait then { c with level := old.level, code := old.code, explicit := old.explicit } else c
  let s := s.modIsl fun x =>
    { x with cfg := now, cfgPend := if wait then some c else none, zBase := if c.enable && !old.enable then none else x.zBase
             n := if c.enable && !old.enable then 0 else x.n, sum := if c.enable && !old.enable then 0 else x.sum }
  awnRefresh t 0 s

def specIslAwnConfig : CmdSpec :=
  { opcode := 0x0500, lenOk := len 24, image := some 0
    modeBad := fun s _ => s.grid.cfg.isNone
    checks := fun s p =>
      let b := p.payload
      let w := match s.grid.cfg with | some c => c.wiring | none => 4
      [maskB b 0 7, inB b 1 2 10, inB b 2 5 61, inB b 3 10 100,
       (4, bit (u8 b 0) 1 || u16 b 4 == 0), (6, u8 b 6 < 4 && (bit (u8 b 0) 1 || u8 b 6 == 0)), (7, u8 b 7 == 0),
       inH b 8 50 5000, inH b 10 110 1000] ++
      ((List.range 3).map fun i => (12 + i, decide (if i < phasesOf w then u8 b (12 + i) < 24 else u8 b (12 + i) = 0xFF))) ++
      [maskB b 15 3] ++ resv b 16 8
    run := fun p s => { st := applyAwnCfg p.t (awnCfgOf p.payload) s } }

def specIslPassiveSet : CmdSpec :=
  { opcode := 0x0501, lenOk := len 12, image := some 0, key := 1
    checks := fun _ p =>
      let b := p.payload
      let r := u8 b 0 == 0
      [inB b 0 0 1, maskB b 1 1, if r then inH b 2 100 10000 else inH b 2 50 900, if r then inH b 4 20 500 else inH b 4 0 0] ++ resv b 6 2 ++
      [if r then inW b 8 1 10000 else inW b 8 1 1]
    run := fun p s =>
      let b := p.payload
      let set (x : Passive) : Passive :=
        { x with enable := bit (u8 b 1) 0, thr := u16 b 2, w := u16 b 4, t := u32 b 8, acted := x.acted && u32 b 8 ≤ x.count }
      { st := s.modIsl fun x => if u8 b 0 = 0 then { x with rocof := set x.rocof } else { x with vshift := set x.vshift } } }

/-- A correlator set (R274, R275): a reassigned correlator that was in the map leaves it, with its event. -/
def setPeer (t m mode code : Nat) (s : State) : State :=
  let c := s.isl.corr.getD m Corr.reset
  let free := if mode = 2 then s.nextPeer m 0x40000 else none
  let held := mode == 1 || free.isSome
  let code := if mode = 2 then free.getD 0 else code
  let s := s.modIsl fun x => { x with corr := x.corr.set m { mode := mode, code := code, held := held, inMap := false, share := none, count := 0, dwell := 0 } }
  if c.inMap then s.post t (ev 0x0532 m ([0] ++ le 3 c.code ++ le 2 (c.share.getD 0))) else s

def specIslPeerSet : CmdSpec :=
  { opcode := 0x0502, lenOk := len 8, image := some 0, key := 1
    checks := fun _ p =>
      let b := p.payload
      [inB b 0 1 63, inB b 1 0 2] ++ resv b 2 2 ++
      [(4, u8 b 1 == 1 || u16 b 4 == 0), (6, u8 b 6 < 4 && (u8 b 1 == 1 || u8 b 6 == 0)), (7, u8 b 7 == 0)]
    conflictBad := fun s p =>
      let b := p.payload
      u8 b 1 == 1 && (s.ownCode.1 == u32 b 4 || (List.range 64).any fun k => k != u8 b 0 && k != 0 &&
        (let c := s.isl.corr.getD k Corr.reset; c.mode != 0 && c.held && c.code == u32 b 4))
    run := fun p s => { st := setPeer p.t (u8 p.payload 0) (u8 p.payload 1) (u32 p.payload 4) s } }

/-- The 40 bytes of ISL_STATUS (R283). -/
def islStatus (s : State) : List Byte :=
  let x := s.isl
  let src := s.ownCode.2
  let flags := flagAt (x.epochAt.isSome && x.aligned && s.awnAlign) 0 + flagAt (src == 1) 1 + flagAt (src == 2) 2 + flagAt (src == 0) 3 + flagAt s.lacksAwnSlot 4 + flagAt x.lastValid 5
  let peers := (x.corr.filter fun c => c.inMap).length
  le 1 x.state ++ le 1 flags ++ le 1 x.count ++ le 1 x.cfg.nConf ++ le 4 s.ownCode.1 ++
  le 2 (milliF x.z) ++ leI 2 x.zAngle ++ le 2 (if x.state = 1 then 0 else milliF (x.zBase.getD 0)) ++ le 2 x.riA ++ le 2 x.ir ++ le 2 peers ++
  le 8 x.lastValidAt ++ leI 4 x.rocofW ++ leI 2 s.grid.trk.jump ++ zeros 6

def specIslStatus : CmdSpec :=
  { opcode := 0x0503, lenOk := len 0, run := fun _ s => { st := s, data := islStatus s } }

/-- The 512 bytes of ISL_PCC_MAP (R284). -/
def pccMap (s : State) : List Byte :=
  le 4 s.ownCode.1 ++ zeros 4 ++
  (List.range 63).flatMap fun i =>
    let c := s.isl.corr.getD (i + 1) Corr.reset
    le 3 c.code ++ le 1 (c.mode + flagAt (s.corrRuns c) 2 + flagAt c.inMap 3 + flagAt c.share.isNone 4) ++ le 2 (c.share.getD 0) ++ le 2 c.count

def specIslPccMap : CmdSpec :=
  { opcode := 0x0504, lenOk := len 0, run := fun _ s => { st := s, data := pccMap s } }

def specIslBaselineReset : CmdSpec :=
  { opcode := 0x0505, lenOk := len 0
    modeBad := fun s _ => s.isl.state == 0
    run := fun _ s => { st := s.modIsl fun x => { x with relearn := true } } }

/-- What a restart of D8 does to the detector (R278). -/
def awnRestart (t : Nat) (s : State) : State :=
  let s := s.modIsl fun x =>
    { x with count := 0, n := 0, sum := 0, zBase := none, noPathCount := 0, epochAt := none, chips := [], chipVal := 0, inject := [0, 0, 0]
             injFrom := t, weak := false
             corr := x.corr.map fun c => { c with inMap := false, count := 0, dwell := 0, share := none } }
  if s.isl.state = 2 ∨ s.isl.state = 4 then awnTo t 1 5 s else s

def execIslAwnConfig (p : Packet) (s : State) : Res := runCommand specIslAwnConfig p s
def execIslPassiveSet (p : Packet) (s : State) : Res := runCommand specIslPassiveSet p s
def execIslPeerSet (p : Packet) (s : State) : Res := runCommand specIslPeerSet p s
def execIslStatus (p : Packet) (s : State) : Res := runCommand specIslStatus p s
def execIslPccMap (p : Packet) (s : State) : Res := runCommand specIslPccMap p s
def execIslBaselineReset (p : Packet) (s : State) : Res := runCommand specIslBaselineReset p s

end Sys2Proof.Machine
end

