-- ==== Sys2Proof/Machine/Ports.lean ====
section
/-! DEFINITION. PV and battery ports, BMS nodes, power sharing (spec/10_pv_battery_ports.md R286 to R313; spec/16_networks_fleet.md R475,
R476 for the node reports). -/

namespace Sys2Proof.Machine

/-- The ports group changed. -/
def State.modPorts (f : Ports → Ports) (s : State) : State := { s with ports := f s.ports }

/-! ### Voltages -/

/-- The newest voltage of a PV port in 0.1 V (R291). -/
def Pv.volts (x : Pv) (c : PvCfg) : Nat := (x.vNowQ * (c.vFs * 10 : Nat) / 32768).toNat

/-- The voltage of a battery port in V, binary32: the newest result of its input in the input's physical full scale (R301, R309). -/
def State.batVolts (s : State) (c : BatCfg) : F32 :=
  if c.vKind = 1 then
    let a := s.ain c.vIn
    fmul (q15F ((a.outs.getD 0 Decim.reset).val.toInt)) a.fs
  else
    let h := s.hk c.vIn
    fmul (q15F (h.code * 8 : Nat)) h.fs

/-! ### PV port states (R291, R292, R297) -/

/-- A leg of the port belongs to a latched protection group (R302); to one that is not Armed (R297). -/
def State.batLatched (s : State) (c : BatCfg) : Bool := c.legs.any fun n => match s.groupOf n with | some g => (s.pgroup g).state == 3 | none => false
def State.pvTripped (s : State) (c : PvCfg) : Bool := c.legs.any fun n => match s.groupOf n with | some g => (s.pgroup g).state != 0 | none => false

/-- A mode in which the battery or the PV ports hold the DC link (R303). -/
def State.holdingMode (s : State) : Bool := let m := s.modes.mode; m == 3 || m == 5 || m == 6 || m == 7

/-- k is below 1 (R304). -/
def State.curtails (s : State) : Bool := flt s.ports.k f1

/-- The newest voltage of a PV port lies in [V_MIN, V_MAX] (R292). -/
def Pv.inRange (x : Pv) (c : PvCfg) : Bool :=
  decide ((c.vMin * 32768 : Nat) ≤ x.vNowQ * (c.vFs : Int)) && decide (x.vNowQ * (c.vFs : Int) ≤ (c.vMax * 32768 : Nat))

/-- A Waiting port on a tick: the measured voltage is its reference, and the ticks in range count whether the mode permits its legs yet or not
(R291, R292). -/
def Pv.waitTick (c : PvCfg) (x : Pv) : Pv := { x with ref := x.volts c, inWin := if x.inRange c then satInc 65535 x.inWin else 0 }

/-- PV port p on a tick, curtailment apart (R291, R292, R297). -/
def pvTick (t p : Nat) (s : State) : State :=
  let x := s.pv p
  match x.cfg with
  | none => s
  | some c =>
    if x.state = 0 ∨ x.state = 6 then s
    else if s.quiet ∨ s.modes.mode = 0 ∨ s.pvLatched c then
      let s := pvTo t p 1 (abortSweep t p (if s.pvLatched c then 5 else 1) s)
      if x.state = 1 then s.modPv p (Pv.waitTick c) else s.modPv p fun x => { x with ref := x.volts c, inWin := 0 }
    else if x.state = 1 then s.modPv p (Pv.waitTick c)
    else if s.pvTripped c ∧ x.state = 3 then pvTo t p 2 (abortSweep t p 5 s)
    else s

/-- A Waiting port starts after 10 ms in range (R292), not while the DC-link defence holds the PV legs disabled (spec/08_ride_through.md R246). -/
def execPvPortStart (t p : Nat) (s : State) : Res :=
  let s := s.advance t
  let x := s.pv p
  within p 16 (match x.cfg with
    | some c =>
      if x.state = 1 ∧ 10 ≤ x.inWin ∧ !s.quiet ∧ s.modes.mode ≠ 0 ∧ !s.pvLatched c ∧ !s.dcl.active then
        legsUpdate t (pvTo t p 2 (s.modPv p fun x => { x with ref := min (x.volts c) (c.vMax * 10) }))
      else s
    | none => s)

/-! ### The local tracker and the references (R289, R293, R304) -/

/-- The power that a curtailed or holding port is to give, W (R304): k × P_mpp. -/
def State.pvGoal (s : State) (x : Pv) : F32 := fmul s.ports.k (intF (x.pMpp : Nat) 1000)

/-- The reference of a curtailed or holding port (R304): the voltage above the MPP where the map gives k × P_mpp, with its correction, up to V_MAX. -/
def State.refAbove (s : State) (x : Pv) (c : PvCfg) : Nat :=
  let goal := s.pvGoal x
  let v0 := c.column x.vMpp
  let v := ((List.range 128).find? fun v => v0 ≤ v && x.known v && fle (fmul (c.vc v) (x.current c v)) goal).getD (c.column (c.vMax * 10))
  min (c.vMax * 10) ((c.vcDeci v : Int) + x.corr).toNat

/-- The correction of such a reference by the error between measured and target power (R304): up where the port gives more, down where it gives less;
its size for that error is not stated and is a free value, of one column at most (notes/assumptions/28.md). -/
def correctRef (goal w : F32) (c : PvCfg) (x : Pv) : Pv :=
  let e := fsub w goal
  let m := Config.freeNat "reference correction for a power error" e.toNat % (c.vFs * 10 / 128 + 1)
  { x with corr := if flt 0 e then x.corr + m else if flt e 0 then x.corr - m else x.corr }

/-- The state of a port with its legs switching follows k (R291, R297, R303), and its reference k while it is curtailed or holds (R304); both in D8. -/
def pvYield (t p : Nat) (s : State) : State :=
  let x := s.pv p
  match x.cfg with
  | none => s
  | some c =>
    if x.state < 2 ∨ x.state = 6 then s
    else
      let st := if s.curtails then (if s.holdingMode then 5 else 4) else if x.state = 3 then 3 else 2
      let s := pvTo t p st (if x.state = 3 ∧ st ≠ 3 then abortSweep t p 3 s else s)
      if (st = 4 ∨ st = 5) ∧ (s.pv p).phase ≠ 3 then s.modPv p fun x => { x with ref := s.refAbove x c } else s

/-- Every port after k has been set. -/
def yieldAll (t : Nat) (s : State) : State := if s.d8On then (List.range 16).foldl (fun s p => pvYield t p s) s else s

/-- Slope dP/dV, voltage and power of the last 10 ms (R293): the least-squares line through the sample pairs and their means, W per V, V and W. Without
pairs, or where all have one voltage, no line is stated: the values are those the row gives (notes/assumptions/28.md). -/
def Pv.fit (x : Pv) (c : PvCfg) (slope v w : F32) : F32 × F32 × F32 :=
  let n : Int := x.fitN
  let den := n * x.fitVV - x.fitV * x.fitV
  let num := n * x.fitVP - x.fitV * x.fitP
  (if den = 0 then slope else intF (num.sign * den.sign * (num.natAbs * c.iFs : Nat)) (den.natAbs * 327680),
   if x.fitN = 0 then v else intF (x.fitV * c.vFs) (32768 * x.fitN),
   if x.fitN = 0 then w else intF (x.fitP * (c.vFs * c.iFs : Nat)) (10737418240 * x.fitN))

/-- The move of the reference, V (R293): clamp(0.25 × (dP/dV) × V² ÷ P, ±0.005 × V); at P = 0 the quotient is not stated and is free within the
clamp. -/
def trackMove (slope v w : F32) : F32 :=
  let q := if feq w 0 then Config.freeFloat "tracker move at zero power" [slope, v] else fdiv (fmul (fmul (fmul 0x3E800000 slope) v) v) w
  fclamp q (fneg (fmul 0x3BA3D70A v)) (fmul 0x3BA3D70A v)

/-- The sums of the fit begun anew. -/
def Pv.fitClear (t : Nat) (x : Pv) : Pv := { x with fitN := 0, fitV := 0, fitP := 0, fitVV := 0, fitVP := 0, fitAt := t }

/-- The local tracker of port p, every 10 ms, in D8 (R293). -/
def execLocalTracker (t p : Nat) (slope v w : F32) (s : State) : Res :=
  let s := s.advance t
  let x := s.pv p
  within p 16 (match x.cfg with
    | some c =>
      if !s.d8On ∨ t < x.fitAt + 10000000 then s
      else
        let (slope, v, w) := x.fit c slope v w
        let s := s.modPv p fun x => { x.fitClear t with refDitherAt := !x.refDitherAt }
        if x.phase = 3 then s
        else if x.state = 2 then
          let ref := (x.ref * 65536 + x.refF + fround (trackMove slope v w) 655360).toNat
          s.modPv p fun x =>
            { x with ref := min 65535 (ref / 65536), refF := ref % 65536, vMpp := min 65535 (fround v 10).toNat, pMpp := (fround w 1000).toNat }
        else if x.state = 4 ∨ x.state = 5 then pvYield t p (s.modPv p (correctRef (s.pvGoal x) w c))
        else s
    | none => s)

/-- The map's cells halved every MAP_HALF seconds, rounding down (R294). -/
def execMapHalving (t p : Nat) (s : State) : Res :=
  let s := s.advance t
  within p 16 (if !s.d8On ∨ t < (s.pv p).halvedAt + (s.pv p).mppt.mapHalf * 1000000000 then s
    else s.modPv p fun x => { x with map := (x.map.map fun e => (e.1, e.2 / 2)).filter fun e => e.2 != 0, halvedAt := t })

/-- The bound of a column in the global search (R295). -/
def Pv.bound (x : Pv) (c : PvCfg) (ref v : Nat) : F32 :=
  let isc := intF (c.iScMax : Nat) 10
  if x.known v then fmul (c.vc v) (x.current c v)
  else if ref < v then
    match (List.range v).reverse.find? fun k => x.known k with
    | some k => fmul (c.vc v) (x.current c k)
    | none => fmul (c.vc v) isc
  else fmul (c.vc v) isc

/-- (1 + CAND_MARGIN) × P. -/
def MpptCfg.over (m : MpptCfg) (p : F32) : F32 := fmul (fadd f1 (intF (m.margin : Nat) 1000)) p

/-- The mean power of the dwell reaches (1 + CAND_MARGIN) × P_now (R295). -/
def Pv.dwellHolds (x : Pv) (free : Nat) : Bool :=
  fle (x.mppt.over (intF (x.pNow : Nat) 1000)) (if x.dwellN = 0 then intF (free : Nat) 1000 else intF (x.dwellP : Nat) (1000 * x.dwellN))

/-- The sweep of a port in progress moved on to time t: the ramp, its stop rule, the move to the best point and the dwell there, or the return
(R295). -/
def sweepMove (t : Nat) (x : Pv) (c : PvCfg) : Pv :=
  let stepV := x.mppt.slew * 10 * (t - x.refAt) / 1000000
  let go (goal : Nat) : Nat := if x.ref ≤ goal then min goal (x.ref + stepV) else max goal (x.ref - stepV)
  let far (r : Nat) : Nat := if (if x.vEnd < x.vNow then decide (r < x.farV) else decide (x.farV < r)) then r else x.farV
  if x.phase = 0 then
    let r := go x.vEnd
    let left := (c.columns r x.vEnd).filter fun v => v != c.column r
    let hopeless := left.all fun v => flt (x.bound c (c.column x.vNow) v) (x.mppt.over (intF (x.bestP : Nat) 1000))
    let better := fle (x.mppt.over (intF (x.pNow : Nat) 1000)) (intF (x.bestP : Nat) 1000)
    { x with ref := r, farV := far r, phase := if r = x.vEnd ∨ hopeless then (if better then 1 else 4) else 0 }
  else if x.phase = 1 then
    let r := go x.bestV
    if r = x.bestV then { x with ref := r, phase := 2, dwellAt := t, dwellN := 0, dwellP := 0 } else { x with ref := r }
  else if x.phase = 2 then
    if x.dwellAt + x.mppt.dwell * 1000000 ≤ t ∧ !x.dwellHolds 0 then { x with phase := 4 } else x
  else { x with ref := go x.vNow }

/-- The reference on its way back to the voltage before a sweep that was returned or aborted, at SWEEP_SLEW (R295, R297). -/
def Pv.goBack (t : Nat) (x : Pv) : Pv :=
  let stepV := x.mppt.slew * 10 * (t - x.refAt) / 1000000
  let r := if x.ref ≤ x.vNow then min x.vNow (x.ref + stepV) else max x.vNow (x.ref - stepV)
  { x with ref := r, phase := if r = x.vNow then 0 else 3 }

/-- Each enabled port's reference posted (R289): Q15 of V_FS, with the dither of R293 while Tracking. Nothing is posted while D8 is off. -/
def execPvReferencePost (t : Nat) (s : State) : Res :=
  let s := s.advance t
  let post (x : Pv) : Pv :=
    match x.cfg with
    | none => x
    | some c =>
      if x.state = 0 then x
      else
        let x := if x.state = 3 then sweepMove t x c else if x.phase = 3 then x.goBack t else x
        let d : Int := if x.state = 2 then (if x.refDitherAt then (x.mppt.dither : Int) else -(x.mppt.dither : Int)) else 0
        { x with posted := BitVec.ofInt 16 (fQ15Up (intF (((x.ref : Int) + d) * 65536 + x.refF) (c.vFs * 655360))), refAt := t }
  .next (if s.d8On then { s with ports := { s.ports with pv := s.ports.pv.map post } } else s)

/-! ### Sample pairs (R294, R295) -/

/-- A cell counted, holding at 65,535; the list stays sorted. -/
def bumpCell (i : Nat) : List (Nat × Nat) → List (Nat × Nat)
  | [] => [(i, 1)]
  | (j, n) :: r => if i < j then (i, 1) :: (j, n) :: r else if i = j then (j, satInc 65535 n) :: r else (j, n) :: bumpCell i r

/-- A pair of a voltage and a current result, Q15 of V_FS and I_FS, at the voltage's aperture stamp: its cell, the sums of the local tracker and of the
second, and in a sweep the best point, the deficit up to this pair and the dwell (R293 to R295). -/
def Pv.pair (x : Pv) (c : PvCfg) (stamp : Nat) (v i : Int) : Pv :=
  let lastOf (q : Int) : Nat := min 127 (q / 256).toNat
  let cell := 128 * lastOf i + lastOf v
  let w := (v.toNat * c.vFs * i.toNat * c.iFs * 100) / (32768 * 32768)
  let x := { x with
    map := bumpCell cell x.map, secN := x.secN + 1, secP := x.secP + w
    fitN := x.fitN + 1, fitV := x.fitV + v, fitP := x.fitP + v * i, fitVV := x.fitVV + v * v, fitVP := x.fitVP + v * (v * i) }
  if x.state = 3 then
    let dwell := x.phase == 2 && decide (x.dwellAt ≤ stamp) && decide (stamp < x.dwellAt + x.mppt.dwell * 1000000)
    { x with
      crossed := if x.crossed.contains cell then x.crossed else cell :: x.crossed
      bestV := if x.phase = 0 ∧ x.bestP < w then v.toNat * c.vFs * 10 / 32768 else x.bestV
      bestP := if x.phase = 0 then max x.bestP w else x.bestP
      loss := x.loss + (x.pNow - w) * (stamp - x.lossAt), lossAt := max x.lossAt stamp
      dwellN := if dwell then x.dwellN + 1 else x.dwellN, dwellP := if dwell then x.dwellP + w else x.dwellP }
  else x

/-- A voltage result of a port: it waits for the current sample nearest to it. -/
def pvVoltage (stamp : Nat) (v : Int) (x : Pv) : Pv := { x with vNowQ := v, pendV := x.pendV ++ [(stamp, v)] }

/-- A current sample: each waiting voltage result that is not younger pairs with the nearer of this sample and the one before it. -/
def pvCurrent (stamp : Nat) (i : Int) (c : PvCfg) (x : Pv) : Pv :=
  let ready := x.pendV.filter fun e => e.1 ≤ stamp
  let near (e : Nat × Int) : Int :=
    match x.lastI with
    | some l => if l.1 ≤ e.1 ∧ e.1 - l.1 ≤ stamp - e.1 then l.2 else i
    | none => i
  let x := ready.foldl (fun x e => x.pair c e.1 e.2 (near e)) x
  { x with pendV := x.pendV.filter fun e => stamp < e.1, lastI := some (stamp, i) }

/-- A result of an AIN's decimator output, or of an HK input (out 4), as the PV port engine in D8 taps it (R294). -/
def pvTap (kind input out stamp : Nat) (v : Int) (s : State) : State :=
  if !s.d8On then s
  else
    let tap (x : Pv) : Pv :=
      match x.cfg with
      | none => x
      | some c =>
        let x := if c.vKind = kind ∧ c.vIn = input ∧ (kind = 2 ∨ c.decim = out) then pvVoltage stamp v x else x
        if kind = 1 ∧ c.iIn = input ∧ c.decim = out then pvCurrent stamp v c x else x
    if s.ports.pv.all fun x => x.cfg.isNone then s else { s with ports := { s.ports with pv := s.ports.pv.map tap } }

/-! ### The global search (R295, R296) -/

/-- Credit after a second's harvest at a mean power in mW (R296). -/
def Pv.grow (x : Pv) (c : PvCfg) (mean : Nat) : Pv :=
  let cap := intF ((c.pRated * 10 * 4 : Nat)) 10
  { x with credit := fmin cap (fadd x.credit (fmul (intF (x.mppt.budget : Nat) 100000) (intF (mean : Nat) 1000))) }

/-- The plan of a sweep to vEnd, s (R295): voltages in 0.1 V. -/
def Pv.plan (x : Pv) (vEnd : Nat) : F32 :=
  let d := intF ((if x.ref ≤ vEnd then vEnd - x.ref else x.ref - vEnd : Nat)) 10
  fdiv (fadd (fdiv (fmul f2 d) (intF (x.mppt.slew : Nat) 1)) (intF (x.mppt.dwell : Nat) 1)) 0x447A0000

/-- The end of the sweep that the search proposes for a port, if its region is not empty (R295). -/
def Pv.target (x : Pv) (c : PvCfg) (pNow : Nat) : Option Nat :=
  let ref := c.column x.ref
  let ok := (List.range 128).filter fun v =>
    fle (intF (c.vMin : Nat) 1) (c.vc v) && fle (c.vc v) (intF (c.vMax : Nat) 1) && (v + 2 ≤ ref || ref + 2 ≤ v) &&
    fle (x.mppt.over (intF (pNow : Nat) 1000)) (x.bound c ref v)
  let best := ok.foldl (fun b v => match b with
    | none => some v
    | some w => if flt (x.bound c ref w) (x.bound c ref v) then some v else some w) none
  best.bind fun b =>
    let side := ok.filter fun v => decide (v < ref) == decide (b < ref)
    let far := if b < ref then side.head? else side.getLast?
    far.map c.vcDeci

/-- A sweep started on port p (R295, R313): what the started event carries as V and P after is not stated (free values). -/
def startSweep (t p pNow vEnd : Nat) (reserve : F32) (s : State) : State :=
  let x := s.pv p
  let s := s.modPv p fun x =>
    { x with vNow := x.ref, pNow := pNow, vEnd := vEnd, reserve := reserve, bestV := x.ref, bestP := pNow, phase := 0, farV := x.ref
             crossed := [], ordered := false, refAt := t, loss := 0, lossAt := t, dwellN := 0, dwellP := 0 }
  (pvTo t p 3 s).post t (ev 0x0630 p ([0, 0] ++ le 2 x.ref ++ le 2 (Config.freeNat "PV_SWEEP started: V after" p) ++ le 2 (wattOf pNow) ++
    le 2 (Config.freeNat "PV_SWEEP started: P after" p) ++ zeros 4))

/-- The ports that sweep, and those that sweep or are ordered to (R295, R307). -/
def State.sweeping (s : State) : Nat := (s.ports.pv.filter fun y => y.state == 3).length
def State.sweepsDue (s : State) : Nat := (s.ports.pv.filter fun y => y.state == 3 || y.ordered).length

/-- The search of port p with its mean power over the last second (R295, R296); of a second without pairs the mean is not stated, and is `free`
(notes/assumptions/28.md). -/
def searchPort (t p free : Nat) (s : State) : State :=
  let x := s.pv p
  match x.cfg with
  | none => s
  | some c =>
    let mean := if x.secN = 0 then free else x.secP / x.secN
    let s := s.modPv p fun x => { x with secN := 0, secP := 0, meanP := mean }
    if x.state = 0 then s
    else
      let s := s.modPv p fun x => x.grow c mean
      let x := s.pv p
      if x.state ≠ 2 then s
      else if x.ordered then (if s.ports.sweepPar ≤ s.sweeping then s else startSweep t p mean (c.vMin * 10) x.reserve s)
      else if !x.mppt.global then s
      else match x.target c mean with
        | none => s
        | some vEnd =>
          let need := fmul (intF (mean : Nat) 1000) (x.plan vEnd)
          if t < x.lastSweep + x.mppt.minS * 1000000000 ∨ s.ports.sweepPar ≤ s.sweepsDue ∨ flt x.credit need then s
          else startSweep t p mean vEnd need s

/-- The global search, once per second, in D8 (R295). -/
def execGlobalSearch (t : Nat) (mean : List Nat) (s : State) : Res :=
  let s := s.advance t
  .next (if s.d8On && decide (s.ports.searchAt + 1000000000 ≤ t) then
      (List.range 16).foldl (fun s p => searchPort t p (mean.getD p 0) s) (s.modPorts fun p => { p with searchAt := t })
    else s)

/-- A sweep ends (R295, R296): accepted when the dwell is over and its mean power holds, returned when the reference is back. Where no pair has measured them, the
row gives the mean power of the dwell and the lost energy since the last pair, in mW·ns (notes/assumptions/28.md). -/
def execPvSweep (t p mean deficit : Nat) (s : State) : Res :=
  let s := s.advance t
  let x := s.pv p
  let lost := s.modPv p fun x => { x with loss := x.loss + deficit }
  within p 16 (if x.state = 3 ∧ s.d8On then
      if x.phase = 2 ∧ x.dwellAt + x.mppt.dwell * 1000000 ≤ t ∧ x.dwellHolds mean then
        pvTo t p 2 (endSweep t p 1 0 x.bestV (if x.dwellN = 0 then mean else x.dwellP / x.dwellN) x.farV lost)
      else if x.phase = 4 ∧ x.ref = x.vNow then pvTo t p 2 (endSweep t p 2 0 x.vNow x.pNow x.farV lost)
      else s
    else s)

/-! ### BMS nodes (R299, R300, spec/16_networks_fleet.md R475, R476) -/

/-- A node in a state, with its event (R300, R313). -/
def bmsTo (t n st : Nat) (s : State) : State :=
  (s.modBms n fun b => { b with state := st, staleTicks := 0 }).post t
    (ev 0x0632 n [BitVec.ofNat 8 st, BitVec.ofNat 8 (s.bms n).port])

/-- A discarded CAN frame counted (R475, R478). -/
def canDiscard (s : State) : State := { s with net := { s.net with canDiscards := (s.net.canDiscards + 1) % 2 ^ 32 } }

/-- A valid report of node n on a bus (R300, R475). -/
def bmsReport (t bus n : Nat) (d : List Byte) (s : State) : State :=
  let b := s.bms n
  let fresh := b.state == 0 || b.state == 4
  let s := s.modBms n fun b =>
    { b with iChg := u16 d 0, iDis := u16 d 2, vChg := u16 d 4, vDis := u16 d 6, closed := bit (u8 d 8) 0, seq := some (u8 d 9), age := 0
             bus := if fresh then some bus else b.bus, otherPosted := if fresh then false else b.otherPosted }
  if bit (u8 d 8) 1 then (if b.state = 4 then s else bmsTo t n 4 s)
  else if fresh then bmsTo t n 1 s
  else if b.state = 1 then (if b.age ≤ b.timeout then bmsTo t n 2 s else s)
  else if b.state = 3 then bmsTo t n 2 s
  else s

/-- A frame on a bus whose controller reads BMS messages (R475, R476). -/
def execBmsNodeReport (t bus ident : Nat) (data : List Byte) (s : State) : Res :=
  let s := s.advance t
  let c := s.net.cans.getD bus CanCtl.reset
  let n := ident / 256 % 256
  let b := s.bms n
  let fresh := b.state == 0 || b.state == 4
  let known := ident / 65536 == 0x1B5C && decide (n < 64) && ident % 256 == 1
  let valid := known && data.length == 16 && u8 data 8 < 4 && (data.drop 10).all (· == 0) && b.seq != some (u8 data 9)
  within bus 2 (if !s.d9On ∨ c.role ≠ 1 ∨ c.busOff then s
    else if !valid then canDiscard s
    else if !fresh ∧ b.bus ≠ some bus then
      let s := canDiscard s
      if b.otherPosted then s
      else (s.modBms n fun b => { b with otherPosted := true }).post t (ev 0x0C36 bus [3, BitVec.ofNat 8 n])
    else bmsReport t bus n data s)

/-- Node n Stale, where no valid message has come for BMS_TIMEOUT ticks (R300). -/
def bmsStale (t n : Nat) (s : State) : State :=
  let b := s.bms n
  if (b.state = 1 ∨ b.state = 2) ∧ b.timeout < b.age then bmsTo t n 3 s else s

/-- Node n Departed, where it has been Stale for BMS_DISABLE ticks (R300). -/
def bmsDepart (t n : Nat) (s : State) : State :=
  let b := s.bms n
  if b.state = 3 ∧ b.disable ≤ b.staleTicks then bmsTo t n 4 s else s

/-- A node's counts on a safety tick (R300, spec/00_scope.md R20). -/
def Bms.count (b : Bms) : Bms := { b with age := satInc 65535 b.age, staleTicks := if b.state = 3 then satInc 65535 b.staleTicks else 0 }

/-- The node states on a safety tick (R300). -/
def bmsTick (t : Nat) (s : State) : State := (List.range 64).foldl (fun s n => bmsStale t n (bmsDepart t n (s.modBms n Bms.count))) s

/-- No valid message for BMS_TIMEOUT (R300). -/
def execBmsNodeStale (t n : Nat) (s : State) : Res :=
  let s := s.advance t
  within n 64 (bmsStale t n s)

/-- Stale for BMS_DISABLE (R300). -/
def execBmsNodeDeparted (t n : Nat) (s : State) : Res :=
  let s := s.advance t
  within n 64 (bmsDepart t n s)

/-- The device's own message on a BMS bus (R475). -/
def execBmsStatusSend (t bus : Nat) (s : State) : Res :=
  let s := s.advance t
  let c := s.net.cans.getD bus CanCtl.reset
  let d : List Byte := [BitVec.ofNat 8 s.modes.mode, if s.dcl.step2 then 1 else 0] ++ zeros 6
  within bus 2 (if s.d9On ∧ c.role = 1 ∧ !c.busOff then
      { s with net := { s.net with cans := upd s.net.cans bus fun c => { c with sent := some (0x1B5C * 65536 + 0x80, d) } } }
    else s)

/-! ### Battery limits and states (R301, R302) -/

/-- Nodes of port b. -/
def State.nodesOf (s : State) (b : Nat) : List Bms := s.ports.bms.filter fun n => n.port == b

/-- The limits that the nodes of a port give now, mW: discharge, charge (R301). -/
def State.bmsLimits (s : State) (b : Nat) (c : BatCfg) : Nat × Nat :=
  let ns := s.nodesOf b
  let act := ns.filter fun n => n.state == 2 && n.closed
  if ns.any (fun n => n.state == 3) ∨ act = [] then (0, 0)
  else
    let v := s.batVolts c
    let mw := fun (i : Nat) => (fround (fmul (intF (i : Nat) 10) v) 1000).toNat
    let chg := if act.any fun n => fle (intF (n.vChg : Nat) 10) v then 0 else mw (act.foldl (fun a n => a + n.iChg) 0)
    let dis := if act.any fun n => flt v (intF (n.vDis : Nat) 10) then 0 else mw (act.foldl (fun a n => a + n.iDis) 0)
    (dis, chg)

/-- A port has a valid limit (R301): from an Active node that contributes, its contactor closed (R299), and no Stale one. -/
def State.validLimit (s : State) (b : Nat) : Bool :=
  let ns := s.nodesOf b
  ns.any (fun n => n.state == 2 && n.closed) && !ns.any fun n => n.state == 3

/-- A limit moved: down at once, up by at most 1.0 × P_FS per second (R301). -/
def limitMove (old new pFs : Nat) : Nat := if new ≤ old then new else min new (old + pFs * 10)

/-- No node of port b is Active, Joining or Stale (R302). -/
def State.noBms (s : State) (b : Nat) : Bool := !(s.nodesOf b).any fun n => n.state == 1 || n.state == 2 || n.state == 3

/-- The state of battery port b (R302); one with a leg in a latched group is Off (spec/13_protection.md R387), one that step 2 of the defence overrode is
overridden until the release (R306). -/
def batState (t b : Nat) (s : State) : State :=
  let x := s.bat b
  match x.cfg with
  | none => s
  | some c =>
    batTo t b (if !x.enable ∨ s.batLatched c then 0 else if s.noBms b then 1 else if !s.validLimit b then 2 else if x.overridden then 4 else 3) s

/-- Battery port b on a tick: its limits and its state (R301, R302). -/
def batTick (t b : Nat) (s : State) : State :=
  match (s.bat b).cfg with
  | none => s
  | some c =>
    let (d, g) := s.bmsLimits b c
    batState t b (s.modBat b fun x => { x with disMw := limitMove x.disMw d c.pFs, chgMw := limitMove x.chgMw g c.pFs })

/-- Every enabled battery port has lost its nodes, by their timeout or departure: cause 0x09 (spec/04_operating_modes.md R105, R302). -/
def State.bmsLost (s : State) : Bool :=
  let on := (List.range 4).filter fun b => (s.bat b).enable && (s.bat b).cfg.isSome
  on != [] && on.all s.noBms

/-! ### Sharing power (R303 to R306) -/

/-- A battery port holds a valid limit (R303). -/
def State.anyValid (s : State) : Bool := (List.range 4).any fun b => (s.bat b).state == 3 || (s.bat b).state == 4

/-- V_hold in V (R303). -/
def State.vHold (s : State) : Nat := s.ports.vdcRef + if s.anyValid then s.ports.holdOff else 0

/-- The holder flag (R303, R306). -/
def State.holderFlag (s : State) : Bool := s.holdingMode && s.anyValid && !s.dcl.step2

/-- The discharge and charge limits that the links of port b carry, mW (R303, R306). -/
def State.linkLimits (s : State) (b : Nat) : Nat × Nat :=
  let x := s.bat b
  match x.cfg with
  | none => (0, 0)
  | some c =>
    if !(x.state == 3 || x.state == 4) || s.quiet || s.modes.mode == 0 then (0, 0)
    else
      let d := if s.modes.mode = 3 then min x.disMw (s.ports.pHold * c.pFs * 10) else if s.modes.mode = 6 then 0 else x.disMw
      (if x.overridden then 0 else d, x.chgMw)

/-- The curtailment factor in the holding modes, every 50 µs (R304). -/
def execCurtailmentUpdate (t : Nat) (s : State) : Res :=
  let s := s.advance t
  .next (if s.holdingMode && s.ports.hasShare && s.dcl.vdcValid && decide (s.ports.curtAt + 50000 ≤ t) then
      let e := fsub s.vdcF (intF (s.vHold : Nat) 1)
      yieldAll t (s.modPorts fun p => { p with k := fclamp (fsub p.k (fmul 0x3A03126F e)) 0 f1, curtAt := t })
    else s)

/-- Σ P_mpp of the ports in Tracking, Sweeping or Curtailed (R305); a sweep leaves a port's P_mpp as it
was. -/
def State.ppvSum (s : State) : F32 :=
  s.ports.pv.foldl (fun a x => if 2 ≤ x.state ∧ x.state ≤ 4 then fadd a (intF (x.pMpp : Nat) 1000) else a) 0

/-- A target of port b written to its generator (R290, R306). -/
def batTarget (b : Nat) (w : F32) (s : State) : State :=
  match (s.bat b).cfg with
  | some c =>
    (s.modBat b fun x => { x with target := w }).modGen c.gen
      (Gen.setTarget (BitVec.ofInt 16 (fQ15Up (fdiv w (intF ((c.pFs * 10 : Nat)) 1)))))
  | none => s

/-- The rule of R305 in grid-following: battery power, k and the ports' targets. A BAT_SET for single ports is shared as it was set, scaled
when a clamp changes its sum (notes/assumptions/29.md). -/
def shareTick (s : State) : State :=
  match s.grid.cfg with
  | none => s
  | some c =>
    let ppv := s.ppvSum
    let lim := fun b => s.linkLimits b
    let dsum := intF (((List.range 4).foldl (fun a b => a + (lim b).1) 0 : Nat)) 1000
    let csum := intF (((List.range 4).foldl (fun a b => a + (lim b).2) 0 : Nat)) 1000
    let sets := s.ports.bat.foldl (fun a b => fadd a b.setW) 0
    let set := if s.ports.batSetPort then sets else s.ports.batSet
    let pb := if s.ports.batMode = 1 then fsub (fmul s.grid.pRef c.sRated) ppv else set
    let up := fmul s.grid.pUpper c.sRated
    let pb := fclamp pb (fsub (fmul s.grid.pLower c.sRated) ppv) (fsub up ppv)
    let pb := fclamp pb (fneg csum) dsum
    let k := if feq ppv 0 then f1 else fmin f1 (fdiv (fmax 0 (fsub up pb)) ppv)
    let sum := if flt pb 0 then csum else dsum
    let share (b : Nat) : F32 :=
      let l := intF ((if flt pb 0 then (lim b).2 else (lim b).1 : Nat)) 1000
      if s.ports.batSetPort && s.ports.batMode == 0 then
        (if feq sets 0 then 0 else fclamp (fdiv (fmul pb (s.bat b).setW) sets) (fneg (intF ((lim b).2 : Nat) 1000)) (intF ((lim b).1 : Nat) 1000))
      else if feq sum 0 then 0 else fdiv (fmul pb l) sum
    let s := s.modPorts fun p => { p with k := k, ppv := ppv, batTotal := pb }
    (List.range 4).foldl (fun s b => if (s.bat b).overridden then s else batTarget b (share b) s) s

/-- Targets outside grid-following: the present target within the limits of R303 (R306). -/
def clampTargets (s : State) : State :=
  (List.range 4).foldl (fun s b =>
    let l := s.linkLimits b
    if (s.bat b).overridden then s
    else batTarget b (fclamp (s.bat b).target (fneg (intF (l.2 : Nat) 1000)) (intF (l.1 : Nat) 1000)) s) s

/-- The ten link registers (R288, R303). -/
def portLinks (s : State) : State :=
  if !s.ports.hasShare then s
  else
    let vdc := BitVec.ofInt 16 (fQ15Up (intF (s.ports.vdcRef : Nat) s.dcl.fs))
    let lim := (List.range 4).flatMap fun b =>
      match (s.bat b).cfg with
      | some c =>
        let l := s.linkLimits b
        [BitVec.ofInt 16 (fQ15Up (intF (l.1 : Nat) (c.pFs * 10000))), BitVec.ofInt 16 (fQ15Up (intF (-(l.2 : Int)) (c.pFs * 10000)))]
      | none => [0, 0]
    let v : List (BitVec 16) := vdc :: (if s.holderFlag then 0x7FFF else 0) :: lim
    s.modEng fun e => { e with links := (List.range 10).foldl (fun l i => l.set (s.ports.linkBase + i) (v.getD i 0)) e.links }

/-- Who holds the DC link (R312). -/
def State.holder (s : State) : Nat :=
  if s.quiet || s.modes.mode == 0 then 0 else if s.modes.mode = 4 then 2 else if s.holderFlag then 1
  else if s.ports.pv.any fun x => 2 ≤ x.state && x.state ≤ 5 then 3 else 0

/-- The ports manager on a tick, after the grid manager (R301 to R306); cause 0x09 in grid-forming when the last battery port has lost its nodes
(spec/04_operating_modes.md R105, R302). -/
def portsTick (t : Nat) (s : State) : State :=
  let s := (List.range 4).foldl (fun s b => batTick t b s) (bmsTick t s)
  let s := (List.range 16).foldl (fun s p => pvTick t p s) s
  let s := if s.modes.mode = 4 then shareTick s
    else clampTargets (s.modPorts fun p =>
      { p with ppv := s.ppvSum, batTotal := p.bat.foldl (fun a b => fadd a b.target) 0, k := if s.quiet then f1 else p.k })
  let s := (List.range 4).foldl (fun s b => if (s.bat b).overridden ∧ 2 ≤ (s.bat b).state then overrideGen b s else s) (yieldAll t s)
  let s := portLinks (s.modPorts fun p => { p with holder := s.holder })
  if s.modes.mode = 5 ∧ s.bmsLost ∧ s.modes.trans = none then forceMode t 0x09 4 0 false s else s

/-! ### Commands (R307 to R312) -/

/-- Whether a leg is claimed by something other than PV port p, battery port b or, when `ch`, the chopper (R189, R286). -/
def State.claimed (s : State) (p b : Option Nat) (ch : Bool) (n : Nat) : Bool :=
  (match s.grid.cfg with | some c => c.legs.contains n | none => false) ||
  (match s.pvOfLeg n with | some q => p != some q | none => false) ||
  (match s.batOfLeg n with | some q => b != some q | none => false) || (!ch && s.ports.chopper == n)

/-- The configuration of PORT_PV_CONFIG (R308). -/
def pvCfgOf (pl : List Byte) : PvCfg :=
  { legs := (List.range (u8 pl 1)).map fun i => u8 pl (2 + i), vKind := u8 pl 6, vIn := u8 pl 7, iIn := u8 pl 8, decim := u8 pl 9 % 4
    vFs := u16 pl 10, iFs := u16 pl 12, iScMax := u16 pl 14, vMin := u16 pl 16, vMax := u16 pl 18, pRated := u16 pl 20 }

/-- The longest sweep of R296 fits in 40 ms. -/
def sweepFits (vMin vMax slew dwell : Nat) : Bool := 2 * (vMax - vMin) ≤ (40 - dwell) * slew

/-- A port without a configuration keeps what it had; the legs' roles and, for PV, interleaved phases (R286, R287). -/
def applyPvCfg (t : Nat) (p : Nat) (c : PvCfg) (s : State) : State :=
  let old := match (s.pv p).cfg with | some o => o.legs | none => []
  let s := old.foldl (fun s n => dropLeg n s) s
  let n := c.legs.length
  let s := (List.range n).foldl (fun s i => claimLeg (c.legs.getD i 0) 6 (some (cellPhase i n)) s) s
  legsUpdate t (s.modPv p fun x => { x with cfg := some c })

def specPortPvConfig : CmdSpec :=
  { opcode := 0x0600, lenOk := len 24, image := some 0, key := 1
    modeBad := fun s _ => !s.quiet
    stateBad := fun s p =>
      ((match (s.pv (u8 p.payload 0)).cfg with | some c => c.legs | none => []) ++ (pvCfgOf p.payload).legs).any s.legReacting
    checks := fun s p =>
      let b := p.payload
      let n := u8 b 1
      let m := (s.pv (u8 b 0)).mppt
      [inB b 0 0 15, inB b 1 1 4] ++ ((List.range 4).map fun i => (2 + i, decide (if i < n then u8 b (2 + i) < 48 else u8 b (2 + i) = 0xFF))) ++
      [inB b 6 1 2, inB b 7 0 (if u8 b 6 = 1 then 23 else 63), inB b 8 0 23, maskB b 9 3, inH b 10 100 2000, inH b 12 10 1000,
       inH b 14 1 (u16 b 12), (16, decide (50 ≤ u16 b 16) && decide (u16 b 16 < u16 b 18) && sweepFits (u16 b 16) (u16 b 18) m.slew m.dwell),
       (18, decide (u16 b 18 ≤ u16 b 10)), inH b 20 1 6000] ++ resv b 22 2
    conflictBad := fun s p =>
      let c := pvCfgOf p.payload
      decide (c.legs.dedup.length ≠ c.legs.length) || c.legs.any (s.claimed (some (u8 p.payload 0)) none false)
    run := fun p s => { st := applyPvCfg p.t (u8 p.payload 0) (pvCfgOf p.payload) s } }

/-- The configuration of PORT_BAT_CONFIG (R309). -/
def batCfgOf (pl : List Byte) : BatCfg :=
  { legs := (List.range 4).map fun i => u8 pl (2 + i), vKind := u8 pl 6, vIn := u8 pl 7, pFs := u16 pl 8, gen := u8 pl 10
    vMin := u16 pl 12, vMax := u16 pl 14 }

/-- A battery configuration in force: roles 7 for the primary legs, 8 for the secondary ones (spec/11_pwm.md R319). -/
def applyBatCfg (t : Nat) (b : Nat) (c : BatCfg) (s : State) : State :=
  let old := match (s.bat b).cfg with | some o => o.legs | none => []
  let s := old.foldl (fun s n => dropLeg n s) s
  let s := (List.range 4).foldl (fun s i => claimLeg (c.legs.getD i 0) (if i < 2 then 7 else 8) none s) s
  legsUpdate t (s.modBat b fun x => { x with cfg := some c })

def specPortBatConfig : CmdSpec :=
  { opcode := 0x0601, lenOk := len 16, image := some 0, key := 1
    modeBad := fun s _ => !s.quiet
    stateBad := fun s p =>
      ((match (s.bat (u8 p.payload 0)).cfg with | some c => c.legs | none => []) ++ (batCfgOf p.payload).legs).any s.legReacting
    checks := fun s p =>
      let b := p.payload
      inB b 0 0 3 :: resv b 1 1 ++ ((List.range 4).map fun i => inB b (2 + i) 0 47) ++
      [inB b 6 1 2, inB b 7 0 (if u8 b 6 = 1 then 23 else 63), inH b 8 100 10000, (10, u8 b 10 < 32 && (s.gen (u8 b 10)).powerSp)] ++ resv b 11 1 ++
      [inH b 12 50 1000, (14, decide (u16 b 12 < u16 b 14) && decide (u16 b 14 ≤ 1500))]
    conflictBad := fun s p =>
      let c := batCfgOf p.payload
      decide (c.legs.dedup.length ≠ c.legs.length) || c.legs.any (s.claimed none (some (u8 p.payload 0)) false) || s.owned 3 c.gen ||
      (List.range 4).any fun b => b != u8 p.payload 0 && (match (s.bat b).cfg with | some o => o.gen == c.gen | none => false)
    run := fun p s => { st := applyBatCfg p.t (u8 p.payload 0) (batCfgOf p.payload) s } }

def specPortChopperConfig : CmdSpec :=
  { opcode := 0x0602, lenOk := len 4, image := some 0
    modeBad := fun s _ => !s.quiet
    stateBad := fun s p => [s.ports.chopper, u8 p.payload 0].any s.legReacting
    checks := fun _ p => (0, u8 p.payload 0 < 48 || u8 p.payload 0 == 0xFF) :: resv p.payload 1 3
    conflictBad := fun s p => u8 p.payload 0 != 0xFF && s.claimed none none true (u8 p.payload 0)
    run := fun p s =>
      let n := u8 p.payload 0
      let s := if s.ports.chopper = 255 then s else dropLeg s.ports.chopper s
      let s := if n = 255 then s else claimLeg n 9 none s
      { st := legsUpdate p.t (s.modPorts fun x => { x with chopper := n }) } }

/-- E_CONFLICT of PORT_SHARE_CONFIG: a link of the range has an owner, or the grid links overlap it (R288). -/
def shareConflict (s : State) (base : Nat) : Bool :=
  (List.range 10).any fun i => s.owned 4 (base + i) ||
    (match s.grid.cfg with | some c => decide (c.linkBase ≤ base + i) && decide (base + i < c.linkBase + 8) | none => false)

def specPortShareConfig : CmdSpec :=
  { opcode := 0x0603, lenOk := len 8, image := some 0
    checks := fun s p =>
      let b := p.payload
      [inB b 0 0 54, inB b 1 0 1, (2, decide (s.dcl.uv < u16 b 2) && decide (u16 b 2 < s.dcl.ov1)), inB b 4 2 100, inB b 5 1 16, inH b 6 0 100]
    conflictBad := fun s p => shareConflict s (u8 p.payload 0)
    run := fun p s =>
      let b := p.payload
      { st := s.modPorts fun x =>
          { x with hasShare := true, linkBase := u8 b 0, batMode := u8 b 1, vdcRef := u16 b 2, holdOff := u8 b 4, sweepPar := u8 b 5, pHold := u16 b 6 } } }

/-- The parameters of PORT_MPPT_CONFIG (R311). -/
def mpptOf (pl : List Byte) : MpptCfg :=
  { global := bit (u8 pl 1) 0, minS := u16 pl 2, slew := u16 pl 4, dwell := u8 pl 6, margin := u8 pl 7, budget := u16 pl 8, mapHalf := u16 pl 10
    persist := u16 pl 12, dither := u16 pl 14 }

/-- The ports that a PORT_MPPT_CONFIG speaks of. -/
def mpptPorts (pl : List Byte) : List Nat := if u8 pl 0 = 0xFF then List.range 16 else [u8 pl 0]

def specPortMpptConfig : CmdSpec :=
  { opcode := 0x0604, lenOk := len 16, defer := true, image := some 0, key := 1
    checks := fun s p =>
      let b := p.payload
      let fits := (mpptPorts b).all fun k => match (s.pv k).cfg with | some c => sweepFits c.vMin c.vMax (u16 b 4) (u8 b 6) | none => true
      [(0, u8 b 0 < 16 || u8 b 0 == 0xFF), maskB b 1 1, inH b 2 10 3600, (4, decide (20 ≤ u16 b 4) && decide (u16 b 4 ≤ 500) && fits), inB b 6 2 10,
       inB b 7 5 100, inH b 8 10 500, inH b 10 10 65535, inH b 12 1 1000, inH b 14 0 200]
    run := fun p s => { st := (mpptPorts p.payload).foldl (fun s k => s.modPv k fun x => { x with mppt := mpptOf p.payload }) s } }

def specPortBmsConfig : CmdSpec :=
  { opcode := 0x0605, lenOk := len 8, image := some 0, key := 1
    checks := fun _ p =>
      let b := p.payload
      [inB b 0 0 63, (1, u8 b 1 < 4 || u8 b 1 == 0xFF), inH b 2 10 1000, (4, decide (2 * u16 b 2 ≤ u16 b 4) && decide (u16 b 4 ≤ 5000)),
       (6, decide (1000 ≤ u16 b 6) && decide (u16 b 6 ≤ 60000) && decide (u16 b 4 < u16 b 6))]
    run := fun p s =>
      let b := p.payload
      { st := s.modBms (u8 b 0) fun x => { x with port := u8 b 1, period := u16 b 2, timeout := u16 b 4, disable := u16 b 6 } } }

/-- The enabled ports other than the one named, of its kind (bat) and of any kind. -/
def othersEnabled (s : State) (bat : Bool) (n : Nat) : Bool × Bool :=
  let b := (List.range 4).any fun k => (s.bat k).enable && !(bat && k == n)
  let v := (List.range 16).any fun k => (s.pv k).state != 0 && !(!bat && k == n)
  (b, b || v)

/-- A port enabled or disabled (R291, R296, R302). -/
def portEnable (t : Nat) (bat on : Bool) (n : Nat) (s : State) : State :=
  if bat then
    let s := s.modBat n fun x => { x with enable := on }
    legsUpdate t (batState t n s)
  else if on then
    if (s.pv n).state = 0 then pvTo t n 1 (s.modPv n fun x => { x with credit := 0 }) else s
  else legsUpdate t ((pvTo t n 0 (abortSweep t n 6 s)).modPv n fun x => { x with ordered := false, reserve := 0 })

def specPortEnable : CmdSpec :=
  { opcode := 0x0606, lenOk := len 4, defer := true, image := some 0, key := 2
    stateBad := fun s p =>
      let b := p.payload
      let bat := u8 b 0 == 1
      let n := u8 b 1
      let ok := u8 b 0 ≤ 1 && n < (if bat then 4 else 16)
      let none' := if bat then (s.bat n).cfg.isNone else (s.pv n).cfg.isNone
      let isOn := if bat then (s.bat n).enable else (s.pv n).state != 0
      ok && (none' || (!bit (u8 b 2) 0 && isOn && s.modeOrTarget 7 && !(othersEnabled s bat n).2))
    checks := fun _ p =>
      let b := p.payload
      [inB b 0 0 1, inB b 1 0 (if u8 b 0 = 1 then 3 else 15), maskB b 2 1] ++ resv b 3 1
    comboBad := fun s p =>
      let b := p.payload
      u8 b 0 == 1 && !bit (u8 b 2) 0 && (s.bat (u8 b 1)).enable && s.modeOrTarget 5 && !(othersEnabled s true (u8 b 1)).1
    run := fun p s => { st := portEnable p.t (u8 p.payload 0 == 1) (bit (u8 p.payload 2) 0) (u8 p.payload 1) s } }

/-- P_FS of a battery port, or the sum of those configured, W (R307). -/
def batFull (s : State) (n : Nat) : F32 :=
  let fs := fun (b : Bat) => match b.cfg with | some c => c.pFs * 10 | none => 0
  intF ((if n = 0xFF then s.ports.bat.foldl (fun a b => a + fs b) 0 else fs (s.bat n) : Nat)) 1

/-- BAT_SET written (R305): one that is shared by limits supersedes what was set for single ports (notes/assumptions/29.md). -/
def setBat (n : Nat) (w : F32) (s : State) : State :=
  if n = 0xFF then s.modPorts fun p => { p with batSet := w, batSetPort := false, bat := p.bat.map fun x => { x with setW := 0 } }
  else (s.modPorts fun p => { p with batSetPort := true }).modBat n fun x => { x with setW := w }

def specPortBatSet : CmdSpec :=
  { opcode := 0x0607, lenOk := len 8, defer := true
    checks := fun s p =>
      let b := p.payload
      (0, u8 b 0 < 4 || u8 b 0 == 0xFF) :: resv b 1 3 ++ [(4, fle (fabs (f32 b 4)) (batFull s (u8 b 0)))]
    run := fun p s => { st := setBat (u8 p.payload 0) (f32 p.payload 4) { s with net := { s.net with expiry := none } } } }

def specPortSweep : CmdSpec :=
  { opcode := 0x0608, lenOk := len 4
    stateBad := fun s p => u8 p.payload 0 < 16 && ((s.pv (u8 p.payload 0)).state != 2 || s.curtails)
    checks := fun _ p => inB p.payload 0 0 15 :: resv p.payload 1 3
    busyBad := fun s p =>
      let x := s.pv (u8 p.payload 0)
      match x.cfg with
      | some c => s.ports.sweepPar ≤ s.sweepsDue || flt x.credit (fmul (intF (x.meanP : Nat) 1000) (x.plan (c.vMin * 10)))
      | none => true
    run := fun p s =>
      { st := s.modPv (u8 p.payload 0) fun x => { x with
          ordered := true
          reserve := match x.cfg with | some c => fmul (intF (x.meanP : Nat) 1000) (x.plan (c.vMin * 10)) | none => 0 } } }

/-- The 336 bytes of PORT_STATUS (R312). -/
def portStatus (s : State) : List Byte :=
  let p := s.ports
  let mask := (List.range 16).foldl (fun a i => a + flagAt ((s.pv i).state == 3) i) 0
  le 1 p.holder ++ le 1 p.batMode ++ le 2 (milliF p.k) ++ le 4 p.ppv.toNat ++ le 4 p.batTotal.toNat ++ le 2 mask ++ zeros 2 ++
  ((List.range 16).flatMap fun i =>
    let x := s.pv i
    le 1 x.state ++ zeros 1 ++ le 2 x.ref ++ le 2 x.vMpp ++ le 2 (wattOf x.pMpp) ++ le 4 x.credit.toNat ++ le 4 ((s.time - x.lastSweep) / 1000000000)) ++
  (List.range 4).flatMap fun i =>
    let x := s.bat i
    le 1 x.state ++ le 1 ((s.nodesOf i).filter fun n => n.state == 2).length ++ le 2 (x.disMw / 10000) ++ le 2 (x.chgMw / 10000) ++
    leI 2 (fround (fdiv x.target 0x41200000) 1) ++ zeros 8

def specPortStatus : CmdSpec :=
  { opcode := 0x0609, lenOk := len 0, run := fun _ s => { st := s, data := portStatus s } }

/-- The 64 bytes of PORT_BMS_STATUS (R307). -/
def bmsStatus (s : State) : List Byte :=
  (List.range 64).flatMap fun n =>
    let b := s.bms n
    le 1 (b.state + (if b.port < 4 then b.port * 8 + 32 else 0))

def specPortBmsStatus : CmdSpec :=
  { opcode := 0x060A, lenOk := len 0, run := fun _ s => { st := s, data := bmsStatus s } }

/-- Eight rows of a ripple map (R307). -/
def mapRows (x : Pv) (first : Nat) : List Byte :=
  let (vf, ifs) := match x.cfg with | some c => (c.vFs, c.iFs) | none => (0, 0)
  le 2 vf ++ le 2 ifs ++ zeros 4 ++ (List.range 1024).flatMap fun i =>
    le 2 ((x.map.find? fun e => e.1 == first * 128 + i).elim 0 (·.2))

def specPortMapRead : CmdSpec :=
  { opcode := 0x060B, lenOk := len 2
    checks := fun _ p => [inB p.payload 0 0 15, (1, u8 p.payload 1 ≤ 120 && u8 p.payload 1 % 8 == 0)]
    run := fun p s => { st := s, data := mapRows (s.pv (u8 p.payload 0)) (u8 p.payload 1) } }

def execPortPvConfig (p : Packet) (s : State) : Res := runCommand specPortPvConfig p s
def execPortBatConfig (p : Packet) (s : State) : Res := runCommand specPortBatConfig p s
def execPortChopperConfig (p : Packet) (s : State) : Res := runCommand specPortChopperConfig p s
def execPortShareConfig (p : Packet) (s : State) : Res := runCommand specPortShareConfig p s
def execPortMpptConfig (p : Packet) (s : State) : Res := runCommand specPortMpptConfig p s
def execPortBmsConfig (p : Packet) (s : State) : Res := runCommand specPortBmsConfig p s
def execPortEnable (p : Packet) (s : State) : Res := runCommand specPortEnable p s
def execPortBatSet (p : Packet) (s : State) : Res := runCommand specPortBatSet p s
def execPortSweep (p : Packet) (s : State) : Res := runCommand specPortSweep p s
def execPortStatus (p : Packet) (s : State) : Res := runCommand specPortStatus p s
def execPortBmsStatus (p : Packet) (s : State) : Res := runCommand specPortBmsStatus p s
def execPortMapRead (p : Packet) (s : State) : Res := runCommand specPortMapRead p s

end Sys2Proof.Machine
end

