-- ==== Sys2Proof/Machine/Pwm.lean ====
section
/-! DEFINITION. PWM timebases and legs: the commands of group 0x07xx, the interval between two load events and the edges placed in it
(spec/11_pwm.md R314 to R337). The load event itself is in Load.lean, after what follows it in other groups. -/

namespace Sys2Proof.Machine

/-- Timebase k changed. -/
def State.modTb (k : Nat) (f : Tb → Tb) (s : State) : State := { s with pwm := { s.pwm with tbs := upd s.pwm.tbs k f } }

/-! ### Timebases (R314, R315) -/

/-- Timebase j reaches k through at most n masters, as configured (R315). -/
def State.slaveOf (s : State) (k : Nat) : Nat → Nat → Bool
  | 0, _ => false
  | n + 1, j => let m := (s.tb j).cfg.master; m == k || (m < 8 && s.slaveOf k n m)

/-- The relation of a slave's count to its master's (R315). -/
def ratioOk (n ratio masterN : Nat) : Bool :=
  let r := bits ratio 6 0
  if bit ratio 7 then n == r * masterN else n * r == masterN

/-- The configuration in a payload (R334). -/
def tbCfgOf (pl : List Byte) : TbCfg :=
  { mode := bits (u8 pl 1) 1 0, enable := bit (u8 pl 1) 2, n := u32 pl 4, master := u8 pl 8, ratio := u8 pl 9, offset := u32 pl 12 }

/-- The carrier period P in D6 steps. -/
def Tb.period (b : Tb) : Int := 16 * b.inForce.n

/-- The first zero of a carrier at or after a D6 step. -/
def Tb.nextZero (x : Int) (b : Tb) : Option Int := b.zero.map fun z => x + (z - x) % b.period

/-- The zeros of timebase k placed, and those of its slaves with them (R315): a running slave moves with its master, and one that was not running starts
the offset after it. -/
def tbAnchor : Nat → Nat → Option Int → State → State
  | 0, _, _, s => s
  | f + 1, k, z, s =>
    let old := (s.tb k).zero
    let s := s.modTb k fun b => { b with zero := z }
    (List.range 8).foldl (fun s j =>
      let b := s.tb j
      if b.inForce.master = k ∧ b.inForce.enable then
        tbAnchor f j (match z, old, b.zero with
          | some z, some o, some y => some (y + (z - o))
          | some z, _, _ => some (z + b.inForce.offset)
          | none, _, _ => none) s
      else s) s

/-- The D6 step at which timebase k's waiting configuration takes effect (R333): its master's next zero for a slave, else its own; for one that does
not run, at once, its count 0 on the next rising edge of the conversion clock (R314, spec/12_sensing.md R589). -/
def State.tbEffect (s : State) (k : Nat) : Option Int :=
  let b := s.tb k
  if b.cfg.master < 8 then (s.tb b.cfg.master).nextZero (b.pendAt + 1)
  else some ((b.nextZero (b.pendAt + 1)).getD ((b.pendAt + 79) / 80 * 80))

/-- A waiting configuration of timebase k put in force at the D6 step x (R333); base ticks taken from it start anew (spec/06_control_engine.md R155).
A free timebase whose period stays keeps its zeros. -/
def tbApply (k : Nat) (x : Int) (s : State) : State :=
  let old := s.tb k
  let c := old.cfg
  let s := s.modTb k fun b => { b with pend := false, inForce := c }
  let s := if !c.enable then tbAnchor 8 k none s
    else if c.master < 8 then tbAnchor 8 k (some (x + c.offset)) s
    else if old.zero.isSome ∧ c.n = old.inForce.n then s
    else tbAnchor 8 k (some x) s
  if s.eng.hasRate ∧ (s.eng.rate.tb = k ∨ s.slaveOf k 8 s.eng.rate.tb) then
    s.modEng fun e => { e with ratePend := some (e.ratePend.getD e.rate) }
  else s

/-- The configurations of timebases and legs whose zero has come by time t take effect (R333), a master's before its slaves'. -/
def pwmSettle (t : Nat) (s : State) : State :=
  let now := s.pwm.d6.steps t
  let s := if s.pwm.tbs.any fun b => b.pend then
      (List.range 64).foldl (fun s i =>
        let k := i % 8
        match (if (s.tb k).pend then s.tbEffect k else none) with
        | some x => if x ≤ now then tbApply k x s else s
        | none => s) s
    else s
  if s.pwm.legs.any fun l => l.next.isSome then
    { s with pwm := { s.pwm with legs := s.pwm.legs.map fun l =>
      match l.next with
      | some c =>
        match (s.tb c.tb).nextZero (l.nextAt + 1) with
        | some x => if x ≤ now then l.configure (s.pwm.d6.ns x) c else l
        | none => l
      | none => l } }
  else s

/-- The instant of a carrier that device time t stands for, in D6 steps (R314, R318): `delay` after a zero of timebase k. Device time is slewed at up to
500 µs a second while D6 counts on (spec/16_networks_fleet.md R466), so an instant counts within 500 ppm of the time since D6's count was last known, and
1 ns (notes/assumptions/48.md). -/
def State.carrierHit (s : State) (t k : Nat) (delay : Int) : Option Int :=
  let b := s.tb k
  match b.zero with
  | none => none
  | some z =>
    let now := s.pwm.d6.steps t
    let e := (z + delay - now + b.period / 2) % b.period - b.period / 2
    if e.natAbs ≤ 8 + (t - s.pwm.d6.ref) / 250 ∧ s.sys.domains.getD 6 0 = 2 then some (now + e) else none

/-- D6's count is known to be x at t. -/
def d6Sync (t : Nat) (x : Int) (s : State) : State := { s with pwm := { s.pwm with d6 := { s.pwm.d6 with ref := t, count := x } } }

/-- The range checks of PWM_TIMEBASE_CONFIG (R314, R315, R322, R334). -/
def tbChecks (s : State) (pl : List Byte) : List Check :=
  let c := tbCfgOf pl
  let k := u8 pl 0
  let slaves := (List.range 8).filter fun j => (s.tb j).cfg.master == k && j != k
  [(0, decide (k < 8)), (1, c.mode ≤ 2 && u8 pl 1 / 8 == 0 && (c.mode == 0 || !s.pwm.legs.any fun l => l.asked.hasCfg && l.asked.tb == k && l.asked.lmode != 0))] ++
  resv pl 2 2 ++
  [(4, decide (500 ≤ c.n) && decide (c.n ≤ 500000) && (c.mode != 2 || c.n % 2 == 0) &&
      slaves.all fun j => ratioOk (s.tb j).cfg.n (s.tb j).cfg.ratio c.n),
   (8, c.master == 255 || (decide (c.master < 8) && c.master != k && !s.slaveOf k 8 c.master)),
   (9, decide (1 ≤ bits c.ratio 6 0) && decide (bits c.ratio 6 0 ≤ 64) && (c.master == 255 || ratioOk c.n c.ratio (s.tb c.master).cfg.n))] ++
  resv pl 10 2 ++ [(12, decide (c.offset < 16 * c.n))]

/-- E_STATE of PWM_TIMEBASE_CONFIG: a leg on the timebase is not Disabled, or the period of the base-tick timebase would change outside
safe stop and maintenance (R333, spec/06_control_engine.md R180). -/
def tbState (s : State) (pl : List Byte) : Bool :=
  let k := u8 pl 0
  (s.pwm.legs.any fun l => l.asked.hasCfg && (l.tb == k || l.asked.tb == k) && l.state != 0) ||
  (!s.quiet && (match s.rateCfg with | some c => c.tb == k && (tbCfgOf pl).n != (s.tb k).cfg.n | none => false))

def specPwmTimebaseConfig : CmdSpec :=
  { opcode := 0x0700, lenOk := len 16, image := some 0, key := 1
    stateBad := fun s p => tbState s p.payload
    checks := fun s p => tbChecks s p.payload
    run := fun p s =>
      let k := u8 p.payload 0
      let s := pwmSettle s.time s
      { st := pwmSettle s.time (s.modTb k fun b => { b with cfg := tbCfgOf p.payload, pend := true, pendAt := s.pwm.d6.steps s.time }) } }

/-! ### Legs (R319, R322, R335) -/


/-- Another leg uses the comparator in a current mode, or it serves a protection group (R322). -/
def State.cmpTaken (s : State) (leg c : Nat) : Bool :=
  ((List.range 48).any fun n => let l := (s.leg n).asked; n != leg && l.hasCfg && l.lmode != 0 && l.cmp == c) || (s.cmp c).action == 1

/-- The range checks of PWM_LEG_CONFIG (R335). -/
def legChecks (s : State) (pl : List Byte) : List Check :=
  let b := (s.tb (u8 pl 1)).cfg
  let m := bits (u8 pl 2) 1 0
  let loads := bits (u8 pl 2) 3 2
  let boot := bit (u8 pl 2) 4
  let cur := m == 1 || m == 2
  let iv := loadInterval b loads
  let sum := (if boot then u16 pl 16 * 80 else 0) + u16 pl 4 + u16 pl 6
  [(0, decide (u8 pl 0 < 48)), (1, decide (u8 pl 1 < 8) && b.enable),
   (2, m != 3 && u8 pl 2 / 32 == 0 && loads != 0 && (loads == 1 || b.mode == 2) && (!cur || b.mode == 0)),
   (3, if cur then decide (u8 pl 3 ≤ 51) else u8 pl 3 == 255),
   (10, if cur then decide (1 ≤ u16 pl 10) && decide (u16 pl 10 ≤ 0x7FFF) else u16 pl 10 == 0),
   (14, if boot then decide (iv ≤ u16 pl 14 * 8000) else u16 pl 14 == 0),
   (16, if boot then decide (10 ≤ u16 pl 16) && decide (u16 pl 16 ≤ 2000) else u16 pl 16 == 0),
   (18, if boot then decide (1 ≤ u16 pl 18) && decide (u16 pl 18 ≤ 10000) else u16 pl 18 == 0)] ++
  resv pl 20 4 ++ [(if boot then 16 else 4, decide (2 * sum < iv))]

/-- A comparator takes up or gives up current mode (R322, R377). -/
def curMode (old new : Nat) (s : State) : State :=
  let s := if old < 52 then s.modCmp old fun c => { c with action := 0 } else s
  if new < 52 then s.modCmp new fun c => { c with action := 3 } else s

def specPwmLegConfig : CmdSpec :=
  { opcode := 0x0701, lenOk := len 24, image := some 0, key := 1
    stateBad := fun s p => (s.leg (u8 p.payload 0)).state != 0 || s.legReacting (u8 p.payload 0)
    checks := fun s p => legChecks s p.payload
    conflictBad := fun s p => bits (u8 p.payload 2) 1 0 != 0 && s.cmpTaken (u8 p.payload 0) (u8 p.payload 3)
    run := fun p s =>
      let pl := p.payload
      let n := u8 pl 0
      let s := pwmSettle s.time s
      let l := (s.leg n).asked
      let s := curMode (if l.lmode = 0 then 255 else l.cmp) (if bits (u8 pl 2) 1 0 = 0 then 255 else u8 pl 3) s
      { st := s.modLeg n fun l => { l with
          role := if l.role = 0 then 1 else l.role
          nextAt := s.pwm.d6.steps s.time
          next := some
            { tb := u8 pl 1, lmode := bits (u8 pl 2) 1 0, loads := bits (u8 pl 2) 3 2, boot := bit (u8 pl 2) 4, cmp := u8 pl 3
              dtH := u16 pl 4, dtL := u16 pl 6, minPulse := u16 pl 8, dMax := u16 pl 10, phase := BitVec.ofNat 16 (u16 pl 12)
              bootHold := u16 pl 14, bootRefresh := u16 pl 16, bootPre := u16 pl 18 } } } }

/-- A leg owned by an enabled channel, duty or phase (R118). -/
def State.legOwned (s : State) (n : Nat) : Bool := s.owned 1 n || s.owned 2 n

def specPwmDutySet : CmdSpec :=
  { opcode := 0x0702, lenOk := len 8, defer := true
    stateBad := fun s p =>
      let n := u8 p.payload 0
      let l := s.leg n
      decide (n < 48) && (s.legReacting n || !(l.state == 4 || (l.role == 1 && !s.legOwned n)))
    checks := fun _ p => [inB p.payload 0 0 47, maskB p.payload 1 3] ++ resv p.payload 6 2
    conflictBad := fun s p =>
      let n := u8 p.payload 0
      let l := s.leg n
      s.legOwned n || (bit (u8 p.payload 1) 1 && (l.role == 5 || l.role == 6))
    run := fun p s =>
      let pl := p.payload
      let n := u8 pl 0
      let setD := bit (u8 pl 1) 0
      let setP := bit (u8 pl 1) 1
      let s := if setD || setP then s.modLeg n fun l =>
          { l.write s.time (if setD then some (BitVec.ofNat 16 (u16 pl 2)) else none) (if setP then some (BitVec.ofNat 16 (u16 pl 4)) else none) with
            duSet := l.duSet || setD }
        else s
      { st := legsUpdate s.time s } }

/-- A leg's test ended: it returns to Disabled (R333), but for a leg whose group reacts, which is left to the reaction (R329,
spec/01_architecture.md R25). -/
def endLegTest (t n : Nat) (s : State) : State :=
  let was := (s.leg n).state
  let s := s.modLeg n fun l => { l with testEnd := 0 }
  if was = 4 ∧ !s.inReaction n then legTo t n 0 2 s else s

/-- Every test ended: maintenance is left (R333). -/
def endLegTests (t : Nat) (s : State) : State := (List.range 48).foldl (fun s n => endLegTest t n s) s

/-- A leg's test started: duty 0 by its shadow register (R325), a ceiling and a duration (R333). -/
def startLegTest (t n ceil ms : Nat) (s : State) : State :=
  legsUpdate t (s.modLeg n fun l => { l.write t (some 0) none with testEnd := t + ms * 1000000, testCeil := BitVec.ofNat 16 ceil })

def specPwmLegTest : CmdSpec :=
  { opcode := 0x0703, lenOk := len 8
    modeBad := fun s _ => s.modes.mode != 2
    stateBad := fun s p => s.legReacting (u8 p.payload 0)
    checks := fun _ p => [inB p.payload 0 0 47, maskB p.payload 1 1, inH p.payload 2 0 0x7FFF, inW p.payload 4 1 60000]
    run := fun p s =>
      let n := u8 p.payload 0
      { st := if bit (u8 p.payload 1) 0 then startLegTest s.time n (u16 p.payload 2) (u32 p.payload 4) s else endLegTest s.time n s } }

/-- A test leg's duration ends (R333). -/
def execLegTestEnd (t n : Nat) (s : State) : Res :=
  let s := s.advance t
  within n 48 (if (s.leg n).testEnd != 0 && decide ((s.leg n).testEnd ≤ t) then endLegTest t n s else s)

/-- 2 µs after Starting a leg runs its bootstrap precharge: PWML asserted for BOOT_PRECHARGE, PWMH off (R330). -/
def execBootPrecharge (t n : Nat) (s : State) : Res :=
  let s := s.advance t
  let l := s.leg n
  within n 48 (if l.state = 1 ∧ l.boot ∧ !l.preDone ∧ l.startedAt + 2000 ≤ t ∧ !l.sto then
      let len := l.bootPre * 8000
      let low := l.role != 9
      s.modLeg n fun l => { l with
        pwmL := low, onL := if low then t else l.onL, preDone := true, startedAt := t, loadAt := t, loadD := s.pwm.d6.steps t, intLen := len
        edges := [((len : Int), false, false)], refreshEnd := t + l.bootPre * 1000 }
    else s)

/-! ### PWM_STATUS (R336) -/

/-- Status flags of a leg, byte 6. -/
def State.legFlags (s : State) (n : Nat) : Nat :=
  let l := s.leg n
  let f := l.flags.toNat
  let recent : Bool := match l.bootActAt with | some a => decide (s.time < a + 1000000000) | none => false
  flagAt (s.legOwned n) 0 + flagAt (bit f 1 && recent) 1 + flagAt (bit f 2) 2 + flagAt (bit f 3) 3 + flagAt (bit f 4) 4

/-- The 448 bytes of PWM_STATUS. -/
def pwmStatus (s : State) : List Byte :=
  ((List.range 8).flatMap fun k =>
    let c := (s.tb k).cfg
    le 4 c.n ++ le 1 (c.mode + flagAt c.enable 2) ++ le 1 c.master ++ le 1 c.ratio ++
    le 1 (s.pwm.legs.filter fun l => l.asked.hasCfg && l.tb == k && l.state == 2).length) ++
  (List.range 48).flatMap fun n =>
    let l := s.leg n
    le 1 l.state ++ le 1 l.role ++ le 2 l.applied.toNat ++ le 2 l.acPhase.toNat ++ le 1 (s.legFlags n) ++ zeros 1

def specPwmStatus : CmdSpec :=
  { opcode := 0x0704, lenOk := len 0
    run := fun _ s =>
      { st := { s with pwm := { s.pwm with legs := s.pwm.legs.map fun l => { l with flags := 0 } } }, data := pwmStatus s } }

def execPwmTimebaseConfig (p : Packet) (s : State) : Res := runCommand specPwmTimebaseConfig p s
def execPwmLegConfig (p : Packet) (s : State) : Res := runCommand specPwmLegConfig p s
def execPwmDutySet (p : Packet) (s : State) : Res := runCommand specPwmDutySet p s
def execPwmLegTest (p : Packet) (s : State) : Res := runCommand specPwmLegTest p s
def execPwmStatus (p : Packet) (s : State) : Res := runCommand specPwmStatus p s

/-! ### The edges of an interval (R316, R317, R323, R324) -/

/-- A duty as a fraction of 32,768: values up to 0 give 0, and 0x7FFF gives 1 (R316). -/
def dutyOf (v : Int) : Nat := if v ≤ 0 then 0 else if v = 0x7FFF then 32768 else v.toNat

/-- d × x steps, at the nearest step, ties up (R316); whole counts of 16 steps on the ring oscillator (R332). -/
def dutySteps (ring : Bool) (d x : Nat) : Nat :=
  if ring then (d * x + 16 * 16384) / (16 * 32768) * 16 else (d * x + 16384) / 32768

/-- A dead time or minimum pulse in steps: on the ring oscillator whole counts, none shorter than configured (R332). -/
def heldSteps (ring : Bool) (x : Nat) : Int := if ring then ((x + 15) / 16 * 16 : Nat) else x

/-- The parts of an interval of L steps during which PWMH is ideally asserted (R316, R317): mode and load events of the leg, whether the
interval starts at the peak. -/
def onParts (ring : Bool) (mode loads : Nat) (atPeak : Bool) (L d : Nat) : List (Nat × Nat) :=
  if d = 0 then []
  else if d = 32768 then [(0, L)]
  else if mode = 0 then [(0, dutySteps ring d L)]
  else if mode = 1 then [(L - dutySteps ring d L, L)]
  else if loads = 3 then (if atPeak then [(0, dutySteps ring d L)] else [(L - dutySteps ring d L, L)])
  else
    let h := dutySteps ring d (L / 2)
    if loads = 1 then [(L / 2 - h, L / 2 + h)] else if 2 * h < L then [(0, h), (L - h, L)] else [(0, L)]

/-- A turn-on edge of output y at x. An output still on, its turn-off extended past x (R324), stays on. -/
def Leg.turnOn (x : Int) (y : Bool) (l : Leg) : Leg :=
  let off (e : Int × Bool × Bool) : Bool := e.2.1 == y && !e.2.2 && decide (x ≤ e.1)
  if l.edges.any off then { l with edges := l.edges.filter fun e => !off e, onPut := true }
  else { l with edges := l.edges ++ [(x, y, true)], onPut := true }

/-- One ideal edge at x steps to a PWMH level (R323, R324): the output that turns off does so there, or later when its pulse is extended to
MIN_PULSE; a pulse no longer than its dead time or shorter than half of MIN_PULSE does not come; the other output turns on after its dead
time. A pulse whose turn-on has been placed before can only be extended (notes/assumptions/31.md). -/
def Leg.idealEdge (ring : Bool) (x : Int) (high : Bool) (l : Leg) : Leg :=
  let dt := heldSteps ring (if high then l.dtH else l.dtL)
  match l.ideal with
  | none => { l with ideal := some high, onT := x + dt, onPut := false }
  | some y =>
    if y = high then l
    else
      let n := x - l.onT
      let mp := heldSteps ring l.minPulse
      let acted := if 0 < n ∧ n < mp then l.flags ||| 16 else l.flags
      if !l.onPut ∧ (n ≤ 0 ∨ 2 * n < mp) then { l with ideal := some high, onT := x + dt, onPut := false, flags := acted }
      else
        let l' := if l.onPut then l else l.turnOn l.onT y
        { l' with ideal := some high, onT := x + dt + max 0 (mp - n), onPut := false, edges := l'.edges ++ [(l.onT + max n mp, y, false)], flags := acted }

/-- The level changes of a list of asserted parts. -/
def partEdges (L : Nat) : List (Nat × Nat) → List (Int × Bool)
  | [] => []
  | (a, b) :: r => (if a < b then (if 0 < a then [((a : Int), true)] else []) ++ (if b < L then [((b : Int), false)] else []) else []) ++ partEdges L r

/-- Edges of outputs that the role does not drive are left out (R319). -/
def Leg.driven (l : Leg) (e : Int × Bool × Bool) : Bool := e.2.1 || l.role != 9

/-- The interval in progress ended: its edges have happened, and those still to come are counted from the new load event at t, D6 step x. -/
def Leg.rebase (d : D6Clock) (t : Nat) (x : Int) (l : Leg) : Leg :=
  let L : Int := x - l.loadD
  let done := l.edges.filter fun e => decide (e.1 ≤ L)
  let l2 := done.foldl Leg.edge l
  { l2 with
    onH := l.lastOn d true done, onL := l.lastOn d false done, onT := l.onT - L, loadAt := t, loadD := x, cur := none
    edges := (l.edges.filter fun e => decide (L < e.1)).map fun e => (e.1 - L, e.2) }

/-- The turn-on of an on-interval that begins inside this interval of L steps, though its end is not known yet. -/
def Leg.openEdge (L : Nat) (l : Leg) : Leg :=
  match l.ideal with
  | some y => if !l.onPut ∧ l.onT ≤ (L : Int) then l.turnOn l.onT y else l
  | none => l

/-- The edges of an interval of L steps placed from its asserted parts. -/
def Leg.placeParts (ring : Bool) (L : Nat) (parts : List (Nat × Nat)) (l : Leg) : Leg :=
  let high : Bool := match parts.head? with | some (a, b) => a == 0 && decide (a < b) | none => false
  let l := l.idealEdge ring 0 high
  let l := (partEdges L parts).foldl (fun l e => l.idealEdge ring e.1 e.2) l
  let l := l.openEdge L
  { l with intLen := L, edges := l.edges.filter l.driven }

/-! ### Current modes (R322) -/

/-- The rest of a current-mode interval after its start: up to `on` the level of the start, then the other level, and off at `off`. -/
def Leg.curRest (ring : Bool) (k : CurStart) (x : Int) (l : Leg) : Leg :=
  let L := l.intLen
  let l := { l with ideal := some k.high, onT := k.on, onPut := k.put, edges := k.edges }
  let l := if x < (L : Int) then l.idealEdge ring x !k.high else l
  let l := if !k.high ∧ k.off < L ∧ x < (k.off : Int) then l.idealEdge ring k.off false else l
  let l := l.openEdge L
  { l with edges := l.edges.filter l.driven }

/-- The edges of a current-mode interval of L steps as they stand without a comparator edge (R322): peak mode asserts PWMH from the start and ends it
at D_MAX, or at d_lim where a refresh is due (R330); valley mode asserts it from D_MAX on. -/
def Leg.placeCurrent (ring : Bool) (L lim off : Nat) (l : Leg) : Leg :=
  let high : Bool := l.lmode == 1 && decide (0 < lim)
  let l := l.idealEdge ring 0 high
  let k : CurStart := { on := l.onT, put := l.onPut, high := high, lim := if high then min lim off else lim, off := off, edges := l.edges }
  { ({ l with intLen := L } : Leg).curRest ring k k.lim with cur := some k }

/-- A comparator edge at t of a leg in current mode (R322): it reaches the pin 6 ns later, at the next step, or whole count on the ring oscillator;
in peak mode PWMH ends there, in valley mode PWMH begins after its dead time. Only the first one in an interval counts. A pulse that is on already is
extended to MIN_PULSE (notes/assumptions/31.md). -/
def Leg.curTrip (d : D6Clock) (t : Nat) (l : Leg) : Leg :=
  match l.cur with
  | some k =>
    let ring := d.khz != 0
    let now := d.steps t - l.loadD
    let x := if ring then (d.steps (t + 6) - l.loadD + 15) / 16 * 16 else now + 48
    if l.sto ∨ (l.state ≠ 2 ∧ l.state ≠ 4) ∨ (k.lim : Int) ≤ x then l
    else
      let k := if !k.put ∧ k.on ≤ now then { k with put := true, edges := k.edges ++ [(k.on, k.high, true)] } else k
      { l.curRest ring k x with cur := none }
  | none => l

/-! ### Bootstrap refresh (R330, R331) -/

/-- The end of the last PWML on-interval of at least BOOT_REFRESH among the edges, as device time; unchanged where there is none. -/
def refreshFrom (d : D6Clock) (l : Leg) : Option Int → List (Int × Bool × Bool) → Nat → Nat
  | _, [], r => r
  | on, e :: es, r =>
    if e.2.1 then refreshFrom d l on es r
    else if e.2.2 then refreshFrom d l (some e.1) es r
    else
      let ok : Bool := match on with | some a => decide (l.bootRefresh * 80 ≤ d.lasts (e.1 - a).toNat) | none => false
      refreshFrom d l none es (if ok then d.ns (l.loadD + e.1) else r)

/-- 1 − (BOOT_REFRESH + DT_H + DT_L) ÷ P_int as Q15, rounded down. -/
def Leg.dLim (L : Nat) (l : Leg) : Nat := if L = 0 then 0 else (L - (l.bootRefresh * 80 + l.dtH + l.dtL)) * 32768 / L

/-- The interval needs a refresh: the time since the last qualifying PWML interval and the interval of L steps together pass BOOT_HOLD. -/
def Leg.needsRefresh (d : D6Clock) (t L : Nat) (l : Leg) : Bool :=
  l.boot && decide (l.bootHold * 8000 < 8 * (t - l.refreshEnd) + d.lasts L)

end Sys2Proof.Machine
end

