-- ==== Sys2Proof/Machine/Sensing.lean ====
section
/-! DEFINITION. Converters: decimators, plausibility checks, confirmations and splices of pipeline converters, the shadowing spare, SAR units,
path tests and calibration (spec/12_sensing.md R338 to R367, R589). The delivery of a sample or result to the other groups is in Load.lean. -/

namespace Sys2Proof.Machine

/-- The sensing group changed. -/
def State.modSense (f : Sense → Sense) (s : State) : State := { s with sense := f s.sense }
/-- D7 is off: nothing comes out of it (spec/01_architecture.md R29, R34). -/
def State.d7Off (s : State) : Bool := s.sys.domains.getD 7 0 == 0
/-- SAR unit u. -/
def State.sar (s : State) (u : Nat) : Sar := s.sense.sars.getD u Sar.reset
/-- SAR unit u changed. -/
def State.modSar (u : Nat) (f : Sar → Sar) (s : State) : State := s.modSense fun z => { z with sars := upd z.sars u f }
/-- Kirchhoff group g. -/
def State.kir (s : State) (g : Nat) : Kir := s.sense.kirs.getD g Kir.reset
/-- Kirchhoff group g changed. -/
def State.modKir (g : Nat) (f : Kir → Kir) (s : State) : State := s.modSense fun z => { z with kirs := upd z.kirs g f }

/-- A reply answered later, with its data: the header and status of the one prepared at acceptance (spec/03_command_interface.md R61). -/
def DurReply.withData (d : DurReply) (data : List Byte) : List Byte :=
  replyBytes (u16 d.bytes 0) (BitVec.ofNat 16 (u16 d.bytes 2)) (u8 d.bytes 6) (u16 d.bytes 8) (u16 d.bytes 10) data

/-! ### Decimators (R342 to R344) -/

/-- The mean of n values with sum a, as Q15 (spec/00_scope.md R13): nearest, ties up. -/
def meanQ15 (a : Int) (n : Nat) : Int := sat16 ((2 * a + n) / (2 * n))

/-- Results that a pass still to come may read: those after the oldest boundary still due, and the newest at or before it. -/
def keepPast (due : Option Nat) : List (Nat × Int × Bool) → List (Nat × Int × Bool)
  | [] => []
  | r :: rs => match due with
    | some m => if r.1 ≤ m then [r] else r :: keepPast due rs
    | none => [r]

/-- A result delivered by an output. -/
def Decim.result (due : Option Nat) (stamp : Nat) (v : Int) (valid clip : Bool) (d : Decim) : Decim :=
  { d with val := BitVec.ofInt 16 v, valid := valid, clipped := clip, stamp := stamp, past := keepPast due ((stamp, v, valid) :: d.past) }

/-- The window of an output restarted. -/
def Decim.restart (d : Decim) : Decim := { d with acc := 0, cnt := 0, bad := false, clip := false }

/-- A waiting configuration put in force at the end of a window (R344). -/
def Decim.windowEnd (d : Decim) : Decim :=
  match d.cfgPend with
  | some (ty, leg, n) => { d.restart with typ := ty, leg := leg, d := n, cfgPend := none, on := true, hist := [], alignAt := none, placed := false }
  | none => d.restart

/-- Results of types 1 and 2 with an aligning leg wait for a load event to place their blocks (R343, R344). -/
def Decim.waits (d : Decim) : Bool := (d.typ == 1 || d.typ == 2) && d.leg != 255 && !d.placed

/-- The weight of the sample k places before the newest one in three cascaded moving means of n samples, times n³ (R342). -/
def sincWeight (n k : Nat) : Int :=
  let tri (x : Int) : Int := if x < 0 then 0 else (x + 1) * (x + 2) / 2
  let n' : Int := n
  let k' : Int := k
  tri k' - 3 * tri (k' - n') + 3 * tri (k' - 2 * n')

/-- The weighted sum of the samples of a sinc3 window, newest first. -/
def sincSum (n : Nat) : Nat → List (Int × Bool × Bool) → Int
  | _, [] => 0
  | k, h :: t => sincWeight n k * h.1 + sincSum n (k + 1) t

/-- A sample of an output's window taken (R342): value, invalid, clipped, aperture. The result it completes, if any, follows. -/
def Decim.take (due : Option Nat) (t : Nat) (v : Int) (bad clip : Bool) (d : Decim) : Decim × Bool :=
  if d.typ = 0 then (((d.result due t v (!bad) clip)).windowEnd, true)
  else if d.waits then
    (if d.typ = 2 then { d with hist := ((v, bad, clip) :: d.hist).take (3 * d.d - 2), lastAt := t } else d, false)
  else
    let d := { d with acc := d.acc + v, cnt := d.cnt + 1, bad := d.bad || bad, clip := d.clip || clip, lastAt := t }
    if d.typ = 1 then
      if d.d ≤ d.cnt then ((d.result due t (meanQ15 d.acc d.d) (!d.bad) d.clip).windowEnd, true) else (d, false)
    else if d.typ = 2 then
      let d := { d with hist := ((v, bad, clip) :: d.hist).take (3 * d.d - 2) }
      if d.d ≤ d.cnt then
        let full := d.hist.length == 3 * d.d - 2
        let r := d.result due t (meanQ15 (sincSum d.d 0 d.hist) (d.d * d.d * d.d)) (!(d.hist.any fun h => h.2.1)) (d.hist.any fun h => h.2.2)
        if full then (r.windowEnd, true) else (d.windowEnd, false)
      else (d, false)
    else (d, false)

/-- The part of an output that looks at the aligning leg before a sample with aperture t (R343): a carrier mean ends with the last aperture
before the load event; a block is placed to end with the last one at or before it. The window that a carrier mean begins before its first load event
is not complete and gives no result (R344); a configuration that takes effect at a load event of the leg it names begins its first window there. -/
def Decim.align (due : Option Nat) (t : Nat) (d : Decim) : Decim × Bool :=
  match d.alignAt with
  | none => (d, false)
  | some e =>
    if d.typ = 3 then
      if e ≤ t then
        let leg := d.leg
        let go (d : Decim) : Decim := let d := d.windowEnd; { d with alignAt := none, placed := d.leg == leg }
        if d.cnt = 0 ∨ d.leg = 255 ∨ !d.placed then (go d, false)
        else (go (d.result due d.lastAt (meanQ15 d.acc d.cnt) (!d.bad) d.clip), true)
      else (d, false)
    else if e < t then ({ d.restart with alignAt := none, placed := true }, false)
    else (d, false)

/-- A sample with its effect on one output: the results it gives, oldest first, as stamp, value and validity. -/
def Decim.sample (due : Option Nat) (t : Nat) (v : Int) (bad clip : Bool) (d : Decim) : Decim × List (Nat × Int × Bool) :=
  let d := if d.on then d else d.windowEnd
  if !d.on then (d, [])
  else
    let (d, r1) := d.align due t
    let l1 := if r1 then [(d.stamp, d.val.toInt, d.valid)] else []
    let (d, r2) := d.take due t v bad clip
    (d, l1 ++ (if r2 then [(d.stamp, d.val.toInt, d.valid)] else []))

/-- A load event of a leg reaches the outputs that it aligns (R343). -/
def decimLoad (leg t : Nat) (s : State) : State :=
  s.modSense fun z => { z with ains := z.ains.map fun a =>
    (if a.outs.any fun d => d.leg == leg && d.on then
      { a with outs := a.outs.map fun d => (if d.leg = leg ∧ d.on then { d with alignAt := some t } else d) }
    else a) }

/-! ### Plausibility checks (R345, R349) -/

/-- The range and stuck counts of an input after a sample (R345, R347, R349). -/
def Ain.checked (t : Nat) (code : Int) (a : Ain) : Ain :=
  let out := decide (code < a.winLo) || decide (a.winHi < code)
  let same := a.stuck && code == a.code && code != -8192 && code != 8191
  let stuckCnt := if same then min 65535 (a.stuckCnt + 1) else if a.stuck ∧ code ≠ -8192 ∧ code ≠ 8191 then 1 else 0
  { a with
    code := code, lastAt := t
    rangeCnt := if out then min 65535 (a.rangeCnt + 1) else 0
    stuckCnt := stuckCnt
    okRange := if out then none else some (a.okRange.getD t)
    okStuck := if 512 ≤ stuckCnt then none else some (a.okStuck.getD t)
    stuckOut := a.stuckOut && decide (512 ≤ stuckCnt) }

/-- The sum of a Kirchhoff group over the newest samples (R345). -/
def State.kirSum (s : State) (k : Kir) : Int :=
  ((List.range k.members.length).map fun i =>
    let x := (s.ain (k.members.getD i 0)).code * 4
    if bit k.signs i then -x else x).foldl (· + ·) 0

/-- The Kirchhoff groups of AIN a whose members all have their sample of aperture t: each sample instant counts once (R345). -/
def kirSample (t a : Nat) (s : State) : State :=
  (List.range 8).foldl (fun s g =>
    let k := s.kir g
    if k.enable && k.members.contains a && k.seenAt != some t && k.members.all fun a => (s.ain a).lastAt == t then
      let bad := decide ((k.thr : Int) ≤ (s.kirSum k).natAbs)
      s.modKir g fun k => { k with seenAt := some t, cnt := if bad then min 65535 (k.cnt + 1) else 0, okSince := if bad then none else some (k.okSince.getD t) }
    else s) s

/-- A clipped sample counted, and SENSE_CLIP at most once in any second (R341). -/
def clipSample (t a : Nat) (s : State) : State :=
  let s := s.modAin a fun x => { x with clips := t :: x.clips.filter fun c => t < c + 1000000000 }
  let x := s.ain a
  match x.clipAt with
  | some c => if t < c + 1000000000 then s else (s.modAin a fun x => { x with clipAt := some t }).post t (ev 0x0832 a (le 4 x.clips.length))
  | none => (s.modAin a fun x => { x with clipAt := some t }).post t (ev 0x0832 a (le 4 x.clips.length))

/-! ### Confirmations and splices (R347 to R353) -/

/-- The converters in a role, ascending. -/
def State.convs (s : State) (role : Nat) : List Nat := (List.range 26).filter fun c => s.sense.roles.getD c 4 == role

/-- Pipeline spares remaining (R366). -/
def State.convSpares (s : State) : Nat := (s.convs 1).length + (s.convs 2).length + (s.convs 3).length

/-- A converter's role and input. -/
def setConv (c role ain : Nat) (s : State) : State :=
  s.modSense fun z => { z with roles := z.roles.set c role, convAin := z.convAin.set c ain }

/-- An input that shadowing visits: enabled, and none that another spare confirms, since an input feeds two converters at most (R339, R351). -/
def State.visitable (s : State) (a : Nat) : Bool :=
  decide (a < 24) && (s.ain a).enable && (s.convs 3).all fun c => s.sense.convAin.getD c 255 != a

/-- The first input to visit at or after a, else the lowest one. -/
def State.visitFrom (s : State) (a : Nat) : Option Nat :=
  match (List.range 24).find? fun i => decide (a ≤ i) && s.visitable i with
  | some i => some i
  | none => (List.range 24).find? fun i => s.visitable i

/-- An arbitration of a shadow disagreement runs: the shadowing spare stands on the test bus (R339, R352). -/
def State.arbitrates (s : State) : Bool := match s.sense.confirm with | some c => c.check == 4 | none => false

/-- The shadowing spare leaves an input that it may not visit for the next one, else for the test bus (R339, R351). -/
def fixVisit (s : State) : State :=
  if s.arbitrates then s
  else (s.convs 2).foldl (fun s w =>
    let a := s.sense.convAin.getD w 255
    if s.visitable a then s
    else (setConv w 2 ((s.visitFrom (a + 1)).getD 255) s).modSense fun z => { z with shSecond := false }) s

/-- A spare routed onto a suspect input, which a shadowing spare leaves (R339, R347). -/
def routeConfirm (f a : Nat) (s : State) : State := fixVisit (setConv f 3 a s)

/-- A spare takes up shadowing where none does and shadowing is enabled (R351, R353). -/
def fixShadow (s : State) : State :=
  if s.sense.shEnable ∧ s.convs 2 = [] then
    match s.convs 1, s.visitFrom s.sense.shNext with
    | c :: _, some a => (setConv c 2 a s).modSense fun z => { z with shSecond := false }
    | _, _ => s
  else if !s.sense.shEnable then (s.convs 2).foldl (fun s c => setConv c 1 255 s) s
  else s

/-- A converter retired: its supply switch opens 2 ms later (R348). -/
def retiredConv (c : Nat) (s : State) : State :=
  (setConv c 4 255 s).modSense fun z => { z with convOffAt := z.convOffAt.set c (s.time + 2000000) }

/-- Converter of an input substituted by a spare: the old one retired (R347, R348). -/
def spliceConv (a spare : Nat) (s : State) : State :=
  let old := (s.ain a).conv
  let s := retiredConv old (setConv spare 0 a s)
  let s := s.modAin a fun x => { x with conv := spare, rangeCnt := 0, stuckCnt := 0, stuckOut := false }
  fixShadow (s.count (hcConv old 5)).commitHealth

/-- A flag keeps input a's samples invalid (R346, R350). -/
def holds (a : Nat) (l : List Confirm) : Bool := l.any fun c => c.check != 4 && c.all.contains a

/-- The inputs of a flag valid again, but for those that another flag holds or that still show one code without a spare (R347, R349, R350). -/
def unmark (l : List Nat) (s : State) : State :=
  l.foldl (fun s a => if holds a s.sense.queue then s else s.modAin a fun x => { x with marked := x.stuckOut }) s

/-- Input a shows another code after a stuck flag without a spare: its samples are valid again unless another flag holds them (R349). -/
def unstick (a : Nat) (s : State) : State :=
  if holds a (s.sense.confirm.toList ++ s.sense.queue) then s else s.modAin a fun x => { x with marked := false }

/-- A check suspended on its input or group (R347). -/
def suspend (c : Confirm) (s : State) : State :=
  let a := c.all.headD 0
  if c.check = 1 then s.modAin a fun x => { x with suspRange := true, okRange := none }
  else if c.check = 2 then s.modAin a fun x => { x with suspStuck := true, okStuck := none }
  else if c.check = 3 then s.modKir c.group fun k => { k with suspended := true, okSince := none }
  else s

/-- SENSE_VERDICT (R367). -/
def verdictEv (t a verdict retired incoming since : Nat) : Ev := ev 0x0831 a ([BitVec.ofNat 8 verdict, BitVec.ofNat 8 retired, BitVec.ofNat 8 incoming, 0] ++ le 4 (t + 10 - since))

/-- A converter found faulty is substituted, and the verdict and the splice are reported (R347, R348). -/
def retireConv (t a spare since : Nat) (s : State) : State :=
  let old := (s.ain a).conv
  let s := (spliceConv a spare s).post t (verdictEv t a 1 old spare since)
  memSpliced t 2 old spare 0 s.convSpares s

/-- The rule for a missing spare (R349). -/
def noSpareRule (t : Nat) (c : Confirm) (s : State) : State :=
  if c.check = 2 then s.modAin (c.all.headD 0) fun x => { x with stuckOut := true }
  else if c.check = 4 then s
  else (suspend c (unmark c.all s)).post t (verdictEv t (c.all.headD 0) 3 255 255 c.since)

/-- The next confirmation starts: the free spare, else the shadowing one, is routed onto the first suspect (R347, R350). An arbitration takes the free
spare, and the shadowing one stands on the test bus meanwhile (R339, R352, notes/assumptions/32.md); without a shadowing spare it is dropped. -/
def startConfirm (t : Nat) : Nat → State → State
  | 0, s => s
  | n + 1, s =>
    match s.sense.confirm, s.sense.queue with
    | none, c :: q =>
      let s := s.modSense fun z => { z with queue := q }
      let a := c.ains.headD 0
      if c.check = 4 then
        match s.convs 2 with
        | w :: _ =>
          let s := setConv w 2 255 s
          let f := (s.convs 1).head?
          let s := match f with | some f => setConv f 3 a s | none => s
          s.modSense fun z => { z with confirm := some { c with spare := f, shadow := some w } }
        | [] => startConfirm t n s
      else match s.convs 1, s.convs 2 with
      | f :: _, _ => (routeConfirm f a s).modSense fun z => { z with confirm := some { c with spare := some f } }
      | [], w :: _ =>
        let seen := s.sense.convAin.getD w 0
        (routeConfirm w a s).modSense fun z => { z with confirm := some { c with spare := some w, wasShadow := true }, shNext := seen }
      | [], [] => startConfirm t n (noSpareRule t c s)
    | _, _ => s

/-- A flag queued for confirmation: by the time of its flag, those of one sample instant by lowest input (R350). -/
def queueConfirm (c : Confirm) : List Confirm → List Confirm
  | [] => [c]
  | d :: r => if d.since = c.since ∧ c.all.headD 0 < d.all.headD 0 then c :: d :: r else d :: queueConfirm c r

/-- The spare of a confirmation returned to the role it had. -/
def releaseSpare (c : Confirm) (s : State) : State :=
  match c.spare with
  | some w => if s.sense.roles.getD w 4 = 3 then
      (fixShadow (setConv w (if c.wasShadow then 2 else 1) (if c.wasShadow then (s.visitFrom s.sense.shNext).getD 255 else 255) s)).modSense
        fun z => { z with shSecond := z.shSecond && !c.wasShadow }
    else s
  | none => s

/-- A confirmation that has just started gives way to flag c of the same sample instant with a lower input (R350). -/
def giveWay (c : Confirm) (s : State) : State :=
  match s.sense.confirm with
  | some d =>
    if d.check ≠ 4 ∧ c.check ≠ 4 ∧ d.since = c.since ∧ d.ains = d.all ∧ c.all.headD 0 < d.all.headD 0 then
      (releaseSpare d (s.modSense fun z => { z with confirm := none })).modSense fun z =>
        { z with queue := queueConfirm { d with spare := none, wasShadow := false } z.queue }
    else s
  | none => s

/-- A check flags (R346): the samples marked invalid from the next aperture, SENSE_SUSPECT, a confirmation started or queued. A shadow
disagreement leaves the samples valid (R352). -/
def flagSuspect (t check group : Nat) (ains : List Nat) (s : State) : State :=
  let a := ains.headD 0
  let x := s.ain a
  let since := x.lastAt + 10
  let s := if check = 4 then s else ains.foldl (fun s i => s.modAin i fun x => { x with marked := true, markedAt := since }) s
  let s := s.count (hcConv x.conv check)
  let s := s.post t (ev 0x0830 a ([BitVec.ofNat 8 check, BitVec.ofNat 8 group, BitVec.ofNat 8 x.conv, 0] ++ leI 2 x.code))
  let c : Confirm := { ains := ains, check := check, group := group, since := since, spare := none, wasShadow := false, shadow := none, all := ains }
  let s := (giveWay c s).modSense fun z => { z with queue := queueConfirm c z.queue }
  startConfirm t 64 s

/-- A flag of the same check is already confirmed or queued. -/
def State.flagged (s : State) (check group : Nat) (ains : List Nat) : Bool :=
  (s.sense.confirm.toList ++ s.sense.queue).any fun c => c.check == check && c.group == group && c.all == ains

/-- A plausibility check flags where its count is complete (R345, R346): check 1 range, 2 stuck, 3 Kirchhoff, whose suspects are its members, ascending
(R347); the unit is the input or the group. -/
def suspectNow (t check unit : Nat) (s : State) : State :=
  if check = 3 then
    let k := s.kir unit
    let l := (List.range 24).filter fun a => k.members.contains a
    if k.enable && decide (64 ≤ k.cnt) && !k.suspended && !s.flagged 3 unit l then flagSuspect t 3 unit l s else s
  else
    let a := s.ain unit
    let due := (check == 1 && decide (64 ≤ a.rangeCnt) && !a.suspRange) || (check == 2 && a.stuck && decide (512 ≤ a.stuckCnt) && !a.suspStuck && !a.stuckOut)
    if a.enable && due && !s.flagged check 255 [unit] then flagSuspect t check 255 [unit] s else s

/-- A plausibility check completes its count (R345, R346). -/
def execSenseSuspect (t check unit : Nat) (s : State) : Res :=
  let s := s.advance t
  within unit (if check = 3 then 8 else 24) (if s.d7Off then s else suspectNow t check unit s)

/-- The checks of an input as its sample arrives: range, stuck, and the groups that it is a member of (R345). -/
def suspects (t a : Nat) (s : State) : State :=
  (List.range 8).foldl (fun s g => if (s.kir g).members.contains a then suspectNow t 3 g s else s) (suspectNow t 2 a (suspectNow t 1 a s))

/-- The shadowing visit moves on (R351): to its second half, or to the next enabled input; a full cycle is counted. -/
def nextVisit (s : State) : State :=
  match s.convs 2 with
  | w :: _ =>
    if !s.sense.shSecond then s.modSense fun z => { z with shSecond := true }
    else
      let a := s.sense.convAin.getD w 0
      match s.visitFrom (a + 1) with
      | some b =>
        (setConv w 2 b s).modSense fun z => { z with shSecond := false, shCycles := if b ≤ a then (z.shCycles + 1) % 2 ^ 32 else z.shCycles }
      | none => s
  | [] => s

/-- A confirmation ended: a visit whose half disagreed goes on, and the next confirmation in the queue starts (R350, R351). -/
def endConfirm (t : Nat) (c : Confirm) (s : State) : State :=
  let s := releaseSpare c (s.modSense fun z => { z with confirm := none })
  startConfirm t 64 (if c.check = 4 ∧ s.convs 2 = c.shadow.toList then nextVisit s else s)

/-- A faulty spare retired (R352): the other takes up shadowing after the input abandoned. -/
def retireSpare (w : Nat) (s : State) : State :=
  let a := s.sense.convAin.getD w 0
  let shadows := s.sense.roles.getD w 4 == 2
  fixShadow ((retiredConv w (s.count (hcConv w 5))).modSense fun z => { z with shNext := if shadows then a + 1 else z.shNext }).commitHealth

/-- The code of the test DAC in step i (R358). -/
def dacCode (i : Nat) : Nat := 128 + 256 * i

/-- The code + 8,192 of a pipeline converter on the test bus, k steps of the test DAC ago, lies within ±16 codes of (c − 2,048) × 4 (R352, R358). -/
def busGood (s : State) (k x : Nat) : Bool :=
  let e : Int := (dacCode ((s.sense.dacStep + 16 - k) % 16) - 2048 : Int) * 4
  decide (((x : Int) - 8192 - e).natAbs ≤ 16)

/-- The verdict of a shadow disagreement (R352): with a free spare, the sums of |code differences| over 128 samples between the free spare and the
active converter, the free spare and the shadowing one, and the shadowing and the active one: the one that differs from both others is faulty,
whichever it is, and none is found faulty when all three differ (notes/assumptions/32.md); without one, the codes + 8,192 that the
shadowing spare returned on the last three levels of the test bus. A spare that has left its role meanwhile ends the arbitration without a verdict. -/
def shadowVerdict (t a b d : Nat) (c : Confirm) (s : State) : State :=
  let tol := 128 * s.sense.confTol
  let x := c.all.headD 0
  let w := c.shadow.getD 26
  let good := busGood s 2 a && busGood s 1 b && busGood s 0 d
  let activeBad := if c.spare.isSome then decide (tol < a) && decide (tol < d) && !decide (tol < b) else good
  let freeBad := c.spare.isSome && decide (tol < a) && decide (tol < b) && !decide (tol < d)
  let spareBad := if c.spare.isSome then decide (tol < b) && decide (tol < d) && !decide (tol < a) else !good
  if s.convs 2 ≠ [w] then endConfirm t c s
  else
    let s := setConv w 2 x s
    if activeBad then endConfirm t c (retireConv t x (c.spare.getD w) (t + 10) (s.modSense fun z => { z with shNext := x + 1 }))
    else if spareBad then endConfirm t c ((retireSpare w (releaseSpare c s)).post t (verdictEv t x 2 w 255 (t + 10)))
    else if freeBad then
      let f := c.spare.getD w
      endConfirm t { c with spare := none } ((retireSpare f s).post t (verdictEv t x 2 f 255 (t + 10)))
    else endConfirm t c (s.post t (verdictEv t x 0 255 255 (t + 10)))

/-- A comparison gives its verdict (R347, R348, R352). For checks 1 to 3 the observation a is the sum of |spare code − active code| over 128
simultaneous samples. -/
def execSenseVerdict (t a b d : Nat) (s : State) : Res :=
  let s := s.advance t
  match (if s.d7Off then none else s.sense.confirm) with
  | none => .next s
  | some c =>
    if c.check = 4 then .next (shadowVerdict t a b d c s)
    else
      let x := c.ains.headD 0
      let sp := c.spare.getD 0
      if 128 * s.sense.confTol < a then
        let s := (unmark c.all (retireConv t x sp c.since s)).modKir c.group fun k => { k with cnt := 0 }
        .next (endConfirm t { c with spare := none } s)
      else
        let s := s.post t (verdictEv t x 0 255 255 c.since)
        match c.ains.tail with
        | y :: r => .next ((routeConfirm sp y s).modSense fun z => { z with confirm := some { c with ains := y :: r } })
        | [] => .next (endConfirm t c (suspend c (unmark c.all s)))

/-- 2 ms after its verdict a retired converter's supply switch opens and its health record is written (R348). -/
def execConverterPowerOff (t c : Nat) (s : State) : Res :=
  let s := s.advance t
  within c 26 (if s.sense.roles.getD c 0 = 4 ∧ s.sense.convOn.getD c false ∧ s.sense.convOffAt.getD c 0 ≤ t then
      (s.modSense fun z => { z with convOn := z.convOn.set c false }).commitHealth
    else s)

/-- A condition has been false for 1 ms. -/
def falseFor (t : Nat) (since : Option Nat) : Bool := match since with | some x => decide (x + 1000000 ≤ t) | none => false

/-- A suspended check resumes (R347): check 1 range, 2 stuck, 3 Kirchhoff. -/
def execCheckSuspensionEnd (t check unit : Nat) (s : State) : Res :=
  let s := s.advance t
  if s.d7Off then .next s
  else if check = 3 then
    within unit 8 (s.modKir unit fun k => if k.suspended && falseFor t k.okSince then { k with suspended := false } else k)
  else
    within unit 24 (s.modAin unit fun a =>
      if check = 1 ∧ a.suspRange && falseFor t a.okRange then { a with suspRange := false }
      else if check = 2 ∧ a.suspStuck && falseFor t a.okStuck then { a with suspStuck := false }
      else a)

/-- A health counter set to a value. -/
def State.setHealth (i v : Nat) (s : State) : State :=
  { s with mem := { s.mem with health := bumpCounter i v (s.mem.health.filter fun e => e.1 != i) } }

/-- A half of a shadow visit ends (R351, R352), with its offset difference in 0.001 code and its gain difference in 0.00001 %. An input that shadowing
does not visit is passed by. -/
def execShadowVisit (t : Nat) (offset gain : Int) (s : State) : Res :=
  let s := s.advance t
  match (if s.d7Off || s.arbitrates then [] else s.convs 2) with
  | [] => .next s
  | w :: _ =>
    let a := s.sense.convAin.getD w 255
    if !s.visitable a then .next (fixVisit s)
    else
      let o := (offset + 500) / 1000
      let g := (gain + 500) / 1000
      let s := s.modAin a fun x => { x with shOff := o, shGain := g }
      let cv := (s.ain a).conv
      let s := (s.setHealth (hcConv cv 6) (wrap 32 o)).setHealth (hcConv cv 7) (wrap 32 g)
      if s.sense.shOffset * 1000 < offset.natAbs ∨ s.sense.shGain * 1000 < gain.natAbs then
        .next (if s.flagged 4 255 [a] then s else flagSuspect t 4 255 [a] s)
      else .next (nextVisit s)

/-! ### SAR units (R354 to R359) -/

/-- The SAR unit that serves a logical unit. -/
def State.sarOf (s : State) (l : Nat) : Option Nat := (List.range 6).find? fun u => (s.sar u).logical == l
/-- The spare SAR unit. -/
def State.sarSpare (s : State) : Option Nat := s.sarOf 255

/-- A request for an input: merged into the one it already has, as an overtake (R356). -/
def Hk.request (t : Nat) (h : Hk) : Hk :=
  match h.pending with
  | some _ => { h with overtakenAt := some t, pendRead := false }
  | none => { h with pending := some t, pendRead := false }

/-- A request of a SENSE_HK_READ, which is not urgent whatever the input is (R362). -/
def Hk.readRequest (t : Nat) (h : Hk) : Hk :=
  match h.pending with
  | some _ => { h with overtakenAt := some t }
  | none => { h with pending := some t, pendRead := true }

/-- An urgent request waits on the input (R355, R362). -/
def Hk.urgentNow (h : Hk) : Bool := h.urgent && h.pending.isSome && !h.pendRead

/-- Timer requests of an input up to time t (R355): one at each multiple of the period. -/
def Hk.timer (t : Nat) (h : Hk) : Hk :=
  if h.enable && h.source == 1 && decide (0 < h.period) then
    let p := h.period * 1000
    let first := (h.reqAt / p + 1) * p
    if first ≤ t then
      let h := h.request first
      let h := if first + p ≤ t then h.request (t / p * p) else h
      { h with reqAt := t }
    else { h with reqAt := max h.reqAt 0 }
  else { h with reqAt := t }

/-- PWM-event requests of an input up to D6 step now (R355): `delay` after every divider-th valley, or peak of an up-down carrier, of its timebase. An event
before the carrier began as it runs does not count. -/
def State.hkEvents (s : State) (now : Int) (h : Hk) : Hk :=
  match (if h.enable && h.source == 2 && s.sys.domains.getD 6 0 == 2 then (s.tb h.tb).zero else none) with
  | none => h
  | some z =>
    let b := s.tb h.tb
    let n : Int := b.inForce.n
    let at0 : Int := z + if h.event = 1 ∧ b.inForce.mode = 2 then 8 * n else 0
    let every : Int := b.period * h.divider
    let after : Int := max (h.evAt.getD (z - 1)) (z - 1)
    let first : Int := after + 1 + (at0 - after - 1) % b.period + b.period * (h.divider - 1)
    let late : Int := 80 * h.delay
    if first + late ≤ now then
      let last := first + (now - late - first) / every * every
      let h := h.request (s.pwm.d6.ns (first + late))
      let h := if first < last then h.request (s.pwm.d6.ns (last + late)) else h
      { h with evAt := some last }
    else h

/-- The inputs of a logical unit that meet a condition. -/
def State.hksOf (s : State) (l : Nat) (f : Hk → Bool) : List Nat :=
  (List.range 64).filter fun n => (s.hk n).unit == l && f (s.hk n)

/-- The pending request of earliest time, ties to the lower number. -/
def State.earliest (s : State) (l : List Nat) : Option Nat :=
  l.foldl (fun best n =>
    match (s.hk n).pending, best with
    | none, _ => best
    | some _, none => some n
    | some x, some b => if x < (s.hk b).pending.getD 0 then some n else best) none

/-- What a unit converts next (R355, R356): an input, or 0x100 for a test conversion, which waits while a path test runs (R360). -/
def State.sarNext (s : State) (u : Nat) : Option Nat :=
  let z := s.sar u
  let test := z.testDue && s.sense.pathRun == []
  if test && z.first then some 0x100
  else if 5 ≤ z.logical then (if test && z.logical == 255 then some 0x100 else none)
  else match s.earliest (s.hksOf z.logical fun h => h.urgentNow) with
    | some n => some n
    | none =>
      if test then some 0x100
      else match s.earliest (s.hksOf z.logical fun h => h.pending.isSome && !h.urgentNow) with
        | some n => some n
        | none =>
          let cont := s.hksOf z.logical fun h => h.enable && h.source == 3
          match cont.find? fun n => z.lastHk < n with
          | some n => some n
          | none => cont.head?

/-- A SAR unit that has finished its conversion, 1.0 µs after the start, starts its next one by priority (R354, R356). The requests
of timers and PWM events up to t come from device time and the timebases (R355), and the row's own list adds none. -/
def execSarStart (t u : Nat) (_reqs : List (Nat × Nat)) (s : State) : Res :=
  let s := s.advance t
  let now := s.pwm.d6.steps t
  let s := s.modSense fun z => { z with hks := z.hks.map fun h => s.hkEvents now (h.timer t) }
  let s := s.modSar u fun z => match z.busy, z.conv with
    | some n, none => if z.startAt + 1000 ≤ t then { z with busy := none, conv := some (n, z.startAt) } else z
    | _, _ => z
  within u 6 (if s.d7Off || (s.sar u).busy.isSome || (s.sar u).logical == 254 then s
    else match s.sarNext u with
    | none => s
    | some 0x100 => s.modSar u fun z => { z with busy := some 0x100, startAt := t, testDue := false, first := false }
    | some n =>
      let wait := t - (s.hk n).pending.getD t
      let cont : Bool := (s.hk n).source == 3
      (s.modHk n fun h => { h with pending := none }).modSar u fun z =>
        { z with busy := some n, startAt := t, lastHk := if cont then n else z.lastHk
                 waits := (t, wait) :: z.waits.filter fun w => t < w.1 + 1000000000 })

/-- A test conversion ordered at once on a unit and on the spare (R359). -/
def probeNow (u : Nat) (s : State) : State :=
  let go (z : Sar) : Sar := { z with testDue := true, first := true, lastIn := none }
  let s := s.modSar u go
  match s.sarSpare with | some p => s.modSar p go | none => s

/-- An HK result taken (R354, R359): its window check, and the probe of three consecutive results outside. -/
def hkResult (u n start code : Nat) (s : State) : State :=
  let z := s.sar u
  let h := s.hk n
  let out := decide (code < h.winLo) || decide (h.winHi < code)
  let h1 := { h with
    code := code, stamp := start + 250
    outCnt := if out && !h.suspended then min 255 (h.outCnt + 1) else 0
    inCnt := if h.suspended && !out then h.inCnt + 1 else 0 }
  let flag := decide (3 ≤ h1.outCnt) && !h1.marked
  let h2 := { h1 with
    marked := h1.marked || flag
    suspended := h1.suspended && decide (h1.inCnt < 3)
    valid := !(h1.marked || flag) && !z.marked && !h1.pathFail }
  let s := s.modHk n fun _ => h2
  if flag then probeNow u (s.modSar u fun z => { z with probe := z.probe ++ [n] }) else s

/-- The inputs of a unit whose flags its test conversions decided. -/
def clearProbe (genuine : Bool) (t u : Nat) (s : State) : State :=
  let l := (s.sar u).probe
  let s := s.modSar u fun z => { z with probe := [] }
  l.foldl (fun s n =>
    let s := s.modHk n fun h => { h with marked := false, outCnt := 0, suspended := genuine, inCnt := 0 }
    if genuine then s.post t (ev 0x0834 n (le 2 (s.hk n).code ++ [1])) else s) s

/-- The spare takes over a logical unit (R359); the retired unit's supply switch opens (spec/01_architecture.md R32). -/
def spliceSar (t u p : Nat) (s : State) : State :=
  let l := (s.sar u).logical
  let s := clearProbe false t u s
  let s := (s.modSar p fun z => { z with logical := l, failCnt := 0 }).modSar u fun z => { z with logical := 254, failCnt := 0 }
  let s := s.modSense fun x => { x with sarOn := x.sarOn.set u false, testSusp := if x.testSusp = some u then none else x.testSusp }
  memSpliced t 3 u p 0 0 (s.post t (ev 0x0833 l [0, BitVec.ofNat 8 u, BitVec.ofNat 8 p]))

/-- The verdict on a unit from its and the spare's newest test conversions (R359). A test-bus fault found on one unit suspends the verdicts of all until a
step passes on it and the spare. -/
def sarVerdict (t u : Nat) (s : State) : State :=
  let z := s.sar u
  if 5 ≤ z.logical then s
  else match z.lastIn with
  | none => s
  | some inside =>
    let asked := decide (2 ≤ z.failCnt) || z.probe != []
    let passed (s : State) : State := if s.sense.testSusp = some u then s.modSense fun x => { x with testSusp := none } else s
    match s.sarSpare with
    | none =>
      let s := if inside then passed s else s
      if s.sense.testSusp.isSome then s
      else if inside then clearProbe true t u s
      else if asked && !z.marked then (s.modSar u fun z => { z with marked := true }).post t (ev 0x0833 z.logical [2, BitVec.ofNat 8 u, 255])
      else s
    | some p =>
      match (s.sar p).lastIn with
      | none => s
      | some sp =>
        let s := if inside && sp then passed s else s
        if s.sense.testSusp.isSome || !asked then s
        else if inside then clearProbe true t u s
        else if sp then spliceSar t u p s
        else (s.modSense fun x => { x with testSusp := some u }).post t (ev 0x0833 z.logical [1, BitVec.ofNat 8 u, 255])

/-- The step of the test DAC at time x, of which the last change is known. -/
def State.dacStepAt (s : State) (x : Nat) : Nat := if s.sense.dacAt ≤ x then s.sense.dacStep else (s.sense.dacStep + 15) % 16

/-- The result of the test conversion with aperture x (R358, R359), against the level at its aperture; one taken under a path test's level is not judged
(R360). -/
def testResult (t u x code : Nat) (s : State) : State :=
  if s.sense.pathRun ≠ [] ∧ s.sense.pathAt ≤ x then s else
  let c := dacCode (s.dacStepAt x)
  let ok := decide (code ≤ c + 6) && decide (c ≤ code + 6)
  let s := if ok then s else s.count (hcSar u 0)
  let s := s.modSar u fun z => { z with lastIn := some ok, failCnt := if ok then 0 else min 3 (z.failCnt + 1), marked := z.marked && !ok }
  (List.range 6).foldl (fun s v => sarVerdict t v s) s

/-- The reply of a SENSE_HK_READ (R362). -/
def hkReadData (s : State) (hks : List Nat) : List Byte :=
  hks.flatMap fun n =>
    if n = 255 then zeros 12
    else
      let h := s.hk n
      le 2 h.code ++ le 1 (flagAt h.valid 0 + flagAt (decide (h.code < h.winLo) || decide (h.winHi < h.code)) 1) ++ zeros 1 ++ le 8 h.stamp

/-- An input converted from `start` on leaves the SENSE_HK_READ commands that waited for it by then; one whose inputs are all converted is answered. -/
def hkReadDone (n start : Nat) (s : State) : State :=
  let l := s.sense.hkReads.map fun r => if r.since ≤ start then { r with wait := r.wait.filter fun k => k != n } else r
  let s := s.modSense fun z => { z with hkReads := l.filter fun r => r.wait != [] }
  (l.filter fun r => r.wait == []).foldl (fun s r => sendReply r.reply.src (r.reply.withData (hkReadData s r.hks)) s) s

/-- Every 250 µs the test DAC steps and every SAR unit converts the test bus; it pauses while a path test runs (R358, R360). -/
def execTestDacStep (t : Nat) (s : State) : Res :=
  let s := s.advance t
  .next (if s.d7Off || s.sense.pathRun != [] || decide (t < s.sense.dacAt + 250000) then s
    else s.modSense fun z => { z with dacStep := (z.dacStep + 1) % 16, dacAt := t, sars := z.sars.map fun u => { u with testDue := u.logical != 254, lastIn := none } })

/-! ### Path tests and calibration (R360, R361) -/

/-- The verdict of one entry: the measured difference lies within ± tolerance % of the expected one (R360). -/
def PathEntry.passes (e : PathEntry) (m : Int) : Bool := decide ((m - e.expect).natAbs * 100 ≤ e.expect.natAbs * e.tol)

/-- One entry's result: the input marked or freed, and SENSE_PATH. -/
def pathResult (t : Nat) (e : PathEntry) (m : Int) (s : State) : State :=
  let ok := e.passes m
  let s := if e.kind = 1 then s.modAin e.input fun a => { a with pathFail := !ok }
    else s.modHk e.input fun h => { h with pathFail := !ok, valid := h.valid && ok }
  s.post t (ev 0x0835 (e.kind * 256 + e.input) ([if ok then 1 else 0, 0] ++ leI 2 m))

/-- Level l of the present entry driven at t; an HK input under test is converted for it (R360). -/
def pathLevel (t l : Nat) (e : PathEntry) (s : State) : State :=
  let s := s.modSense fun z => { z with tdac := some l, pathAt := t, pathN := 0, pathAcc := 0 }
  if e.kind = 2 then s.modHk e.input (Hk.request t) else s

/-- The nearest integer of a sum over n, ties up (spec/00_scope.md R13). -/
def nearest (a : Int) (n : Nat) : Int := (2 * a + n) / (2 * n)

/-- A code of an input under test, with the device time of its aperture: averaged once the settle time has passed, 256 samples or 16 results at each
of the two levels, then the difference of the averages and the next entry (R360). -/
def pathTake (t kind input : Nat) (code : Int) (s : State) : State :=
  match s.sense.pathRun[s.sense.pathIdx]? with
  | none => s
  | some e =>
    if e.kind ≠ kind ∨ e.input ≠ input then s
    else
      let need := if e.kind = 1 then 256 else 16
      let again (s : State) : State := if e.kind = 2 then s.modHk e.input (Hk.request t) else s
      if t < s.sense.pathAt + e.settle * 1000 then again s
      else
        let sum := s.sense.pathAcc + code
        if s.sense.pathN + 1 < need then again (s.modSense fun z => { z with pathN := z.pathN + 1, pathAcc := sum })
        else if !s.sense.pathHi then pathLevel t e.l2 e (s.modSense fun z => { z with pathHi := true, pathLow := sum })
        else
          let s := s.modSense fun z =>
            { z with pathHi := false, pathIdx := z.pathIdx + 1, pathDiffs := z.pathDiffs ++ [nearest (sum - z.pathLow) need] }
          match s.sense.pathRun[s.sense.pathIdx]? with
          | some n => pathLevel t n.l1 n s
          | none => s

/-- A path test finishes: every entry has its measured difference (R360). With D7 off no code arrives, and the differences of the entries not measured by then,
which are not stated, are those the row gives (notes/assumptions/32.md). -/
def execSensePath (t : Nat) (diffs : List Int) (s : State) : Res :=
  let s := s.advance t
  let l := s.sense.pathRun
  .next (if l = [] ∨ (s.sense.pathDiffs.length ≠ l.length ∧ !s.d7Off) then s
    else
      let pairs := l.zip (s.sense.pathDiffs ++ (List.range l.length).map fun i => sat16 (diffs.getD i 0))
      let s := pairs.foldl (fun s x => pathResult t x.1 x.2 s) s
      let data := pairs.flatMap fun x => leI 2 x.2 ++ [if x.1.passes x.2 then 1 else 0, 0]
      let r := s.sense.pathReply
      let s := s.modSense fun z => { z with pathRun := [], pathReply := none, tdac := none, pathDiffs := [], pathIdx := 0 }
      match r with
      | some d => if bit (u8 d.bytes 6) 0 then sendStored { d with bytes := d.withData data } s else sendReply d.src (d.withData data) s
      | none => s)

/-- n free corrections of m values each about 0, from the k-th free word on. -/
def freeCorr (k n m : Nat) : List Int := (List.range n).map fun i => ((Config.freeWord (k + i)).toNat % m : Int) - (m / 2 : Nat)

/-- The offsets, gains and aperture trims (−127..127 steps of 2 ps) of every pipeline converter and SAR unit set (R361). The spec states no value: free
values. -/
def calibrate (s : State) : State :=
  let k := s.freeCtr
  (s.drawn 90).modSense fun z => { z with
    gainCorr := freeCorr k 26 65536, offCorr := freeCorr (k + 26) 26 65536, trims := freeCorr (k + 52) 26 255
    sarOff := freeCorr (k + 78) 6 65536, sarGain := freeCorr (k + 84) 6 65536 }

/-- Every 10 ms the converters' offsets, gains and trims are corrected from the die temperature, by coefficients stored at manufacture (R361): the pipeline
gain corrections in force come with the row, the others are free values. -/
def execCalibrationCorrection (t : Nat) (gains : List Int) (s : State) : Res :=
  let s := s.advance t
  .next (if s.d7Off || decide (t < s.sense.calAt + 10000000) then s
    else
      let old := s.sense.gainCorr
      (calibrate s).modSense fun z => { z with calAt := t, gainCorr := (List.range 26).map fun c => sat16 (gains.getD c (old.getD c 0)) })

/-! ### Commands of group 0x08xx (R362 to R366) -/

/-- An input slot of an enabled channel reads the source (R362). -/
def State.slotReads (s : State) (kind index : Nat) (sub : Option Nat) : Bool :=
  (List.range 256).any fun n => chEnable s.eng.run n && (List.range 16).any fun i =>
    let w := inSlot s.eng.run n i
    slotKind w == kind && slotIndex w == index && (match sub with | some o => slotSub w == o | none => true)

/-- A configuration of groups 0x04xx to 0x06xx reads output o of AIN a, or any output of it (R362). -/
def State.cfgReadsAin (s : State) (a : Nat) (o : Option Nat) : Bool :=
  let is (x : Nat) : Bool := match o with | some y => x == y | none => true
  (match s.grid.cfg with | some c => (c.frontG.contains a || c.frontL.contains a) && is c.decim | none => false) ||
  (s.dcl.hasCfg && (s.dcl.ain == a || s.dcl.chopAin == a) && is s.dcl.out) ||
  (s.isl.cfg.inputs.contains a && is s.isl.cfg.decim) ||
  (s.ports.pv.any fun x => match x.cfg with | some c => ((c.vKind == 1 && c.vIn == a) || c.iIn == a) && is c.decim | none => false) ||
  (s.ports.bat.any fun x => match x.cfg with | some c => c.vKind == 1 && c.vIn == a && is 0 | none => false)

/-- A configuration of groups 0x04xx to 0x06xx reads HK input h. -/
def State.cfgReadsHk (s : State) (h : Nat) : Bool :=
  (s.ports.pv.any fun x => match x.cfg with | some c => c.vKind == 2 && c.vIn == h | none => false) ||
  (s.ports.bat.any fun x => match x.cfg with | some c => c.vKind == 2 && c.vIn == h | none => false)

/-! ### The rates of the recorder's lanes (spec/14_recorder.md R400, R403) -/

/-- Rates are fractions of samples per second. -/
abbrev Rate := Nat × Nat

/-- The sum of two rates. -/
def Rate.add (a b : Rate) : Rate := (a.1 * b.2 + b.1 * a.2, a.2 * b.2)

/-- The rate of a lane's source (R400). -/
def State.laneRate (s : State) (x : Lane) : Rate :=
  if x.kind = 1 then
    let d := (s.ain x.input).outs.getD x.out Decim.reset
    if !d.on then (0, 1)
    else if d.typ = 0 then (100000000, 1)
    else if d.typ = 3 then let l := s.leg d.leg; (8000000000, max 1 (loadInterval (s.tb l.tb).inForce l.loads))
    else (100000000, max 1 d.d)
  else if x.kind = 2 then
    let h := s.hk x.input
    if !h.enable then (0, 1)
    else if h.source = 1 then (1000000, max 1 h.period)
    else if h.source = 2 then (1000000000, max 1 ((s.tb h.tb).inForce.n * 2 * h.divider))
    else if h.source = 3 then (996000, max 1 (s.hksOf h.unit fun k => k.enable && k.source == 3).length)
    else (0, 1)
  else (0, 1)

/-- Lanes that hold any role produce at most 100,000,000 samples per second (R403). -/
def State.laneRatesOk (s : State) (ls : List Lane) : Bool :=
  let q := ls.foldl (fun q x => if x.cap || x.hist || x.stream then Rate.add q (s.laneRate x) else q) (0, 1)
  decide (q.1 ≤ 100000000 * q.2)

/-- A finite binary32 above 0 at an offset. -/
def posF (pl : List Byte) (o : Nat) : Check :=
  let x : F32 := BitVec.ofNat 32 (u32 pl o)
  (o, decide (x.toNat % 2 ^ 31 < 0x7F800000) && decide (0 < x.toNat) && decide (x.toNat < 2 ^ 31))

def specSenseAinConfig : CmdSpec :=
  { opcode := 0x0800, lenOk := len 16, image := some 0, key := 1
    checks := fun _ p =>
      let pl := p.payload
      [inB pl 0 0 23, maskB pl 1 3, inS pl 2 (-8192) 8190, (4, decide (s16 pl 2 < s16 pl 4) && decide (s16 pl 4 ≤ 8191))] ++ resv pl 6 2 ++
      [posF pl 8, inH pl 12 0 7] ++ resv pl 14 2
    conflictBad := fun s p =>
      let a := u8 p.payload 0
      !bit (u8 p.payload 1) 0 && (s.slotReads 1 a none || s.cfgReadsAin a none)
    run := fun p s =>
      let pl := p.payload
      { st := fixVisit (fixShadow (s.modAin (u8 pl 0) fun a => { a with
          enable := bit (u8 pl 1) 0, stuck := bit (u8 pl 1) 1, winLo := s16 pl 2, winHi := s16 pl 4
          fs := BitVec.ofNat 32 (u32 pl 8), unit := u16 pl 12, rangeCnt := 0, stuckCnt := 0 })) } }

/-- The range checks of SENSE_DECIM_CONFIG (R342, R343), the lanes' rates aside. -/
def decimChecks (s : State) (pl : List Byte) : List Check :=
  let ty := u8 pl 2
  let leg := u8 pl 3
  let d := u16 pl 4
  let l := (s.leg leg).asked
  let iv := loadInterval (s.tb l.tb).cfg l.loads
  let dOk : Bool := if ty = 0 then d == 1 else if ty = 1 then decide (2 ≤ d) && decide (d ≤ 4096)
    else if ty = 2 then decide (4 ≤ d) && decide (d ≤ 256) && (d &&& (d - 1)) == 0 else true
  [inB pl 0 0 23, inB pl 1 0 3, (2, decide (ty ≤ 3)),
   (3, (leg == 255 && ty != 3) || (decide (leg < 48) && (ty == 3 || ty == 0 || (l.hasCfg && decide (0 < d) && iv % (d * 80) == 0)))),
   (4, dOk)] ++ resv pl 6 2

def specSenseDecimConfig : CmdSpec :=
  { opcode := 0x0801, lenOk := len 8, image := some 0, key := 2
    checks := fun s p =>
      let pl := p.payload
      let set (d : Decim) : Decim := { d with typ := u8 pl 2, leg := u8 pl 3, d := u16 pl 4, on := true }
      let after := s.modAin (u8 pl 0) fun a => { a with outs := upd a.outs (u8 pl 1) set }
      (decimChecks s pl).take 3 ++ [(2, after.laneRatesOk s.recorder.lanes)] ++ (decimChecks s pl).drop 3
    busyBad := fun s p =>
      let a := u8 p.payload 0
      let o := u8 p.payload 1
      s.slotReads 1 a (some o) || s.cfgReadsAin a (some o)
    run := fun p s =>
      let pl := p.payload
      { st := s.modAin (u8 pl 0) fun a => { a with outs := upd a.outs (u8 pl 1) fun d =>
          let d := { d with cfgPend := some (u8 pl 2, u8 pl 3, u16 pl 4) }
          (if d.cnt = 0 ∨ !d.on then d.windowEnd else d) } } }

/-- The members of a SENSE_KIRCHHOFF_SET. -/
def kirMembers (pl : List Byte) : List Nat := (List.range (min 4 (u8 pl 2))).map fun i => u8 pl (4 + i)

/-- The member checks (R362): in range, enabled, no duplicate, one physical full scale; 0xFF beyond the count. -/
def kirChecks (s : State) (pl : List Byte) : List Check :=
  let m := kirMembers pl
  (List.range 4).map fun i =>
    let a := u8 pl (4 + i)
    (4 + i, if i < u8 pl 2 then decide (a < 24) && (s.ain a).enable && !(m.take i).contains a && (s.ain a).fs == (s.ain (m.headD 0)).fs else a == 255)

def specSenseKirchhoffSet : CmdSpec :=
  { opcode := 0x0802, lenOk := len 12, image := some 0, key := 1
    checks := fun s p =>
      let pl := p.payload
      [inB pl 0 0 7, maskB pl 1 1, inB pl 2 2 4, maskB pl 3 15] ++ kirChecks s pl ++ [inH pl 8 1 32767] ++ resv pl 10 2
    run := fun p s =>
      let pl := p.payload
      { st := s.modKir (u8 pl 0) fun _ =>
          { Kir.reset with enable := bit (u8 pl 1) 0, members := kirMembers pl, signs := u8 pl 3, thr := u16 pl 8 } } }

def specSenseCheckConfig : CmdSpec :=
  { opcode := 0x0803, lenOk := len 8, image := some 0
    checks := fun _ p =>
      let pl := p.payload
      [inH pl 0 4 1024, inH pl 2 4 512, inH pl 4 10 500, maskB pl 6 1] ++ resv pl 7 1
    run := fun p s =>
      let pl := p.payload
      { st := fixShadow (s.modSense fun z =>
          { z with confTol := u16 pl 0, shOffset := u16 pl 2, shGain := u16 pl 4, shEnable := bit (u8 pl 6) 0 }) } }

/-- An HK configuration as in a payload (R364); a divider byte of 0 is 256. -/
def hkOf (pl : List Byte) (h : Hk) : Hk :=
  { h with
    enable := bit (u8 pl 1) 0, urgent := bit (u8 pl 1) 1, unit := u8 pl 2, source := u8 pl 3, period := u32 pl 4, tb := u8 pl 8
    event := u8 pl 9, divider := if u8 pl 10 = 0 then 256 else u8 pl 10, delay := u16 pl 12, winLo := u16 pl 14, winHi := u16 pl 16
    punit := u16 pl 18, fs := BitVec.ofNat 32 (u32 pl 20), pending := none, pendRead := false, outCnt := 0, inCnt := 0, suspended := false }

/-- The declared load of a logical unit in conversions per second, as numerator and denominator (R357). -/
def unitLoad (s : State) (hks : List Hk) (l : Nat) : Nat × Nat :=
  hks.foldl (fun q h =>
    if h.enable && h.unit == l then
      if h.source = 1 then (q.1 * h.period + 1000000 * q.2, q.2 * h.period)
      else if h.source = 2 then
        let p := (s.tb h.tb).cfg.n * 2 * h.divider
        (q.1 * p + 1000000000 * q.2, q.2 * p)
      else q
    else q) (4000, 1)

/-- The rules of R355 and R357 over the inputs as they would stand. -/
def hkSetOk (s : State) (hks : List Hk) (l : Nat) : Bool :=
  let mine := hks.filter fun h => h.enable && h.unit == l
  let cont := mine.filter fun h => h.source == 3
  let q := unitLoad s hks l
  (cont.isEmpty || cont.length == mine.length) &&
  decide ((hks.filter fun h => h.enable && h.source == 3).length ≤ 8) &&
  decide ((mine.filter fun h => h.urgent).length ≤ 1) &&
  decide (q.1 ≤ 800000 * q.2)

def specSenseHkConfig : CmdSpec :=
  { opcode := 0x0804, lenOk := len 24, image := some 0, key := 1
    checks := fun s p =>
      let pl := p.payload
      let src := u8 pl 3
      [inB pl 0 0 63, (1, u8 pl 1 / 4 == 0 && (!bit (u8 pl 1) 1 || src == 1 || src == 2)), inB pl 2 0 4,
       (3, decide (src ≤ 3) && hkSetOk s (upd s.sense.hks (u8 pl 0) (hkOf pl)) (u8 pl 2) &&
         (s.modHk (u8 pl 0) (hkOf pl)).laneRatesOk s.recorder.lanes),
       (4, if src = 1 then decide (10 ≤ u32 pl 4) && decide (u32 pl 4 ≤ 1000000) else u32 pl 4 == 0),
       (8, if src = 2 then decide (u8 pl 8 ≤ 7) else u8 pl 8 == 0), inB pl 9 0 1] ++ resv pl 11 1 ++
      [inH pl 14 0 4094, (16, decide (u16 pl 14 < u16 pl 16) && decide (u16 pl 16 ≤ 4095)), inH pl 18 0 7, posF pl 20]
    conflictBad := fun s p =>
      let h := u8 p.payload 0
      !bit (u8 p.payload 1) 0 && (s.slotReads 2 h none || s.cfgReadsHk h)
    run := fun p s =>
      let n := u8 p.payload 0
      let asked := s.sense.hkReads.any fun r => r.wait.contains n
      { st := s.modHk n fun h =>
          let h' := { hkOf p.payload h with reqAt := s.time, evAt := some (s.pwm.d6.steps s.time) }
          if asked then { h' with pending := h.pending, pendRead := h.pending.isSome } else h' } }

/-- The inputs of a SENSE_HK_READ. -/
def hkReadList (pl : List Byte) : List Nat := (List.range 8).map fun i => u8 pl i

def specSenseHkRead : CmdSpec :=
  { opcode := 0x0805, lenOk := len 8
    checks := fun s p => (List.range 8).map fun i => let n := u8 p.payload i; (i, n == 255 || (decide (n < 64) && (s.hk n).enable))
    dryData := fun _ => some (zeros 96)
    run := fun p s =>
      let l := hkReadList p.payload
      let used := (l.filter fun n => n != 255).eraseDups
      let st := used.foldl (fun s n => s.modHk n (Hk.readRequest s.time)) s
      { st := st, data := if used = [] then zeros 96 else []
        keep := if used = [] then none
          else some fun d s => s.modSense fun z => { z with hkReads := z.hkReads ++ [{ hks := l, wait := used, since := s.time, reply := d }] } } }

/-- The entries of a SENSE_PATH_TEST (R365). -/
def pathEntries (pl : List Byte) : List PathEntry :=
  (List.range ((pl.length - 4) / 12)).map fun i =>
    let o := 4 + 12 * i
    { kind := u8 pl o, input := u8 pl (o + 1), l1 := u16 pl (o + 2), l2 := u16 pl (o + 4), settle := u16 pl (o + 6), expect := s16 pl (o + 8)
      tol := u8 pl (o + 10) }

/-- The range checks of one entry (R365). -/
def pathChecks (pl : List Byte) (i : Nat) : List Check :=
  let o := 4 + 12 * i
  [inB pl o 1 2, (o + 1, decide (u8 pl (o + 1) < (if u8 pl o = 1 then 24 else 64))), inH pl (o + 2) 0 4095,
   (o + 4, decide (u16 pl (o + 4) ≤ 4095) && u16 pl (o + 4) != u16 pl (o + 2)), inH pl (o + 6) 10 65535, (o + 8, u16 pl (o + 8) != 0),
   inB pl (o + 10) 1 50] ++ resv pl (o + 11) 1

/-- A list of entries under test (R360): the test bus drives the first level. -/
def startPathTest (l : List PathEntry) (d : Option DurReply) (s : State) : State :=
  let s := s.modSense fun z => { z with pathRun := l, pathReply := d, pathIdx := 0, pathHi := false, pathDiffs := [] }
  match l with
  | e :: _ => pathLevel s.time e.l1 e s
  | [] => s

def specSensePathTest : CmdSpec :=
  { opcode := 0x0806
    lenOk := fun pl => 16 ≤ pl.length && pl.length ≤ 196 && (pl.length - 4) % 12 == 0
    dryData := fun p => some (zeros (4 * ((p.payload.length - 4) / 12)))
    modeBad := fun s _ => !s.quiet
    busyBad := fun s _ => s.sense.pathRun != []
    checks := fun _ p =>
      [maskB p.payload 0 1] ++ resv p.payload 1 3 ++ (List.range ((p.payload.length - 4) / 12)).flatMap fun i => pathChecks p.payload i
    run := fun p s =>
      let l := pathEntries p.payload
      let store := bit (u8 p.payload 0) 0
      { st := if store then
            ({ s with mem := { s.mem with blockNext := noteBlock 0x0806 0 p.payload s.mem.blockNext } }).dirty.modSense fun z => { z with pathList := l }
          else s
        keep := some fun d s => startPathTest l (some (if store && p.ack then { d with bytes := setDurable d.bytes } else d)) s } }

/-- The 400 bytes of SENSE_STATUS (R366). -/
def senseStatus (s : State) : List Byte :=
  let z := s.sense
  let shadow := match s.convs 2 with | w :: _ => z.convAin.getD w 255 | [] => 255
  le 1 s.convSpares ++ le 1 (if s.sarSpare.isSome then 1 else 0) ++ le 1 shadow ++ zeros 1 ++ le 4 z.shCycles ++ zeros 8 ++
  ((List.range 26).flatMap fun c => le 1 (z.roles.getD c 4) ++ le 1 (z.convAin.getD c 255) ++ leI 2 (z.gainCorr.getD c 0)) ++
  ((List.range 24).flatMap fun i =>
    let a := s.ain i
    let clips := (a.clips.filter fun c => s.time < c + 1000000000).length
    let susp := a.suspRange || a.suspStuck || z.kirs.any fun k => k.suspended && k.members.contains i
    le 1 a.conv ++ le 1 (flagAt a.enable 0 + flagAt (a.marked || a.pathFail) 1 + flagAt (0 < clips) 2 + flagAt susp 3 + flagAt a.pathFail 4) ++
    le 2 (min 65535 clips) ++ leI 2 a.shOff ++ leI 2 a.shGain) ++
  ((List.range 6).flatMap fun u =>
    let x := s.sar u
    let q := unitLoad s z.hks x.logical
    let longest := (x.waits.filter fun w => s.time < w.1 + 1000000000).foldl (fun m w => max m w.2) 0
    le 1 x.logical ++ le 1 (if x.logical < 5 then q.1 * 100 / (q.2 * 1000000) else 0) ++ le 2 (min 65535 (longest / 10))) ++
  (List.range 64).flatMap fun n =>
    let h := s.hk n
    let late : Bool := match h.overtakenAt with | some x => decide (s.time < x + 1000000000) | none => false
    le 1 (flagAt h.enable 0 + flagAt (!h.valid) 1 + flagAt late 2 + flagAt h.pathFail 3)

def specSenseStatus : CmdSpec :=
  { opcode := 0x0807, lenOk := len 0, run := fun _ s => { st := s, data := senseStatus s } }

def execSenseAinConfig (p : Packet) (s : State) : Res := runCommand specSenseAinConfig p s
def execSenseDecimConfig (p : Packet) (s : State) : Res := runCommand specSenseDecimConfig p s
def execSenseKirchhoffSet (p : Packet) (s : State) : Res := runCommand specSenseKirchhoffSet p s
def execSenseCheckConfig (p : Packet) (s : State) : Res := runCommand specSenseCheckConfig p s
def execSenseHkConfig (p : Packet) (s : State) : Res := runCommand specSenseHkConfig p s
def execSenseHkRead (p : Packet) (s : State) : Res := runCommand specSenseHkRead p s
def execSensePathTest (p : Packet) (s : State) : Res := runCommand specSensePathTest p s
def execSenseStatus (p : Packet) (s : State) : Res := runCommand specSenseStatus p s

end Sys2Proof.Machine
end

