-- ==== Sys2Proof/Machine/SafetyGroup.lean ====
section
/-! DEFINITION. Safety functions, outputs, inputs, the Vrel layer and the safety command group (spec/15_safety.md). -/

namespace Sys2Proof.Machine

/-! ### Parts and the active image (R448) -/

def State.modSafety (f : Safety → Safety) (s : State) : State := { s with safety := f s.safety }
def State.sf (s : State) (i : Nat) : Sf := s.safety.fns.getD i Sf.reset
def State.out (s : State) (x : Nat) : SOut := s.safety.outs.getD x SOut.reset
def State.pair (s : State) (k : Nat) : Pair := s.safety.pairs.getD k Pair.reset
def State.conn (s : State) (c : Nat) : VConn := s.safety.conns.getD c VConn.reset
def State.modSf (i : Nat) (f : Sf → Sf) (s : State) : State := s.modSafety fun z => { z with fns := upd z.fns i f }
def State.modOut (x : Nat) (f : SOut → SOut) (s : State) : State := s.modSafety fun z => { z with outs := upd z.outs x f }
def State.modPair (k : Nat) (f : Pair → Pair) (s : State) : State := s.modSafety fun z => { z with pairs := upd z.pairs k f }
def State.modConn (c : Nat) (f : VConn → VConn) (s : State) : State := s.modSafety fun z => { z with conns := upd z.conns c f }

/-- The safety CRC (R442), over an image without a virtual header (R448). -/
def scrc (bs : List Byte) : Nat := crcReflected 0xC8DF352F bs

/-- The level of channel ch = 0..15, filtered. -/
def State.chanLevel (s : State) (ch : Nat) : Bool := (s.safety.chans.getD ch SChan.reset).level

/-- TP_PERIOD in ms, TP_WIDTH in µs, OT_PERIOD in s of an image. -/
def tpPeriod (img : List Byte) : Nat := u16 img 128
def tpWidth (img : List Byte) : Nat := u16 img 130
def otPeriod (img : List Byte) : Nat := u16 img 132

/-- Fields of connection c of an image. -/
def connEnabled (img : List Byte) (c : Nat) : Bool := bit (u8 img (137 + 16 * c)) 0
def connRemoteAck (img : List Byte) (c : Nat) : Bool := bit (u8 img (137 + 16 * c)) 1
def connSeqWin (img : List Byte) (c : Nat) : Nat := u8 img (138 + 16 * c)
def connId (img : List Byte) (c : Nat) : List Byte := slice img (140 + 16 * c) 4
def connSig (img : List Byte) (c : Nat) : List Byte := slice img (144 + 16 * c) 4
def connTExp (img : List Byte) (c : Nat) : Nat := u16 img (148 + 16 * c)
def connPeriod (img : List Byte) (c : Nat) : Nat := u16 img (150 + 16 * c)

/-- Pair k is pulsed (R435). -/
def State.pulsed (s : State) (k : Nat) : Bool := bit (s.pairByte k 2) 0
/-- Function i names pair k, or connection c, in its mask; output x belongs to it (R422). -/
def State.namesPair (s : State) (i k : Nat) : Bool := bit (s.sfByte i 2) k
def State.namesConn (s : State) (i c : Nat) : Bool := bit (s.sfByte i 3) c
def State.ownsOut (s : State) (i x : Nat) : Bool := s.outByte x 1 == i

/-! ### Input pairs (R433 to R438) -/

/-- Either channel of a demand pair stands at its demand level (R438). -/
def State.pairDemand (s : State) (k : Nat) : Bool :=
  let a := s.chanLevel (2 * k)
  let b := s.chanLevel (2 * k + 1)
  match s.pairByte k 1 with | 1 => !a || !b | 2 => !a || b | 3 => !a | _ => false

/-- The channels of a kind-1 or kind-2 pair differ from its relation (R438). -/
def State.pairDisagrees (s : State) (k : Nat) : Bool :=
  let a := s.chanLevel (2 * k)
  let b := s.chanLevel (2 * k + 1)
  match s.pairByte k 1 with | 1 => a != b | 2 => a == b | _ => false

/-- A pair's kind is one of the demand kinds. -/
def State.demandPair (s : State) (k : Nat) : Bool := 1 ≤ s.pairByte k 1 && s.pairByte k 1 ≤ 3

/-- The pair's windows since it was last at rest: each channel that is high at non-demand has passed one of its own (R437). -/
def Pair.windowsPassed (kind : Nat) (p : Pair) : Bool := p.passA && (p.passB || kind != 1)

/-- The pair faulted with a cause on a channel (R437, R438): SAFETY_PAIR_FAULT. -/
def pairFault (t k cause ch : Nat) (s : State) : State :=
  if (s.pair k).fault ≠ 0 then s
  else (s.modPair k fun p => { p with fault := cause, okWindows := 0 }).post t (ev 0x0B31 k [BitVec.ofNat 8 cause, BitVec.ofNat 8 ch])

/-- Discrepancy time of pair k in ticks (R438, R448). -/
def State.discrepancy (s : State) (k : Nat) : Nat := u16 s.safety.active (64 + 8 * k + 4)

/-- A discrepancy fault once the count has reached T (R438). Its event's channel byte is not stated (notes/assumptions/35.md). -/
def discrepancyFault (t k : Nat) (s : State) : State :=
  if s.demandPair k ∧ s.discrepancy k ≤ (s.pair k).disagree ∧ 0 < (s.pair k).disagree then
    pairFault t k 1 (Config.freeNat "discrepancy channel" k % 2) s else s

/-- One tick of a demand pair (R437, R438): readiness ends with a demand and comes back with both channels at rest and, when pulsed, an own
window passed by each high channel. -/
def Pair.tick (demand disagrees pulsed : Bool) (kind : Nat) (p : Pair) : Pair :=
  let p := { p with disagree := if disagrees then satInc 65535 p.disagree else 0 }
  if demand then { p with ready := false, atRest := false, passA := false, passB := false }
  else
    let p := { p with atRest := true }
    { p with ready := !pulsed || p.windowsPassed kind }

/-- Every cause of the pair's fault is gone (R437): its channels agree and, on a pulsed pair, six windows in turn (three periods of both
sources) have passed without a failure. -/
def State.pairGone (s : State) (k : Nat) : Bool :=
  let p := s.pair k
  p.fault == 0 || (!s.pairDisagrees k && (!s.pulsed k || 6 ≤ p.okWindows))

/-! ### Outputs (R428 to R432) -/

/-- The feedback channel of output x, if it names one (R448). -/
def State.feedback (s : State) (x : Nat) : Option Nat := if s.outByte x 2 = 255 then none else some (s.outByte x 2)
def State.tOpen (s : State) (x : Nat) : Nat := u16 s.safety.active (32 + 8 * x + 4)
def State.tClose (s : State) (x : Nat) : Nat := u16 s.safety.active (32 + 8 * x + 6)

/-- Output x is assigned to a function (R431). -/
def State.assigned (s : State) (x : Nat) : Bool := s.outByte x 1 < 4

/-- An output fault (R432): both switches off, the state latched, SAFETY_OUTPUT_FAULT with its cause and element. A test in progress ends
as failed. -/
def outFault (t x cause el : Nat) (s : State) : State :=
  let o := s.out x
  if o.state = 4 ∧ !o.recover then s
  else
    let s := s.modOut x fun o =>
      { o with state := 4, cause := cause, soh := false, sol := false, chgAt := t, light := 0, dark := 0, testing := false,
               recover := false, mism := 0, openLoadAt := none }
    ((s.post t (ev 0x0B32 x [BitVec.ofNat 8 cause, BitVec.ofNat 8 el])).count (0x982 + 4 * x)).commitHealth

/-- The commanded switches of an output changed (R429). -/
def SOut.drive (t : Nat) (soh sol : Bool) (o : SOut) : SOut := { o with soh := soh, sol := sol, chgAt := t, mism := 0, openLoadAt := none }

/-- Whether a readback agrees with R428: the SOH pin in mV against VDD_HV, and the coil current in µA. A current below 10 mA with both
switches on is the open-load check's. -/
def SOut.pinOk (pinMv hvMv : Nat) (o : SOut) : Bool := if o.soh then hvMv ≤ pinMv + 1000 else pinMv < 2000
def SOut.currentOk (uA : Nat) (o : SOut) : Bool := if o.soh && o.sol then uA < 900000 else uA < 5000

/-- An output that has reached the state its order asked for (R430). -/
def SOut.settled (o : SOut) : SOut :=
  if o.state = 1 then { o with state := 2 } else if o.state = 3 then { o with state := 0 } else o

/-- A light test or dark test of output x has passed (R430 to R432): a test goes back to where it began; a recovery leaves Fault, and the
acknowledgement that started it acts once no output of the function is faulted; a close order goes on with both switches on. -/
def testPassed (t x : Nat) (s : State) : State :=
  let o := s.out x
  if o.recover then
    let s := s.modOut x fun o => { o.drive t false false with state := 0, cause := 0, light := 0, recover := false, testing := false }
    let i := s.outByte x 1
    if (List.range 4).any fun y => s.ownsOut i y && (s.out y).state == 4 then s else s.modSf i fun f => { f with ack := true }
  else if o.testing then
    (s.modOut x fun o => if o.state = 2 then { o.drive t true true with dark := 0, testing := false }
      else { o.drive t false false with light := 0, testing := false }).modSafety fun z => { z with testMask := z.testMask ||| 2 ^ x }
  else (s.modOut x fun o => { o.drive t true true with light := 0, state := 1, waitAt := t }).count (0x980 + 4 * x)

/-- The test that output x's state asks for begins (R431): dark when Closed, light when Open. -/
def startTest (t x : Nat) (s : State) : State :=
  s.modOut x fun o =>
    if o.state = 2 then { o.drive t false true with dark := 1, testing := true, testAt := t }
    else { o.drive t true false with light := 1, testing := true, testAt := t }

/-- An output can begin its test now: settled, no light tests of a close order, and no other output of its function tested within
100 ms (R431). -/
def State.testable (t x : Nat) (s : State) : Bool :=
  let o := s.out x
  s.canDrive && (o.state == 0 || o.state == 2) && o.light == 0 && o.dark == 0 &&
  (List.range 4).all fun y => y == x || s.outByte y 1 != s.outByte x 1 ||
    (!(s.out y).testing && ((s.out y).testAt == 0 || (s.out y).testAt + 100000000 ≤ t))

/-- The tests still to run, output by output; a faulted output's is not run. Once none is left a held reply is answered (R455). -/
def testsTick (t : Nat) (s : State) : State :=
  let s := s.safety.testRun.foldl (fun s x =>
    if (s.out x).state = 4 ∨ !s.assigned x then s.modSafety fun z => { z with testRun := z.testRun.erase x }
    else if s.testable t x then (startTest t x s).modSafety fun z => { z with testRun := z.testRun.erase x }
    else s) s
  if s.safety.testRun = [] ∧ (s.safety.outs.all fun o => !o.testing) then
    match s.safety.testReply with
    | some d => sendReply d.src (d.withData ([BitVec.ofNat 8 s.safety.testMask] ++ zeros 3)) (s.modSafety fun z => { z with testReply := none })
    | none => s
  else s

/-! ### Vrel PDUs produced (R441, R442, R445) -/

/-- The 16 bytes of payload. -/
def pduPayload (s : State) : List Byte :=
  let two (o : SOut) : Nat := match o.state with | 0 => 0 | 2 => 2 | 4 => 3 | _ => 1
  (s.safety.fns.map fun f => BitVec.ofNat 8 f.state) ++
  [BitVec.ofNat 8 ((List.range 4).foldl (fun a x => a + two (s.out x) * 4 ^ x) 0),
   BitVec.ofNat 8 ((List.range 8).foldl (fun a k => a + flagAt (s.pairDemand k) k) 0),
   BitVec.ofNat 8 ((List.range 8).foldl (fun a k => a + flagAt ((s.pair k).fault != 0) k) 0),
   BitVec.ofNat 8 s.modes.mode] ++ le 8 s.time

/-- SAFE: a function in whose mask the connection lies is not in Run. -/
def State.pduSafe (s : State) (c : Nat) : Bool := (List.range 4).any fun i => s.namesConn i c && (s.sf i).state != 3

/-- A PDU of connection c, with the SCRC over the virtual header and bytes 4 on. -/
def pduBytes (c : Nat) (s : State) : List Byte :=
  let body := le 2 (s.conn c).txSeq ++ [BitVec.ofNat 8 (flagAt (s.conn c).txReset 2 + flagAt (s.pduSafe c) 3), 16] ++ pduPayload s
  connId s.safety.active c ++ body ++ le 4 (scrc (connId s.safety.active c ++ connSig s.safety.active c ++ body))

/-- Connection c produces one PDU; an unbound one sends nothing (spec/16_networks_fleet.md R465). -/
def produce (c : Nat) (s : State) : State :=
  if (s.conn c).state ≠ 0 ∧ (s.net.binds.getD c Bind.reset).bound then
    (s.modSafety fun z => { z with txPdus := z.txPdus ++ [(c, pduBytes c s)] }).modConn c
      fun v => { v with txSeq := (v.txSeq + 1) % 65536, txReset := false }
  else s

/-- Every connection produces at once on a change of function state (R445). -/
def produceAll (s : State) : State := (List.range 4).foldl (fun s c => produce c s) s

/-! ### Functions (R423 to R426) -/

/-- The first demand source of function i: its cause of R457 and index (R424). -/
def State.demandOf (s : State) (i : Nat) : Option (Nat × Nat) :=
  match (List.range 8).find? fun k => s.namesPair i k && s.demandPair k && (s.pairDemand k || !(s.pair k).ready) with
  | some k => some (1, k)
  | none => match (List.range 4).find? fun c => s.namesConn i c && ((s.conn c).state != 2 || (s.conn c).trip) with
    | some c => some (2, c)
    | none => if s.sys.railHv then none else some (4, 0)

/-- The first fault cause of function i. -/
def State.faultOf (s : State) (i : Nat) : Option (Nat × Nat) :=
  match (List.range 8).find? fun k => s.namesPair i k && s.demandPair k && (s.pair k).fault != 0 with
  | some k => some (1, k)
  | none => ((List.range 4).find? fun x => s.ownsOut i x && (s.out x).state == 4).map fun x => (3, x)

/-- Function i can be acknowledged (R439, R447): in Ready without a demand, or in Fault with every cause gone; an output's fault leaves with
the light test that the acknowledgement starts (R432). -/
def State.ackable (s : State) (i : Nat) : Bool :=
  let st := (s.sf i).state
  (st == 2 && (s.demandOf i).isNone) || (st == 4 && (List.range 8).all fun k => !s.namesPair i k || s.pairGone k)

/-- The cause bytes of a transition that R457 lists no cause for: not stated. -/
def funcCause (i : Nat) : Nat × Nat :=
  (Config.freeNat "SAFETY_FUNC_STATE cause" i % 256, Config.freeNat "SAFETY_FUNC_STATE index" i % 256)

/-- Function i taken to a state with its event. -/
def funcTo (t i st : Nat) (cause : Nat × Nat) (s : State) : State :=
  let old := (s.sf i).state
  (s.modSf i fun f => { f with state := st }).post t
    (ev 0x0B30 i [BitVec.ofNat 8 old, BitVec.ofNat 8 st, BitVec.ofNat 8 cause.1, BitVec.ofNat 8 cause.2])

/-- Tests of a function's outputs end at once with a demand, not counted as failed (R447). -/
def endTests (t i : Nat) (s : State) : State :=
  (List.range 4).foldl (fun s x =>
    if s.ownsOut i x && (s.out x).testing then
      s.modOut x fun o => { o.drive t false false with light := 0, dark := 0, testing := false, state := if o.state = 2 then 3 else o.state, waitAt := t }
    else s) s

/-- An acknowledgement in Fault with every pair cause gone: pair faults clear; faulted outputs begin the light test that frees them; without
any the function goes to Safe (R423, R432, R437). -/
def ackFault (t i : Nat) (s : State) : State :=
  let s := (List.range 8).foldl (fun s k => if s.namesPair i k then s.modPair k fun p => { p with fault := 0 } else s) s
  if (List.range 4).any fun x => s.ownsOut i x && (s.out x).state == 4 then
    (List.range 4).foldl (fun s x =>
      if s.canDrive && s.ownsOut i x && (s.out x).state == 4 && !(s.out x).recover then
        s.modOut x fun o => { o.drive t true false with light := 1, recover := true, testing := false }
      else s) s
  else funcTo t i 1 (5, 0) s

/-- Function i evaluated (R423, R447): a fault cause before a demand, a demand before an acknowledgement. -/
def evalFn (t : Nat) (acks : Bool) (i : Nat) (s : State) : State :=
  let f := s.sf i
  let ack := acks && f.ack
  let s := if acks then s.modSf i fun f => { f with ack := false } else s
  if s.sfByte i 1 = 0 then s.modSf i fun f => { f with state := 0 }
  else if f.state = 4 then
    if ack && (List.range 8).all fun k => !s.namesPair i k || s.pairGone k then ackFault t i s else s
  else match s.faultOf i with
  | some c => endTests t i (funcTo t i 4 c s)
  | none => match s.demandOf i with
    | some c => if f.state = 1 then s else endTests t i (funcTo t i 1 c s)
    | none =>
      if f.state = 1 then funcTo t i (if bit (s.sfByte i 4) 0 then 2 else 3) (funcCause i) s
      else if f.state = 2 ∧ ack then funcTo t i 3 (5, 0) s
      else s

/-- A kind-1 or kind-2 function of the first state has left Run in the second (R426). -/
def leftRun (a b : State) : Bool :=
  (List.range 4).any fun i => (b.sfByte i 1 == 1 || b.sfByte i 1 == 2) && (a.sf i).state == 3 && (b.sf i).state != 3

/-- Every function evaluated once: PDUs follow any change of state (R445), cause 0x01 a disconnect function that leaves Run (R426), and the
outputs get their orders (R425). -/
def evalFns (t : Nat) (acks : Bool) (s : State) : State :=
  let s' := (List.range 4).foldl (fun s i => evalFn t acks i s) s
  let states (s : State) : List Nat := s.safety.fns.map Sf.state
  let s' := if states s = states s' then s' else produceAll s'
  let s' := if leftRun s s' then forceSafeStop t 1 s' else s'
  outputOrders t (s'.modSafety fun z => { z with demand := s'.safetyDemand })

/-! ### The change log (R454) and the application of an image (R453) -/

/-- An entry of the change log, and its event. The hash an entry without a predecessor carries is not stated (notes/assumptions/36.md). -/
def logChange (t kind : Nat) (session : BitVec 32) (before after : Nat) (s : State) : State :=
  let l := s.safety.log
  let head := le 4 l.next ++ le 8 (s.stamp t) ++ [BitVec.ofNat 8 kind] ++ zeros 3 ++ le 4 session.toNat ++ le 4 before ++ le 4 after ++ zeros 4
  let prev := match l.entries.getLast? with
    | some e => fit 48 (Config.sha384 (e.take 80 ++ slice e 32 48))
    | none => le 48 (Config.freeNat "change log: hash before the first entry" 0)
  let e := head ++ prev ++ fit 48 (Config.sha384 (head ++ prev))
  (s.modSafety fun z => { z with log := { z.log with entries := (z.log.entries ++ [e]).drop (z.log.entries.length + 1 - 4096), next := (z.log.next + 1) % 2 ^ 32 } }).post t
    (ev 0x0B34 0 ([BitVec.ofNat 8 kind] ++ zeros 3 ++ le 4 l.next))

/-- An entry that changes no image. -/
def logPlain (t kind : Nat) (session : BitVec 32) (s : State) : State :=
  let c := scrc s.safety.active
  logChange t kind session c c s

/-- Connection c taken to a state with VREL_STATE (R457). -/
def connTo (t c st cause : Nat) (s : State) : State :=
  let v := s.conn c
  (s.modConn c fun v => { v with state := st, missed := false, due := false, crcErrs := [], seqErrs := [], txReset := v.txReset || st == 1 }).post t
    (ev 0x0B33 c ([BitVec.ofNat 8 v.state, BitVec.ofNat 8 st, BitVec.ofNat 8 cause, 0] ++ le 2 v.seq))

/-- Connection c as an applied image leaves it (R443, R453): a newly enabled one starts Waiting, a disabled one is Off. The cause byte of
an enabling is not stated. -/
def applyConn (t : Nat) (s : State) (c : Nat) : State :=
  let on := connEnabled s.safety.active c
  if on ∧ (s.conn c).state = 0 then connTo t c 1 (Config.freeNat "VREL_STATE cause of enabling" c % 256) (s.modConn c fun _ => VConn.reset)
  else if !on ∧ (s.conn c).state ≠ 0 then connTo t c 0 4 s
  else s

/-- Function i as an applied image leaves it: kind 0 is Off, a function newly in use starts Safe (R423). -/
def applyFn (t : Nat) (s : State) (i : Nat) : State :=
  let off := s.sfByte i 1 == 0
  if off && (s.sf i).state != 0 then funcTo t i 0 (6, 0) s
  else if !off && (s.sf i).state == 0 then funcTo t i 1 (6, 0) s
  else s

/-- An image comes into force (R453): items that stay in use keep their states and counts; a newly enabled pair starts not ready. PDUs follow a change of
function state (R445). -/
def applyImage (t kind : Nat) (img : List Byte) (session : BitVec 32) (s : State) : State :=
  let old := s.safety.active
  let s := s.modSafety fun z =>
    { z with active := img, pairs := (List.range 8).map fun k =>
      let p := z.pairs.getD k Pair.reset
      if (u8 old (65 + 8 * k) == 0) != (u8 img (65 + 8 * k) == 0) then Pair.reset else p }
  let s := (List.range 4).foldl (applyConn t) s
  let s' := (List.range 4).foldl (applyFn t) s
  let s' := if s.safety.fns.map Sf.state = s'.safety.fns.map Sf.state then s' else produceAll s'
  let s' := if leftRun s s' then forceSafeStop t 1 s' else s'
  outputOrders t (logChange t kind session (scrc old) (scrc img) s')

/-- A pending image applied (R453): at a completed entry into safe stop, or at Ready after a reset. -/
def applyPending (t : Nat) (s : State) : State :=
  match s.safety.pending with
  | some img => applyImage t 6 img s.safety.writeSession (s.modSafety fun z => { z with pending := none })
  | none => s

/-! ### The safety tick (R423, R437 to R439) -/

/-- Functions flagged for an acknowledgement where they can be acknowledged now. -/
def flagAcks (sel : Nat → Bool) (s : State) : State :=
  (List.range 4).foldl (fun s i => if sel i && s.ackable i then s.modSf i fun f => { f with ack := true } else s) s

/-- Pair k on one tick: a demand pair, or an acknowledge pair held 100 ms to 5 s that acts on release (R439). -/
def pairTick (t k : Nat) (s : State) : State :=
  if s.demandPair k then
    discrepancyFault t k (s.modPair k fun p => p.tick (s.pairDemand k) (s.pairDisagrees k) (s.pulsed k) (s.pairByte k 1))
  else if s.pairByte k 1 = 5 then
    if s.chanLevel (2 * k) then s.modPair k fun p => { p with ackHigh := satInc 65535 p.ackHigh }
    else
      let h := (s.pair k).ackHigh
      let s := s.modPair k fun p => { p with ackHigh := 0 }
      if 100 ≤ h ∧ h < 5000 then flagAcks (fun i => s.sfByte i 5 == k) s else s
  else s

/-- Connection c in Run: its window [t_last, t_last + T_EXP) has ended by t without a PDU accepted in it (R443). -/
def State.expired (s : State) (t c : Nat) : Bool :=
  (s.conn c).state == 2 && ((s.conn c).missed || decide ((s.conn c).lastAt + connTExp s.safety.active c * 1000000 ≤ t))

/-- A PDU stamped in connection c's window can no longer arrive at t: 0.10 ms have passed since the window's end, the receive latency of R440, or a later
one has been accepted (spec/00_scope.md R18). -/
def State.windowOver (s : State) (t c : Nat) : Bool :=
  (s.conn c).missed || decide ((s.conn c).lastAt + connTExp s.safety.active c * 1000000 + 100000 ≤ t)

/-- Connection c on a safety tick: it faults when no PDU was accepted in [t_last, t_last + T_EXP) (R443). A window that ended less than the receive
latency before the tick is decided when that has passed (spec/00_scope.md R18; notes/assumptions/35.md). -/
def connTimeout (t c : Nat) (s : State) : State :=
  if !s.expired t c then s
  else if s.windowOver t c then connTo t c 3 1 s
  else s.modConn c fun v => { v with due := true }

/-- The safety manager on one tick (R423, R447): a committed tightening image first, then pairs, connections and functions, then tests and
orders. -/
def safetyTick (t : Nat) (s : State) : State :=
  let s := match s.safety.applyNext with
    | some img => applyImage t 4 img s.safety.writeSession (s.modSafety fun z => { z with applyNext := none })
    | none => s
  let s := (List.range 8).foldl (fun s k => pairTick t k s) s
  let s := (List.range 4).foldl (fun s c => connTimeout t c s) s
  testsTick t (evalFns t true s)

/-! ### Inputs (R434 to R438) -/

/-- One sample of a channel with filter time F in steps of 0.5 ms (R434): the level changes after samples at the new level that span F. -/
def SChan.sample (t f : Nat) (lv : Bool) (c : SChan) : SChan :=
  let cand := if lv == c.level then 0 else c.cand + 1
  let c := { c with raw := lv, hist := (t, lv) :: c.hist.filter fun x => decide (t < x.1 + 1200000) }
  if 10 * f + 1 ≤ cand then { c with level := lv, cand := 0 } else { c with cand := cand }

/-- Feedback reaches the state an output waits for (R430): high means the contactor is open (R433). -/
def feedbackSeen (s : State) : State :=
  (List.range 4).foldl (fun s x => match s.feedback x with
    | some ch =>
      let high := s.chanLevel ch
      if ((s.out x).state == 1 && !high) || ((s.out x).state == 3 && high) then s.modOut x SOut.settled else s
    | none => s) s

/-- Feedback of output x later than T_OPEN or T_CLOSE is an output fault (R430). -/
def feedbackLate (t x : Nat) (s : State) : State :=
  let o := s.out x
  if (s.feedback x).isNone then s
  else if o.state = 3 ∧ o.waitAt + s.tOpen x * 1000000 ≤ t then outFault t x 2 2 s
  else if o.state = 1 ∧ o.waitAt + s.tClose x * 1000000 ≤ t then outFault t x 3 2 s
  else s

/-- A test-pulse source whose last window ended at `last` is low at t (R435, R436): the next pulse begins TP_PERIOD after the one whose window ended
50 µs after it. -/
def pulseLow (img : List Byte) (last t : Nat) : Bool :=
  let start := last + tpPeriod img * 1000000 - tpWidth img * 1000 - 50000
  last != 0 && decide (start ≤ t) && decide (t < start + tpWidth img * 1000)

/-- Every 50 µs the inputs are sampled and filtered; bit ch of the levels is channel ch. The test-pulse pins and the outputs' feedback follow (R430,
R434, R435). -/
def execSafetyInputSample (t levels : Nat) (s : State) : Res :=
  let s := s.advance t
  let s := (List.range 4).foldl (fun s x => feedbackLate t x s) s
  .next (feedbackSeen (s.modSafety fun z =>
    { z with
      chans := (List.range 16).map fun ch => (z.chans.getD ch SChan.reset).sample t (u8 z.active (64 + 8 * (ch / 2) + 3)) (bit levels ch)
      tpa := !pulseLow z.active z.tpaAt t, tpb := !pulseLow z.active z.tpbAt t }))

/-- The level a channel read immediately before a window that began at `from'`, and whether it read low in [from', t). -/
def SChan.highBefore (from' : Nat) (c : SChan) : Bool := match c.hist.find? fun x => decide (x.1 < from') with | some x => x.2 | none => false
def SChan.lowIn (from' t : Nat) (c : SChan) : Bool := c.hist.any fun x => decide (from' ≤ x.1) && decide (x.1 < t) && !x.2

/-- A window of pair k ended (R436): of its own source a channel that read high before must have read low in it (cause 2 if not); of the
other source it must not (cause 3). -/
def pairWindow (t src : Nat) (s : State) (k : Nat) : State :=
  let from' := t - tpWidth s.safety.active * 1000
  let kind := s.pairByte k 1
  let judge (ch : Nat) : Nat :=
    let c := s.safety.chans.getD (2 * k + ch) SChan.reset
    if !c.highBefore from' then 0
    else if ch = src then (if c.lowIn from' t then 1 else 2)
    else if c.lowIn from' t then 3 else 0
  let a := judge 0
  let b := if kind = 1 ∨ kind = 2 ∨ kind = 4 then judge 1 else 0
  if kind = 0 ∨ !s.pulsed k then s
  else if 2 ≤ a then (pairFault t k a 0 s).modPair k fun p => { p with okWindows := 0 }
  else if 2 ≤ b then (pairFault t k b 1 s).modPair k fun p => { p with okWindows := 0 }
  else s.modPair k fun p => { p with okWindows := satInc 255 p.okWindows, passA := p.passA || (a == 1 && p.atRest), passB := p.passB || (b == 1 && p.atRest) }

/-- The window of a pulse of TPA (0) or TPB (1) can end at t (R435): TP_PERIOD after the source's last one, and TPB half a period after TPA. The
place of the first pulse is not stated. -/
def State.pulseDue (s : State) (t src : Nat) : Bool :=
  let z := s.safety
  let p := tpPeriod z.active * 1000000
  if src = 0 then z.tpaAt == 0 || decide (z.tpaAt + p ≤ t)
  else (z.tpbAt == 0 || decide (z.tpbAt + p ≤ t)) && decide (z.tpaAt + p / 2 ≤ t)

/-- The window of a pulse of TPA (0) or TPB (1) has ended: every pulsed pair is checked, and the source is high again (R435). -/
def execTestPulse (t src : Nat) (s : State) : Res :=
  let s := s.advance t
  within src 2 (if !s.pulseDue t src then s
    else
      let s := s.modSafety fun z => if src = 0 then { z with tpa := true, tpaAt := t } else { z with tpb := true, tpbAt := t }
      (List.range 8).foldl (pairWindow t src) s)

/-- Disagreement that has reached T ticks is a pair fault (R438). -/
def execDiscrepancyFault (t k : Nat) (s : State) : Res := within k 8 (discrepancyFault t k (s.advance t))

/-! ### Outputs (R428 to R432) -/

/-- The fourth mismatch in a row, or 10 ms of open load, faults the output (R429). -/
def readFault (t x : Nat) (s : State) : State :=
  let o := s.out x
  let openLoad := match o.openLoadAt with | some a => decide (a + 10000000 ≤ t) | none => false
  if 4 ≤ o.mism then outFault t x 1 o.mismEl s else if openLoad then outFault t x 5 1 s else s

/-- A readback of output x (R428, R429): mismatches are counted outside the 200 µs after a change of command, and the open load is timed.
Without feedback, a readback that agrees, its coil current of 10 mA with both switches on included, completes the order (R430). -/
def execOutputReadback (t x pinMv hvMv uA : Nat) (s : State) : Res :=
  let s := s.advance t
  let fb := (s.feedback x).isSome
  let step (o : SOut) : SOut :=
    let o := { o with openLoadAt := if o.soh && o.sol && decide (uA < 10000) then (match o.openLoadAt with | some a => some a | none => some t) else none }
    if t < o.chgAt + 200000 then o
    else if o.pinOk pinMv hvMv && o.currentOk uA then
      let o := { o with mism := 0 }
      if fb || o.light != 0 || (o.soh && o.sol && decide (uA < 10000)) then o else o.settled
    else { o with mism := satInc 255 o.mism, mismEl := if o.pinOk pinMv hvMv then 1 else 0 }
  within x 4 (readFault t x (s.modOut x step))

/-- A readback count that is complete faults the output (R429). -/
def execOutputFault (t x : Nat) (s : State) : Res :=
  let s := s.advance t
  within x 4 (readFault t x s)

/-- A coil current of 0.9 A for 10 µs (R429). -/
def execSafetyOutputOvercurrent (t x : Nat) (s : State) : Res :=
  within x 4 (outFault t x 4 1 ((s.advance t).count (0x981 + 4 * x)))

/-- A 300 µs light test step ends (R430): SOH alone, then SOL alone, each against R428; a failed one is an output fault (R431). -/
def execLightTestStep (t x pinMv hvMv uA : Nat) (s : State) : Res :=
  let s := s.advance t
  let o := s.out x
  let ok := o.pinOk pinMv hvMv && o.currentOk uA
  within x 4 (if o.light = 0 ∨ !s.canDrive ∨ t < o.chgAt + 300000 then s
    else if !ok then outFault t x 6 (o.light - 1) s
    else if o.light = 1 then s.modOut x fun o => { o.drive t false true with light := 2 }
    else testPassed t x s)

/-- A dark test step ends (R431): SOH off, the pause of 10 ms, then SOL off. -/
def execDarkTestStep (t x pinMv hvMv uA : Nat) (s : State) : Res :=
  let s := s.advance t
  let o := s.out x
  within x 4 (if o.dark = 0 ∨ !s.canDrive ∨ t < o.chgAt + (if o.dark = 2 then 10000000 else 300000) then s
    else if o.dark = 1 then
      if pinMv < 2000 then s.modOut x fun o => { o.drive t true true with dark := 2 } else outFault t x 6 0 s
    else if o.dark = 2 then s.modOut x fun o => { o.drive t true false with dark := 3 }
    else if uA < 5000 then testPassed t x s else outFault t x 6 1 s)

/-- Feedback later than T_OPEN or T_CLOSE is an output fault (R430). -/
def execFeedbackTimeout (t x : Nat) (s : State) : Res :=
  let s := s.advance t
  within x 4 (feedbackLate t x s)

/-- Outputs of a mask queued for their tests; the first of each function starts at once (R431). -/
def queueTests (t : Nat) (sel : Nat → Bool) (s : State) : State :=
  let l := (List.range 4).filter fun x => s.assigned x && sel x && !s.safety.testRun.contains x && !(s.out x).testing
  testsTick t (s.modSafety fun z => { z with testRun := z.testRun ++ l })

/-- Every OT_PERIOD each assigned output is tested (R431). -/
def execOutputTest (t : Nat) (s : State) : Res :=
  let s := s.advance t
  .next (if t < s.safety.otAt + otPeriod s.safety.active * 1000000000 then s
    else queueTests t (fun _ => true) (s.modSafety fun z => { z with otAt := t }))

/-! ### Vrel PDUs received (R442 to R444) -/

/-- The connection that a PDU names: enabled, and bound to the datagram's source (R442, spec/16_networks_fleet.md R465). -/
def State.pduConn (s : State) (ip : List Byte) (port : Nat) (pdu : List Byte) : Option Nat :=
  (List.range 4).find? fun c =>
    let b := s.net.binds.getD c Bind.reset
    connEnabled s.safety.active c && connId s.safety.active c == pdu.take 4 && b.bound && b.v6 == (ip.length == 16) && fit 16 b.ip == fit 16 ip && b.port == port

/-- A failed check on a connection (R442, R443): counted, and the third of either kind within 1 s takes Run to Fault. -/
def connError (t c : Nat) (crc : Bool) (s : State) : State :=
  let recent (l : List Nat) : List Nat := l.filter fun x => decide (t < x + 1000000000)
  let s := s.modConn c fun v =>
    if crc then { v with crcErrs := t :: recent v.crcErrs, seqErrs := recent v.seqErrs, crcCount := satInc 0xFFFFFFFF v.crcCount }
    else { v with seqErrs := t :: recent v.seqErrs, crcErrs := recent v.crcErrs, seqCount := satInc 0xFFFFFFFF v.seqCount }
  let v := s.conn c
  if v.state = 2 ∧ 3 ≤ v.crcErrs.length + v.seqErrs.length then connTo t c 3 (if crc then 2 else 3) s else s

/-- An accepted PDU (R442 to R444, R439). One stamped at or after the window's end leaves the window missed, for the next safety tick to
fault (R443). A PDU with TRIP is evaluated on arrival (R440). -/
def connAccept (t c : Nat) (pdu : List Byte) (s : State) : State :=
  let fl := u8 pdu 6
  let s := s.modConn c fun v => { v with seq := u16 pdu 4, missed := s.expired t c, due := v.due && s.expired t c, lastAt := t, trip := bit fl 0 }
  let s := if bit fl 2 ∧ ((s.conn c).state = 1 ∨ (s.conn c).state = 3) then connTo t c 2 0 s else s
  let s := if bit fl 1 ∧ (s.conn c).state = 2 ∧ connRemoteAck s.safety.active c then flagAcks (fun i => s.namesConn i c) s else s
  if bit fl 0 ∧ (s.conn c).state = 2 then evalFns t false s else s

/-- The checks of R442 in their order. -/
def vrelPdu (t : Nat) (ip : List Byte) (port : Nat) (pdu : List Byte) (s : State) : State :=
  let n := u8 pdu 7
  if pdu.length ≠ 12 + n ∨ 64 < n then s
  else match s.pduConn ip port pdu with
  | none => s
  | some c =>
    let v := s.conn c
    let fl := u8 pdu 6
    let gap := (u16 pdu 4 + 65536 - v.seq) % 65536
    if scrc (pdu.take 4 ++ connSig s.safety.active c ++ slice pdu 4 (4 + n)) ≠ u32 pdu (8 + n) then connError t c true s
    else if !bit fl 2 ∧ (gap = 0 ∨ connSeqWin s.safety.active c < gap) then connError t c false s
    else if fl / 16 ≠ 0 then connError t c false s
    else connAccept t c pdu s

/-- A Vrel PDU arrives; t is its stamp at the pin, which may lie before a tick that has passed (R440). With D9 off none does (spec/01_architecture.md R29). -/
def execVrelPdu (t : Nat) (ip : List Byte) (port : Nat) (pdu : List Byte) (s : State) : Res :=
  let s := s.advance t
  .next (inDomain 9 s (vrelPdu t ip port pdu s))

/-- A timeout that a safety tick has found and whose receive latency has passed (R443, spec/00_scope.md R18): the connection faults, and its functions are
demanded (R424). -/
def execVrelTimeout (t c : Nat) (s : State) : Res :=
  let s := s.advance t
  within c 4 (if (s.conn c).due && s.windowOver t c then evalFns t false (connTimeout t c s) else s)

/-- Every PROD_PERIOD (R445). -/
def execVrelProduce (t c : Nat) (s : State) : Res :=
  let s := s.advance t
  within c 4 (if t < (s.conn c).prodAt + connPeriod s.safety.active c * 1000000 then s
    else produce c (s.modConn c fun v => { v with prodAt := t }))

/-! ### Sessions and passwords (R449 to R451) -/

/-- The unlocked session ends and the staging image is discarded (R451). -/
def endUnlock (s : State) : State := s.modSafety fun z => { z with unlocked := none, staging := none }

/-- An idle unlocked session ends after 600 s (R451). -/
def execSafetySessionTimeout (t : Nat) (s : State) : Res :=
  let s := s.advance t
  .next (if s.safety.unlocked.isSome ∧ s.safety.lastCmd + 600000000000 ≤ t then endUnlock s else s)

/-- The packet's session is the unlocked one. -/
def unlockedBy (s : State) (p : Packet) : Bool := s.safety.unlocked == some p.session

/-- A safety command of the unlocked session restarts its 600 s (R451). -/
def touched (p : Packet) (s : State) : State :=
  if unlockedBy s p then s.modSafety fun z => { z with lastCmd := p.t } else s

/-- A safety command: its effect after the session's time is restarted. -/
def CmdSpec.safety (c : CmdSpec) : CmdSpec := { c with run := fun p s => c.run p (touched p s) }

/-- The 8 bytes of a password check's reply: result and lockout remaining in s, rounded up (R455). -/
def unlockReply (t r : Nat) (s : State) : List Byte :=
  let left := if t < s.safety.log.lockUntil then (s.safety.log.lockUntil - t + 999999999) / 1000000000 else 0
  [BitVec.ofNat 8 r] ++ zeros 3 ++ le 4 left

/-- A wrong password (R450): from the fifth in a row on, a lockout whose period doubles up to 3,600 s. -/
def badPassword (t : Nat) (session : BitVec 32) (s : State) : State :=
  let l := s.safety.log
  let n := satInc 255 l.failures
  let s := s.modSafety fun z => { z with log := { z.log with failures := n } }
  let s := logPlain t 2 session s
  if 5 ≤ n then
    logPlain t 8 session (s.modSafety fun z =>
      { z with log := { z.log with lockUntil := t + l.lockPeriod * 1000000000, lockPeriod := min 3600 (2 * l.lockPeriod) } })
  else s

/-- A password checked (R449, R450): 0 right, 1 wrong, 2 in lockout, 3 none set. -/
def checkPassword (t : Nat) (pw : List Byte) (s : State) : Nat :=
  if t < s.safety.log.lockUntil then 2
  else match s.safety.log.password with
  | none => 3
  | some q => if Config.pbkdf2 q.1 pw = q.2 then 0 else 1

/-- The record of a new password (R449): a random salt, and the PBKDF2 value. -/
def passwordRecord (pw : List Byte) (s : State) : List Byte × List Byte :=
  let salt := le 16 (Config.freeNat "password salt" s.safety.log.next)
  (salt, Config.pbkdf2 salt pw)

/-- A success resets the count and the period (R450). -/
def goodPassword (s : State) : State :=
  s.modSafety fun z => { z with log := { z.log with failures := 0, lockUntil := 0, lockPeriod := 60 } }

/-- What an unsuccessful check does. -/
def afterCheck (t r : Nat) (session : BitVec 32) (s : State) : State :=
  if r = 1 then badPassword t session s else logPlain t 2 session s

/-! ### Commands (R455, R456) -/

/-- SAFETY_STATUS's byte for pair k. -/
def State.pairCode (s : State) (k : Nat) : Nat :=
  if s.pairByte k 1 = 0 then 0
  else if (s.pair k).fault ≠ 0 then 4
  else if s.pairDemand k then 2
  else if s.demandPair k && !(s.pair k).ready then 3 else 1

/-- The 48 bytes of SAFETY_STATUS (R456). -/
def safetyStatus (s : State) : List Byte :=
  let z := s.safety
  let left := if s.time < z.log.lockUntil then (z.log.lockUntil - s.time + 999999999) / 1000000000 else 0
  (z.fns.map fun f => BitVec.ofNat 8 f.state) ++ (z.outs.map fun o => BitVec.ofNat 8 o.state) ++
  ((List.range 8).map fun k => BitVec.ofNat 8 (s.pairCode k)) ++ (z.conns.map fun v => BitVec.ofNat 8 v.state) ++
  le 1 (flagAt z.unlocked.isSome 0 + flagAt z.pending.isSome 1 + flagAt z.log.password.isSome 2 + flagAt s.sys.railHv 3 + flagAt s.safetyDemand 4) ++
  le 1 z.log.failures ++ le 2 left ++ le 4 (scrc z.active) ++ le 4 (match z.pending with | some i => scrc i | none => 0) ++ le 4 z.log.next ++
  (z.pairs.map fun p => BitVec.ofNat 8 p.fault) ++ (z.outs.map fun o => BitVec.ofNat 8 o.cause)

def specSafetyStatus : CmdSpec :=
  CmdSpec.safety { opcode := 0x0B00, lenOk := len 0, run := fun _ s => { st := s, data := safetyStatus s } }

/-- Zero padding of a character field of m bytes at offset i that holds n characters. -/
def padded (pl : List Byte) (i n m : Nat) : List Check := (List.range (m - n)).map fun j => (i + n + j, u8 pl (i + n + j) == 0)

def specSafetyUnlock : CmdSpec :=
  CmdSpec.safety
    { opcode := 0x0B01, lenOk := len 68
      checks := fun _ p => inB p.payload 0 10 64 :: resv p.payload 1 3 ++ padded p.payload 4 (u8 p.payload 0) 64
      busyBad := fun s p => s.safety.unlocked.isSome && !unlockedBy s p
      run := fun p s =>
        let r := checkPassword p.t (slice p.payload 4 (u8 p.payload 0)) s
        let s' := if r = 0 then
            logPlain p.t 1 p.session ((goodPassword s).modSafety fun z => { z with unlocked := some p.session, staging := some z.active, lastCmd := p.t })
          else afterCheck p.t r p.session s
        { st := s', data := unlockReply p.t r s' } }

def specSafetyLock : CmdSpec :=
  { opcode := 0x0B02, lenOk := len 0, modeBad := fun s p => !unlockedBy s p
    run := fun p s => { st := logPlain p.t 3 p.session (endUnlock s) } }

/-- Where an item lies in the image and its size (R448). -/
def itemAt (kind i : Nat) : Nat := match kind with | 1 => 8 * i | 2 => 32 + 8 * i | 3 => 64 + 8 * i | 4 => 128 | _ => 136 + 16 * i
def itemSize (kind : Nat) : Nat := if kind = 5 then 16 else 8
def itemCount (kind : Nat) : Nat := match kind with | 3 => 8 | 4 => 1 | _ => 4

/-- The ranges of an item's bytes at payload offset 4 (R448). -/
def itemChecks (pl : List Byte) : List Check :=
  let i := u8 pl 1
  match u8 pl 0 with
  | 1 => [inB pl 4 i i, inB pl 5 0 3, maskB pl 7 15, maskB pl 8 1, (9, u8 pl 9 < 8 || u8 pl 9 == 255)] ++ resv pl 10 2
  | 2 => [inB pl 4 i i, (5, u8 pl 5 < 4 || u8 pl 5 == 255), (6, u8 pl 6 < 16 || u8 pl 6 == 255), (7, u8 pl 7 == 0), inH pl 8 1 500, inH pl 10 1 500]
  | 3 => [inB pl 4 i i, inB pl 5 0 5, maskB pl 6 1, inB pl 7 1 40, inH pl 8 2 1000] ++ resv pl 10 2
  | 4 => [inH pl 4 10 1000, inH pl 6 100 1000, inH pl 8 1 3600] ++ resv pl 10 2
  | _ => [inB pl 4 i i, maskB pl 5 3, inB pl 6 1 16, (7, u8 pl 7 == 0), (8, !bit (u8 pl 5) 0 || u32 pl 8 != 0), inH pl 16 10 1000,
          (18, 5 ≤ u16 pl 18 && u16 pl 18 ≤ 500 && 2 * u16 pl 18 ≤ u16 pl 16)]

/-- E_LOCKED for the opcodes that change the image (R449, R451). -/
def safetyLocked (s : State) (p : Packet) : Bool := s.safety.log.password.isNone || !unlockedBy s p

/-- The staging image, the active one while none is. -/
def State.stagingImg (s : State) : List Byte := s.safety.staging.getD s.safety.active

def specSafetyStage : CmdSpec :=
  CmdSpec.safety
    { opcode := 0x0B03, lenOk := fun b => b.length == 4 + itemSize (u8 b 0), lockBad := safetyLocked
      checks := fun _ p => [inB p.payload 0 1 5, (1, u8 p.payload 1 < itemCount (u8 p.payload 0))] ++ resv p.payload 2 2 ++ itemChecks p.payload
      run := fun p s =>
        let img := patch s.stagingImg (itemAt (u8 p.payload 0) (u8 p.payload 1)) (p.payload.drop 4)
        { st := s.modSafety fun z => { z with staging := some img }, data := le 4 (scrc img) } }

/-- The rules on a whole image (R435, R448): functions name pairs of kinds 1 to 3 and an acknowledge pair of kind 5, outputs a feedback
channel of a kind-4 pair, and TP_WIDTH + 100 µs is less than F of every pulsed pair. -/
def imageOk (img : List Byte) : Bool :=
  let kind (k : Nat) : Nat := u8 img (65 + 8 * k)
  ((List.range 4).all fun i =>
    ((List.range 8).all fun k => !bit (u8 img (8 * i + 2)) k || (1 ≤ kind k && kind k ≤ 3)) &&
    (u8 img (8 * i + 5) == 255 || kind (u8 img (8 * i + 5)) == 5)) &&
  ((List.range 4).all fun x => u8 img (34 + 8 * x) == 255 || kind (u8 img (34 + 8 * x) / 2) == 4) &&
  ((List.range 8).all fun k => kind k == 0 || !bit (u8 img (66 + 8 * k)) 0 || tpWidth img + 100 < 500 * u8 img (67 + 8 * k))

/-- A change of the field at offset o of n bytes is none, or lowers it (R452). -/
def lowers (n : Nat) (a b : List Byte) (o : Nat) : Bool := uN n b o ≤ uN n a o
/-- A change of a mask only adds bits (R452). -/
def adds (a b : List Byte) (o : Nat) : Bool := u8 a o &&& u8 b o == u8 a o

/-- The offsets of the fields that R452 lists, each with the test of a tightening change. -/
def tightFields (a b : List Byte) : List (Nat × Nat × Bool) :=
  ((List.range 4).flatMap fun i => [(8 * i + 2, 1, adds a b (8 * i + 2)), (8 * i + 3, 1, adds a b (8 * i + 3)),
    (8 * i + 4, 1, adds a b (8 * i + 4))]) ++
  ((List.range 4).flatMap fun x => [(36 + 8 * x, 2, lowers 2 a b (36 + 8 * x)), (38 + 8 * x, 2, lowers 2 a b (38 + 8 * x))]) ++
  ((List.range 8).flatMap fun k => [(67 + 8 * k, 1, lowers 1 a b (67 + 8 * k)), (68 + 8 * k, 2, lowers 2 a b (68 + 8 * k))]) ++
  [(128, 2, lowers 2 a b 128), (132, 2, lowers 2 a b 132)] ++
  ((List.range 4).flatMap fun c => [(138 + 16 * c, 1, lowers 1 a b (138 + 16 * c)), (148 + 16 * c, 2, lowers 2 a b (148 + 16 * c))])

/-- A commit of image b over a is made only of tightening changes (R452): the listed fields change their way, and no other byte changes. -/
def tightening (a b : List Byte) : Bool :=
  let f := tightFields a b
  f.all (·.2.2) && (List.range 200).all fun o => u8 a o == u8 b o || f.any fun x => x.1 ≤ o && o < x.1 + x.2.1

/-- In safe stop. -/
def State.inSafeStop (s : State) : Bool := s.modes.mode == 1 && s.modes.trans.isNone

/-- The copy pointer of the safety image has switched (R453): the image is applied on the next tick, at once, or kept pending; the held reply
is sent with DURABLE set. -/
def safetySwitch (t : Nat) (s : State) : State :=
  match s.safety.writing with
  | none => s
  | some img =>
    let z := s.safety
    let s := s.modSafety fun z => { z with writing := none, writeReply := none, pending := none, applyNext := none }
    let s := if z.writeKind = 0 then s.modSafety fun z => { z with applyNext := some img }
      else if z.writeKind = 1 then applyImage t 4 img z.writeSession s
      else logChange t 5 z.writeSession (scrc s.safety.active) (scrc img) (s.modSafety fun z => { z with pending := some img })
    match z.writeReply with
    | some d => sendReply d.src ((({ d with bytes := patch d.bytes 6 [d.bytes.getD 6 0 ||| 1] } : DurReply)).withData
        ([BitVec.ofNat 8 (if z.writeKind = 2 then 1 else 0)] ++ zeros 3 ++ le 4 (scrc img))) s
    | none => s

def specSafetyCommit : CmdSpec :=
  { opcode := 0x0B04, lenOk := len 4, lockBad := safetyLocked, image := some 2
    checks := fun s p => [(0, u32 p.payload 0 == scrc s.stagingImg && imageOk s.stagingImg)]
    run := fun p s =>
      let img := s.stagingImg
      let kind := if tightening s.safety.active img then 0 else if s.inSafeStop then 1 else 2
      let s := endUnlock (safetySwitch p.t s)
      { st := s.modSafety fun z => { z with writing := some img, writeKind := kind, writeSession := p.session }
        status := if kind = 2 then .okDeferred else .ok
        data := [BitVec.ofNat 8 (if kind = 2 then 1 else 0)] ++ zeros 3 ++ le 4 (scrc img)
        keep := some fun d s => s.modSafety fun z => { z with writeReply := some d } } }

def specSafetyRead : CmdSpec :=
  CmdSpec.safety
    { opcode := 0x0B05, lenOk := len 4
      stateBad := fun s p => (u8 p.payload 0 == 1 && !unlockedBy s p) || (u8 p.payload 0 == 2 && s.safety.pending.isNone)
      checks := fun _ p => inB p.payload 0 0 2 :: resv p.payload 1 3
      run := fun p s =>
        let img := match u8 p.payload 0 with | 0 => s.safety.active | 1 => s.stagingImg | _ => s.safety.pending.getD []
        { st := s, data := img ++ le 4 (scrc img) } }

def specSafetyPassword : CmdSpec :=
  CmdSpec.safety
    { opcode := 0x0B06, lenOk := len 132, image := some 2
      stateBad := fun s p => u8 p.payload 0 == 0 && (s.safety.log.password.isSome || !s.inSafeStop)
      checks := fun _ p =>
        let n := u8 p.payload 1
        [inB p.payload 0 0 64, inB p.payload 1 10 64] ++ resv p.payload 2 2 ++ padded p.payload 4 (u8 p.payload 0) 64 ++
        ((List.range n).map fun j => inB p.payload (68 + j) 0x20 0x7E) ++ padded p.payload 68 n 64
      run := fun p s =>
        let o := u8 p.payload 0
        let r := if o = 0 then (if p.t < s.safety.log.lockUntil then 2 else 0) else checkPassword p.t (slice p.payload 4 o) s
        let s' := if r = 0 then
            logPlain p.t 7 p.session ((goodPassword s).modSafety fun z => { z with log := { z.log with password := some (passwordRecord (slice p.payload 68 (u8 p.payload 1)) s) } })
          else afterCheck p.t r p.session s
        { st := s', data := unlockReply p.t r s' } }

def specSafetyAck : CmdSpec :=
  CmdSpec.safety
    { opcode := 0x0B07, lenOk := len 4
      stateBad := fun s p => (List.range 4).any fun i => bit (u8 p.payload 0) i && !s.ackable i
      checks := fun _ p => maskB p.payload 0 15 :: resv p.payload 1 3
      run := fun p s => { st := flagAcks (fun i => bit (u8 p.payload 0) i) s } }

/-- Output x belongs to a function of kind 1 or 2. -/
def State.disconnectOut (s : State) (x : Nat) : Bool := s.assigned x && (let k := s.sfByte (s.outByte x 1) 1; k == 1 || k == 2)

def specSafetyOutputReq : CmdSpec :=
  CmdSpec.safety
    { opcode := 0x0B08, lenOk := len 4
      checks := fun _ p => maskB p.payload 0 15 :: resv p.payload 1 3
      conflictBad := fun s p => (List.range 4).any fun x => bit (u8 p.payload 0) x && s.disconnectOut x
      run := fun p s => { st := (List.range 4).foldl (fun s x => if s.disconnectOut x then s
        else s.modOut x fun o => { o with req := bit (u8 p.payload 0) x }) s } }

def specSafetyOutputTest : CmdSpec :=
  CmdSpec.safety
    { opcode := 0x0B09, lenOk := len 4
      checks := fun s p => [maskB p.payload 0 15, (0, (List.range 4).all fun x => !bit (u8 p.payload 0) x || s.assigned x)] ++ resv p.payload 1 3
      busyBad := fun s _ => s.safety.testRun != [] || s.safety.testReply.isSome || s.safety.outs.any fun o => o.testing
      run := fun p s =>
        { st := queueTests p.t (fun x => bit (u8 p.payload 0) x) (s.modSafety fun z => { z with testMask := 0 })
          data := zeros 4
          keep := if u8 p.payload 0 = 0 then none else some fun d s => testsTick p.t (s.modSafety fun z => { z with testReply := some d }) } }

/-- The number of the oldest retained entry. -/
def SLog.oldest (l : SLog) : Nat := (l.next + 2 ^ 32 - l.entries.length) % 2 ^ 32

def specSafetyLogRead : CmdSpec :=
  CmdSpec.safety
    { opcode := 0x0B0A, lenOk := len 8
      checks := fun s p =>
        let l := s.safety.log
        let i := (u32 p.payload 0 + 2 ^ 32 - l.oldest) % 2 ^ 32
        [(0, decide (i + u16 p.payload 4 ≤ l.entries.length)), inH p.payload 4 1 31] ++ resv p.payload 6 2
      run := fun p s =>
        let l := s.safety.log
        let i := (u32 p.payload 0 + 2 ^ 32 - l.oldest) % 2 ^ 32
        { st := s, data := ((l.entries.drop i).take (u16 p.payload 4)).flatten } }

def execSafetyStatus (p : Packet) (s : State) : Res := runCommand specSafetyStatus p s
def execSafetyUnlock (p : Packet) (s : State) : Res := runCommand specSafetyUnlock p s
def execSafetyLock (p : Packet) (s : State) : Res := runCommand specSafetyLock p s
def execSafetyStage (p : Packet) (s : State) : Res := runCommand specSafetyStage p s
def execSafetyCommit (p : Packet) (s : State) : Res := runCommand specSafetyCommit p s
def execSafetyRead (p : Packet) (s : State) : Res := runCommand specSafetyRead p s
def execSafetyPassword (p : Packet) (s : State) : Res := runCommand specSafetyPassword p s
def execSafetyAck (p : Packet) (s : State) : Res := runCommand specSafetyAck p s
def execSafetyOutputReq (p : Packet) (s : State) : Res := runCommand specSafetyOutputReq p s
def execSafetyOutputTest (p : Packet) (s : State) : Res := runCommand specSafetyOutputTest p s
def execSafetyLogRead (p : Packet) (s : State) : Res := runCommand specSafetyLogRead p s

end Sys2Proof.Machine
end

