-- ==== Sys2Proof/Machine/Network.lean ====
section
/-! DEFINITION. Ethernet, CAN FD and the Benmor fleet, and the network command group (spec/16_networks_fleet.md). -/

namespace Sys2Proof.Machine

def State.modNet (f : Net → Net) (s : State) : State := { s with net := f s.net }
def State.port (s : State) (p : Nat) : Port := s.net.ports.getD p Port.reset

/-- Failover mode is set (R460). -/
def State.failover (s : State) : Bool := s.net.ports.any fun p => p.failover

/-- The port that carries offload traffic (R460). -/
def State.offloadPort (s : State) : Nat := if s.failover then s.net.active else 0

/-! ### Received Ethernet frames (R463) -/

/-- The big-endian 16-bit field of a frame. -/
def be16 (b : List Byte) (i : Nat) : Nat := 256 * u8 b i + u8 b (i + 1)

/-- Where a frame's network header starts, past one VLAN tag, and its EtherType. -/
def etherAt (b : List Byte) : Nat × Nat := if be16 b 12 = 0x8100 then (18, be16 b 16) else (14, be16 b 12)

/-- An IP datagram as the offload reads it. -/
structure IpInfo where
  /-- Source address, 4 or 16 bytes. -/
  src : List Byte
  /-- Destination address. -/
  dst : List Byte
  /-- Offset of the UDP header in the frame. -/
  at_ : Nat
  /-- Options or extension headers are present. -/
  options : Bool
  /-- It is a fragment. -/
  frag : Bool
deriving DecidableEq, Repr

/-- IPv6 extension headers walked from a next-header value: where UDP starts, whether any header stood before it, whether one was a fragment
header. -/
def walk6 (b : List Byte) : Nat → Nat → Nat → Bool → Bool → Option (Nat × Bool × Bool)
  | 0, _, _, _, _ => none
  | fuel + 1, nh, i, opt, frag =>
    if nh = 17 then some (i, opt, frag)
    else if nh = 44 then (if be16 b (i + 2) / 8 = 0 then walk6 b fuel (u8 b i) (i + 8) true true else none)
    else if nh = 0 ∨ nh = 43 ∨ nh = 60 then walk6 b fuel (u8 b i) (i + 8 * (u8 b (i + 1) + 1)) true frag
    else none

/-- A UDP datagram in a frame, whatever of R463 it fails; none for every other frame, and for a fragment that holds no UDP header. -/
def udpInfo (b : List Byte) : Option IpInfo :=
  let (i, ty) := etherAt b
  if ty = 0x0800 ∧ u8 b i / 16 = 4 ∧ u8 b (i + 9) = 17 ∧ be16 b (i + 6) % 8192 = 0 then
    some { src := slice b (i + 12) 4, dst := slice b (i + 16) 4, at_ := i + 4 * (u8 b i % 16), options := u8 b i % 16 != 5, frag := bit (u8 b (i + 6)) 5 }
  else if ty = 0x86DD ∧ u8 b i / 16 = 6 then
    (walk6 b 16 (u8 b (i + 6)) (i + 40) false false).map fun r =>
      { src := slice b (i + 8) 16, dst := slice b (i + 24) 16, at_ := r.1, options := r.2.1, frag := r.2.2 }
  else none

/-- The ones' complement sum of 16-bit words, not yet folded. -/
def sum16 : List Byte → Nat
  | a :: b :: r => 256 * a.toNat + b.toNat + sum16 r
  | [a] => 256 * a.toNat
  | [] => 0

/-- The UDP checksum over the pseudo header is correct; a zero checksum is accepted on IPv4 only (R463). -/
def udpSumOk (b : List Byte) (d : IpInfo) : Bool :=
  let n := be16 b (d.at_ + 4)
  let v := sum16 (d.src ++ d.dst) + 17 + n + sum16 (slice b d.at_ n)
  if be16 b (d.at_ + 6) = 0 then d.src.length == 4 else v % 65535 == 0

/-- The destination is the device's unicast address, or with the Benmor port the fleet multicast group (R463): the addresses of port 0, which carries the
offload in independent mode and whose set both ports share in failover mode (R460; notes/assumptions/37.md). -/
def State.ipMine (s : State) (d : IpInfo) (ben : Bool) : Bool :=
  let p := s.port 0
  if d.dst.length = 4 then d.dst == fit 4 p.ip4 || (ben && d.dst == fit 4 s.net.group4)
  else d.dst == fit 16 p.ip6 || (ben && d.dst == fit 16 s.net.group6)

/-- The payload of the datagram. -/
def udpPayload (b : List Byte) (d : IpInfo) : List Byte := slice b (d.at_ + 8) (be16 b (d.at_ + 4) - 8)

/-- The offload takes the frame (R463). -/
def State.offloadTakes (s : State) (b : List Byte) (d : IpInfo) : Bool :=
  !d.options && !d.frag && 8 ≤ be16 b (d.at_ + 4) && d.at_ + be16 b (d.at_ + 4) ≤ b.length && udpSumOk b d &&
  s.ipMine d (be16 b (d.at_ + 2) == s.net.benPort)

/-- The neighbour table learns a source (R464): a written entry stands; a learned one for the same address is refreshed; else a free slot, or
the first learned entry, is used (notes/assumptions/37.md). -/
def learn (ip mac : List Byte) (s : State) : State :=
  let same (n : Neigh) : Bool := n.valid && fit 16 n.ip == fit 16 ip && n.v6 == (ip.length == 16)
  if s.net.neigh.any fun n => same n && n.written then s
  else
    let spot := match s.net.neigh.findIdx? same with
      | some i => some i
      | none => match s.net.neigh.findIdx? fun n => !n.valid with
        | some i => some i
        | none => s.net.neigh.findIdx? fun n => !n.written
    match spot with
    | some i => s.modNet fun n => { n with neigh := n.neigh.set i { valid := true, written := false, v6 := ip.length == 16, mac := mac, ip := fit 16 ip } }
    | none => s

/-! ### The Benmor protocol (R467 to R471) -/

/-- A received datagram is accepted (R468). -/
def State.benOk (s : State) (d : List Byte) : Bool :=
  let n := u16 d 2
  let peer := s.net.peers.find? fun p => p.addr == uN 3 d 8
  match s.net.fleetKey, s.net.addr with
  | some k, some a =>
    u8 d 0 == 1 && u32 d 4 == s.net.fleetId && d.length == 40 + n && n ≤ 1412 &&
    (uN 3 d 11 == a || uN 3 d 11 == 0xFFFFFF) &&
    fit 16 (Config.gcmTag k (slice d 8 3 ++ [0] ++ slice d 16 8) (d.take (24 + n))) == slice d (24 + n) 16 &&
    (match peer with | some p => decide (p.counter < u64 d 16) | none => true)
  | _, _ => false

/-- The message types of R471, with the payload lengths of those that fix one. -/
def benTypeOk (d : List Byte) : Bool :=
  match u8 d 1 with | 0x01 => u16 d 2 == 16 | 0x10 => u16 d 2 == 24 | 0x11 => u16 d 2 == 4 | 0x20 => true | 0x21 => true | _ => false

/-- A datagram discarded and counted (R468, R471). -/
def benDiscard (s : State) : State := s.modNet fun n => { n with benDiscards := satInc 0xFFFFFFFF n.benDiscards }

/-- An accepted datagram refreshes its sender's entry (R474). -/
def refresh (t src counter : Nat) (s : State) : State :=
  s.modNet fun n => { n with peers := n.peers.map fun p => if p.addr = src then { p with heard := t, counter := counter } else p }

/-- A Benmor datagram received: accepted, or discarded and counted. What an accepted one asks for is the row of its type. -/
def benReceive (t : Nat) (d : List Byte) (s : State) : State :=
  if s.benOk d && benTypeOk d then
    if u8 d 1 = 1 then s else refresh t (uN 3 d 8) (u64 d 16) s
  else benDiscard s

/-- The 16-byte header of a record on rings 40 to 44 (R462). -/
def netHeader (t src flags n ident : Nat) : List Byte := le 8 t ++ le 1 src ++ le 1 flags ++ le 2 n ++ le 4 ident

/-- A received frame (R463, R464): PAUSE frames and sizes outside R458 are dropped; one addressed to an offload port is taken or discarded; any
other goes to the port's ring. -/
def frameIn (t port : Nat) (b : List Byte) (s : State) : State :=
  if b.length < 60 ∨ 1518 < b.length ∨ (etherAt b).2 = 0x8808 then s
  else
    let toRing := s.deliver (40 + port) (netHeader t port 0 b.length 0 ++ b)
    match udpInfo b with
    | none => toRing
    | some d =>
      let dport := be16 b (d.at_ + 2)
      if (dport ≠ s.net.vrelPort ∧ dport ≠ s.net.benPort) ∨ port ≠ s.offloadPort then toRing
      else if s.offloadTakes b d then
        let s := learn d.src (slice b 6 6) s
        if dport = s.net.benPort then benReceive t (udpPayload b d) s else s
      else s.modNet fun n => { n with offDiscards := satInc 0xFFFFFFFF n.offDiscards }

/-- A frame is received on a port, given without its check sequence; `beyond` says that it exceeds the throughput of D9's clock, which drops it
while D9 runs from the ring oscillator (spec/18_clocks_islands.md R499). -/
def execEthernetFrame (t port : Nat) (frame : List Byte) (beyond : Bool) (s : State) : Res :=
  let s := s.advance t
  let p := s.port port
  within port 2 (if !s.d9On || !p.enable || !p.up then s
    else if s.isFrozen 3 then stall 3 s
    else if beyond && s.clk.sources.getD 9 0 == 2 then s.modNet fun n => { n with frameDrops := satInc 0xFFFFFFFF n.frameDrops }
    else frameIn t port frame s)

/-! ### Announcements and the peer table (R470, R471, R474) -/

/-- The device's own injection amplitude, peak mA (R471, spec/09_islanding.md R261). -/
def State.ownAmp (s : State) : Nat :=
  match s.grid.cfg with
  | some c => if s.injecting then milliF (fmul (fmul (intF (s.isl.cfg.level : Nat) 1000) fSqrt2) c.iRated) else 0
  | none => 0

/-- The device sends ANNOUNCE (R471). -/
def announce (leaving : Bool) (s : State) : State :=
  let va := match s.grid.cfg with | some c => c.sRated.toNat | none => 0
  benSend 0x01 0xFFFFFF (fit 8 (s.mem.serial.getD []) ++ le 2 s.ownAmp ++ [BitVec.ofNat 8 s.modes.mode] ++
    le 1 (flagAt s.isl.aligned 0 + flagAt leaving 1) ++ le 4 va) s

/-- Every ANNOUNCE_S seconds the device sends ANNOUNCE (R471). -/
def execAnnounceSend (t : Nat) (s : State) : Res :=
  let s := s.advance t
  .next (if s.sys.ready && s.d9On && !s.isFrozen 3 && decide (s.net.announcedAt + s.net.announceS * 1000000000 ≤ t) then
      announce false (s.modNet fun n => { n with announcedAt := t })
    else s)

/-- NET_PEER (R479). -/
def peerEv (addr what : Nat) : Ev := ev 0x0C32 0 (le 3 addr ++ [BitVec.ofNat 8 what])

/-- An entry of the peer table is held by a correlator, or by a list of NET_FLEET_CONFIG (R474). -/
def State.byCorr (s : State) (a : Nat) : Bool := (List.range 64).any fun k => k != 0 && (let c := s.isl.corr.getD k Corr.reset; c.mode != 0 && c.held && c.code == a)
def State.peerHeld (s : State) (a : Nat) : Bool := s.byCorr a || s.net.dispatchers.contains a || s.net.managers.contains a

/-- The entry least recently heard of those not held. -/
def State.oldestPeer (s : State) : Option Peer :=
  (s.net.peers.filter fun p => !s.peerHeld p.addr).foldl (fun m p => match m with
    | none => some p
    | some q => if p.heard < q.heard then some p else some q) none

/-- An entry put in its place by address. -/
def insertPeer (p : Peer) : List Peer → List Peer
  | [] => [p]
  | q :: r => if p.addr < q.addr then p :: q :: r else if p.addr = q.addr then p :: r else q :: insertPeer p r

/-- A new peer (R474): with the table full the least recently heard entry that nothing holds makes room. -/
def joinPeer (t : Nat) (p : Peer) (s : State) : State :=
  let add (s : State) : State := (s.modNet fun n => { n with peers := insertPeer p n.peers }).post t (peerEv p.addr 1)
  if s.net.peers.length < 4096 then add s
  else match s.oldestPeer with
  | some q => add ((s.modNet fun n => { n with peers := n.peers.filter fun x => x.addr != q.addr }).post t (peerEv q.addr 4))
  | none => s

/-- A conflict is declared by an announcement of the device's own address with another serial number (R470). -/
def conflictCheck (t src : Nat) (serial : List Byte) (s : State) : State :=
  if s.net.addr = some src ∧ serial ≠ fit 8 (s.mem.serial.getD []) ∧ !s.net.conflict then
    (s.modNet fun n => { n with conflict := true }).post t (ev 0x0C33 0 (le 3 src ++ [0] ++ serial))
  else s

/-- An accepted ANNOUNCE (R470, R474): the peer joins, is refreshed or leaves. The device's own announcement makes no entry. -/
def execAnnounce (t src counter : Nat) (payload : List Byte) (s : State) : Res :=
  let s := s.advance t
  let fl := u8 payload 11
  let known := s.net.peers.any fun p => p.addr == src
  let p : Peer := { addr := src, serial := slice payload 0 8, amp := u16 payload 8, mode := u8 payload 10, aflags := fl, heard := t, counter := counter }
  within src (2 ^ 18) (if payload.length ≠ 16 ∨ !s.d9On then s
    else if s.net.addr = some src ∧ p.serial = fit 8 (s.mem.serial.getD []) then s
    else
      let s := conflictCheck t src p.serial s
      if bit fl 1 then
        (if known then (s.modNet fun n => { n with peers := n.peers.filter fun x => x.addr != src }).post t (peerEv src 2) else s)
      else if known then s.modNet fun n => { n with peers := insertPeer p n.peers }
      else joinPeer t p s)

/-- A peer not heard for 3 × ANNOUNCE_S leaves the table (R474). -/
def execPeerAgedOut (t addr : Nat) (s : State) : Res :=
  let s := s.advance t
  .next (if s.d9On && s.net.peers.any fun p => p.addr == addr && decide (p.heard + 3000000000 * s.net.announceS ≤ t) then
    (s.modNet fun n => { n with peers := n.peers.filter fun x => x.addr != addr }).post t (peerEv addr 3) else s)

/-! ### Dispatch and commands (R472, R473) -/

/-- A command that the network engine makes itself and submits on ring 46 (R472): checked, counted and executed without a reply. -/
def submit (c : CmdSpec) (t src : Nat) (payload : List Byte) (s : State) : Status × State :=
  let p : Packet := { src := .net src, t := t, tag := 0, flags := 0, session := 0, payload := payload }
  match c.coreFails false false false p s with
  | some (st, _) => (st, whenReady (countRejected st) s)
  | none => let e := c.run p s; (e.status, whenReady countAccepted (c.noted p e.st))

/-- NET_DISPATCH (R479). -/
def dispatchEv (what src st : Nat) : Ev := ev 0x0C35 0 ([BitVec.ofNat 8 what] ++ le 3 src ++ le 2 st)

/-- The status of a dispatch: the first that is not OK, or OK (R472). -/
def firstNotOk (a b : Status) : Status := if a = .ok then b else a

/-- A dispatch acted on: its set-points are submitted, its valid-until stands, and the status is answered (R472). -/
def dispatchAct (t src : Nat) (d : List Byte) (s : State) : State :=
  let r1 := if bit (u8 d 20) 0 then submit specGridSetpoint t src (slice d 0 8 ++ le 4 s.grid.vSet.toNat ++ zeros 4) s else (.ok, s)
  let r2 := if bit (u8 d 20) 1 then submit specPortBatSet t src ([0xFF, 0, 0, 0] ++ slice d 8 4) r1.2 else (.ok, r1.2)
  let st := firstNotOk r1.1 r2.1
  let some1 := decide (u8 d 20 % 4 = 0) || (bit (u8 d 20) 0 && r1.1.accepted) || (bit (u8 d 20) 1 && r2.1.accepted)
  let s := if some1 then r2.2.modNet fun n => { n with expiry := some (u64 d 12), expSrc := src } else r2.2
  benSend 0x11 src (le 2 st.code ++ zeros 2) (s.post t (dispatchEv (if some1 then 1 else 3) src st.code))

/-- An accepted DISPATCH (R472): acted on with authority and from a listed dispatcher; otherwise answered E_AUTH. -/
def execDispatch (t src : Nat) (payload : List Byte) (s : State) : Res :=
  let s := s.advance t
  within src (2 ^ 18) (if payload.length ≠ 24 ∨ !s.sys.ready ∨ !s.d9On then s
    else if s.net.authority && s.net.dispatchers.contains src then dispatchAct t src payload s
    else benSend 0x11 src (le 2 Status.eAuth.code ++ zeros 2) (s.post t (dispatchEv 3 src Status.eAuth.code)))

/-- At valid-until the fallback set-points stand (R472). -/
def execDispatchExpiry (t : Nat) (s : State) : Res :=
  let s := s.advance t
  .next (match s.net.expiry with
  | some v =>
    if v ≤ t then
      let s := setBat 0xFF 0 { s with grid := { s.grid with pSet := s.net.fbP, qSet := s.net.fbQ }, net := { s.net with expiry := none } }
      s.post t (dispatchEv 2 s.net.expSrc 0)
    else s
  | none => s)

/-- A Benmor COMMAND enters ring 46 from a listed manager; any other is discarded and counted (R473). -/
def execCommand (t src : Nat) (pkt : List Byte) (s : State) : Res :=
  let s := s.advance t
  within src (2 ^ 18) (if !s.d9On then s
    else if s.net.managers.contains src ∧ pkt.length ≤ 1412 then s.deliver 46 pkt else benDiscard s)

/-- A network session without a command for 300 s closes (R473). -/
def execNetworkSessionTimeout (t addr : Nat) (s : State) : Res :=
  let s := s.advance t
  .next (s.dropSessions fun x => x.src == .net addr && decide (x.lastUsed + 300000000000 ≤ t))

/-! ### CAN, UART and transmission (R462, R475, R476) -/

/-- An application-role frame goes to its ring; on a BMS bus a frame that is no node report is discarded and counted, and a node
report is BMS_NODE_REPORT's; remote frames are discarded, on a BMS bus counted with the others (R458, R462, R475). -/
def execCanFrame (t c ident : Nat) (fd ext brs remote : Bool) (data : List Byte) (s : State) : Res :=
  let s := s.advance t
  let k := s.net.cans.getD c CanCtl.reset
  within c 2 (if !s.d9On || k.busOff || k.role == 0 || (remote && k.role == 2) then s
    else if s.isFrozen 3 then stall 3 s
    else if remote then canDiscard s
    else if k.role = 2 then s.deliver (42 + c) (netHeader t (2 + c) (flagAt fd 0 + flagAt ext 1 + flagAt brs 2) data.length ident ++ data)
    else if fd && ext && ident / 65536 == 0x1B5C && ident % 256 == 1 && decide (ident / 256 % 256 < 64) then s
    else canDiscard s)

/-- A UART receive buffer closes, t its first bit (R462); host-over-UART takes UART0 from it (R85). -/
def execUartReceive (t : Nat) (data : List Byte) (s : State) : Res :=
  let s := s.advance t
  .next (if !s.d9On || s.host.uartHost then s
    else if s.isFrozen 3 then stall 3 s
    else s.deliver 44 (netHeader t 4 0 data.length 0 ++ data))

/-- A neighbour for an address (R464). -/
def State.neighbour (s : State) (v6 : Bool) (ip : List Byte) : Bool :=
  s.net.neigh.any fun n => n.valid && n.v6 == v6 && fit 16 n.ip == fit 16 ip

/-- The oldest Vrel PDU of ring 57 sent to its bound peer, or dropped and counted without a neighbour; that of a connection unbound since is not sent
(R464, R465). -/
def sendPdu (s : State) : State :=
  match s.safety.txPdus with
  | [] => s
  | (c, b) :: r =>
    let k := s.net.binds.getD c Bind.reset
    let s := { s with safety := { s.safety with txPdus := r } }
    if !k.bound then s
    else if s.neighbour k.v6 k.ip then s.modNet fun n => { n with txLast := some (57, b) }
    else s.modNet fun n => { n with noNeigh := satInc 0xFFFFFFFF n.noNeigh }

/-- The head of transmit ring n sent: its descriptor is marked DONE, and a requested timestamp is reported (R462). One descriptor holds one frame
(notes/assumptions/46.md). -/
def sendHead (t n : Nat) (s : State) : State :=
  let s := passHeads t n s
  let r := s.ring n
  if !r.configured ∨ r.devIndex = r.hostIndex then s
  else
    let d := s.descriptor n r.devIndex
    let buf := s.load (u32 d 0) (min 4096 (u16 d 6))
    let s := (useDescriptor t n s r.devIndex).modRing n fun r => { r with devIndex := (r.devIndex + 1) % r.size }
    let s := passHeads t n (s.modNet fun x => { x with txLast := some (n, buf) })
    if bit (u8 buf 0) 0 then s.post t (ev 0x0C34 n (le 4 (u32 d 8) ++ le 8 (s.stamp t))) else s

/-- The port, bus or line of transmit ring n can send (R458, R460, R476; R85 for UART0). -/
def State.canSend (s : State) (n : Nat) : Bool :=
  if n < 34 then (s.port (n - 32)).enable && (s.port (n - 32)).up
  else if n < 36 then (let k := s.net.cans.getD (n - 34) CanCtl.reset; k.role != 0 && !k.busOff)
  else !s.host.uartHost

/-- A frame leaves transmit ring n = 32..36, or a Vrel PDU ring 57. -/
def execFrameTransmit (t n : Nat) (s : State) : Res :=
  let s := s.advance t
  within n 64 (if !s.d9On then s
    else if s.isFrozen 3 then stall 3 s
    else if n = 57 then sendPdu s
    else if 32 ≤ n ∧ n ≤ 36 ∧ s.canSend n = true then sendHead t n s else s)

/-- A port's link goes up or down (R460): in failover mode the other port becomes active when the active one goes down, and an announcement
follows. -/
def execNetLink (t port : Nat) (isUp : Bool) (s : State) : Res :=
  let s := s.advance t
  let fails := s.failover && port == s.net.active && !isUp
  within port 2 (if !s.d9On || (s.port port).up == isUp then s
    else
      let s := s.modNet fun n => { n with ports := upd n.ports port fun p => { p with up := isUp }, active := if fails then 1 - port else n.active }
      let s := s.post t (ev 0x0C30 port [if isUp then 1 else 0, BitVec.ofNat 8 s.offloadPort])
      if fails then announce false s else s)

/-- A controller enters or leaves bus-off (R476). -/
def busOff (t c : Nat) (off : Bool) (s : State) : State :=
  if !s.d9On || (s.net.cans.getD c CanCtl.reset).busOff == off then s
  else (s.modNet fun n => { n with cans := upd n.cans c fun k => { k with busOff := off } }).post t (ev 0x0C36 c [if off then 1 else 2, 0])

def execCanBusOff (t c : Nat) (s : State) : Res := within c 2 (busOff t c true (s.advance t))
def execCanBusRecovered (t c : Nat) (s : State) : Res := within c 2 (busOff t c false (s.advance t))

/-! ### Time (R466) -/

/-- NET_PTP_STATE. -/
def ptpEv (s : State) : Ev := ev 0x0C31 0 ([if s.net.ptpLocked then 1 else 0, 0, 0, 0] ++ leI 8 s.net.ptpLast)

/-- The first PTP lock clears the husk's time-lost mark and writes the RTC (spec/20_husk.md R552). -/
def ptpFirst (s : State) : State :=
  if s.husk.timeLost then { s with husk := { s.husk with timeLost := false, rtc := s.time, rtcWritten := s.time } } else s

/-- The lock follows the offsets (R466): 16 small ones in turn, each within 2 s of the one before, or 4 large ones. -/
def ptpJudge (t : Nat) (o : Int) (s : State) : State :=
  let n := s.net
  let good := if o.natAbs < 100 then (if n.ptpGood ≠ 0 ∧ t ≤ n.ptpLastAt + 2000000000 then n.ptpGood + 1 else 1) else 0
  let bad := if 1000 ≤ o.natAbs then n.ptpBad + 1 else 0
  let lock := if 16 ≤ good then true else if 4 ≤ bad then false else n.ptpLocked
  let s := s.modNet fun n => { n with ptpGood := min 16 good, ptpBad := min 4 bad, ptpLocked := lock, ptpLastAt := t, ptpLast := o }
  if lock = n.ptpLocked then s else (if lock then ptpFirst s else s).post t (ptpEv s)

/-- What has been slewed since a measurement (R466: an offset slewed out is never applied twice). -/
def slewedSince (m : Nat) (l : List (Nat × Int)) : Int := (l.filter fun x => decide (m < x.1)).foldl (fun a x => a + x.2) 0

/-- One safety tick of the servo (R466): at most 500 ns a millisecond. Device time moves with it. -/
def ptpSlew (t : Nat) (s : State) : State :=
  let k : Int := if 500 < s.net.slew then 500 else if s.net.slew < -500 then -500 else s.net.slew
  if k = 0 then s
  else { s with time := ((s.time : Int) + k).toNat }.modNet fun n => { n with slew := n.slew - k, slewHist := (t, k) :: n.slewHist.filter fun x => decide (t ≤ x.1 + 1000000000) }

/-- An offset applied (R466): the first steps device time while time is not valid; later ones are slewed out. The
offset's own instant is counted after the step (notes/assumptions/37.md). -/
def ptpOffset (o : Int) (m : Nat) (s : State) : State :=
  let s := if !s.timeValid then s.stepTime ((s.time : Int) + o).toNat
    else s.modNet fun n => { n with slew := o - slewedSince m n.slewHist }
  ptpJudge s.time o s

/-- No offset for 5 s (R466). -/
def execPtpTimeout (t : Nat) (s : State) : Res :=
  let s := s.advance t
  .next (if s.net.ptpLocked ∧ s.net.ptpLastAt + 5000000000 ≤ t then
    let s := s.modNet fun n => { n with ptpLocked := false, ptpGood := 0 }
    s.post t (ptpEv s) else s)

/-! ### Commands (R478) -/

def specNetPortConfig : CmdSpec :=
  { opcode := 0x0C00, lenOk := len 16, image := some 0, key := 1, modeBad := fun s _ => !s.quiet
    checks := fun _ p => [inB p.payload 0 0 1, maskB p.payload 1 7] ++ resv p.payload 12 4
    run := fun p s =>
      let b := p.payload
      let set (x : Port) : Port :=
        { x with enable := bit (u8 b 1) 0, sgmii := bit (u8 b 1) 1, failover := bit (u8 b 1) 2, mac := slice b 2 6, phyRx := u16 b 8, phyTx := u16 b 10 }
      { st := s.modNet fun n => { n with ports := upd n.ports (u8 b 0) set } } }

def specNetIpConfig : CmdSpec :=
  { opcode := 0x0C01, lenOk := len 40, image := some 0, key := 1
    checks := fun _ p => [inB p.payload 0 0 1, inB p.payload 1 0 32, inB p.payload 2 0 128, (3, u8 p.payload 3 == 0)] ++ resv p.payload 28 12
    run := fun p s =>
      let b := p.payload
      { st := s.modNet fun n => { n with ports := upd n.ports (u8 b 0) fun x => { x with pre4 := u8 b 1, pre6 := u8 b 2, ip4 := slice b 4 4, ip6 := slice b 8 16 }
                                         vrelPort := u16 b 24, benPort := u16 b 26 } } }

def specNetNeighbourSet : CmdSpec :=
  { opcode := 0x0C02, lenOk := len 24, image := some 0, key := 1
    checks := fun _ p => [inB p.payload 0 0 15, maskB p.payload 1 3]
    run := fun p s =>
      let b := p.payload
      let e : Neigh := { valid := bit (u8 b 1) 0, written := bit (u8 b 1) 0, v6 := bit (u8 b 1) 1, mac := slice b 2 6, ip := slice b 8 16 }
      { st := s.modNet fun n => { n with neigh := n.neigh.set (u8 b 0) e } } }

def specNetPtpOffset : CmdSpec :=
  { opcode := 0x0C03, lenOk := len 16
    checks := fun s p => [(8, decide (u64 p.payload 8 ≤ s.time) && decide (s.time ≤ u64 p.payload 8 + 1000000000))]
    run := fun p s =>
      let s := ptpOffset (signed 64 (u64 p.payload 0)) (u64 p.payload 8) s
      { st := s, data := [if s.net.ptpLocked then 1 else 0, 0, 0, 0] } }

def specNetCanConfig : CmdSpec :=
  { opcode := 0x0C04, lenOk := len 12, image := some 0, key := 1, modeBad := fun s _ => !s.quiet
    checks := fun _ p => [inB p.payload 0 0 1, inB p.payload 1 0 2] ++ resv p.payload 2 2 ++ [inW p.payload 4 125000 1000000, inW p.payload 8 500000 8000000]
    run := fun p s =>
      let b := p.payload
      { st := s.modNet fun n => { n with cans := upd n.cans (u8 b 0) fun c => { c with role := u8 b 1, nominal := u32 b 4, data := u32 b 8 } } } }

def specNetUartConfig : CmdSpec :=
  { opcode := 0x0C05, lenOk := len 8, image := some 0
    checks := fun _ p => [inW p.payload 0 1200 3000000, inB p.payload 4 0 2] ++ resv p.payload 5 3
    conflictBad := fun s _ => s.host.uartHost
    run := fun p s => { st := s.modNet fun n => { n with uartRate := u32 p.payload 0, uartParity := u8 p.payload 4 } } }

/-- The used addresses of a list of four. -/
def addrList (b : List Byte) (o : Nat) : List Nat := ((List.range 4).map fun i => uN 3 b (o + 3 * i)).filter fun a => a != 0xFFFFFF

def specNetFleetConfig : CmdSpec :=
  { opcode := 0x0C06, lenOk := len 64, image := some 0
    checks := fun _ p =>
      let b := p.payload
      let lst (o : Nat) : List Check := (List.range 4).map fun i => (o + 3 * i, uN 3 b (o + 3 * i) < 2 ^ 18 || uN 3 b (o + 3 * i) == 0xFFFFFF)
      [(0, u32 b 0 != 0), (4, uN 3 b 4 < 2 ^ 18), inB b 7 1 60] ++ lst 28 ++ lst 40 ++ resv b 52 12
    run := fun p s =>
      let b := p.payload
      { st := s.modNet fun n =>
          { n with fleetId := u32 b 0, addr := some (uN 3 b 4), announceS := u8 b 7, group4 := slice b 8 4, group6 := slice b 12 16
                   dispatchers := addrList b 28, managers := addrList b 40, conflict := n.conflict && n.addr == some (uN 3 b 4) } } }

def specNetFleetKey : CmdSpec :=
  { opcode := 0x0C07, lenOk := len 32, lcBad := fun s _ => s.mem.lc != 2 && s.mem.lc != 3, image := some 4
    run := fun p s => { st := s.modNet fun n => { n with fleetKey := some p.payload } } }

def specNetDispatchAuth : CmdSpec :=
  { opcode := 0x0C08, lenOk := len 12, image := some 0
    checks := fun _ p => maskB p.payload 0 1 :: resv p.payload 1 3 ++ [inR p.payload 4 fm1 f1, inR p.payload 8 fm1 f1]
    comboBad := fun s p => bit (u8 p.payload 0) 0 && (s.modes.mode == 2 || s.modes.trans.any fun x => x.target == 2)
    run := fun p s => { st := s.modNet fun n => { n with authority := bit (u8 p.payload 0) 0, fbP := f32 p.payload 4, fbQ := f32 p.payload 8 } } }

def specNetVrelBind : CmdSpec :=
  { opcode := 0x0C09, lenOk := len 24, image := some 0, key := 1
    checks := fun _ p => [inB p.payload 0 0 3, maskB p.payload 1 3] ++ resv p.payload 20 4
    run := fun p s =>
      let b := p.payload
      let k : Bind := { bound := bit (u8 b 1) 0, v6 := bit (u8 b 1) 1, port := u16 b 2, ip := slice b 4 16 }
      { st := s.modNet fun n => { n with binds := n.binds.set (u8 b 0) k } } }

/-- A peer's code is a member of the PCC map (spec/09_islanding.md R274). -/
def State.inPccMap (s : State) (a : Nat) : Bool := s.isl.corr.any fun c => c.inMap && c.code == a

/-- One entry of NET_PEER_READ. -/
def peerBytes (s : State) (p : Peer) : List Byte :=
  le 3 p.addr ++ le 1 (flagAt (s.byCorr p.addr) 0 + flagAt (s.net.dispatchers.contains p.addr) 1 + flagAt (s.net.managers.contains p.addr) 2 +
    flagAt (s.inPccMap p.addr) 3) ++ fit 8 p.serial ++ le 2 p.amp ++ le 1 p.mode ++ le 1 p.aflags ++ le 8 p.heard ++ le 8 p.counter

def specNetPeerRead : CmdSpec :=
  { opcode := 0x0C0A, lenOk := len 4
    checks := fun _ p => [inH p.payload 0 0 4095, inB p.payload 2 1 32, (3, u8 p.payload 3 == 0)]
    run := fun p s =>
      { st := s, data := le 2 s.net.peers.length ++ zeros 2 ++
        ((s.net.peers.drop (u16 p.payload 0)).take (u8 p.payload 2)).flatMap (peerBytes s) } }

/-- The 64 bytes of NET_STATUS (R478). -/
def netStatus (s : State) : List Byte :=
  let n := s.net
  le 1 (flagAt (s.port 0).up 0 + flagAt (s.port 1).up 1) ++ le 1 s.offloadPort ++
  le 1 (flagAt n.ptpLocked 0 + flagAt n.conflict 1 + flagAt n.authority 2 + flagAt (n.benHeld != []) 3) ++
  le 1 (flagAt (n.cans.getD 0 CanCtl.reset).busOff 0 + flagAt (n.cans.getD 1 CanCtl.reset).busOff 1) ++
  le 4 (n.offDiscards + n.frameDrops) ++ le 4 n.benDiscards ++ le 4 n.noNeigh ++ le 4 n.canDiscards ++ leI 8 n.ptpLast ++ zeros 36

def specNetStatus : CmdSpec := { opcode := 0x0C0B, lenOk := len 0, run := fun _ s => { st := s, data := netStatus s } }

def execNetPortConfig (p : Packet) (s : State) : Res := runCommand specNetPortConfig p s
def execNetIpConfig (p : Packet) (s : State) : Res := runCommand specNetIpConfig p s
def execNetNeighbourSet (p : Packet) (s : State) : Res := runCommand specNetNeighbourSet p s
def execNetPtpOffset (p : Packet) (s : State) : Res := runCommand specNetPtpOffset p s
def execNetCanConfig (p : Packet) (s : State) : Res := runCommand specNetCanConfig p s
def execNetUartConfig (p : Packet) (s : State) : Res := runCommand specNetUartConfig p s
def execNetFleetConfig (p : Packet) (s : State) : Res := runCommand specNetFleetConfig p s
def execNetFleetKey (p : Packet) (s : State) : Res := runCommand specNetFleetKey p s
def execNetDispatchAuth (p : Packet) (s : State) : Res := runCommand specNetDispatchAuth p s
def execNetVrelBind (p : Packet) (s : State) : Res := runCommand specNetVrelBind p s
def execNetPeerRead (p : Packet) (s : State) : Res := runCommand specNetPeerRead p s
def execNetStatus (p : Packet) (s : State) : Res := runCommand specNetStatus p s

end Sys2Proof.Machine
end

