-- ==== Sys2Proof/Machine/Cooling.lean ====
section
/-! DEFINITION. The cooling drives and the cooling command group (spec/17_cooling_drive.md). -/

namespace Sys2Proof.Machine

/-! ### States, tries and gates -/

/-- The phases of a sector (R481): the one switched on its high side, and the one that holds its low side on. -/
def hiPhase (sector : Nat) : Nat := ([0, 0, 1, 1, 2, 2] : List Nat).getD sector 0
def loPhase (sector : Nat) : Nat := ([1, 2, 2, 0, 0, 1] : List Nat).getD sector 0

/-- The gate outputs HU, HV, HW, LU, LV, LW that a state drives (R481, R482, R484): in Align, Ramp and Run the phase of the sector on its high side
while its pulse is on, with its low side as the complement; the sector's low side; the outgoing phase of an edge on its own side while it has a duty; and a
low side on for a refresh, its high side off (R491). -/
def Drive.gates (d : Drive) : List Bool :=
  let hi := hiPhase d.sector
  let lo := loPhase d.sector
  let was := (d.sector + 5) % 6
  let edge (p : Nat) : Bool := p != hi && p != lo && d.phaseDuty.getD p 0 != 0
  let off (p : Nat) : Bool := d.refresh.getD p false || d.locked.getD p false
  if d.state = 1 then [false, false, false, true, true, true]
  else if 2 ≤ d.state ∧ d.state ≤ 4 then
    ((List.range 3).map fun p => (p == hi || (p == hiPhase was && edge p)) && d.pulse && !off p) ++
    ((List.range 3).map fun p => p == lo || (p == loPhase was && edge p) || (p == hi && !d.pulse) || off p)
  else List.replicate 6 false

/-- Cooling degraded (R489): a required drive is in Fault. -/
def coolDegraded (s : State) : State :=
  let b := s.cool.drives.any fun d => d.state == 6 && (match d.cfg with | some c => c.required | none => false)
  { s with cool := { s.cool with degraded := b } }

/-- A cause byte of COOL_STATE for a transition that R496 lists no cause for: not stated (notes/assumptions/38.md). -/
def coolFree (n : Nat) : Nat := Config.freeNat "COOL_STATE cause" n % 256

/-- Drive n taken to a state with its event (R484, R496). -/
def driveTo (t n st cause : Nat) (s : State) : State :=
  let d := s.drive n
  let s := (s.modDrive n fun d =>
    { d with state := st, stateAt := t, crossings := 0, misses := 0, lastComm := if st = 3 then t else d.lastComm, commAt := 0, rampSteps := 0,
             refAcc := if st = 4 then 65536 * d.speed else d.refAcc, phaseDuty := if 2 ≤ st ∧ st ≤ 4 then d.phaseDuty else [0, 0, 0],
             pulse := decide (2 ≤ st ∧ st ≤ 4), duty := if st = 0 ∨ st = 5 ∨ st = 6 then 0 else d.duty,
             dutyAcc := if st = 0 ∨ st = 5 ∨ st = 6 then 0 else d.dutyAcc, speed := if st = 0 ∨ st = 1 ∨ st = 2 then 0 else d.speed,
             counters := if st = 1 then upd d.counters 1 (satInc 0xFFFFFFFF) else d.counters }).post t
    (ev 0x0D30 n [BitVec.ofNat 8 d.state, BitVec.ofNat 8 st, BitVec.ofNat 8 cause])
  coolDegraded s

/-- The tries used in [t − 60 s, t) (R489). -/
def triesIn (t : Nat) (l : List Nat) : List Nat := l.filter fun x => decide (t ≤ x + 60000000000) && decide (x < t)

/-- A drive needs a try for a cause (R489): Coast with one try used, or Fault with COOL_FAULT when none remains. -/
def needTry (t n cause : Nat) (s : State) : State :=
  let d := s.drive n
  let used := triesIn t d.tries
  let lim := match d.cfg with | some c => c.restartMax | none => 0
  let req := match d.cfg with | some c => c.required | none => false
  if lim ≤ used.length then
    ((driveTo t n 6 cause (s.modDrive n fun d => { d with tries := used, cause := cause })).post t
      (ev 0x0D32 n [BitVec.ofNat 8 cause, if req then 1 else 0])).commitHealth
  else driveTo t n 5 cause (s.modDrive n fun d => { d with tries := t :: used, cause := cause })

/-- A try remains at t (R484, R489). -/
def Drive.tryLeft (d : Drive) (t : Nat) : Bool :=
  decide ((triesIn t d.tries).length < (match d.cfg with | some c => c.restartMax | none => 0))

/-- A lifetime counter of the drive counts one more (R493): 2 failed starts, 3 rotor losses, 4 overcurrents, 5 lockouts. -/
def driveCount (n k : Nat) (s : State) : State := s.modDrive n fun d => { d with counters := upd d.counters k (satInc 0xFFFFFFFF) }

/-- The start of a drive (R484); without VDD_HV it waits in Coast (R492). -/
def driveStart (t n cause : Nat) (s : State) : State :=
  if s.cool.hvGood then driveTo t n 1 cause s
  else driveTo t n 5 5 (s.modDrive n fun d => { d with hvRestart := true, cause := 5 })

/-- VDD_HV stops being good (R43, R484, R492): a running or starting drive coasts without a try; a start repeats when VDD_HV is good. -/
def coolHvLost (t : Nat) (s : State) : State :=
  let s := { s with cool := { s.cool with hvGood := false } }
  (List.range 2).foldl (fun s n =>
    let st := (s.drive n).state
    if s.domainOn 6 ∧ 1 ≤ st ∧ st ≤ 4 then driveTo t n 5 5 (s.modDrive n fun d => { d with cause := 5, hvRestart := d.state != 4 }) else s) s

/-- VDD_HV is good again (R492). -/
def coolHvGood (t : Nat) (s : State) : State :=
  let s := { s with cool := { s.cool with hvGood := true } }
  (List.range 2).foldl (fun s n =>
    let d := s.drive n
    if s.domainOn 6 ∧ d.state = 5 ∧ d.hvRestart then driveTo t n 1 5 (s.modDrive n fun d => { d with hvRestart := false }) else s) s

/-- Start at Ready (R484, R492). -/
def coolReady (t : Nat) (s : State) : State :=
  (List.range 2).foldl (fun s n => match (s.drive n).cfg with
    | some c => if c.startReady ∧ (s.drive n).state = 0 then driveStart t n 0 s else s
    | none => s) s

/-! ### Speed and duty (R485, R486, R490) -/

/-- The step interval of a speed, ns: six steps an electrical turn. -/
def CoolCfg.stepOf (c : CoolCfg) (rpm : Nat) : Nat := 10000000000 / (max 1 rpm * max 1 c.poles)

/-- The speed of a mean step interval, rpm. -/
def CoolCfg.speedOf (c : CoolCfg) (steps : List Nat) : Nat := steps.length * 10000000000 / (max 1 c.poles * max 1 steps.sum)

/-- The greatest duty that leaves every period a refresh interval, Q15 (R490). -/
def CoolCfg.maxDuty (c : CoolCfg) : Nat := 32768 - ((c.tRefresh + 2 * c.tDead) * c.fPwm * 32768 + 999999) / 1000000

/-- The speed that the loop is held to (R485, R486): it moves toward the target, HANDOVER at least, by ACCEL. -/
def refNow (c : CoolCfg) (d : Drive) : Drive :=
  let goal := 65536 * max d.target c.handover
  let slew := c.accel * 65536 / (100 * max 1 c.fPwm)
  { d with refAcc := if d.refAcc < goal then min goal (d.refAcc + slew) else max goal (d.refAcc - slew) }

/-- The duty of one PWM period (R485, R486, R490): in Run in duty mode it moves toward the target by 0.5 of full duty a second at most; the duty of
Align and Ramp, and the speed loop's own result, in speed mode and to hold HANDOVER, are not stated (notes/assumptions/38.md). -/
def dutyNow (c : CoolCfg) (free : Nat) (d : Drive) : Drive :=
  let lim := c.maxDuty
  let slew := 16384 * 65536 / (100 * max 1 c.fPwm)
  let goal := 65536 * min d.target lim
  let moved := if d.dutyAcc < goal then min goal (d.dutyAcc + slew) else max goal (d.dutyAcc - slew)
  let want := if c.dutyMode ∧ d.state = 4 then (if d.speed < c.handover then max moved (65536 * (free % 65536)) else moved) else 65536 * (free % 65536)
  let q := min want (65536 * lim)
  { d with dutyAcc := q, duty := q / 65536, dutyLim := decide (65536 * lim < want) || (c.dutyMode && decide (lim < d.target)),
           ratio := if d.state = 4 ∧ d.speed ≠ 0 then q / d.speed else d.ratio }

/-- The duty of each phase at t (R482): for T_EDGE % of the step after a commutation the incoming phase's rises to the applied duty and the
outgoing one's falls to 0, each in a straight line; the third phase keeps it. -/
def edgeDuties (t : Nat) (c : CoolCfg) (d : Drive) : List Nat :=
  let span := d.stepNs * c.tEdge / 100
  let x := min span (t - d.lastComm)
  let was := (d.sector + 5) % 6
  let on (sec p : Nat) : Bool := p == hiPhase sec || p == loPhase sec
  (List.range 3).map fun p =>
    match on d.sector p, on was p with
    | true, true => d.duty
    | true, false => if x = span then d.duty else d.duty * x / span
    | false, true => if x = span then 0 else d.duty * (span - x) / span
    | false, false => 0

/-- The length of a PWM period, ns. -/
def CoolCfg.pwmNs (c : CoolCfg) : Nat := 10000000 / max 1 c.fPwm

/-- One PWM period in Run for the health record (R493): run hours, and the current within 2 % of REF_SPEED. -/
def runPeriod (c : CoolCfg) (per : Nat) (d : Drive) : Drive :=
  let r := d.runNs + per
  let d := if 3600000000000 ≤ r then { d with runNs := r - 3600000000000, counters := upd d.counters 0 (satInc 0xFFFFFFFF) } else { d with runNs := r }
  if 50 * (max d.speed d.refSpeed - min d.speed d.refSpeed) ≤ d.refSpeed ∧ d.refSpeed ≠ 0 then
    { d with refSum := d.refSum + d.current, refN := d.refN + 1, refNs := d.refNs + per }
  else d

/-- The speed of the ramp t ns after it began, rpm (R484). -/
def CoolCfg.rampSpeed (c : CoolCfg) (t : Nat) : Nat := c.ramp * t / 1000000000

/-- The time from a to t as D6 counts it, ns (R492): on the ring oscillator every count, and with it F_PWM and the ramps, lasts longer (spec/11_pwm.md R332). -/
def State.d6Since (s : State) (a t : Nat) : Nat :=
  let d := s.pwm.d6
  if d.khz = 0 then t - a else (d.ref - a) + (t - max a d.ref) * d.khz / 500000

/-- Ramp reaches 2 × HANDOVER without handover: a failed start (R484). -/
def rampFails (t d : Nat) (c : CoolCfg) (s : State) : State :=
  if (s.drive d).state = 3 ∧ 2 * c.handover ≤ c.rampSpeed (s.d6Since (s.drive d).stateAt t) then needTry t d 2 (driveCount d 2 s) else s

/-- Each PWM period the shunts are sampled (R483), currents in 10 mA: a phase at I_LIM ends the period's high-side pulse; a lockout of the period
before refreshes its phase (R491). The reported mean is the drive's own, whose averaging is not stated. -/
def execCoolPwmPeriod (t d iU iV iW mean : Nat) (s : State) : Res :=
  let s := s.advance t
  let x := s.drive d
  within d 2 (inDomain 6 s (match x.cfg with
    | none => s
    | some c =>
      if 2 ≤ x.state ∧ x.state ≤ 4 ∧ (x.pwmAt = 0 ∨ c.pwmNs ≤ s.d6Since x.pwmAt t) then
        rampFails t d c <| (s.modDrive d fun x =>
          let y := dutyNow c s.freeWord.toNat (if x.state = 4 then refNow c x else x)
          let y := { y with
            pulse := decide (max iU (max iV iW) < c.iLim), current := min 65535 mean, refresh := y.locked, locked := [false, false, false]
            pwmAt := t, phaseDuty := edgeDuties t c y, speed := if y.state = 3 then min 65535 (c.rampSpeed (s.d6Since y.stateAt t)) else y.speed }
          if y.state = 4 then runPeriod c (s.pwm.d6.lasts c.pwmNs) y else y).drawn 1
      else s))

/-- Current at I_OC for 1 µs (R483): all six gates off, and a try is needed. Of an overcurrent and a rotor loss in one PWM period the overcurrent is
recorded, for one try (R492). -/
def execCoolOvercurrent (t d : Nat) (s : State) : Res :=
  let s := s.advance t
  let x := s.drive d
  let period := match x.cfg with | some c => c.pwmNs | none => 0
  let since := s.d6Since x.pwmAt t
  within d 2 (inDomain 6 s (if 1 ≤ x.state ∧ x.state ≤ 4 then needTry t d 1 (driveCount d 4 s)
    else if 5 ≤ x.state ∧ x.cause = 3 ∧ x.pwmAt ≤ x.stateAt ∧ since < period then (driveCount d 4 s).modDrive d fun x => { x with cause := 1 }
    else s))

/-! ### Start and run (R484, R485) -/

def execCoolPrechargeEnd (t d : Nat) (s : State) : Res :=
  let s := s.advance t
  let x := s.drive d
  within d 2 (inDomain 6 s (if x.state = 1 ∧ x.stateAt + 1000000 ≤ t then driveTo t d 2 (coolFree 2) s else s))

def execAlignEnd (t d : Nat) (s : State) : Res :=
  let s := s.advance t
  let x := s.drive d
  within d 2 (inDomain 6 s (match x.cfg with
    | some c => if x.state = 2 ∧ x.stateAt + c.tAlign * 1000000 ≤ t then driveTo t d 3 (coolFree 3) s else s
    | none => s))

/-- The commutations that the ramp has asked for t ns after it began (R484): one each 60° electrical, from speed 0 at RAMP. -/
def CoolCfg.rampTurns (c : CoolCfg) (t : Nat) : Nat := c.ramp * c.poles * t * t / (20 * 1000000000 * 1000000000)

/-- The next sector at t (R485). -/
def Drive.commutate (t : Nat) (d : Drive) : Drive := { d with sector := (d.sector + 1) % 6, lastComm := t, commAt := 0 }

/-- A commutation to the next sector (R485): in Ramp when the open-loop angle asks for it, with the speed and the step that the ramp has reached; in Run
half of the last step interval after its crossing, less ADVANCE. -/
def execCommutation (t d : Nat) (s : State) : Res :=
  let s := s.advance t
  let x := s.drive d
  within d 2 (inDomain 6 s (match x.cfg with
    | none => s
    | some c =>
      if x.state = 3 ∧ x.rampSteps < c.rampTurns (s.d6Since x.stateAt t) then
        let v := c.rampSpeed (s.d6Since x.stateAt t)
        rampFails t d c (s.modDrive d fun x => { x.commutate t with rampSteps := x.rampSteps + 1, speed := min 65535 v, stepNs := c.stepOf v })
      else if x.state = 4 ∧ x.commAt ≠ 0 ∧ x.commAt ≤ t then s.modDrive d (Drive.commutate t)
      else s))

/-- A crossing within ±25 % of an expected interval. -/
def near25 (a b : Nat) : Bool := decide (3 * b ≤ 4 * a) && decide (4 * a ≤ 5 * b)

/-- The instant at which a crossing at x commutates (R485): half of the last step interval later, less ADVANCE. -/
def Drive.commFor (d : Drive) (c : CoolCfg) (x : Nat) : Nat := x + d.stepNs * (30 - c.advance) / 60

/-- A miss (R487), by a crossing outside its window (`early`, before it) or by none: the first commutates at the predicted instant, at once where that has
passed; the second in a row loses the rotor. -/
def crossingMiss (t d : Nat) (c : CoolCfg) (early : Bool) (s : State) : State :=
  let x := s.drive d
  if x.misses = 0 then
    let at' := x.lastCross + x.stepNs
    let s := s.modDrive d fun x => { x with misses := 1, lastCross := if early then t else at', commAt := x.commFor c at' }
    if x.commFor c at' ≤ t then s.modDrive d (Drive.commutate t) else s
  else
    let s := needTry t d 3 (driveCount d 3 s)
    s.post t (ev 0x0D31 d (le 2 x.speed ++ [BitVec.ofNat 8 (triesIn (t + 1) (s.drive d).tries).length]))

/-- A crossing found in Ramp (R485): the sixth consistent one at HANDOVER or above hands over to Run. -/
def rampCrossing (t d : Nat) (c : CoolCfg) (s : State) : State :=
  let x := s.drive d
  let at' := x.lastComm + x.stepNs / 2
  let off := if t < at' then at' - t else t - at'
  let n := if 4 * off ≤ x.stepNs then x.crossings + 1 else 0
  let s := s.modDrive d fun x => { x with crossings := n, steps := (x.stepNs :: x.steps).take 6, lastCross := t }
  if 6 ≤ n ∧ c.handover ≤ x.speed then driveTo t d 4 (coolFree 4) s else s

/-- A crossing found in Run (R485, R487): inside its window it gives the next interval and the speed. -/
def runCrossing (t d : Nat) (c : CoolCfg) (s : State) : State :=
  let x := s.drive d
  let iv := t - x.lastCross
  if x.stepNs ≤ 2 * iv ∧ 2 * iv < 3 * x.stepNs then
    s.modDrive d fun x =>
      let y := { x with misses := 0, stepNs := iv, steps := (iv :: x.steps).take 6, lastCross := t, speed := min 65535 (c.speedOf ((iv :: x.steps).take 6)) }
      { y with commAt := y.commFor c t }
  else crossingMiss t d c (decide (2 * iv < x.stepNs)) s

/-- A crossing found in Coast (R488): the third consistent one at a speed in range catches the rotor, at the duty of its last ratio. -/
def coastCrossing (t d : Nat) (c : CoolCfg) (s : State) : State :=
  let x := s.drive d
  let iv := t - x.lastCross
  let n := if near25 iv x.stepNs then x.crossings + 1 else 0
  let v := min 65535 (c.speedOf [iv])
  let s := s.modDrive d fun x => { x with crossings := n, stepNs := iv, steps := [iv], lastCross := t, speed := v }
  if 3 ≤ n ∧ c.handover ≤ v ∧ v ≤ c.maxSpeed ∧ s.cool.hvGood then
    (driveTo t d 4 (coolFree 4) s).modDrive d fun x =>
      { x with dutyAcc := min (65536 * c.maxDuty) (v * x.ratio), duty := min c.maxDuty (v * x.ratio / 65536), hvRestart := false }
  else s

/-- A back-EMF crossing (R485); for T_EDGE % + 5 % of the step after a commutation crossings are ignored. -/
def execBackEmfCrossing (t d : Nat) (s : State) : Res :=
  let s := s.advance t
  let x := s.drive d
  within d 2 (inDomain 6 s (match x.cfg with
    | none => s
    | some c =>
      let blank := decide (t < x.lastComm + x.stepNs * (c.tEdge + 5) / 100)
      if x.state = 3 then (if blank then s else rampCrossing t d c s)
      else if x.state = 4 then (if blank then s else runCrossing t d c s)
      else if x.state = 5 then coastCrossing t d c s else s))

/-- A crossing missing by 1.5 × the last interval (R487). -/
def execCrossingMiss (t d : Nat) (s : State) : Res :=
  let s := s.advance t
  let x := s.drive d
  within d 2 (inDomain 6 s (match x.cfg with
    | some c => if x.state = 4 ∧ 2 * x.lastCross + 3 * x.stepNs ≤ 2 * t then crossingMiss t d c false s else s
    | none => s))

/-- 200 ms in Coast without a crossing (R484): with a try remaining the drive starts again from Precharge, or waits for VDD_HV; with none it
stays in Coast. -/
def execCoastTimeout (t d : Nat) (s : State) : Res :=
  let s := s.advance t
  let x := s.drive d
  within d 2 (inDomain 6 s (if x.state = 5 ∧ max x.lastCross x.stateAt + 200000000 ≤ t ∧ x.tryLeft t then
      (if s.cool.hvGood then driveTo t d 1 x.cause (s.modDrive d fun x => { x with hvRestart := false })
       else s.modDrive d fun x => { x with hvRestart := true })
    else s))

/-! ### Bootstrap, hours and wear (R491, R493) -/

/-- A high side locks out (R491): it is off for the rest of the period, its low side is on in the next one; counted; sixteen within a second are
cause 4. -/
def execBootstrapLockout (t d phase : Nat) (s : State) : Res :=
  let s := s.advance t
  let x := s.drive d
  let l := t :: x.lockouts.filter fun y => decide (t < y + 1000000000)
  within d 2 (inDomain 6 s (if phase < 3 ∧ 1 ≤ x.state ∧ x.state ≤ 4 then
      let s := (driveCount d 5 s).modDrive d fun x => { x with lockouts := l, locked := x.locked.set phase true }
      if 16 ≤ l.length then needTry t d 4 (s.modDrive d fun x => { x with lockouts := [] }) else s
    else s))

/-- The mean of n samples with a sum in whole steps: down, or up where it lies between two (R493 states no rounding; notes/assumptions/38.md). -/
def meanOf (up : Bool) (sum n : Nat) : Nat := if up then (sum + (max 1 n - 1)) / max 1 n else sum / max 1 n

/-- An hour at REF_SPEED with the mean of its current samples (R493): the first ten teach the baseline, later ones are checked for wear. -/
def wearHour (t d : Nat) (up : Bool) (s : State) : State :=
  let x := s.drive d
  let m := min 65535 (meanOf up x.refSum x.refN)
  if x.blHours < 10 then
    s.modDrive d fun x =>
      { x with hourly := m, blHours := x.blHours + 1, blSum := x.blSum + x.refSum, blN := x.blN + x.refN,
               baseline := if x.blHours = 9 then min 65535 (meanOf up (x.blSum + x.refSum) (x.blN + x.refN)) else 0, refSum := 0, refN := 0, refNs := 0 }
  else
    let hi := decide (125 * x.baseline ≤ 100 * m)
    let lo := decide (100 * m < 60 * x.baseline)
    let s := s.modDrive d fun x => { x with hourly := m, wear := hi || lo, refSum := 0, refN := 0, refNs := 0 }
    if hi || lo then s.post t (ev 0x0D33 d ([if hi then 1 else 2, 0] ++ le 2 m ++ le 2 x.baseline)) else s

/-- Hourly (R493): the counters are written; a whole hour at REF_SPEED ± 2 % since the last one is evaluated. -/
def execCoolHourly (t d : Nat) (up : Bool) (s : State) : Res :=
  let s := s.advance t
  let x := s.drive d
  within d 2 (inDomain 6 s (if elapsed x.hourAt 3600000000000 t then
      let s := s.modDrive d fun x => { x with hourAt := t }
      (if 3600000000000 ≤ x.refNs then wearHour t d up s else s).commitHealth
    else s))

/-! ### Commands (R494, R495) -/

/-- The configuration of a payload (R495). -/
def coolCfgOf (b : List Byte) : CoolCfg :=
  { required := bit (u8 b 1) 0, startReady := bit (u8 b 1) 1, dutyMode := bit (u8 b 1) 2, poles := u8 b 2, tEdge := u8 b 3, fPwm := u16 b 4,
    tDead := u16 b 6, iAlign := u16 b 8, tAlign := u16 b 10, ramp := u16 b 12, handover := u16 b 14, maxSpeed := u16 b 16, iLim := u16 b 18,
    iOc := u16 b 20, accel := u16 b 22, restartMax := u8 b 24, advance := u8 b 25, tRefresh := u16 b 26 }

def coolChecks (b : List Byte) : List Check :=
  [inB b 0 0 1, maskB b 1 7, inB b 2 1 16, inB b 3 0 25, inH b 4 160 640, inH b 6 10 200, inH b 8 1 1000, inH b 10 10 5000, inH b 12 10 10000,
   (14, 100 ≤ u16 b 14 && u16 b 14 ≤ 10000 && decide (u16 b 14 < u16 b 16)), inH b 16 200 30000, (18, 1 ≤ u16 b 18 && decide (u16 b 18 < u16 b 20)),
   inH b 20 0 1000, inH b 22 10 20000, inB b 24 0 15, inB b 25 0 30,
   (26, 20 ≤ u16 b 26 && u16 b 26 ≤ 200 && (u16 b 26 + 2 * u16 b 6) * u16 b 4 ≤ 200000)] ++ resv b 28 4

def specCoolConfig : CmdSpec :=
  { opcode := 0x0D00, lenOk := len 32, image := some 0, key := 1
    stateBad := fun s p => u8 p.payload 0 < 2 && (s.drive (u8 p.payload 0)).state != 0
    checks := fun _ p => coolChecks p.payload
    comboBad := fun s p => (coolCfgOf p.payload).required && (s.drive (u8 p.payload 0)).stopped && s.switchesNow
    run := fun p s => { st := s.modDrive (u8 p.payload 0) fun d => { d with cfg := some (coolCfgOf p.payload) } } }

/-- A start or stop (R484): a stop takes any state to Off; a start does not leave a latched Fault without clear fault, and of a running drive
it only sets the target. -/
def coolRun (t n : Nat) (start clear : Bool) (target : Nat) (s : State) : State :=
  let s := if clear then driveTo t n 0 0 s else s
  let s := s.modDrive n fun d => { d with target := target, stopped := !start }
  let st := (s.drive n).state
  if start then (if st = 0 then driveStart t n 0 s else s)
  else if st = 0 then s
  else driveTo t n 0 0 (s.modDrive n fun d => { d with hvRestart := false })

/-- The drive is marked required. -/
def Drive.required (d : Drive) : Bool := match d.cfg with | some c => c.required | none => false

def specCoolRun : CmdSpec :=
  { opcode := 0x0D01, lenOk := len 8
    stateBad := fun s p =>
      let d := s.drive (u8 p.payload 0)
      u8 p.payload 0 < 2 && (d.cfg.isNone || (bit (u8 p.payload 1) 1 && d.state != 6))
    checks := fun s p =>
      let lim := match (s.drive (u8 p.payload 0)).cfg with | some c => if c.dutyMode then 32767 else c.maxSpeed | none => 0
      [inB p.payload 0 0 1, maskB p.payload 1 3, inH p.payload 2 0 lim] ++ resv p.payload 4 4
    comboBad := fun s p => !bit (u8 p.payload 1) 0 && (s.drive (u8 p.payload 0)).required && s.switchesNow
    run := fun p s => { st := coolRun p.t (u8 p.payload 0) (bit (u8 p.payload 1) 0) (bit (u8 p.payload 1) 1) (u16 p.payload 2) s } }

/-- The 16 bytes of one drive (R494). -/
def driveStatus (s : State) (n : Nat) : List Byte :=
  let d := s.drive n
  le 1 d.state ++ le 1 (flagAt d.required 0 + flagAt (d.required && d.state == 6) 1 + flagAt s.cool.hvGood 2 + flagAt d.dutyLim 3 + flagAt d.wear 4) ++
  le 2 d.speed ++ le 2 d.target ++ le 2 d.duty ++ le 2 d.current ++ le 1 (triesIn (s.time + 1) d.tries).length ++ le 1 d.cause ++ zeros 4

def specCoolStatus : CmdSpec :=
  { opcode := 0x0D02, lenOk := len 0, run := fun _ s => { st := s, data := driveStatus s 0 ++ driveStatus s 1 } }

def specCoolHealth : CmdSpec :=
  { opcode := 0x0D03, lenOk := len 4
    checks := fun _ p => [inB p.payload 0 0 1, maskB p.payload 1 1]
    run := fun p s =>
      let n := u8 p.payload 0
      let s := if bit (u8 p.payload 1) 0 then s.modDrive n fun d => { d with baseline := 0, blHours := 0, blSum := 0, blN := 0, refSum := 0, refN := 0, refNs := 0, wear := false } else s
      let s := if u16 p.payload 2 = 0 then s else s.modDrive n fun d => { d with refSpeed := u16 p.payload 2 }
      let d := s.drive n
      { st := s, data := ((List.range 6).flatMap fun i => le 4 (d.counters.getD i 0)) ++ le 2 d.baseline ++ le 2 d.hourly ++ le 2 d.refSpeed ++ zeros 2 } }

def execCoolConfig (p : Packet) (s : State) : Res := runCommand specCoolConfig p s
def execCoolRun (p : Packet) (s : State) : Res := runCommand specCoolRun p s
def execCoolStatus (p : Packet) (s : State) : Res := runCommand specCoolStatus p s
def execCoolHealth (p : Packet) (s : State) : Res := runCommand specCoolHealth p s

end Sys2Proof.Machine
end

