-- ==== Sys2Proof/Machine/Protection.lean ====
section
/-! DEFINITION. Fault inputs, comparators, window monitors, protection groups and the comparator self-test (spec/13_protection.md R368 to
R399). -/

namespace Sys2Proof.Machine

/-- The protection group of state changed. -/
def State.modProt (f : Prot → Prot) (s : State) : State := { s with prot := f s.prot }
/-- Fault input n. -/
def State.flt (s : State) (n : Nat) : Flt := s.prot.flts.getD n Flt.reset
/-- Fault input n changed. -/
def State.modFlt (n : Nat) (f : Flt → Flt) (s : State) : State := s.modProt fun p => { p with flts := upd p.flts n f }
/-- Monitor m. -/
def State.mon (s : State) (m : Nat) : Mon := s.prot.mons.getD m Mon.reset
/-- Monitor m changed. -/
def State.modMon (m : Nat) (f : Mon → Mon) (s : State) : State := s.modProt fun p => { p with mons := upd p.mons m f }

/-! ### Comparators: threshold, blanking, latch (R372 to R376) -/

/-- A comparator's action in force: over an FLT input it trips the group that holds the leg (R377). -/
def State.cmpGroup (s : State) (c : Cmp) : Option Nat := if c.input = 2 then s.groupOf c.index else some c.group

/-- Comparator n has its input (R371, R392): one over FLT only while PROT_FLT_CONFIG names it there, and none while its cell is on the check DAC. -/
def State.fed (s : State) (n : Nat) : Bool :=
  let c := s.cmp n
  c.cell.isSome && !c.underTest && (c.input != 2 || (s.flt c.index).cmp == n)

/-- The SOURCE of a comparator's trips (R399). -/
def Cmp.source (c : Cmp) (n : Nat) : Nat := if c.input = 2 then c.index else 0x100 + n

/-- The main threshold code at time t: the base code in force less the ramp since the load event of its leg, every 10 ns, whole codes down to 0
(R375). -/
def State.thrNow (s : State) (t n : Nat) : Nat :=
  let c := s.cmp n
  if c.rampLeg < 48 ∧ !c.under then
    let dt := (t - (s.leg c.rampLeg).loadAt) / 10 * 10
    (c.inForce * 15000000 - c.slope * dt * 1024) / 15000000
  else c.inForce

/-- The latest turn-on edge of an output of a leg up to time t. -/
def Leg.turnedOn (d : D6Clock) (t : Nat) (h : Bool) (l : Leg) : Nat := l.lastOn d h (l.done d t)

/-- A selected edge of the blanking leg lies less than BLANK_NS before t (R374). -/
def State.blanked (s : State) (t n : Nat) : Bool :=
  let c := s.cmp n
  if c.blankLeg < 48 then
    let l := s.leg c.blankLeg
    let near (a : Nat) : Bool := decide (0 < a) && decide (a ≤ t) && decide (t < a + 2 * c.blankNs)
    (bit c.blankEdges 0 && near (l.turnedOn s.pwm.d6 t true)) || (bit c.blankEdges 1 && near (l.turnedOn s.pwm.d6 t false))
  else false

/-- A blanking window has masked comparator n since it asserted (R374): a main cell still asserted when the window ended asserts anew. -/
def State.maskedSince (s : State) (t n : Nat) : Bool :=
  let c := s.cmp n
  if c.blankLeg < 48 ∧ 0 < c.blankNs then
    let l := s.leg c.blankLeg
    let after (a : Nat) : Bool := decide (c.mainAt < a) && decide (a ≤ t)
    (bit c.blankEdges 0 && after (l.turnedOn s.pwm.d6 t true)) || (bit c.blankEdges 1 && after (l.turnedOn s.pwm.d6 t false))
  else false

/-- The threshold code of a full-scale leg duty in current mode (R322): its upper 10 bits, 0 for negative values. -/
def curCode (v : Int) : Nat := if v < 0 then 0 else v.toNat / 32

/-- A load event of a leg reaches the comparators (R375, R376, R377, R322): the threshold of those whose ramp leg it is is renewed, held outputs of
latch mode 1 end, and the comparator of a current-mode leg takes its duty. -/
def cmpLoad (leg : Nat) (s : State) : State :=
  let l := s.leg leg
  let step (n : Nat) (c : Cmp) : Cmp :=
    let c := if c.rampLeg = leg ∧ c.action ≠ 3 then { c with inForce := c.code } else c
    let c := if l.hasCfg ∧ l.lmode ≠ 0 ∧ l.cmp = n then { c with inForce := curCode (if l.state = 4 then min l.acDuty.toInt l.testCeil.toInt else l.acDuty.toInt) } else c
    if c.latch = 1 ∧ (c.rampLeg = leg ∨ (48 ≤ c.rampLeg ∧ c.blankLeg = leg)) then { c with main := c.live } else c
  s.modProt fun p => { p with cmps := (List.range 52).map fun n => step n (p.cmps.getD n Cmp.reset) }

/-- The input is at or above the threshold, as the main cell shows it (R372). -/
def Cmp.above (c : Cmp) : Bool := c.main != c.under

/-- The comparator of a current-mode leg shows the edge it waits for (R322). -/
def curEdge (t leg : Nat) (s : State) : State := s.modLeg leg (Leg.curTrip s.pwm.d6 t)

/-- The leg that a comparator serves in current mode. -/
def State.curLeg (s : State) (n : Nat) : Option Nat :=
  (List.range 48).find? fun k => (s.leg k).hasCfg && (s.leg k).lmode != 0 && (s.leg k).cmp == n

/-- Comparator n, of action 3, has changed to what its current-mode leg waits for: above the threshold in peak mode, below it in valley mode. -/
def curChange (t n : Nat) (s : State) : State :=
  match s.curLeg n with
  | some k => if ((s.leg k).lmode == 1) == (s.cmp n).above then curEdge t k s else s
  | none => s

/-- An action-2 comparator posts CMP_EVENT at most once in 1 ms (R377). -/
def cmpEvent (t n : Nat) (s : State) : State :=
  let c := s.cmp n
  let go := (s.modCmp n fun c => { c with evtAt := some t }).post t (ev 0x0935 n (le 2 (s.thrNow t n)))
  match c.evtAt with
  | some a => if t < a + 1000000 then s else go
  | none => go

/-- A main cell asserts past deglitch and blanking (R372, R373, R377); a masked assertion is none, and an output still
held asserts no second time (R376). -/
def execComparatorAsserted (t n : Nat) (s : State) : Res :=
  let s := s.advance t
  let c := s.cmp n
  within n 52 (if s.d7Off || !s.fed n || (c.live && !s.maskedSince t n) || s.blanked t n then s
    else if c.main && !(c.live && c.latch == 0) then s.modCmp n fun c => { c with live := true, ready := false }
    else
      let s := s.modCmp n fun c => { c with live := true, main := true, ready := false, mainAt := t }
      if c.action = 1 then
        match s.cmpGroup c with
        | some g => tripGroup t g (c.source n) 2 (s.thrNow t n) s
        | none => s
      else if c.action = 2 then cmpEvent t n s
      else if c.action = 3 then curChange t n s
      else s)

/-- A main cell releases (R55, R372, R376): a transparent output follows; the input is ready. -/
def execComparatorReleased (t n : Nat) (s : State) : Res :=
  let s := s.advance t
  let c := s.cmp n
  within n 52 (if s.d7Off || !s.fed n then s
    else
      let s := s.modCmp n fun c => { c with live := false, ready := true, main := c.main && c.latch != 0 && c.mainAt != 0 }
      legsUpdate t (if c.action = 3 then curChange t n s else s))

/-- A hard cell asserts (R372, R376): over polarity with action 1 only; held until the group's next retry or release. -/
def execHardCellAsserted (t n : Nat) (s : State) : Res :=
  let s := s.advance t
  let c := s.cmp n
  within n 52 (if s.d7Off || !s.fed n || c.under || c.action != 1 || c.hard then s
    else
      let s := s.modCmp n fun c => { c with hard := true }
      match s.cmpGroup c with
      | some g => tripGroup t g (c.source n) 3 (min (2 * c.inForce) 1023) s
      | none => s)

/-! ### Digital FLT inputs (R368) -/

/-- A digital FLT input satisfies its filter (R368, R385), again after an inactive sample too: it requests a trip each time. In its start state it trips
nothing (R55). It shows asserted until it has been inactive for 100 µs (notes/assumptions/33.md). -/
def execFltAsserted (t n : Nat) (s : State) : Res :=
  let s := s.advance t
  let f := s.flt n
  within n 48 (if f.kind = 0 ∧ s.domainOn 6 then
      let s := s.modFlt n fun f => { f with asserted := true, ready := false }
      match s.groupOf n with
      | some g => tripGroup t g n 1 0 s
      | none => s
    else s)

/-- A digital FLT input inactive for 100 µs is ready (R55, R368). -/
def execFltReady (t n : Nat) (s : State) : Res :=
  let s := s.advance t
  within n 48 (if (s.flt n).kind = 0 ∧ s.domainOn 6 then legsUpdate t (s.modFlt n fun f => { f with asserted := false, ready := true }) else s)

/-! ### Window monitors (R378, R379) -/

/-- A result read by monitor m (R378): an invalid one holds the count; ready from a value inside the inner limits until one past the outer
limits (R55, R56; notes/assumptions/33.md). -/
def Mon.take (t : Nat) (v : Int) (valid : Bool) (m : Mon) : Mon :=
  if !valid then { m with lastInvalid := true }
  else
    let past := decide (m.tripHi ≤ v) || decide (v < m.tripLo)
    let inside := decide (m.relLo ≤ v) && decide (v < m.relHi)
    { m with
      lastInvalid := false, val := v, past := past, count := if past then min 255 (m.count + 1) else 0
      ready := inside || (m.ready && !past), acted := m.acted && past, insideAt := if inside then some (m.insideAt.getD t) else none }

/-- Comparator n becomes suspect: it is tested at once, ahead of the background order (R379). -/
def suspectCmp (n : Nat) (s : State) : State :=
  let c := s.cmp n
  if n < 52 ∧ c.cell.isSome ∧ !c.suspect then
    ((s.modCmp n fun c => { c with suspect := true }).modProt fun p => { p with testNext := some n }).count (hcCell (c.cell.getD 52) 1)
  else s

/-- A monitor whose count is complete acts (R378). Its partner, neither asserted nor blanked at that moment, becomes suspect (R379). -/
def monActs (t n : Nat) (s : State) : State :=
  let m := s.mon n
  if m.hasCfg && decide (m.n ≤ m.count) && m.past && !m.acted then
    let s := s.modMon n fun m => { m with acted := true }
    let s := if !(s.cmp m.partner).main && !s.blanked t m.partner then suspectCmp m.partner s else s
    if m.action = 1 then tripGroup t m.group (0x200 + n) 4 (wrap 16 m.val) s
    else if m.action = 2 then s.post t (ev 0x0936 n (leI 2 m.val ++ [if m.tripHi ≤ m.val then 1 else 0]))
    else s
  else s

/-- A delivered result reaches the monitors that read it, and one whose count it completes acts (R378): hk false for output `out` of AIN
`input`. -/
def monResult (t : Nat) (hk : Bool) (input out : Nat) (v : Int) (valid : Bool) (s : State) : State :=
  let reads (m : Mon) : Bool := m.hasCfg && m.hk == hk && m.input == input && (hk || m.out == out)
  if s.prot.mons.any reads then
    let mons := s.prot.mons.map fun m => if reads m then m.take t v valid else m
    let moved := (List.range 32).any fun i => (mons.getD i Mon.reset).ready != (s.mon i).ready
    let s := s.modProt fun p => { p with mons := mons }
    let s := (List.range 32).foldl (fun s i => if reads (s.mon i) then monActs t i s else s) s
    if moved then legsUpdate t s else s
  else s

/-- A monitor whose count is complete acts (R378). -/
def execMonitorActs (t n : Nat) (s : State) : Res :=
  let s := s.advance t
  within n 32 (inDomain 7 s (monActs t n s))

/-! ### The reaction's further steps, retry and release (R381, R386, R388) -/

/-- The legs of a group that its reaction acts on. -/
def State.reactingLegs (s : State) (g : Nat) : List Nat :=
  (s.pgroup g).legs.filter fun n => let l := s.leg n; l.sto && (l.state == 1 || l.state == 2 || l.state == 4)

/-- T_SOFT1 after a soft reaction began, PWMH goes low, and PWML but on roles 3 and 4 (R381). -/
def execSoftStep (t g : Nat) (s : State) : Res :=
  let s := s.advance t
  let p := s.pgroup g
  within g 8 (if p.state = 1 ∧ p.step1 ∧ p.reactAt + p.tSoft1 * 10 ≤ t then
      ((s.reactingLegs g).foldl (fun s n => s.modLeg n fun l => { l with pwmH := false, pwmL := l.pwmL && (l.role == 3 || l.role == 4) }) s).modPGroup g
        fun p => { p with step1 := false }
    else s)

/-- The last step of a reaction (R381): the clamp switches go low, the legs are Tripped, and the group waits or latches (R386). -/
def execInnerStep (t g : Nat) (s : State) : Res :=
  let s := s.advance t
  let p := s.pgroup g
  within g 8 (if p.state = 1 ∧ !p.step1 ∧ p.reactAt + ((if p.hard then 0 else p.tSoft1) + p.tInner) * 10 ≤ t then
      let s := (s.reactingLegs g).foldl (fun s n => legTo t n 3 1 (s.modLeg n fun l => { l with pwmH := false, pwmL := false })) s
      if p.latchPend then latchGroup t g s else s.modPGroup g fun p => { p with state := 2 }
    else s)

/-- The enabled channels that own a duty or phase of a group's legs are initialised on their next boundary, but for those that their own
reaction stopped (R387). -/
def initOwners (g : Nat) (s : State) : State :=
  (List.range 256).foldl (fun s n =>
    let owns := (List.range 16).any fun i =>
      let w := outSlot s.eng.run n i
      (slotKind w == 1 || slotKind w == 2) && (s.pgroup g).legs.contains (slotIndex w)
    if chEnable s.eng.run n && owns && !(s.chan n).stopped then s.modChan n fun c => { c with pendStart := true, pendReset := true } else s) s

/-- A group armed again: its legs return to Disabled and start again by permission (R329, R386, R388). -/
def armGroup (t g : Nat) (s : State) : State :=
  modeDegraded (legsUpdate t (releaseLegs t g (s.modPGroup g fun p => { p with state := 0, armedAt := t })))

/-- At retry_at a Waiting group is released, counts a try, or latches (R386). -/
def execProtRetry (t g : Nat) (s : State) : Res :=
  let s := s.advance t
  let p := s.pgroup g
  within g 8 (if p.state = 2 ∧ p.retryAt ≤ t then
      let s := clearHeld g s
      if s.sourcesClear g then (armGroup t g (initOwners g s)).post t (ev 0x0931 g [BitVec.ofNat 8 p.tries, 1])
      else if p.retries ≤ p.tries then latchGroup t g s
      else
        (s.modPGroup g fun p => { p with tries := p.tries + 1, retryAt := p.retryAt + p.tRetry * 1000000 }).post t
          (ev 0x0931 g [BitVec.ofNat 8 (p.tries + 1), 0])
    else s)

/-- An Armed group without a trip for RETRY_CLEAR counts from 0 again (R386). -/
def execTriesClear (t g : Nat) (s : State) : Res :=
  let s := s.advance t
  let p := s.pgroup g
  within g 8 (if p.state = 0 ∧ p.armedAt + p.retryClear * 1000000000 ≤ t then s.modPGroup g fun p => { p with tries := 0 } else s)

/-! ### Comparator cells: self-test and splice (R379, R389 to R392) -/

/-- The comparator that a cell carries. -/
def State.cmpOf (s : State) (cell : Nat) : Option Nat := (List.range 52).find? fun n => (s.cmp n).cell == some cell

/-- The lowest healthy cell that carries no mapping, but for one (R370). -/
def State.freeCell (s : State) (but : Nat) : Option Nat :=
  (List.range 52).find? fun k => k != but && s.prot.cellOk.getD k false && (s.cmpOf k).isNone

/-- Healthy cells. -/
def State.healthyCells (s : State) : Nat := (s.prot.cellOk.filter fun b => b).length

/-- Protection is degraded while no free cell remains (R391). -/
def protDegraded (s : State) : State := s.modSys fun y => { y with degradedProt := (s.freeCell 52).isNone }

/-- A cell retired: its supply switch opens 2 ms later (R390). -/
def retireCell (k : Nat) (s : State) : State :=
  protDegraded ((s.modProt fun p => { p with cellOk := p.cellOk.set k false, cellOffAt := p.cellOffAt.set k (s.time + 2000000) }).count (hcCell k 0))

/-- Logical comparator n mapped onto cell k, as the health record names it from now on (R370). -/
def mapCell (n k : Nat) (s : State) : State :=
  (s.modCmp n fun c => { c with cell := some k }).modProt fun p => { p with named := p.named.set n k }

/-- CMP_TEST (R399). -/
def cmpTestEv (n result old new : Nat) : Ev := ev 0x0934 n [BitVec.ofNat 8 result, BitVec.ofNat 8 old, BitVec.ofNat 8 new]

/-- A mapped cell failed (R390): the stand-in keeps its mapping; without a free cell the failure is reported and the cell stays (R399). -/
def failCell (t n k : Nat) (s : State) : State :=
  match s.freeCell k with
  | some f =>
    let s := (retireCell k (mapCell n f s)).post t (cmpTestEv n 1 k f)
    memSpliced t 4 k f 0 (s.healthyCells - 48) s
  | none => (s.count (hcCell k 0)).post t (cmpTestEv n 4 k 255)

/-- The cell that the background test comes to at or after k: healthy, and while no free cell exists unmapped (R389, R391). -/
def State.testFrom (s : State) (k : Nat) : Option Nat :=
  let ok (c : Nat) : Bool := s.prot.cellOk.getD c false && ((s.cmpOf c).isNone || (s.freeCell c).isSome)
  match (List.range 52).find? fun c => decide (k ≤ c) && ok c with
  | some c => some c
  | none => (List.range 52).find? ok

/-- A cell found faulty outside the in-place test: the one of a comparator by `failCell`, one that carries no mapping is retired (R389, R390). -/
def cellFailed (t k : Nat) (s : State) : State :=
  match s.cmpOf k with
  | some n => failCell t n k s
  | none => (retireCell k s).post t (cmpTestEv (Config.freeNat "CMP_TEST source of an unmapped cell" k % 65536) 1 k 255)

/-- The comparator whose cell the background test is at: a suspect one first (R379, R389). -/
def State.testedCmp (s : State) : Option Nat :=
  if s.d7Off || !s.sys.ready then none
  else match s.prot.testNext with
  | some n => some n
  | none => (s.testFrom s.prot.testCell).bind s.cmpOf

/-- A step of the self-test is completed (R379, R389, R390): the test of one cell, a suspect comparator's first, with whether the cell and the
stand-in failed their levels. -/
def execCmpSelfTestStep (t : Nat) (cellBad standBad : Bool) (s : State) : Res :=
  let s := s.advance t
  if s.d7Off then .next s
  else match s.prot.testNext with
  | some n =>
    let k := (s.cmp n).cell.getD 52
    let s := (s.modProt fun p => { p with testNext := none }).modCmp n fun c => { c with suspect := false }
    .next (if cellBad then failCell t n k s else s.post t (cmpTestEv n 3 k 255))
  | none =>
    match s.testFrom s.prot.testCell with
    | none => .next s
    | some k =>
      let wrapd := decide (k < s.prot.testCell) || k == 51
      let s := s.modProt fun p => { p with testCell := (k + 1) % 52, testCycles := if wrapd then (p.testCycles + 1) % 2 ^ 32 else p.testCycles }
      match s.cmpOf k with
      | some n =>
        .next (if cellBad then failCell t n k s
          else if standBad then
            match s.freeCell k with
            | some f => (retireCell f s).post t (cmpTestEv n 2 f 255)
            | none => s
          else s)
      | none => .next (if cellBad then cellFailed t k s else s)

/-- The time from which the main cell of comparator n has been asserted and unblanked without a break (R379): its assertion, or the end of the latest
blanking window of its leg. -/
def State.unmaskedFrom (s : State) (t n : Nat) : Nat :=
  let c := s.cmp n
  let l := s.leg c.blankLeg
  let ends (b h : Bool) : Nat := let a := l.turnedOn s.pwm.d6 t h; if c.blankLeg < 48 ∧ b ∧ 0 < c.blankNs ∧ 0 < a then a + 2 * c.blankNs else 0
  max c.mainAt (max (ends (bit c.blankEdges 0) true) (ends (bit c.blankEdges 1) false))

/-- The partner comparator of monitor n becomes suspect (R379): it has been asserted and unblanked for 1 ms while the monitor's results lie inside the
inner limits. The other case, that the monitor acts while the partner is neither asserted nor blanked, comes with the act itself (`monActs`). -/
def execPartnerSuspect (t n : Nat) (s : State) : Res :=
  let s := s.advance t
  let m := s.mon n
  let c := s.cmp m.partner
  let stuck := c.live && decide (s.unmaskedFrom t m.partner + 1000000 ≤ t) &&
    (match m.insideAt with | some a => decide (a + 1000000 ≤ t) | none => false)
  within n 32 (if !s.d7Off && m.hasCfg && stuck then suspectCmp m.partner s else s)

/-- 2 ms after its retirement a cell's supply switch opens and its health record is written (R390). -/
def execCellPowerOff (t k : Nat) (s : State) : Res :=
  let s := s.advance t
  within k 52 (if !s.prot.cellOk.getD k true ∧ s.prot.cellOn.getD k false ∧ s.prot.cellOffAt.getD k 0 ≤ t then
      (s.modProt fun p => { p with cellOn := p.cellOn.set k false }).commitHealth
    else s)

/-- The hysteresis of a comparator in codes of 1.4648 mV, nearest (R372, R392). -/
def Cmp.hystCodes (c : Cmp) : Nat := match c.hyst with | 0 => 0 | 1 => 3 | 2 => 7 | _ => 14

/-- The verdict of an in-place test (R392) with the codes at which the main cell asserts and releases and the hard cell asserts. Under polarity
releases above its threshold. -/
def Cmp.passes (c : Cmp) (a r h : Nat) : Bool :=
  let near (x y d : Nat) : Bool := decide (x ≤ y + d) && decide (y ≤ x + d)
  near a c.inForce 3 && near r (if c.under then c.inForce + c.hystCodes else c.inForce - c.hystCodes) 3 &&
  (c.under || near h (min (2 * c.inForce) 1023) 6)

/-- An in-place comparator test ends (R392), with the recorded codes of each listed comparator: main assert, main release, hard assert. -/
def execCmpTestComplete (t : Nat) (codes : List (Nat × Nat × Nat)) (s : State) : Res :=
  let s := s.advance t
  let l := s.prot.cmpTest
  .next (if l = [] then s
    else
      let rows := (List.range l.length).map fun i => (l.getD i 0, codes.getD i (0, 0, 0))
      let data := rows.flatMap fun x =>
        let c := s.cmp x.1
        [BitVec.ofNat 8 x.1, if c.passes x.2.1 x.2.2.1 x.2.2.2 then 1 else 0] ++ le 2 x.2.1 ++ le 2 x.2.2.1 ++ le 2 (if c.under then 0xFFFF else x.2.2.2)
      let bad := rows.filter fun x => !(s.cmp x.1).passes x.2.1 x.2.2.1 x.2.2.2
      let s := bad.foldl (fun s x => failCell t x.1 ((s.cmp x.1).cell.getD 52) s) s
      let s := l.foldl (fun s n => s.modCmp n fun c => { c with underTest := false }) s
      let r := s.prot.cmpReply
      let s := s.modProt fun p => { p with cmpTest := [], cmpReply := none }
      match r with | some d => sendReply d.src (d.withData data) s | none => s)

/-! ### Commands of group 0x09xx (R393 to R398) -/

/-- The legs of a 48-bit mask. -/
def maskLegs (v : Nat) : List Nat := (List.range 48).filter fun n => bit v n

def specProtGroupConfig : CmdSpec :=
  { opcode := 0x0900, lenOk := len 20, image := some 0, key := 1
    stateBad := fun s p =>
      ((s.pgroup (u8 p.payload 0)).legs ++ maskLegs (uN 6 p.payload 2)).any fun n => (s.leg n).state != 0
    checks := fun _ p =>
      let pl := p.payload
      [inB pl 0 0 7, maskB pl 1 1, inH pl 8 10 1000, inH pl 10 0 1000, inB pl 12 0 15] ++ resv pl 13 1 ++ [inH pl 14 1 65535, inH pl 16 1 65535] ++
      resv pl 18 2
    conflictBad := fun s p =>
      (maskLegs (uN 6 p.payload 2)).any fun n => (List.range 8).any fun g => g != u8 p.payload 0 && (s.pgroup g).legs.contains n
    run := fun p s =>
      let pl := p.payload
      { st := legsUpdate s.time (s.modPGroup (u8 pl 0) fun g => { g with
          hard := bit (u8 pl 1) 0, legs := maskLegs (uN 6 pl 2), tSoft1 := u16 pl 8, tInner := u16 pl 10, retries := u8 pl 12
          tRetry := u16 pl 14, retryClear := u16 pl 16 }) } }

def specProtFltConfig : CmdSpec :=
  { opcode := 0x0901, lenOk := len 8, image := some 0, key := 1
    stateBad := fun s p => (s.leg (u8 p.payload 0)).state != 0
    checks := fun _ p =>
      let pl := p.payload
      let k := u8 pl 1
      let an := k == 1 || k == 2
      [inB pl 0 0 47, inB pl 1 0 3, maskB pl 2 1, (3, k == 0 || u8 pl 3 == 0), (4, if an then decide (u8 pl 4 ≤ 51) else u8 pl 4 == 255),
       (5, if an then decide (u8 pl 5 ≤ 7) else u8 pl 5 == 0), (6, if k = 2 then decide (u8 pl 6 ≤ 3) else u8 pl 6 == 0)] ++ resv pl 7 1
    conflictBad := fun s p =>
      let n := u8 p.payload 0
      let c := u8 p.payload 4
      c < 52 && ((s.cmp c).input == 1 || ((s.cmp c).input == 2 && (s.cmp c).index != n) ||
        (List.range 48).any fun k => k != n && (s.flt k).cmp == c)
    run := fun p s =>
      let pl := p.payload
      { st := legsUpdate s.time (s.modFlt (u8 pl 0) fun _ =>
          { kind := u8 pl 1, high := bit (u8 pl 2) 0, filter := u8 pl 3, cmp := u8 pl 4, ground := u8 pl 5, burden := u8 pl 6
            asserted := true, ready := false }) } }

/-- A comparator's configuration as in a payload (R396). In current mode the action and the threshold in force stay with the leg (R322). -/
def cmpCfgOf (pl : List Byte) (c : Cmp) : Cmp :=
  { c with
    input := bits (u8 pl 1) 1 0, under := bit (u8 pl 1) 2, latch := bits (u8 pl 1) 4 3
    action := if c.action = 3 then 3 else bits (u8 pl 1) 6 5
    index := u8 pl 2, ground := u8 pl 3, code := u16 pl 4, hyst := bits (u8 pl 6) 1 0, deglitch := bits (u8 pl 6) 6 2, group := u8 pl 7
    blankLeg := u8 pl 8, blankEdges := u8 pl 9, blankNs := u16 pl 10, rampLeg := u8 pl 12, slope := u16 pl 14 }

/-- The range checks of PROT_CMP_CONFIG (R375, R376, R396). -/
def cmpChecks (s : State) (pl : List Byte) : List Check :=
  let i := bits (u8 pl 1) 1 0
  let act := bits (u8 pl 1) 6 5
  let lat := bits (u8 pl 1) 4 3
  let fltIn := i == 2
  let blank := u8 pl 8
  let ramp := u8 pl 12
  let f := s.flt (u8 pl 2)
  [inB pl 0 0 51,
   (1, i != 3 && !bit (u8 pl 1) 7 && decide (lat ≤ 2) && decide (act ≤ 2) && (!fltIn || act == 1) && (lat != 1 || decide (blank < 48) || decide (ramp < 48))),
   (2, decide (u8 pl 2 < 48) && (!fltIn || (f.cmp == u8 pl 0 && (f.kind == 1 || f.kind == 2)))),
   (3, decide (u8 pl 3 ≤ 7) && (!fltIn || u8 pl 3 == f.ground)), inH pl 4 0 1023, maskB pl 6 0x7F,
   (7, decide (u8 pl 7 ≤ 7) && (act == 1 || u8 pl 7 == 0)), (8, blank == 255 || decide (blank < 48)),
   (9, if blank = 255 then u8 pl 9 == 0 else decide (1 ≤ u8 pl 9) && decide (u8 pl 9 ≤ 3)), inH pl 10 0 2047,
   (12, ramp == 255 || decide (ramp < 48))] ++ resv pl 13 1 ++
  [(14, decide (u16 pl 14 ≤ 4095) && (!bit (u8 pl 1) 2 || u16 pl 14 == 0))] ++ resv pl 16 4

/-- The legs that a comparator serves (R393): of its FLT input, of its group, or in current mode. -/
def State.cmpServes (s : State) (n : Nat) : List Nat :=
  let c := s.cmp n
  if c.cell.isNone then []
  else
    (if c.input = 2 then [c.index] else []) ++
    (if c.action = 1 then (match s.cmpGroup c with | some g => (s.pgroup g).legs | none => []) else []) ++ (s.curLeg n).toList

/-- Two configurations that differ in threshold, hysteresis and slope only (R393). -/
def Cmp.sameBut (a b : Cmp) : Bool := { a with code := 0, hyst := 0, slope := 0 } == { b with code := 0, hyst := 0, slope := 0 }

/-- The configured comparators. -/
def State.cmpCount (s : State) : Nat := (s.prot.cmps.filter fun c => c.cell.isSome).length

/-- The cell for a logical comparator (R370): the one it has; else the one that the health record names, that of its own number before any splice, where
it is free; else the lowest free one. -/
def State.cellFor (s : State) (n : Nat) : Option Nat :=
  match (s.cmp n).cell with
  | some k => some k
  | none =>
    let k := s.prot.named.getD n 52
    if s.prot.cellOk.getD k false && (s.cmpOf k).isNone then some k else s.freeCell 52

/-- A comparator that is configured anew, or switched off, is no longer the suspect that the cell self-test takes next (R384). -/
def dropTest (n : Nat) (s : State) : State :=
  s.modProt fun q => { q with testNext := if q.testNext = some n then none else q.testNext }

def specProtCmpConfig : CmdSpec :=
  { opcode := 0x0902, lenOk := len 20, image := some 0, key := 1
    stateBad := fun s p =>
      let n := u8 p.payload 0
      let c := s.cmp n
      !c.sameBut (cmpCfgOf p.payload c) && (s.cmpServes n).any fun k => (s.leg k).state != 0
    checks := fun s p => cmpChecks s p.payload
    conflictBad := fun s p =>
      let pl := p.payload
      let n := u8 pl 0
      let i := bits (u8 pl 1) 1 0
      (i == 1 && decide (2 ≤ ((List.range 52).filter fun k => k != n && (s.cmp k).input == 1 && (s.cmp k).index == u8 pl 2).length)) ||
      (bits (u8 pl 1) 6 5 == 1 && (s.cmp n).action == 3) ||
      (i == 2 && s.groupOf (u8 pl 2) != some (u8 pl 7))
    busyBad := fun s p =>
      bits (u8 p.payload 1) 1 0 != 0 && (s.cmp (u8 p.payload 0)).cell.isNone && decide (min 48 s.healthyCells ≤ s.cmpCount)
    run := fun p s =>
      let pl := p.payload
      let n := u8 pl 0
      let c := s.cmp n
      let d := cmpCfgOf pl c
      let kept := if d.action = 3 then d.inForce else d.code
      let st :=
        if d.input = 0 then (dropTest n s).modCmp n fun c => { Cmp.reset with action := if c.action = 3 then 3 else 0 }
        else if c.cell.isSome && c.sameBut d then
          s.modCmp n fun _ => { d with inForce := if d.rampLeg < 48 then c.inForce else kept, main := if c.action = 2 then c.live else c.main }
        else
          let cell := s.cellFor n
          (dropTest n (match cell with | some k => mapCell n k s | none => s)).modCmp n fun _ =>
            { d with inForce := kept, cell := cell, main := true, live := true, hard := false, ready := false, suspect := false, evtAt := none
                     mainAt := 0 }
      { st := legsUpdate s.time (protDegraded st) } }

/-- A monitor's configuration as in a payload (R397). -/
def monCfgOf (pl : List Byte) (m : Mon) : Mon :=
  { m with
    hasCfg := true, action := bits (u8 pl 1) 1 0, hk := bit (u8 pl 1) 2, input := u8 pl 2, out := u8 pl 3, tripLo := s16 pl 4
    relLo := s16 pl 6, relHi := s16 pl 8, tripHi := s16 pl 10, n := u8 pl 12, group := u8 pl 13, partner := u8 pl 14 }

/-- Two monitor configurations that differ in their limits only. -/
def Mon.sameBut (a b : Mon) : Bool :=
  { a with tripLo := 0, relLo := 0, relHi := 0, tripHi := 0 } == { b with tripLo := 0, relLo := 0, relHi := 0, tripHi := 0 }

def specProtMonConfig : CmdSpec :=
  { opcode := 0x0903, lenOk := len 16, image := some 0, key := 1
    stateBad := fun s p =>
      let m := s.mon (u8 p.payload 0)
      m.hasCfg && !m.sameBut (monCfgOf p.payload m) && m.action == 1 && (s.pgroup m.group).legs.any fun k => (s.leg k).state != 0
    checks := fun s p =>
      let pl := p.payload
      let hk := bit (u8 pl 1) 2
      [inB pl 0 0 31, (1, bits (u8 pl 1) 1 0 != 3 && u8 pl 1 / 8 == 0), (2, decide (u8 pl 2 < (if hk then 64 else 24))),
       (3, if hk then u8 pl 3 == 0 else decide (u8 pl 3 ≤ 3)), (6, decide (s16 pl 4 ≤ s16 pl 6)), (8, decide (s16 pl 6 < s16 pl 8)),
       (10, decide (s16 pl 8 ≤ s16 pl 10)), inB pl 12 1 255, (13, decide (u8 pl 13 ≤ 7) && (bits (u8 pl 1) 1 0 == 1 || u8 pl 13 == 0)),
       (14, u8 pl 14 == 255 || (decide (u8 pl 14 < 52) && (s.cmp (u8 pl 14)).cell.isSome))] ++ resv pl 15 1
    run := fun p s =>
      let n := u8 p.payload 0
      let m := s.mon n
      let d := monCfgOf p.payload m
      { st := legsUpdate s.time (s.modMon n fun _ =>
          if m.hasCfg && m.sameBut d then d
          else { d with count := 0, past := false, ready := false, lastInvalid := false, acted := false, insideAt := none }) } }

/-- PROT_RELEASE is answered E_STATE (R388): Reacting; a source asserted or not ready, held outputs cleared first; the chopper's group while V_dc is
at or above DCL_OV1, or has not been below DCL_REL since the reset. -/
def releaseState (s : State) (g : Nat) : Bool :=
  (s.pgroup g).state == 1 || !(clearHeld g s).sourcesClear g ||
  ((s.pgroup g).legs.contains s.ports.chopper && s.dclOver)

def specProtRelease : CmdSpec :=
  { opcode := 0x0904, lenOk := len 4
    stateBad := fun s p => decide (u8 p.payload 0 < 8) && releaseState s (u8 p.payload 0)
    checks := fun _ p => [inB p.payload 0 0 7] ++ resv p.payload 1 3
    run := fun p s =>
      let g := u8 p.payload 0
      let was := (s.pgroup g).state
      let s := (clearHeld g s).modPGroup g fun q => { q with tries := 0, latchPend := false }
      let s := s.post s.time (ev 0x0933 g [BitVec.ofNat 8 was])
      { st := armGroup s.time g s } }

def specProtTrip : CmdSpec :=
  { opcode := 0x0905, lenOk := len 4
    checks := fun _ p => [(0, decide (u8 p.payload 0 < 8) || u8 p.payload 0 == 255)] ++ resv p.payload 1 3
    run := fun p s =>
      let g := u8 p.payload 0
      { st := if g = 255 then tripAll s.time 0xFF00 10 0 s else tripGroup s.time g 0xFF00 10 0 s } }

def specProtCmpTest : CmdSpec :=
  { opcode := 0x0906, dryData := fun p => some (zeros (8 * u8 p.payload 0))
    lenOk := fun pl => 5 ≤ pl.length && pl.length ≤ 56 && pl.length == 4 + u8 pl 0
    modeBad := fun s _ => !s.quiet
    busyBad := fun s _ => s.prot.cmpTest != []
    checks := fun s p =>
      [inB p.payload 0 1 52] ++ resv p.payload 1 3 ++ (List.range (u8 p.payload 0)).map fun i =>
        let n := u8 p.payload (4 + i)
        (4 + i, decide (n < 52) && (s.cmp n).cell.isSome)
    run := fun p s =>
      let l := (List.range (u8 p.payload 0)).map fun i => u8 p.payload (4 + i)
      { st := l.foldl (fun s n => s.modCmp n fun c => { c with underTest := true }) s
        keep := some fun d s => s.modProt fun q => { q with cmpTest := l, cmpReply := some d } } }

/-- The 456 bytes of PROT_STATUS (R398). -/
def protStatus (s : State) : List Byte :=
  ((List.range 8).flatMap fun g =>
    let p := s.pgroup g
    le 1 p.state ++ le 1 p.tries ++ le 1 p.lastCause ++ zeros 1 ++ le 2 p.lastSource ++ zeros 2) ++
  ((List.range 48).flatMap fun n =>
    let f := s.flt n
    let c := s.cmp f.cmp
    let an := f.kind == 1 || f.kind == 2
    le 1 (f.kind + flagAt (if an then c.main || c.hard else f.asserted) 2 + flagAt (if an then c.ready else f.ready) 3)) ++
  ((List.range 52).flatMap fun n =>
    let c := s.cmp n
    le 1 (c.cell.getD 255) ++
    le 1 (flagAt c.main 0 + flagAt c.hard 1 + flagAt c.ready 2 + flagAt (s.blanked s.time n) 3 + flagAt (c.underTest || s.testedCmp == some n) 4 + flagAt c.suspect 5 +
      flagAt (c.action == 3) 6) ++ le 2 (s.thrNow s.time n)) ++
  ((List.range 32).flatMap fun i =>
    let m := s.mon i
    le 1 (flagAt m.hasCfg 0 + flagAt m.past 1 + flagAt m.ready 2 + flagAt m.lastInvalid 3) ++ le 1 m.count ++ leI 2 m.val) ++
  le 1 s.healthyCells ++ le 1 (s.healthyCells - 48) ++ le 1 (flagAt s.sys.degradedProt 0) ++ zeros 1 ++ le 4 s.prot.testCycles

def specProtStatus : CmdSpec :=
  { opcode := 0x0907, lenOk := len 0, run := fun _ s => { st := s, data := protStatus s } }

def execProtGroupConfig (p : Packet) (s : State) : Res := runCommand specProtGroupConfig p s
def execProtFltConfig (p : Packet) (s : State) : Res := runCommand specProtFltConfig p s
def execProtCmpConfig (p : Packet) (s : State) : Res := runCommand specProtCmpConfig p s
def execProtMonConfig (p : Packet) (s : State) : Res := runCommand specProtMonConfig p s
def execProtRelease (p : Packet) (s : State) : Res := runCommand specProtRelease p s
def execProtTrip (p : Packet) (s : State) : Res := runCommand specProtTrip p s
def execProtCmpTest (p : Packet) (s : State) : Res := runCommand specProtCmpTest p s
def execProtStatus (p : Packet) (s : State) : Res := runCommand specProtStatus p s

end Sys2Proof.Machine
end

