-- ==== Sys2Proof/Machine/Recorder.lean ====
section
/-! DEFINITION. The disturbance recorder: lanes, blocks, triggers, captures, statistics, readout and its commands (spec/14_recorder.md R400 to
R421). What an event does to it is in Ops.lean. -/

namespace Sys2Proof.Machine

/-- The recorder changed. -/
abbrev State.modRec (f : Rec → Rec) (s : State) : State := s.withRec f
/-- Lane l. -/
def State.lane (s : State) (l : Nat) : Lane := s.recorder.lanes.getD l Lane.reset
/-- Lane l changed. -/
def State.modLane (l : Nat) (f : Lane → Lane) (s : State) : State := s.modRec fun r => { r with lanes := upd r.lanes l f }
/-- Trigger unit u. -/
def State.trig (s : State) (u : Nat) : Trig := s.recorder.trigs.getD u Trig.reset
/-- Trigger unit u changed. -/
def State.modTrig (u : Nat) (f : Trig → Trig) (s : State) : State := s.modRec fun r => { r with trigs := upd r.trigs u f }

/-! ### Words, blocks and their rooms (R401 to R404, R410) -/

/-- A recorder word (R401). -/
def recWord (v : Int) (clip valid : Bool) : BitVec 16 :=
  let q : Int := if 0x7FFC < v + 2 then 0x7FFC else (v + 2) / 4 * 4
  BitVec.ofNat 16 (wrap 16 q + flagAt clip 1 + flagAt valid 0)

/-- A block as it is read out (R404). -/
def Block.image (b : Block) : List Byte :=
  leI 8 b.first ++ le 4 b.interval ++ le 2 b.words.length ++ le 1 b.lane ++ le 1 (flagAt b.overflow 0 + flagAt b.trig 1 + flagAt b.trunc 2) ++
  b.words.flatMap fun w => le 2 w.toNat

/-! ### Readout records and the stream (R417, R418) -/

/-- A readout record (R417). -/
def readRecord (cap recNo kind flags : Nat) (tTrig : Int) (payload : List Byte) : List Byte :=
  le 2 cap ++ le 2 recNo ++ le 1 kind ++ le 1 flags ++ le 2 payload.length ++ leI 8 tTrig ++ zeros 16 ++ payload

/-- A stream block sent as it closes (R418); a full ring stops the stream, or the block is dropped and the next one carries the mark. -/
def streamBlock (t : Nat) (b : Block) (s : State) : State :=
  let n := s.recorder.streamRing
  let r := s.ring n
  let out := readRecord 0xFFFF 0 5 (flagAt r.overrun 1) 0 { b with overflow := b.overflow || r.overrun }.image
  if r.configured && !r.full then ((s.modRing n fun r => { r.push out with overrun := false })).setRingInt n
  else if s.recorder.stopOvf then
    let s := s.modRec fun r => { r with state := 4, ovfPosted := true }
    s.post t (ev 0x0A32 0 [1])
  else s.modRing n (Ring.lose s.sys.ready)

/-- A closed block put where it belongs: to the stream, to the capture in progress, or to the pre-trigger history, of which PRE and 1 ms more
are kept (R407, R408). -/
def closeBlock (t : Nat) (b : Block) (s : State) : State :=
  let l := s.lane b.lane
  let r := s.recorder
  if r.stream then (if l.stream && r.state == 1 then streamBlock t b s else s)
  else if !l.cap then s
  else if r.state = 2 then s.modRec fun r => { r with cur := r.cur.map fun c => { c with blocks := c.blocks ++ [b] } }
  else if r.state = 1 then
    let keep : Int := b.first - (r.pre * 1000 + 1000000 : Nat)
    s.modRec fun r => { r with history := (r.history.filter fun h => h.endsAfter keep) ++ [b] }
  else s

/-- The open block of a lane closed, if it has one. -/
def closeLane (t l : Nat) (s : State) : State :=
  match s.recorder.opn.find? fun b => b.lane == l with
  | some b => closeBlock t b (s.modRec fun r => { r with opn := r.opn.filter fun b => b.lane != l })
  | none => s

/-- A word taken into the lane's block (R404): the block closes at 128 words, where an interval differs from the one before it by more than 1 ns, and where
first stamp + i × interval would be more than 1 ns off. -/
def blockWord (t l : Nat) (c : Int) (w : BitVec 16) (s : State) : State :=
  let fresh : Block := { lane := l, first := c, interval := 0, words := [w], overflow := false, trig := false, trunc := false, prevAt := c, prevIv := 0 }
  match s.recorder.opn.find? fun b => b.lane == l with
  | none => s.modRec fun r => { r with opn := r.opn ++ [fresh] }
  | some b =>
    let now := c - b.prevAt
    let iv : Int := if b.words.length = 1 then now else b.interval
    let off := c - (b.first + iv * b.words.length)
    let same := b.words.length = 1 || decide ((now - b.prevIv).natAbs ≤ 1)
    if off.natAbs ≤ 1 ∧ same ∧ 0 ≤ now then
      let b := { b with interval := iv.toNat, words := b.words ++ [w], prevAt := c, prevIv := now.toNat }
      let s := s.modRec fun r => { r with opn := (r.opn.filter fun b => b.lane != l) ++ [b] }
      if 128 ≤ b.words.length then closeLane t l s else s
    else (closeLane t l s).modRec fun r => { r with opn := r.opn ++ [fresh] }

/-! ### Triggers of types 1 to 3 (R405, R406) -/

/-- The instant at which a line through two values crosses a level, to 1 ns (R406); with a gap between them, the later stamp. -/
def crossAt (gap : Bool) (t0 : Int) (v0 : Int) (t1 : Int) (v1 : Int) (level : Int) : Int :=
  if gap ∨ v1 = v0 then t1
  else t0 + (2 * (level - v0) * (t1 - t0) + (v1 - v0).natAbs * (if v0 < v1 then 1 else -1)) / (2 * (v1 - v0))

/-- A valid value of its lane reaches a trigger unit: the unit, and the stamp with which it fires. -/
def Trig.take (l : Lane) (c v : Int) (u : Trig) : Trig × Option Int :=
  match u.typ, l.last with
  | 1, some p =>
    let rise := decide (p < u.hi) && decide (u.hi ≤ v) && bit u.dir 0
    let fall := decide (u.hi ≤ p) && decide (v < u.hi) && bit u.dir 1
    let back := (bit u.dir 0 && decide (v < u.hi - u.lo)) || (bit u.dir 1 && decide (u.hi + u.lo ≤ v))
    if u.armed && (rise || fall) then ({ u with armed := false }, some (crossAt l.gap l.lastAt p c v u.hi))
    else ({ u with armed := u.armed || back }, none)
  | 2, last =>
    let out := decide (u.hi ≤ v) || decide (v < u.lo)
    if out then
      let began := match last with | some p => crossAt l.gap l.lastAt p c v (if u.hi ≤ v then u.hi else u.lo) | none => c
      let u' := { u with count := min 65535 (u.count + 1), runAt := if u.count = 0 then began else u.runAt }
      (u', if u'.count = u.n ∧ u.count < u.n then some u'.runAt else none)
    else ({ u with count := 0 }, none)
  | 3, _ =>
    let sq := (v.natAbs * v.natAbs :: u.squares).take u.n
    let sum := sq.foldl (· + ·) 0
    if sq.length < u.n then ({ u with squares := sq }, none)
    else
      let hi := u.hi.toNat
      let lo := u.lo.toNat
      let above := u.hi != 0x7FFF && decide (u.n * (hi * hi) ≤ sum)
      let under := decide (sum < u.n * (lo * lo))
      let rms := isqrt (sum * 2 ^ 32 / u.n)
      let level : Int := (if above then hi else lo) * 65536
      let at' := match u.prevRms with | some r => crossAt l.gap l.lastAt r c rms level | none => c
      ({ u with squares := sq, met := above || under, prevRms := some rms }, if (above || under) && !u.met then some at' else none)
  | _, _ => (u, none)

/-- The units that watch a lane get its value; those that fire start a capture or mark it (R405, R409). -/
def laneTriggers (l : Nat) (c v : Int) (s : State) : State :=
  (List.range 4).foldl (fun s k =>
    let u := s.trig k
    if 1 ≤ u.typ ∧ u.typ ≤ 3 ∧ u.lane = l then
      let (u, f) := u.take (s.lane l) c v
      let s := s.modTrig k fun _ => u
      match f with
      | some x => recFire k x s
      | none => s
    else s) s

/-! ### Histograms and persistence maps (R415, R416) -/

/-- A 32-bit count in the recorder's SRAM one higher, holding at its limit. -/
def bumpBin (a : Nat) (s : State) : State := s.store a (le 4 (min 0xFFFFFFFF (uN 4 (s.load a 4) 0 + 1)))

/-- A map cell one higher, holding at 65,535. -/
def bumpMapCell (m r c : Nat) (s : State) : State :=
  let a := 0x202C0000 + m * 0x20000 + 512 * r + 2 * c
  s.store a (le 2 (min 65535 (uN 2 (s.load a 2) 0 + 1)))

/-- The row or column of a value. -/
def mapIndex (v : Int) : Nat := (v / 256 + 128).toNat

/-- The X value nearest to a stamp. -/
def nearestX (y : Int) : List (Int × Int) → Option (Int × Int)
  | [] => none
  | x :: r => match nearestX y r with
    | some z => if (x.1 - y).natAbs < (z.1 - y).natAbs then some x else some z
    | none => some x

/-- The Y values of a map that an X value at or after them decides are counted (R416). -/
def pairMap (m : Nat) (s : State) : State :=
  let p := s.recorder.maps.getD m PMap.reset
  match p.xs.head? with
  | none => s
  | some newest =>
    let ready := p.ys.filter fun y => decide (y.1 ≤ newest.1)
    let s := ready.foldl (fun s y => match nearestX y.1 p.xs with | some x => bumpMapCell m (mapIndex y.2) (mapIndex x.2) s | none => s) s
    let keep := match ready.getLast? with
      | some y => p.xs.takeWhile (fun x => decide (y.1 ≤ x.1)) ++ (p.xs.find? fun x => decide (x.1 < y.1)).toList
      | none => p.xs
    s.modRec fun r => { r with maps := upd r.maps m fun p => { p with ys := p.ys.filter fun y => decide (newest.1 < y.1), xs := keep } }

/-- A value of a lane reaches the maps. -/
def laneMaps (l : Nat) (c v : Int) (s : State) : State :=
  (List.range 2).foldl (fun s m =>
    let p := s.recorder.maps.getD m PMap.reset
    if !p.enable then s
    else if p.time then
      let u := s.trig p.laneX
      let d := (c - (u.fired : Int)) * 256
      let span : Int := p.span * 1000
      if p.laneY = l ∧ u.fired ≠ 0 ∧ 0 ≤ d ∧ d < 256 * span then bumpMapCell m (mapIndex v) (d / span).toNat s else s
    else
      let s := if p.laneX = l then s.modRec fun r => { r with maps := upd r.maps m fun p => { p with xs := (c, v) :: p.xs } } else s
      let s := if p.laneY = l then s.modRec fun r => { r with maps := upd r.maps m fun p => { p with ys := p.ys ++ [(c, v)] } } else s
      if p.laneX = l ∨ p.laneY = l then pairMap m s else s) s

/-! ### Samples (R400 to R402) -/

/-- The running skew calibration finds the first crossing of its level on a lane (R419). -/
def skewCross (l : Nat) (c v : Int) (s : State) : State :=
  match s.recorder.skew, (s.lane l).last with
  | some k, some p =>
    let x := s.lane l
    if (k.ref == l || k.lanes.contains l) && x.skewAt.isNone && ((decide (p < k.level) && decide (k.level ≤ v)) || (decide (k.level ≤ p) && decide (v < k.level))) then
      s.modLane l fun x => { x with skewAt := some (crossAt x.gap x.lastAt p c v k.level) }
    else s
  | _, _ => s

/-- A value of a lane with its corrected stamp (R402). -/
def laneValue (t l : Nat) (c v : Int) (valid clip : Bool) (s : State) : State :=
  let x := s.lane l
  let s := if x.cap || x.stream then blockWord t l c (recWord v clip valid) s else s
  let s := if x.hist && valid then bumpBin (0x202B0000 + l * 0x1000 + 4 * (v / 64 + 512).toNat) s else s
  let s := laneMaps l c v s
  if valid then
    let s := skewCross l c v (laneTriggers l c v s)
    s.modLane l fun x => { x with last := some v, lastAt := c, gap := false }
  else s.modLane l fun x => { x with gap := x.last.isSome }

/-- A result delivered to the recorder: kind 1 output `out` of AIN `input`, kind 2 HK `input`, with its aperture stamp and group delay. -/
def recResult (t kind input out stamp delay : Nat) (v : Int) (valid clip : Bool) (s : State) : State :=
  let reads (x : Lane) : Bool := x.kind == kind && x.input == input && (kind == 2 || x.out == out)
  if s.recWorks && s.recorder.lanes.any reads then
    (List.range 16).foldl (fun s l =>
      let x := s.lane l
      if reads x then laneValue t l ((stamp : Int) - delay - x.delay) v valid clip s else s) s
  else s

/-- The group delay of a decimator output, ns (R342). -/
def State.groupDelay (s : State) (d : Decim) : Nat :=
  if d.typ = 1 then (d.d - 1) * 5 else if d.typ = 2 then 3 * (d.d - 1) * 5
  else if d.typ = 3 then let l := s.leg d.leg; loadInterval (s.tb l.tb).inForce l.loads / 16 else 0

/-! ### Slots (R410, R413) -/

/-- Bytes of one capture (R410): n = rate × (PRE + MAX + 1,000 µs) samples a lane, rounded up, and their headers. -/
def State.captureBytes (s : State) (pre maxUs : Nat) : Nat :=
  s.recorder.lanes.foldl (fun a x =>
    if x.cap then
      let q := s.laneRate x
      let n := (q.1 * (pre + maxUs + 1000) + (q.2 * 1000000 - 1)) / (q.2 * 1000000)
      a + 2 * n + 16 * ((n + 127) / 128)
    else a) 0

/-- S (R410). -/
def slotsOf (bytes : Nat) : Nat := if bytes = 0 then 16 else min 16 (1769472 / bytes)

/-- The capture lanes produce at most 4,000,000 bytes per second, headers included (R413). -/
def State.autoRateOk (s : State) : Bool :=
  let q := s.recorder.lanes.foldl (fun q x => if x.cap then Rate.add q (s.laneRate x) else q) (0, 1)
  decide (q.1 * (2 * 128 + 16) ≤ 4000000 * 128 * q.2)

/-! ### The end of a capture (R411) -/

/-- At t_end a capture becomes Complete, and the recorder re-arms or stops (R411). -/
def execRecComplete (t : Nat) (s : State) : Res :=
  let s := s.advance t
  match s.recorder.cur with
  | none => .next s
  | some c =>
    if s.recWorks ∧ s.recorder.state = 2 ∧ c.tEnd ≤ (t : Int) then
      let s := finishCapture t s
      .next (if s.recorder.rep then armRecorder t s else s)
    else .next s

/-- A time trigger fires at T, and then every P ms (R405). -/
def execRecTimeTrigger (t k : Nat) (s : State) : Res :=
  let s := s.advance t
  let u := s.trig k
  within k 4 (if s.recWorks ∧ u.typ = 5 ∧ u.t ≤ t then
      let p := u.periodMs * 1000000
      let x := if p = 0 then u.t else u.t + (t - u.t) / p * p
      if u.fired < x ∨ (u.fired = 0 ∧ x = 0) then recFire k x s else s
    else s)

/-- Every HALF seconds the cells of a map are halved, rounding down (R416). -/
def execPersistenceHalving (t m : Nat) (s : State) : Res :=
  let s := s.advance t
  let p := s.recorder.maps.getD m PMap.reset
  let a := 0x202C0000 + m * 0x20000
  within m 2 (if !s.recWorks ∨ p.half = 0 ∨ t < p.halvedAt + p.half * 1000000000 then s
    else
      let s := s.modRec fun r => { r with maps := upd r.maps m fun p => { p with halvedAt := t } }
      let cells := ((s.mem.sram.filter fun c => decide (a ≤ c.1) && decide (c.1 < a + 0x20000)).map fun c => c.1 / 2 * 2).eraseDups
      cells.foldl (fun s x => s.store x (le 2 (uN 2 (s.load x 2) 0 / 2))) s)

/-! ### Readout (R417) -/

/-- The payload of a capture header: PRE recorded, t_end, the firing unit, the lost counts, and each lane's source, UNIT, full scale and
delay. R417 gives the items and no layout (notes/assumptions/34.md). -/
def captureHeader (c : Capture) : List Byte :=
  let oldest := c.blocks.foldl (fun m b => min m b.first) c.tTrig
  le 4 ((c.tTrig - oldest) / 1000).toNat ++ leI 8 c.tEnd ++ le 1 c.unit ++ zeros 3 ++ le 4 c.lostBefore ++ le 4 c.marksLost ++ c.info

/-- The number of records of a readout. -/
def State.readTotal (s : State) (o : Readout) : Nat :=
  if o.src = 2 then 1 else if o.src = 3 then 256
  else
    let l := if o.src = 0 then s.recorder.done else s.recorder.mram
    match l.find? fun c => c.id == o.cap with | some c => 2 + c.blocks.length | none => 0

/-- Record i of a readout: kind, the capture's flags and t_trig, and payload; one block or map row a record. -/
def State.readAt (s : State) (o : Readout) (i : Nat) : Nat × Nat × Int × List Byte :=
  if o.src = 2 then (3, 0, 0, s.load (0x202B0000 + o.sel * 0x1000) 4096)
  else if o.src = 3 then (4, 0, 0, s.load (0x202C0000 + o.sel * 0x20000 + 512 * i) 512)
  else
    let l := if o.src = 0 then s.recorder.done else s.recorder.mram
    match l.find? fun c => c.id == o.cap with
    | none => (0, 0, 0, [])
    | some c =>
      let f := flagAt c.overflow 1 + flagAt c.trunc 2
      if i = 0 then (0, f, c.tTrig, captureHeader c)
      else if i ≤ c.blocks.length then (1, f, c.tTrig, (c.blocks.getD (i - 1) Block.reset).image)
      else (2, f, c.tTrig, c.marks.flatten ++ c.trigMarks.flatMap (leI 8))

/-- A readout record is produced when a descriptor is free (R417). A capture read out to its end is no more unread. -/
def execReadoutRecord (t n : Nat) (s : State) : Res :=
  let s := s.advance t
  let r := s.ring n
  if n < 24 ∨ 32 ≤ n then .fault .noSuchUnit
  else match s.recorder.readouts.find? fun o => o.ring == n with
  | none => .next s
  | some o =>
    if !s.recWorks || !r.configured || r.full then .next s
    else
      let total := s.readTotal o
      let (kind, fl, tt, pl) := s.readAt o o.atT
      let last := total ≤ o.atT + 1
      let s := (s.modRing n fun r => { r.push (readRecord o.cap o.recNo kind (fl + flagAt last 0 + flagAt r.overrun 1) tt pl) with overrun := false }).setRingInt n
      let rest := s.recorder.readouts.filter fun q => q.ring != n
      if last then
        .next (s.modRec fun r => { r with
          readouts := rest
          done := r.done.map fun c => if o.src = 0 ∧ c.id = o.cap then { c with unread := false } else c })
      else .next (s.modRec fun r => { r with readouts := rest ++ [{ o with recNo := (o.recNo + 1) % 65536, atT := o.atT + 1 }] })

/-! ### Skew calibration (R419) -/

/-- The window of a skew calibration ends: the lane delays are set and the reply is sent, with the reference lane first. A delay lies within ±100,000 ns
(R402); the spec states none for crossings further apart, and a free value stands for it. -/
def execSkewCalComplete (t : Nat) (s : State) : Res :=
  let s := s.advance t
  match s.recorder.skew with
  | none => .next s
  | some k =>
    if t < k.untilT then .next s
    else
      let ref := (s.lane k.ref).skewAt
      let put (l : Nat) (v : Int) : Int := if v.natAbs ≤ 100000 then v else (Config.freeNat "lane delay" (s.freeCtr + l) % 200001 : Nat) - 100000
      let res (l : Nat) : Bool × Int :=
        match ref, (s.lane l).skewAt with
        | some a, some b => (true, put l ((s.lane l).delay + (b - a)))
        | _, _ => (false, (s.lane l).delay)
      let lanes := k.ref :: k.lanes
      let data := (lanes.flatMap fun l => [if (res l).1 then 1 else 0, 0]) ++ lanes.flatMap fun l => leI 4 (res l).2
      let s' := k.lanes.foldl (fun q l => q.modLane l fun x => { x with delay := (res l).2 }) s
      let s' := s'.modRec fun r => { r with skew := none, lanes := r.lanes.map fun x => { x with skewAt := none } }
      .next (sendReply k.reply.src (k.reply.withData data) (s'.drawn 16))

/-! ### Commands of group 0x0Axx (R420) -/

/-- E_STATE of the configuration commands: Armed or Triggered. -/
def State.recBusy (s : State) : Bool := s.recorder.state == 1 || s.recorder.state == 2

/-- A lane as a payload configures it. -/
def laneOf (pl : List Byte) : Lane :=
  { Lane.reset with
    kind := u8 pl 1, input := u8 pl 2, out := u8 pl 3, cap := bit (u8 pl 4) 0, hist := bit (u8 pl 4) 1, stream := bit (u8 pl 4) 2, delay := s32 pl 8 }

def specRecLaneConfig : CmdSpec :=
  { opcode := 0x0A00, lenOk := len 12, image := some 0, key := 1
    modeBad := fun s _ => s.recBusy
    stateBad := fun s p =>
      let k := u8 p.payload 1
      let i := u8 p.payload 2
      (k == 1 && decide (i < 24) && !(s.ain i).enable) || (k == 2 && decide (i < 64) && !(s.hk i).enable)
    checks := fun s p =>
      let pl := p.payload
      let k := u8 pl 1
      let inputOk := k == 0 || decide (u8 pl 2 < (if k = 1 then 24 else 64))
      let outOk := if k = 2 then u8 pl 3 == 0 else decide (u8 pl 3 ≤ 3)
      [inB pl 0 0 15, inB pl 1 0 2, (1, !inputOk || !outOk || s.laneRatesOk (upd s.recorder.lanes (u8 pl 0) fun _ => laneOf pl)),
       (2, inputOk), (3, outOk), maskB pl 4 7] ++ resv pl 5 3 ++
      [(8, decide (-100000 ≤ s32 pl 8) && decide (s32 pl 8 ≤ 100000))]
    run := fun p s =>
      let s := s.modLane (u8 p.payload 0) fun _ => laneOf p.payload
      let b := s.captureBytes s.recorder.pre s.recorder.maxUs
      { st := s.modRec fun r => { r with capBytes := b, slots := slotsOf b, opn := [] } } }

def specRecTriggerConfig : CmdSpec :=
  { opcode := 0x0A01, lenOk := len 24, image := some 0, key := 1
    modeBad := fun s _ => s.recBusy
    stateBad := fun s p =>
      let ty := u8 p.payload 1
      (decide (1 ≤ ty) && decide (ty ≤ 3) && decide (u8 p.payload 2 < 16) && !(s.lane (u8 p.payload 2)).cap)
    checks := fun _ p =>
      let pl := p.payload
      let ty := u8 pl 1
      [inB pl 0 0 3, inB pl 1 0 6, inB pl 2 0 15, (3, u8 pl 3 / 4 == 0 && (ty != 1 || u8 pl 3 != 0)), (8, decide (1 ≤ u16 pl 8))] ++ resv pl 10 2
    run := fun p s =>
      let pl := p.payload
      { st := s.modTrig (u8 pl 0) fun _ => { Trig.reset with
          typ := u8 pl 1, lane := u8 pl 2, dir := u8 pl 3, hi := s16 pl 4, lo := s16 pl 6, n := u16 pl 8, t := u64 pl 12, id := u16 pl 12
          emask := u16 pl 14, periodMs := u32 pl 20 } } }

def specRecCaptureConfig : CmdSpec :=
  { opcode := 0x0A02, lenOk := len 24, image := some 0
    modeBad := fun s _ => s.recBusy
    checks := fun s p =>
      let pl := p.payload
      [(0, u8 pl 0 / 32 == 0 && (!bit (u8 pl 0) 3 || s.autoRateOk)), inB pl 1 24 31] ++ resv pl 2 2 ++
      [inW pl 4 0 1000000, inW pl 8 1 10000000, (12, decide (u32 pl 8 ≤ u32 pl 12) && decide (u32 pl 12 ≤ 10000000) &&
        decide (2 ≤ slotsOf (s.captureBytes (u32 pl 4) (u32 pl 12))))] ++ resv pl 20 4
    run := fun p s =>
      let pl := p.payload
      let b := s.captureBytes (u32 pl 4) (u32 pl 12)
      let f := u8 pl 0
      { st := s.modRec fun r => { r with
          rep := bit f 0, extend := bit f 1, stopOvf := bit f 2, autoCommit := bit f 3, stream := bit f 4, streamRing := u8 pl 1
          pre := u32 pl 4, post := u32 pl 8, maxUs := u32 pl 12, markMask := u32 pl 16, slots := slotsOf b, capBytes := b }
        data := le 1 (slotsOf b) ++ le 3 b } }

def specRecArm : CmdSpec :=
  { opcode := 0x0A03, lenOk := len 4
    modeBad := fun s _ => !s.recorder.lanes.any fun x => x.cap || x.stream
    checks := fun _ p => [inB p.payload 0 0 1] ++ resv p.payload 1 3
    run := fun p s =>
      if u8 p.payload 0 = 1 then
        (if s.recBusy then { st := s }
         else { st := armRecorder s.time (s.modRec fun r => { r with ovfPosted := false, trigs := r.trigs.map fun u => { u with armed := true, count := 0 } }) })
      else { st := s.modRec fun r => { r with state := 0, cur := none, opn := [], history := [], rearm := false, nextFires := [] } } }

/-- The unit that REC_TRIGGER fires: the lowest of type 6 (R405). -/
def State.cmdUnit (s : State) : Nat := ((List.range 4).find? fun k => (s.trig k).typ == 6).getD 0

def specRecTrigger : CmdSpec :=
  { opcode := 0x0A04, lenOk := len 0
    modeBad := fun s _ => s.recorder.state != 1
    dryData := fun _ => some (zeros 8)
    run := fun _ s => { st := recFire s.cmdUnit s.time s, data := le 8 s.time } }

/-- A stored or committed capture by its ID. -/
def State.capture (s : State) (mram : Bool) (id : Nat) : Option Capture :=
  (if mram then s.recorder.mram else s.recorder.done).find? fun c => c.id == id

def specRecRead : CmdSpec :=
  { opcode := 0x0A05, lenOk := len 8
    checks := fun s p =>
      let pl := p.payload
      let src := u8 pl 2
      [(0, decide (2 ≤ src) || (s.capture (src == 1) (u16 pl 0)).isSome), inB pl 2 0 3,
       (3, if src = 2 then decide (u8 pl 3 < 16) else if src = 3 then decide (u8 pl 3 < 2) else true), inB pl 4 24 31] ++ resv pl 5 3
    busyBad := fun s p => s.recorder.readouts.any fun o => o.ring == u8 p.payload 4
    run := fun p s =>
      let pl := p.payload
      let src := u8 pl 2
      { st := s.modRec fun r => { r with
          readouts := r.readouts ++ [{ cap := if 2 ≤ src then 0xFFFF else u16 pl 0, src := src, sel := u8 pl 3, ring := u8 pl 4, recNo := 0, atT := 0 }] } } }

def specRecDelete : CmdSpec :=
  { opcode := 0x0A06, lenOk := len 4
    checks := fun s p => [(0, (s.capture (u8 p.payload 2 == 1) (u16 p.payload 0)).isSome), inB p.payload 2 0 1] ++ resv p.payload 3 1
    busyBad := fun s p =>
      let src := u8 p.payload 2
      (s.recorder.readouts.any fun o => o.src == src && o.cap == u16 p.payload 0) ||
      (match s.capture (src == 1) (u16 p.payload 0) with | some c => c.committing | none => false)
    run := fun p s =>
      let id := u16 p.payload 0
      { st := s.modRec fun r =>
          if u8 p.payload 2 = 1 then { r with mram := r.mram.filter fun c => c.id != id } else { r with done := r.done.filter fun c => c.id != id }
        keep := if u8 p.payload 2 = 1 then durableNow p else none } }

def specRecCommit : CmdSpec :=
  { opcode := 0x0A07, lenOk := len 4
    checks := fun s p => [(0, (s.capture false (u16 p.payload 0)).isSome), maskB p.payload 2 1] ++ resv p.payload 3 1
    busyBad := fun s p => match s.capture false (u16 p.payload 0) with | some c => !s.recorder.roomFor c.bytes | none => false
    run := fun p s =>
      let s := match s.capture false (u16 p.payload 0) with
        | some c => commitCapture s.time { c with protect := bit (u8 p.payload 2) 0 } s
        | none => s
      { st := s, data := le 4 s.recorder.mramFree, keep := durableNow p } }

def specRecMapConfig : CmdSpec :=
  { opcode := 0x0A08, lenOk := len 12, image := some 0, key := 1
    checks := fun _ p =>
      let pl := p.payload
      let time := bit (u8 pl 1) 1
      [inB pl 0 0 1, maskB pl 1 3, inB pl 2 0 15, (3, decide (u8 pl 3 < (if time then 4 else 16))),
       (4, !time || (decide (1 ≤ u32 pl 4) && decide (u32 pl 4 ≤ 1000000)))] ++ resv pl 10 2
    run := fun p s =>
      let pl := p.payload
      { st := s.modRec fun r => { r with maps := upd r.maps (u8 pl 0) fun _ => { PMap.reset with
          enable := bit (u8 pl 1) 0, time := bit (u8 pl 1) 1, laneY := u8 pl 2, laneX := u8 pl 3, span := u32 pl 4, half := u16 pl 8 } } } }

def specRecStatClear : CmdSpec :=
  { opcode := 0x0A09, lenOk := len 4
    checks := fun _ p => [maskB p.payload 0 3] ++ resv p.payload 1 3
    run := fun p s =>
      let b := u8 p.payload 0
      let m := s.mem.sram
      let m := if bit b 0 then Mem.clear m 0x202B0000 0x10000 else m
      let m := if bit b 1 then Mem.clear m 0x202C0000 0x40000 else m
      { st := { s with mem := { s.mem with sram := m } } } }

def specRecSkewCal : CmdSpec :=
  { opcode := 0x0A0A, lenOk := len 24, dryData := fun p => some (zeros (6 * (1 + u8 p.payload 1)))
    modeBad := fun s _ => !s.quiet
    checks := fun _ p =>
      let pl := p.payload
      [inB pl 0 0 15, inB pl 1 1 15, inH pl 4 1 1000] ++ resv pl 6 2 ++ ((List.range 15).map fun i => (8 + i, decide (u8 pl 1 ≤ i) || decide (u8 pl (8 + i) < 16))) ++
      resv pl 23 1
    busyBad := fun s _ => s.recorder.skew.isSome
    run := fun p s =>
      let pl := p.payload
      { st := s
        keep := some fun d s => s.modRec fun r => { r with
          lanes := r.lanes.map fun x => { x with skewAt := none }
          skew := some { ref := u8 pl 0, lanes := (List.range (u8 pl 1)).map fun i => u8 pl (8 + i), level := s16 pl 2
                         untilT := s.time + u16 pl 4 * 1000000, reply := d } } } }

/-- The 32 bytes of REC_STATUS. -/
def recStatus (r : Rec) : List Byte :=
  le 1 r.state ++ le 1 r.slots ++ le 1 r.done.length ++ le 1 (r.done.filter fun c => c.unread).length ++ le 4 r.capsLost ++ le 4 r.trigsLost ++
  le 4 r.lateEvents ++ le 4 r.mramFree ++ le 4 r.nextId ++ leI 8 r.newest

def specRecStatus : CmdSpec :=
  { opcode := 0x0A0B, lenOk := len 0, run := fun _ s => { st := s, data := recStatus s.recorder } }

def execRecLaneConfig (p : Packet) (s : State) : Res := runCommand specRecLaneConfig p s
def execRecTriggerConfig (p : Packet) (s : State) : Res := runCommand specRecTriggerConfig p s
def execRecCaptureConfig (p : Packet) (s : State) : Res := runCommand specRecCaptureConfig p s
def execRecArm (p : Packet) (s : State) : Res := runCommand specRecArm p s
def execRecTrigger (p : Packet) (s : State) : Res := runCommand specRecTrigger p s
def execRecRead (p : Packet) (s : State) : Res := runCommand specRecRead p s
def execRecDelete (p : Packet) (s : State) : Res := runCommand specRecDelete p s
def execRecCommit (p : Packet) (s : State) : Res := runCommand specRecCommit p s
def execRecMapConfig (p : Packet) (s : State) : Res := runCommand specRecMapConfig p s
def execRecStatClear (p : Packet) (s : State) : Res := runCommand specRecStatClear p s
def execRecSkewCal (p : Packet) (s : State) : Res := runCommand specRecSkewCal p s
def execRecStatus (p : Packet) (s : State) : Res := runCommand specRecStatus p s

end Sys2Proof.Machine
end

