-- ==== Sys2Proof/Machine/Modes.lean ====
section
/-! DEFINITION. Operating modes: SYS_MODE, transitions and their ends (spec/04_operating_modes.md), and the faults that are not ridden
through (spec/01_architecture.md R36, R41). -/

namespace Sys2Proof.Machine

/-! ### SYS_MODE (R98, R99, R101, R104) -/

/-- The largest T_CLOSE and T_OPEN among the outputs of the grid disconnect, ms (spec/15_safety.md R430). -/
def State.maxClose (s : State) : Nat := s.disconnectOuts.foldl (fun m x => max m (s.tClose x)) 0
def State.maxOpen (s : State) : Nat := s.disconnectOuts.foldl (fun m x => max m (s.tOpen x)) 0

/-- The expected time to completion in ms: R101's worst case, rounded up (notes/assumptions/26.md). -/
def State.expectedMs (s : State) (target ramp : Nat) : Nat :=
  let from' := s.modes.mode
  match target with
  | 1 => ramp + 1
  | 2 => 1
  | 3 => if from' = 1 then 5 + 2 + s.maxClose else ramp + 1
  | 4 => if from' = 7 then 1100 + 2 + s.maxClose else 1
  | 5 => if from' = 7 then 1100 + 2 + s.maxClose else 1
  | 7 => if from' = 1 then ramp else s.maxOpen + 2
  | _ => 1

/-- The ramp time of a command: RAMP_MS, or the stored default for 0. -/
def State.rampOf (s : State) (ms : Nat) : Nat := if ms = 0 then s.modes.rampMs else ms

/-- A commanded transition begins (R101, R104): toward safe stop, or from a grid mode toward standby-synchronised, with the ramp; otherwise
legs and disconnects follow at once. -/
def commandMode (t target ms : Nat) (s : State) : State :=
  let prev := s.modes.mode
  if target = 1 then
    if prev = 1 ∧ s.modes.trans = none then s
    else if s.stopping ∧ !s.modes.ramping then beginTrans 1 0 0 false s
    else beginRamp t ms ((beginTrans 1 0 0 false s).count 0x10)
  else if target = 3 ∧ prev ≠ 1 then beginRamp t ms (beginTrans 3 0 0 false s)
  else
    let s := beginTrans target 0 0 (prev == 7 && (target == 4 || target == 5)) s
    let s := s.modModes fun m => { m with trans := m.trans.map fun tr => { tr with ms := ms } }
    ordersNow t (if s.gridBeats then s else softBegin t s)

/-- R113: a latched group with grid or chopper legs keeps the modes that switch legs out of reach. -/
def State.latchedGrid (s : State) : Bool := (List.range 8).any fun g => (s.pgroup g).state == 3 && s.holdsGrid g

/-- A mode cannot be entered now (R101, R113). -/
def State.modeBad (s : State) (target : Nat) : Bool :=
  !fromOk target s.modes.mode || (entryBad s target s.modes.mode).isSome || (switchingMode target && s.latchedGrid)

/-- A command other than one to safe stop meets a transition in progress (R104). -/
def State.modeBusy (s : State) (target : Nat) : Bool := s.modes.trans.isSome && target != 1

/-- The device settings noted for the block image (spec/19_memory_lifecycle_spares.md R528). -/
def noteSettings (s : State) : State :=
  ({ s with mem := { s.mem with blockNext := noteBlock 0x0104 0 s.settings s.mem.blockNext } } : State).dirty

/-- SYS_MODE (R98). EXPECT is a check of the mode alone, made before TARGET is examined (spec/03_command_interface.md R63). DESIGN CHOICE
(notes/assumptions/26.md): SET_START with TARGET 6, which is no start mode, is answered E_RANGE at OPTIONS. -/
def specSysMode : CmdSpec :=
  { opcode := 0x0104, lenOk := len 8
    modeBad := fun s p => 1 ≤ u8 p.payload 1 && u8 p.payload 1 ≤ 7 && u8 p.payload 1 != s.modes.mode
    stateBad := fun s p => 1 ≤ u8 p.payload 0 && u8 p.payload 0 ≤ 7 && s.modeBad (u8 p.payload 0)
    checks := fun _ p =>
      [inB p.payload 0 1 7, inB p.payload 1 0 7, (2, u8 p.payload 2 < 2 && !(u8 p.payload 2 == 1 && u8 p.payload 0 == 6)), (3, u8 p.payload 3 == 0),
       inH p.payload 4 0 1000] ++ resv p.payload 6 2
    comboBad := fun s p => comboRefused s (u8 p.payload 0)
    busyBad := fun s p => s.modeBusy (u8 p.payload 0)
    run := fun p s =>
      let target := u8 p.payload 0
      let ms := s.rampOf (u16 p.payload 4)
      let still : Bool := target == s.modes.mode && s.modes.trans.isNone
      let store := u8 p.payload 2 == 1
      let data (n : Nat) : List Byte := [BitVec.ofNat 8 s.modes.mode, BitVec.ofNat 8 target] ++ le 2 n
      let s' := s.modModes fun m => { m with startWanted := false, restartArmed := false, reconnect := 0, startMode := if store then target else m.startMode }
      let s' := commandMode p.t target ms (if store then noteSettings s' else s')
      { st := s', data := data (if still then 0 else s.expectedMs target ms), status := if still then .ok else .okDeferred
        keep := if store && p.ack then
            some sendStored
          else none } }

def execSysMode (p : Packet) (s : State) : Res := runCommand specSysMode p s

/-! ### The start mode (R100) -/

/-- The device tries for its start mode when the conditions are met: from safe stop, in two steps toward 4 or 5; the second step of an
armed restart likewise (R105). -/
def startAttempt (t : Nat) (s : State) : State :=
  let n := s.modes.startMode
  let again := s.modes.restartArmed && s.modes.mode == 3
  if !(s.modes.startWanted || again) ∨ s.modes.trans.isSome then s
  else if n = 1 then s.modModes fun m => { m with startWanted := false }
  else
    let target := if s.modes.mode = 1 ∧ (n = 4 ∨ n = 5) then 3 else n
    if s.modeBad target ∨ comboRefused s target ∨ (s.modes.mode ≠ 1 ∧ s.modes.mode ≠ 3) then s
    else if s.modes.startWanted then
      let s := beginTrans target 0 0 false s
      ordersNow t (if s.gridBeats then s else softBegin t s)
    else ordersNow t (forceMode t 0x0A target 0 false s)

def execStartModeAttempt (t : Nat) (s : State) : Res := .next (startAttempt t (s.advance t))

/-! ### Ends of ramps and transitions (R99, R101 to R106) -/

/-- The reset requested begins once every leg is off (R58). -/
def resetNow (s : State) : State := if s.sys.resetPending ≠ 0 ∧ s.legsOff ∧ !s.modes.ramping then deviceReset s.sys.resetPending s else s

/-- The life-cycle record is committed as pending, once the ramp before a transition has ended (spec/19_memory_lifecycle_spares.md R546). -/
def lcRecord (t : Nat) (s : State) : State :=
  match s.mem.lcPend with
  | some l =>
    if l.recorded then s
    else ({ s with mem := { s.mem with lcPend := some { l with recorded := true } } } : State).post t
      (ev 0x0F32 0 [BitVec.ofNat 8 l.lcFrom, BitVec.ofNat 8 l.lcTo, 0])
  | none => s

/-- The ramp ends (R102); a life-cycle transition or a reset waiting for it begins (R546, R58). -/
def execSafeStopRampEnd (t : Nat) (s : State) : Res :=
  let s := s.advance t
  .next (if s.modes.ramping ∧ s.modes.rampEnd ≤ t then resetNow (lcRecord t (endRamp t s)) else s)

/-- The transition in progress can complete at t (R101, R103, R104): what it waits for has come, and its entry conditions hold. -/
def State.transDone (s : State) (t : Nat) (tr : Trans) : Bool :=
  (tr.target == 1 || tr.cause == 8 || (entryBad s tr.target tr.prev).isNone) &&
  match tr.target with
  | 1 => !s.modes.ramping
  | 3 => if tr.prev = 1 then s.disconnectClosed else !s.modes.ramping
  | 4 | 5 => if tr.prev = 7 then !tr.resync && s.disconnectClosed else true
  | 7 => if tr.prev = 1 then (match tr.softAt with | some a => decide (a + tr.ms * 1000000 ≤ t) | none => false) else s.disconnectOpen
  | _ => true

/-- Signals out of D7 once it is off (spec/01_architecture.md R34): no result is valid, and no comparator or monitor is ready. -/
def d7Silent (s : State) : State :=
  let mute (d : Decim) : Decim := { d with valid := false, past := d.past.map fun r => (r.1, r.2.1, false) }
  { s with
    sense := { s.sense with ains := s.sense.ains.map fun a => { a with outs := a.outs.map mute }
                            hks := s.sense.hks.map fun h => { h with valid := false } }
    prot := { s.prot with cmps := s.prot.cmps.map fun c => { c with ready := false }
                          mons := s.prot.mons.map fun m => { m with ready := false } } }

/-- D6 and D7 after an unrecoverable fault, switched off in safe stop (spec/01_architecture.md R29). -/
def faultedOff (t : Nat) (s : State) : State :=
  let s := if s.sys.domains.getD 7 0 = 3 then d7Silent (domainOff t 7 0 s) else s
  if s.sys.domains.getD 6 0 = 3 then domainOff t 6 0 s else s

/-- What entering a mode brings with it: a pending safety image in safe stop (spec/15_safety.md R453), leg tests that end with maintenance
(spec/11_pwm.md R333), the detector's state, an announcement when safe stop is entered by command or reset (spec/16_networks_fleet.md R471),
an isolated D6 or D7 switched off (spec/01_architecture.md R29); a start mode, an armed restart or an armed reconnection that is reached
(R100, R106) is used up. -/
def afterEntry (t prev mode cause : Nat) (s : State) : State :=
  let s := if prev = 2 ∧ mode ≠ 2 then endLegTests t s else s
  let s := awnRefresh t 1 s
  let s := if mode = 1 then
      let s := applyPending t s
      let s := if cause = 0 ∨ cause = 0x0B then announce true s else s
      faultedOff t s
    else s
  outputOrders t (s.modModes fun m =>
    { m with startWanted := m.startWanted && mode != m.startMode
             restartArmed := m.restartArmed && !(cause == 0x0A && mode == m.startMode)
             reconnect := if cause = 0x0C then 0 else m.reconnect })

/-- The second step of the start mode after cause 0x0A (R100, R105): autonomous, so MODE_FORCED is posted for it too (R106). -/
def secondStep (t next cause : Nat) (s : State) : State :=
  if next ≠ 0 ∧ !s.modeBad next ∧ !comboRefused s next then ordersNow t (forceMode t cause next 0 false s) else s

/-- The mode change due at t (R99, R110, R111): a soft start begins, or a transition that can complete does. -/
def modeDue (t : Nat) (s : State) : State :=
  let s := softBegin t s
  match s.modes.trans with
  | some tr =>
    if s.transDone t tr then
      secondStep t tr.next tr.cause (afterEntry t tr.prev tr.target tr.cause (enterMode t tr.target tr.cause s))
    else s
  | none => s

/-- A transition completes on a grid-group boundary (R99, R110, R111): the base tick of the boundary runs the same change in its place before the
passes. -/
def execModeEntered (t : Nat) (s : State) : Res :=
  let s := s.advance t
  .next (if s.onGridBoundary t then modeDue t s else s)

/-- The data of MODE_ABORTED, whose layout is not stated (R104; notes/assumptions/26.md). -/
def abortData (k : Nat) : List Byte := (List.range 16).map fun i => BitVec.ofNat 8 (Config.freeNat "MODE_ABORTED data" (16 * k + i))

/-- An entry condition lost before completion ends the transition in safe stop (R104). -/
def execModeAborted (t : Nat) (s : State) : Res :=
  let s := s.advance t
  .next (match s.modes.trans with
    | some tr =>
      match (if tr.target = 1 ∨ tr.cause = 8 then none else entryBad s tr.target tr.prev) with
      | some k =>
        let s := s.post t (ev 0x0185 0 (abortData k))
        beginRamp t s.modes.rampMs (beginTrans 1 tr.cause 0 false s)
      | none => s
    | none => s)

/-- Three in-tolerance evaluations (R103): the disconnect closes. -/
def execResynchronisationComplete (t : Nat) (s : State) : Res :=
  let s := s.advance t
  .next (match s.modes.trans with
    | some tr =>
      if tr.resync ∧ 3 ≤ tr.evals then outputOrders t (s.modModes fun m => { m with trans := some { tr with resync := false } }) else s
    | none => s)

/-! ### Faults that are not ridden through (spec/01_architecture.md R36, R41) -/

/-- The interface die has seen no D1 heartbeat for 1 ms: it opens every safety output (R36); a ramp in progress ends there (R102). -/
def execHeartbeatLost (t : Nat) (s : State) : Res :=
  .next (cutRamp t <| outputOrders t (((s.advance t)).modSafety fun z => { z with heartbeat := false }))

/-- A supervisor lockstep mismatch or firewall violation: safe stop with a ramp of 1 ms (R41, R102). -/
def execSupervisorFault (t : Nat) (s : State) : Res := .next (forceSafeStop t 0x02 (s.advance t))

/-- The pad ring's clamps with D6 lost (R35): every PWM pin low and every STO asserted, a leg in its reaction included. -/
def padClamp (s : State) : State :=
  { s with
    pwm := { s.pwm with legs := s.pwm.legs.map fun l => { l with pwmH := false, pwmL := false, sto := true, edges := [], ideal := none, onPut := false, cur := none } }
    cool := { s.cool with drives := s.cool.drives.map fun d => { d with pulse := false, phaseDuty := [0, 0, 0] } } }

/-- An unrecoverable fault of a unit (R41): 0 D6, 1 D7, 2 the D7 reference, each of which trips every group; 3 the D11 controller. With D6 lost
the pad clamps hold every leg off (R35). In safe stop the domain is switched off at once (R29). -/
def execUnrecoverableFault (t unit : Nat) (s : State) : Res :=
  let s := s.advance t
  let trip (s : State) : State := tripAll t 0xFF00 9 0 s
  let s := forceSafeStop t 0x02
    (if unit = 0 then padClamp (allLegsOff t (setDomain 6 3 (trip s)))
     else if unit = 1 then setDomain 7 3 (trip s)
     else if unit = 2 then trip s else s)
  within unit 4 (if s.modes.mode ≤ 1 ∧ s.modes.trans = none then faultedOff t s else s)

/-- Pins that have no register of their own (spec/02_startup_reset.md R45, R53). -/
structure Pins where
  /-- PWMH0..47 and PWML0..47 high. -/
  pwmH : List Bool
  pwmL : List Bool
  /-- STO0..47 asserted (high). -/
  sto : List Bool
  /-- UART0 TX idle (high), and DE high. -/
  uartIdle : Bool
  uartDe : Bool
  /-- CAN0, CAN1 TX recessive. -/
  canRecessive : List Bool
  /-- ETH0, ETH1 SerDes transmitting: link training or a link. -/
  ethOn : List Bool
  /-- HSPI_ data out and JTAG TDO in high impedance. -/
  hspiZ : Bool
  tdoZ : Bool
deriving DecidableEq, Repr

/-- The pins between two rows of the block, each row being one whole transaction: the PWM pins as the legs have them while VDD_IO is present (R45):
while its monitor's verdict is good (DESIGN CHOICE, notes/assumptions/42.md); UART0 idle but while a frame leaves it (R85), the lanes' transmitters idle until D9 is powered (R53). -/
def State.pins (s : State) : Pins :=
  let d9 := s.sys.domains.getD 9 0 == 1 || s.sys.domains.getD 9 0 == 2
  { pwmH := s.pwm.legs.map fun l => s.sys.railIo && l.pwmH, pwmL := s.pwm.legs.map fun l => s.sys.railIo && l.pwmL
    sto := s.pwm.legs.map fun l => s.sys.railIo && l.sto
    uartIdle := !s.uartDe, uartDe := s.uartDe, canRecessive := [true, true], ethOn := [d9, d9], hspiZ := true, tdoZ := true }

/-- The recorder as a D8 restart leaves it (spec/14_recorder.md R414): its region wiped, committed captures kept, Idle. Its configuration and what the
supervisor's recorder manager keeps, the lost counts among it, stand (notes/assumptions/34.md). -/
def Rec.restarted (r : Rec) : Rec :=
  { r with
    lanes := r.lanes.map fun x => { x with last := none, gap := false, skewAt := none }
    trigs := r.trigs.map fun u => { u with armed := true, count := 0, squares := [], met := false, prevRms := none }
    state := 0, cur := none, opn := [], history := [], done := [], events := [], nextFires := [], rearm := false
    maps := r.maps.map fun m => { m with ys := [], xs := [] }
    readouts := r.readouts.filter fun o => o.src != 0 }

/-- D8 restarts with its recorder. -/
def recRestart (s : State) : State :=
  { s with recorder := s.recorder.restarted
           mem := { s.mem with sram := Mem.clear s.mem.sram 0x20100000 0x200000 } }

/-- The PV port engine after a D8 restart (spec/10_pv_battery_ports.md R297): maps, credits and tracker state lost; a port that was
running resumes in Tracking from the held reference. -/
def pvLost (t p : Nat) (s : State) : State :=
  let s := s.modPv p fun x => { Pv.reset with
    cfg := x.cfg, mppt := x.mppt, state := x.state, ref := x.ref, posted := x.posted }
  if 3 ≤ (s.pv p).state ∧ (s.pv p).state ≤ 5 then pvTo t p 2 s else s

/-- A fault in D8, D9 or D10 (R41): the domain is switched off for its restart. A capture in progress is lost with D8; links of D9 go down;
commands of the application core in flight are lost with D10. -/
def domainFault (t d : Nat) (s : State) : State :=
  let s' := domainOff t d 3 s
  if d = 8 then { s' with recorder := { s'.recorder with state := 0, cur := none } }
  else if d = 9 then s'
  else if d = 10 then
    s'.modCmd fun c => { c with held := c.held.filter fun h => h.ring < 52
                                durable := c.durable.filter fun r => r.src.sid != some .app
                                deferred := c.deferred.filter fun q => q.pkt.src.sid != some .app }
  else s

/-- D8, D9 or D10 fails (R41). -/
def execDomainFault (t d : Nat) (s : State) : Res := .next (domainFault t d (s.advance t))

/-- A restarted domain comes back (R41): D8 with a new detector, recorder and port engine; D9 without sessions of network sources, peers, learned
neighbours and PTP lock (spec/16_networks_fleet.md R474, R477); D10 without the application core's sessions. -/
def execDomainRestarted (t d : Nat) (s : State) : Res :=
  let s := s.advance t
  .next (if s.sys.domains.getD d 0 ≠ 3 ∧ s.sys.domains.getD d 0 ≠ 1 then s
    else if d = 8 then (List.range 16).foldl (fun s p => pvLost t p s) (recRestart (awnRestart t (setDomain 8 2 s)))
    else if d = 9 then
      let s := (setDomain 9 2 s).dropSessions fun x => match x.src with | .net _ => true | _ => false
      let was := s.net.ptpLocked
      let s := s.modNet fun n => { n with peers := [], neigh := n.neigh.map fun e => (if e.written then e else Neigh.reset), ptpLocked := false, ptpGood := 0 }
      if was then s.post t (ptpEv s) else s
    else if d = 10 then (setDomain 10 2 s).dropSessions fun x => x.src == .app
    else s)

end Sys2Proof.Machine
end

