-- ==== Sys2Proof/Machine/Clocks.lean ====
section
/-! DEFINITION. Clock synthesis, switchover, and the clocks command group (spec/18_clocks_islands.md). -/

namespace Sys2Proof.Machine

def State.modClk (f : Clk → Clk) (s : State) : State := { s with clk := f s.clk }
def State.loop (s : State) (l : Nat) : Loop := s.clk.loops.getD l Loop.reset
def State.modLoop (l : Nat) (f : Loop → Loop) (s : State) : State := s.modClk fun c => { c with loops := upd c.loops l f }

/-- The standby loop: the other one while a loop is main (R497). -/
def State.standby (s : State) : Nat := 1 - s.clk.main

/-- CLK_LOCK and CLK_SWITCH (R517). -/
def lockEv (l what cause : Nat) (diff : Int) : Ev := ev 0x0E30 l ([BitVec.ofNat 8 what, BitVec.ofNat 8 cause] ++ leI 2 (sat16 diff))
def switchEv (out old new cause : Nat) : Ev := ev 0x0E31 out [BitVec.ofNat 8 old, BitVec.ofNat 8 new, BitVec.ofNat 8 cause]

/-- Dividers of output k from a loop of 6.000 GHz and from the ring oscillator (R499). -/
def loopDivider (k : Nat) : Nat := ([20, 20, 10, 10, 10, 10, 12, 60, 15, 48, 8, 10] : List Nat).getD k 1
def ringDivider (k : Nat) : Nat := ([2, 2, 1, 1, 1, 1, 1, 4, 2, 4, 1, 1] : List Nat).getD k 1

/-- The frequency of output k, kHz (R499): from a loop, from the ring oscillator as last measured, or none. -/
def State.outputKhz (s : State) (k : Nat) : Nat :=
  let x := s.clk.sources.getD k 3
  if x < 2 then 6000000 / loopDivider k else if x = 2 then s.clk.roKhz / ringDivider k else 0

/-! ### Switchover and the ring oscillator (R505, R509, R510) -/

/-- Every output moves from main to standby, and the loops exchange roles (R505). -/
def switchOver (t cause : Nat) (s : State) : State :=
  let m := s.clk.main
  ((s.modClk fun c => { c with main := 1 - c.main, sources := c.sources.map fun x => if x = 1 then 0 else x, switches := satInc 65535 c.switches, lastSwitch := t, bothSus := 0 }).count (hcLoop m 1)).commitHealth.post t
    (switchEv 0xFF 0 1 cause)

/-- Every enabled output moves to the ring oscillator, CLOCK_FAULT is set, and the device goes to safe stop with a ramp of 1 ms (R509). -/
def toRing (t cause : Nat) (s : State) : State :=
  let s := d6Follow t (s.modClk fun c => { c with main := 0xFF, sources := c.sources.map fun x => if x = 3 then 3 else 2 })
  forceSafeStop t 0x02 ((s.modSys fun y => { y with clockFault := true }).post t (switchEv 0xFF 0 2 cause))

/-- A loop is Locked with no main: it becomes main, every output moves to it and CLOCK_FAULT clears (R510). At the first lock after a reset the
loop becomes main the same way. -/
def becomeMain (t l : Nat) (s : State) : State :=
  let was := s.clk.sources.any fun x => x == 2
  let s := d6Follow t (s.modClk fun c => { c with main := l, sources := c.sources.map fun x => if x = 2 then 0 else x })
  let s := s.modSys fun y => { y with clockFault := false }
  if was then s.post t (switchEv 0xFF 2 0 4) else s

/-- What follows when the main loop is Lost (R505, R508, R509): the standby takes over when it is Locked and not suspect; with no Locked standby
every output goes to the ring oscillator; so it does when the standby is Lost and the main loop, left running for its sake, is not Locked. -/
def afterLoss (t l cause : Nat) (s : State) : State :=
  if s.clk.main = 0xFF then s
  else if s.clk.main ≠ l then (if (s.loop s.clk.main).state = 1 then s else toRing t cause s)
  else
    let b := s.loop (1 - l)
    if b.state = 1 then (if b.suspect then s else switchOver t cause s) else toRing t cause s

/-! ### Lock detection (R502 to R504) -/

/-- Losses of a loop that share a window of 1 h with one at t (R504): those less than 1 h old (spec/00_scope.md R17). -/
def lossesIn (t : Nat) (l : List Nat) : List Nat := l.filter fun x => decide (t < x + 3600000000000)

/-- The splice of a retired loop reported (spec/19_memory_lifecycle_spares.md R534). -/
def loopSpliced (t l : Nat) (s : State) : State := memSpliced t 5 l (1 - l) 0 0 s

/-- A loop declared Lost (R502, R504): counted; for the third time within an hour it is retired. -/
def loopLost (t l cause : Nat) (s : State) : State :=
  let at' := t :: lossesIn t (s.loop l).lostAt
  let third := decide (3 ≤ at'.length)
  let s := s.modLoop l fun x => { x with state := if third then 3 else 2, good := 0, suspect := false, losses := satInc 65535 x.losses, lostAt := at' }
  let s := ((s.count (hcLoop l 0)).commitHealth).post t (lockEv l (if third then 2 else 0) (if third then 3 else cause) (s.loop l).diff)
  let s := afterLoss t l 1 s
  if third then loopSpliced t l s else s

/-- The end of a window of 4,096 XREF cycles on loop l, with its count difference and the ring oscillator's frequency measured against XREF
(R502, R516). -/
def execLockWindow (t l : Nat) (diff : Int) (roKhz : Nat) (s : State) : Res :=
  let s := s.advance t
  let x := s.loop l
  let good := decide (-2 ≤ diff) && decide (diff ≤ 2)
  within l 2 (if x.state = 3 ∨ !s.clk.xref ∨ !elapsed x.winAt (4096000000000 / max 1 s.clk.xrefInUse) t then s
    else
      let s := (s.modClk fun c => { c with roKhz := roKhz }).modLoop l fun x => { x with diff := diff, winAt := t, good := if good then min 3 (x.good + 1) else 0 }
      if x.state = 1 then (if good then s else loopLost t l 0 s)
      else if good ∧ 3 ≤ x.good + 1 then
        let s := (s.modLoop l fun x => { x with state := 1 }).post t (lockEv l 1 0 diff)
        if s.clk.main = 0xFF then becomeMain t l s else s
      else s)

/-- XREF is absent (R498, R502): both loops are lost. -/
def xrefAbsent (t : Nat) (s : State) : State :=
  let s := s.modClk fun c => { c with xref := false, roKhz := 0, bothSus := 0 }
  let lose (l : Nat) (s : State) : State := if (s.loop l).state = 1 ∨ (s.loop l).state = 0 then loopLost t l 1 s else s
  let m := s.clk.main
  if m = 0xFF then lose 0 (lose 1 s) else lose m (lose (1 - m) s)

def execXrefAbsent (t : Nat) (s : State) : Res := .next (let s := s.advance t; if s.clk.xref then xrefAbsent t s else s)

/-- XREF is present again after 4,096 edges (R498). -/
def execXrefPresent (t : Nat) (s : State) : Res := .next ((s.advance t).modClk fun c => { c with xref := true })

/-- A Locked loop whose phase error is 1.0 ns or more at an edge is suspect, the error in ps (R503). -/
def suspectAt (err : Int) (x : Loop) : Loop := { x with suspect := decide (1000 ≤ err.natAbs) && x.state == 1 }

/-- An XREF edge with the phase error of each loop (R503, R505, R508): a suspect or Lost main gives way to a Locked standby that is not suspect;
both suspect at two edges in turn is XREF absent. -/
def execClkSwitch (t : Nat) (err0 err1 : Int) (s : State) : Res :=
  let s := s.advance t
  let s := (s.modLoop 0 (suspectAt err0)).modLoop 1 (suspectAt err1)
  .next (if s.clk.main = 0xFF ∨ !s.clk.xref then s
    else
      let a := s.loop s.clk.main
      let b := s.loop s.standby
      let both := a.suspect && b.suspect
      let s := s.modClk fun c => { c with bothSus := if both then c.bothSus + 1 else 0 }
      if both then (if 2 ≤ s.clk.bothSus then xrefAbsent t s else s)
      else if b.state = 1 ∧ !b.suspect then
        (if a.suspect then switchOver t 0 s else if a.state = 2 ∨ a.state = 3 then switchOver t 1 s else s)
      else s)

/-- A Lost loop that has not relocked within 20 ms is retired (R504). -/
def execRelockTimeout (t l : Nat) (s : State) : Res :=
  let s := s.advance t
  let x := s.loop l
  within l 2 (if x.state = 2 ∧ x.lostAt.headD 0 + 20000000 ≤ t then
      loopSpliced t l ((s.modLoop l fun x => { x with state := 3 }).post t (lockEv l 2 2 x.diff)) else s)

/-! ### Missing edges and regions (R511, R514) -/

/-- Output k shows no edge for 20 ns while its loop is Locked (R511): that island alone moves to the ring oscillator. -/
def execMissingEdge (t k : Nat) (s : State) : Res :=
  let s := s.advance t
  let src := s.clk.sources.getD k 3
  let l := if src = 0 then s.clk.main else s.standby
  within k 12 (if 2 ≤ src ∨ (s.loop l).state ≠ 1 then s
    else
      let s := d6Follow t (s.modClk fun c => { c with sources := c.sources.set k 2 })
      let s := (s.modSys fun y => { y with clockFault := true }).post t (switchEv k src 2 2)
      if 2 ≤ k ∧ k ≤ 5 then (if s.eng.cores.getD (k - 2) 0 = 1 then s.modEng fun e => { e with forceDissent := e.forceDissent ++ [k - 2 + 16] } else s)
      else if 8 ≤ k ∧ k ≤ 10 then
        domainFault t k (s.modClk fun c => { c with pick := c.pick.set k (1 - src) })
      else forceSafeStop t 0x02 s)

/-- The largest difference between a control-die and an interface-die sensor, 0.25 K (R514). -/
def regionDelta (ctl iface : List Int) : Nat := (ctl.flatMap fun a => iface.map fun b => (a - b).natAbs).foldl max 0

/-- The hottest sensor in 0.1 °C from steps of 0.25 K, nearest. -/
def hottest (l : List Int) : Int := match l with | [] => 0 | a :: r => (r.foldl max a * 5 + 1) / 2

/-- Every 10 ms, with the sensors in 0.25 K (R514): ten evaluations in turn at 40.25 K or above set the region flag, ten below clear it. -/
def execClkRegion (t : Nat) (ctl iface : List Int) (s : State) : Res :=
  let s := s.advance t
  let s0 := s
  let at' := s.clk.regionAt
  let d := regionDelta ctl iface
  let s := s.modClk fun c =>
    { c with regionAt := t, tCtl := hottest ctl, tIf := hottest iface, delta := d, hot := if 161 ≤ d then min 10 (c.hot + 1) else 0,
             cool := if 161 ≤ d then 0 else min 10 (c.cool + 1) }
  let on := decide (10 ≤ s.clk.hot) || (s.clk.region && decide (s.clk.cool < 10))
  .next (if !elapsed at' 10000000 t then s0 else if on = s.clk.region then s
    else (s.modClk fun c => { c with region := on }).post t (ev 0x0E32 0 ([if on then 1 else 0, 0] ++ le 2 d)))

/-! ### Commands (R515, R516) -/

/-- N and F of the feedback divider for a reference frequency, as one value of 2^-24 steps, nearest (R497). -/
def divider (hz : Nat) : Nat := (2 * 6000000000 * 2 ^ 24 + hz) / (2 * hz)

def specClkRefConfig : CmdSpec :=
  { opcode := 0x0E00, lenOk := len 8, image := some 0
    checks := fun _ p => inW p.payload 0 19200000 50000000 :: resv p.payload 4 4
    run := fun p s =>
      let f := u32 p.payload 0
      let d := divider f
      { st := s.modClk fun c => { c with xrefHz := f }, data := le 2 (d / 2 ^ 24) ++ le 3 (d % 2 ^ 24) ++ zeros 3 } }

/-- The 48 bytes of CLK_STATUS (R516). -/
def clkStatus (s : State) : List Byte :=
  let c := s.clk
  le 1 (s.loop 0).state ++ le 1 (s.loop 1).state ++ le 1 c.main ++
  le 1 (flagAt c.xref 0 + flagAt c.region 1 + flagAt (c.sources.any fun x => x == 2) 2) ++ le 4 c.xrefHz ++
  leI 2 (sat16 (s.loop 0).diff) ++ leI 2 (sat16 (s.loop 1).diff) ++ ((List.range 12).map fun k => BitVec.ofNat 8 (c.sources.getD k 3)) ++
  le 4 c.roKhz ++ leI 2 c.tCtl ++ leI 2 c.tIf ++ le 2 c.delta ++ le 2 (s.loop 0).losses ++ le 2 (s.loop 1).losses ++ le 2 c.switches ++ le 8 c.lastSwitch

def specClkStatus : CmdSpec := { opcode := 0x0E01, lenOk := len 0, run := fun _ s => { st := s, data := clkStatus s } }

/-- A loop is retired. -/
def State.loopRetired (s : State) : Bool := s.clk.loops.any fun l => l.state == 3

def specClkSwap : CmdSpec :=
  { opcode := 0x0E02, lenOk := len 0
    modeBad := fun s _ => !s.quiet || (s.clk.main != 0xFF && (s.loop s.clk.main).suspect) ||
      (!s.loopRetired && (s.clk.main == 0xFF || (s.loop s.standby).state != 1))
    spareBad := fun s _ => s.loopRetired
    run := fun p s => { st := switchOver p.t 3 s } }

def execClkRefConfig (p : Packet) (s : State) : Res := runCommand specClkRefConfig p s
def execClkStatus (p : Packet) (s : State) : Res := runCommand specClkStatus p s
def execClkSwap (p : Packet) (s : State) : Res := runCommand specClkSwap p s

end Sys2Proof.Machine
end

