-- ==== Sys2Proof/Machine/Memory.lean ====
section
/-! DEFINITION. Memory, images, commits, splices, the life cycle and the memory command group (spec/19_memory_lifecycle_spares.md), and the JTAG
port (spec/21_package_electrical.md R577). -/

namespace Sys2Proof.Machine

def State.modMem (f : MemSys → MemSys) (s : State) : State := { s with mem := f s.mem }

/-- Health counter i counts n more. -/
def State.countN (i n : Nat) (s : State) : State := s.modMem fun m => { m with health := bumpCounter i n m.health }

/-- Bytes written in MRAM region r, with its lines counted (R524, R537). -/
def mramPut (r a : Nat) (b : List Byte) (s : State) : State :=
  (s.store a b).countN (hcMram r) (if b = [] then 0 else (a + b.length - 1) / 64 - a / 64 + 1)

/-! ### SRAM rows and MRAM sectors (R519 to R524) -/

/-- The bank and the row of an SRAM address (R519). -/
def bankOf (a : Nat) : Nat := (a - 0x20000000) / 0x40000
def rowOf (a : Nat) : Nat := (a - 0x20000000) % 0x40000 / 0x80
/-- An address of SRAM. -/
def inSram (a : Nat) : Bool := decide (0x20000000 ≤ a) && decide (a < 0x20600000)

/-- MEM_ECC (R540). -/
def eccEv (source what pos a : Nat) : Ev := ev 0x0F30 source ([BitVec.ofNat 8 what, 0] ++ le 2 pos ++ le 4 a)

/-- A row spliced onto a spare row of its bank (R522), or left in service with none (R523). -/
def rowSplice (t b r : Nat) (s : State) : State :=
  let left := s.mem.rowSpares.getD b 0
  if left = 0 then s.modMem fun m => { m with degraded := true }
  else
    let sp := 64 - left
    let s := s.modMem fun m =>
      { m with
        rowSpares := m.rowSpares.set b (left - 1)
        rowMap := (m.rowMap.filter fun x => !(x.1 == b && x.2.1 == r)) ++ [(b, r, sp)]
        rowErrs := m.rowErrs.filter fun x => !(x.1 == b && x.2.1 == r)
        degraded := m.degraded || left == 1 }
    memSpliced t 6 b sp r (left - 1) (s.count (hcBank b 2))

/-- A correction at an address (R522): counted to its row; the third within 24 h splices the row. -/
def correction (t a : Nat) (s : State) : State :=
  let b := bankOf a
  let r := rowOf a
  let old := ((s.mem.rowErrs.find? fun x => x.1 == b && x.2.1 == r).elim [] fun x => x.2.2).filter fun x => decide (t < x + 86400000000000)
  let s := s.modMem fun m => { m with rowErrs := (m.rowErrs.filter fun x => !(x.1 == b && x.2.1 == r)) ++ [(b, r, t :: old)] }
  let s := (s.count (hcBank b 0)).post t (eccEv b 1 r a)
  if 2 ≤ old.length then rowSplice t b r s else s

/-- An address put in its place of a rising list. -/
def insertAddr (a : Nat) : List Nat → List Nat
  | [] => [a]
  | b :: r => if a ≤ b then a :: b :: r else b :: insertAddr a r

/-- A scrub cycle of 60 s ends (R520), with the addresses of the words it corrected: of two rows the lower one comes first (R536). -/
def execScrub (t : Nat) (hits : List Nat) (s : State) : Res :=
  let s := s.advance t
  if hits.all inSram then
    .next (if elapsed s.mem.scrubAt 60000000000 t then
        ((hits.foldr insertAddr []).foldl (fun s a => correction t a s) s).modMem fun m => { m with scrubAt := s.time }
      else s)
  else .fault .noSuchUnit

/-- A master's read corrects a single-bit error (R522). -/
def execSramCorrection (t addr : Nat) (s : State) : Res :=
  if inSram addr then .next (correction t addr (s.advance t)) else .fault .noSuchUnit

/-- The configured ring whose descriptors hold an address, and the descriptor. -/
def State.descriptorAt (s : State) (a : Nat) : Option (Nat × Nat) :=
  ((List.range 64).find? fun n => let r := s.ring n; r.configured && decide (r.base ≤ a) && decide (a < r.base + 16 * r.size)).map fun n =>
    (n, (a - (s.ring n).base) / 16)

/-- Bytes restored in memory from a copy in MRAM. -/
def restore (m : Mem) (key a n : Nat) (s : State) : State := s.store a (Mem.readN m key n)

/-- A Sheaf entry restored in memory from the image last committed; the running copy is not touched (spec/05_sheaf_table.md R141). -/
def entryReload (t n : Nat) (s : State) : State :=
  let e := Mem.readN s.eng.stored (entryAt n 0) 0x380
  let differs := decide (e ≠ entryImg s.eng.run n)
  (restore s.eng.stored (entryAt n 0) (0x20300000 + entryAt n 0) 0x380 s).post t (ev 0x0233 n [if differs then 1 else 0])

/-- A capture in progress ends truncated (R521, spec/14_recorder.md R414). -/
def truncCapture (t : Nat) (s : State) : State :=
  if s.recorder.state = 2 then
    let cut (c : Capture) : Capture := { c with tEnd := min c.tEnd (t : Int), trunc := true }
    let s := finishCapture t (s.modRec fun r => { r with cur := r.cur.map cut })
    if s.recorder.rep then armRecorder t s else s
  else s

/-- A descriptor that could not be read is marked DONE and ERROR, and the ring continues with the next one (R521, spec/03_command_interface.md R75). -/
def descriptorLost (t n i : Nat) (s : State) : State :=
  let s := (((markDescriptor n i 3 s).modRing n fun r => { r with bad := r.bad ++ [i] }).setInt 24).post t (ev 0x0192 n (le 2 i))
  if deviceConsumes n then passHeads t n s else s

/-- What a double-bit error does in the region of its address (R521). -/
def doubleBit (t a : Nat) (s : State) : State :=
  match s.descriptorAt a with
  | some (n, i) => descriptorLost t n i s
  | none =>
    match regionOf a with
    | some .supervisorSram => forceSafeStop t 0x02 s
    | some .sheafSram => entryReload t ((a - 0x20300000) / 0x400) s
    | some .engineSram =>
      let o := a - 0x20340000
      if o < 64 * 0x200 then restore s.eng.stored (0x40000 + o / 0x200 * 0x200) (a - o % 0x200) 0x200 s else s
    | some .recorderSram => truncCapture t s
    | some .networkSram => s.modNet fun n => { n with frameDrops := satInc 0xFFFFFFFF n.frameDrops }
    | _ => s

/-- A double-bit error (R521, R522): the row is spliced at once where a spare is left, its word copied as zero, and the region
handles it. -/
def execSramDoubleBitError (t addr : Nat) (s : State) : Res :=
  let s := s.advance t
  if inSram addr then
    let s := (s.count (hcBank (bankOf addr) 1)).post t (eccEv (bankOf addr) 2 (rowOf addr) addr)
    let spare := s.mem.rowSpares.getD (bankOf addr) 0 != 0
    let s := rowSplice t (bankOf addr) (rowOf addr) (if spare then s.store (addr - addr % 8) (zeros 8) else s)
    .next (doubleBit t addr s)
  else .fault .noSuchUnit

/-- A sector spliced onto a spare (R524); whether there was one. -/
def sectorSplice (t x : Nat) (s : State) : State × Bool :=
  if s.mem.secSpares = 0 then (s, false)
  else
    let sp := 205 - s.mem.secSpares
    let s := s.modMem fun m =>
      { m with secSpares := m.secSpares - 1, secMap := (m.secMap.filter fun y => y.1 != x) ++ [(x, sp)], secErrs := m.secErrs.filter fun y => y.1 != x }
    (memSpliced t 7 0 sp x s.mem.secSpares (s.count (hcMram 33)), true)

/-- A running commit refused: the previous copy stands (R524, R527). A refused block image is committed again; a refused identity commit
leaves sending held (spec/16_networks_fleet.md R469). -/
def refuseCommit (image : Nat) (s : State) : State :=
  if image = 0 then (if s.mem.blockBusy then s.modMem fun m => { m with blockBusy := false, blockDirty := true } else s)
  else if image = 1 then s.modEng fun e => { e with sheafCommit := false }
  else if image = 2 then s.modSafety fun z => { z with writing := none, writeReply := none }
  else s

/-- The region of R525 that holds an MRAM address. -/
def mramRegion (a : Nat) : Nat :=
  ((List.range 13).reverse.find? fun i =>
    decide (([0x10000000, 0x10200000, 0x10400000, 0x10600000, 0x10800000, 0x10880000, 0x10890000, 0x10A00000, 0x10C00000, 0x10E00000, 0x10E40000,
      0x10E50000, 0x10F00000] : List Nat).getD i 0 ≤ a)).getD 0

/-- An MRAM line (R524): kind 0, it fails its comparison while image `image` is written (5: no two-copy image); 1, a word corrected; 2, a
double-bit error (its item's other copy is used, R536). -/
def execMramVerifyFailure (t kind addr image : Nat) (s : State) : Res :=
  let s := s.advance t
  let x := (addr - 0x10000000) / 4096
  if addr < 0x10000000 ∨ 0x11000000 ≤ addr ∨ 3 ≤ kind then .fault .noSuchUnit
  else if kind = 0 then
    let r := sectorSplice t x s
    .next (if r.2 then r.1 else refuseCommit image r.1)
  else if kind = 1 then
    let old := ((s.mem.secErrs.find? fun y => y.1 == x).elim [] (·.2)).filter fun y => decide (t < y + 86400000000000)
    let s := s.modMem fun m => { m with secErrs := (m.secErrs.filter fun y => y.1 != x) ++ [(x, t :: old)] }
    let s := (s.count (hcMram 32)).post t (eccEv (0x100 + mramRegion addr) 1 x addr)
    .next (if 7 ≤ old.length then (sectorSplice t x s).1 else s)
  else .next (s.post t (eccEv (0x100 + mramRegion addr) 2 x addr))

/-! ### Two-phase commits (R527, R528, R537) -/

/-- The first n held replies of an image sent, with DURABLE set (spec/03_command_interface.md R67). -/
def flushDurable (image n : Nat) (s : State) : State :=
  let mine := (s.cmd.durable.filter fun d => d.image == image).take n
  let s := s.modCmd fun c =>
    { c with durable := (c.durable.filter fun d => d.image != image) ++ ((c.durable.filter fun d => d.image == image).drop n) }
  mine.foldl (fun s d => sendReply d.src d.bytes s) s

/-- Every held reply of an image sent. -/
def flushAll (image : Nat) (s : State) : State := flushDurable image s.cmd.durable.length s

/-- The commit of the block image starts: the running configuration of its groups captured at one instant (R528). -/
def execBlockImageCommit (t : Nat) (s : State) : Res :=
  let s := s.advance t
  .next (if s.mem.blockDirty ∧ !s.mem.blockBusy then
      s.modMem fun m => { m with
        blockBusy := true, blockDirty := false, blockCap := m.blockNext, blockAck := (s.cmd.durable.filter fun d => d.image == 0).length }
    else s)

/-- The commit of the identity and keys region completes: the Benmor counter's stored value advances when it was due, and held datagrams
are sent (spec/16_networks_fleet.md R468, R469). -/
def identityCommitted (s : State) : State :=
  if s.net.benCommit then
    let s := s.modNet fun n => { n with benStored := n.benStored + 65536, benCommit := false }
    benDrain s.net.benHeld.length s
  else s

/-- HUSK_CONFIG as it stands kept in the health record (spec/20_husk.md R559). -/
def huskStored (s : State) : State :=
  let h := s.husk
  { s with husk := { h with cfgStored := some [if h.keepEn then 1 else 0, h.cLs, h.vlsMax, h.commitLines, h.sealMask] } }

/-- A commit's pointer line is written (R527): the new copy is in force, and replies held for it are sent. Image 0 block image, 1 Sheaf
image, 2 safety image, 3 health record and husk configuration, 4 identity and keys. -/
def execCopyPointerSwitch (t image : Nat) (s : State) : Res :=
  let s := s.advance t
  within image 5 (match image with
    | 0 => if s.mem.blockBusy then
        flushDurable 0 s.mem.blockAck (s.modMem fun m => { m with blockPrev := m.block, block := m.blockCap, blockBusy := false })
      else s
    | 1 => if s.eng.sheafCommit then
        flushAll 1 ((s.modEng fun e => { e with storedPrev := e.stored, stored := e.commitImg, sheafCommit := false }).countN (hcMram 3) 4097)
      else s
    | 2 => flushAll 2 (safetySwitch t s)
    | 3 => flushAll 3 (huskStored s).commitHealth
    | _ => flushAll 4 (identityCommitted s))

/-- A powered hour counted for the device, its cores, converters, SAR units and cells in service (R537). -/
def countHour (t : Nat) (s : State) : State :=
  let s := (s.modMem fun m => { m with hoursAt := t }).count hcHours
  let cores := (List.range 4).filter fun c => let x := s.eng.cores.getD c 0; x == 1 || x == 2
  let s := cores.foldl (fun s c => s.count (hcCore c 9)) s
  let s := ((List.range 26).filter fun c => s.sense.convOn.getD c false).foldl (fun s c => s.count (hcConv c 8)) s
  let s := ((List.range 6).filter fun u => s.sense.sarOn.getD u false).foldl (fun s u => s.count (hcSar u 1)) s
  ((List.range 52).filter fun c => s.prot.cellOn.getD c false).foldl (fun s c => s.count (hcCell c 2)) s

/-- The commit of the health record, at least once an hour, with the powered hours (R537). -/
def execHealthCommit (t : Nat) (s : State) : Res :=
  let s := s.advance t
  .next (if elapsed s.mem.hoursAt 3600000000000 t then countHour t s else s).commitHealth

/-! ### Images and keys (R530 to R533, R538, R539) -/

/-- Base address and size of an image slot (R525). -/
def slotBase (kind slot : Nat) : Nat := if kind = 0 then 0x10000000 + slot * 0x200000 else 0x10400000 + slot * 0x100000
def slotSize (kind : Nat) : Nat := if kind = 0 then 0x200000 else 0x100000

/-- A whole slot verifies (R530, R532): 0 it does, 1 it fails, 3 only its security version is too low. -/
def imageVerdict (s : State) (kind : Nat) (b : List Byte) : Nat :=
  let key := if kind = 0 then Config.orhildKey else s.mem.ownerKey.getD []
  let n := u32 b 16
  if u32 b 0 = 0x8256F1A0 ∧ u8 b 4 = kind ∧ slice b 5 3 = zeros 3 ∧ n ≤ slotSize kind - 512 ∧ slice b 164 348 = zeros 348 ∧
      Config.sha384 (slice b 512 n) = slice b 20 48 ∧ (kind = 0 ∨ s.mem.ownerKey.isSome) ∧
      Config.ecdsaOk key (Config.sha384 (slice b 0 68)) (slice b 68 96) = true then
    (if u32 b 12 < s.mem.secMin.getD kind 0 then 3 else 0)
  else 1

/-- A slot's bytes, with n bytes from an offset replaced. -/
def slotWith (s : State) (kind slot o : Nat) (d : List Byte) : List Byte := patch (s.load (slotBase kind slot) (slotSize kind)) o d

/-- The slot that runs is not written, except in recovery (R539). -/
def slotInUse (s : State) (kind slot : Nat) : Bool :=
  !s.sys.recovery && (if kind = 0 then (slot == 1) == s.sys.supSlotB else !s.sys.d10Held && ((slot == 1) == s.sys.appSlotB))

/-- A slot's verified flag. -/
def setVerified (kind slot : Nat) (v : Bool) (s : State) : State :=
  s.modMem fun m => if kind = 0 then { m with verSup := m.verSup.set slot v } else { m with verApp := m.verApp.set slot v }

/-- A verified slot becomes the boot slot; in recovery boot goes on with the verification (R539). -/
def selectSlot (t kind slot : Nat) (b : List Byte) (s : State) : State :=
  let i := 2 * kind + slot
  let s := (setVerified kind slot true s).modMem fun m =>
    { m with
      slotVer := m.slotVer.set i (u32 b 8), slotSec := m.slotSec.set i (u32 b 12)
      bootSup := if kind = 0 then slot else m.bootSup, bootApp := if kind = 0 then m.bootApp else slot }
  let s := s.post t (ev 0x0F33 kind [0, BitVec.ofNat 8 slot])
  if s.sys.recovery then s.modSys fun y => { y with recovery := false, boot := .verify, supTried := false } else s

def specMemImageLoad : CmdSpec :=
  { opcode := 0x0F01, lenOk := fun b => decide (12 ≤ b.length) && decide (b.length ≤ 4076) && b.length % 4 == 0
    lcBad := fun s _ => s.mem.lc == 5
    stateBad := fun s p => decide (u8 p.payload 0 < 2) && decide (u8 p.payload 1 < 2) && slotInUse s (u8 p.payload 0) (u8 p.payload 1)
    checks := fun _ p => [inB p.payload 0 0 1, inB p.payload 1 0 1, maskB p.payload 2 1] ++ resv p.payload 3 1 ++
      [(4, u32 p.payload 4 % 4 == 0 && decide (u32 p.payload 4 + (p.payload.length - 8) ≤ slotSize (u8 p.payload 0)))]
    authBad := fun s p => bit (u8 p.payload 2) 0 &&
      imageVerdict s (u8 p.payload 0) (slotWith s (u8 p.payload 0) (u8 p.payload 1) (u32 p.payload 4) (p.payload.drop 8)) != 0
    run := fun p s =>
      let k := u8 p.payload 0
      let sl := u8 p.payload 1
      let o := u32 p.payload 4
      let d := p.payload.drop 8
      let fin := bit (u8 p.payload 2) 0
      let b := slotWith s k sl o d
      let s := mramPut (if k = 0 then sl else 2) (slotBase k sl + o) d s
      { st := if fin then selectSlot p.t k sl b s else setVerified k sl false s
        data := [if fin then 1 else 0] ++ zeros 3 ++ le 4 (crc32c (b.take (o + d.length))), keep := durableNow p } }

/-- Offset and n of MEM_DATA_WRITE and MEM_DATA_READ. -/
def dataChecks (pl : List Byte) : List Check :=
  [(0, u32 pl 0 % 4 == 0 && decide (u32 pl 0 + u16 pl 4 ≤ 0x100000)), (4, decide (4 ≤ u16 pl 4) && decide (u16 pl 4 ≤ 4068) && u16 pl 4 % 4 == 0)] ++ resv pl 6 2

def specMemDataWrite : CmdSpec :=
  { opcode := 0x0F02, lenOk := fun b => decide (8 ≤ b.length) && b.length == 8 + u16 b 4
    checks := fun _ p => dataChecks p.payload
    run := fun p s =>
      { st := mramPut 12 (0x10F00000 + u32 p.payload 0) (p.payload.drop 8) s
        keep := durableNow p } }

def specMemDataRead : CmdSpec :=
  { opcode := 0x0F03, lenOk := len 8
    checks := fun _ p => dataChecks p.payload
    run := fun p s => { st := s, data := s.load (0x10F00000 + u32 p.payload 0) (u16 p.payload 4) } }

def specMemKeyInstall : CmdSpec :=
  { opcode := 0x0F04, lenOk := len 100, image := some 4
    lcBad := fun s _ => s.mem.lc != 1 && s.mem.lc != 2
    checks := fun _ p => (0, onP384 (slice p.payload 0 97)) :: resv p.payload 97 3
    run := fun p s => { st := s.modMem fun m => { m with ownerKey := some (slice p.payload 0 97) } } }

def specMemSerialSet : CmdSpec :=
  { opcode := 0x0F05, lenOk := len 8, image := some 4
    lcBad := fun s _ => s.mem.lc != 1
    modeBad := fun s _ => s.mem.serial.isSome
    run := fun p s => { st := s.modMem fun m => { m with serial := some p.payload } } }

/-! ### The life cycle (R542 to R546) -/

/-- The transitions of R543. -/
def lcListed (a b : Nat) : Bool :=
  [(0, 1), (1, 2), (2, 3), (3, 4), (4, 2), (2, 5), (3, 5), (4, 5)].contains (a, b)

/-- The key whose signature a transition needs, if any (R543). -/
def lcKey (s : State) (a b : Nat) : Option (List Byte) :=
  if (a = 3 ∧ b = 4) ∨ a = 4 then some Config.orhildKey else if b = 5 then some (s.mem.ownerKey.getD []) else none

/-- The further condition of a transition fails (R543). -/
def lcUnmet (s : State) (a b : Nat) : Bool :=
  if a = 1 ∧ b = 2 then s.mem.serial.isNone || s.mem.ownerKey.isNone
  else if a = 2 ∧ b = 3 then s.safety.log.password.isNone || !s.mem.verSup.all id
  else false

/-- The nonce of the latest challenge while it is valid: for 60 s (R544). -/
def State.lcNonce (s : State) : Option (List Byte) :=
  match s.mem.nonce with | some (b, t) => if s.time < t + 60000000000 then some b else none | none => none

/-- A signature that is needed is missing or fails (R544). -/
def lcUnsigned (s : State) (b : Nat) (sig : List Byte) : Bool :=
  match lcKey s s.mem.lc b with
  | none => false
  | some k =>
    match s.lcNonce with
    | none => true
    | some n =>
      (b == 5 && s.mem.lc != 4 && s.mem.ownerKey.isNone) ||
      !Config.ecdsaOk k (Config.sha384 (s.mem.serial.getD (zeros 8) ++ [BitVec.ofNat 8 s.mem.lc, BitVec.ofNat 8 b] ++ n)) sig

def specMemLcChallenge : CmdSpec :=
  { opcode := 0x0F06, lenOk := len 0, dryData := fun _ => some (zeros 16)
    run := fun _ s =>
      let n := s.freeBytes 4
      { st := (s.drawn 4).modMem fun m => { m with nonce := some (n, s.time) }, data := n } }

/-- A transition begun: the safe-stop ramp, then its record (R546). -/
def lcStart (t b : Nat) (s : State) : State :=
  let s := s.modMem fun m => { m with nonce := none, lcPend := some { lcFrom := m.lc, lcTo := b, recorded := false } }
  let s := beginRamp t s.modes.rampMs s
  if s.modes.ramping then s else lcRecord t s

def specMemLcTransition : CmdSpec :=
  { opcode := 0x0F07, lenOk := len 100
    lcBad := fun s p => !lcListed s.mem.lc (u8 p.payload 0)
    modeBad := fun s _ => !s.inSafeStop || s.eng.splice.isSome || s.eng.forceDissent != [] || s.mem.lcPend.isSome
    stateBad := fun s p => lcUnmet s s.mem.lc (u8 p.payload 0)
    checks := fun s p => resv p.payload 1 3 ++ (if (lcKey s s.mem.lc (u8 p.payload 0)).isNone then resv p.payload 4 96 else [])
    authBad := fun s p => lcUnsigned s (u8 p.payload 0) (slice p.payload 4 96)
    onReject := fun _ _ s => s.modMem fun m => { m with nonce := none }
    run := fun p s => { st := lcStart p.t (u8 p.payload 0) s } }

/-- Which of the twelve regions of R545 a transition erases: supervisor firmware, application image, configuration, safety image, change
log, captures, sealed log, application data, fleet key, owner key; and 1 generates the device key, 2 destroys it. -/
def lcErases (a b : Nat) : List Bool × Nat :=
  let e : List Nat → List Bool := fun l => l.map fun x => x == 1
  match a, b with
  | 0, _ => (e [1, 1, 1, 1, 1, 1, 1, 1, 1, 1], 1)
  | 1, _ => (e [0, 0, 1, 1, 1, 1, 1, 1, 1, 0], 0)
  | 2, 3 => (e [0, 0, 0, 0, 0, 1, 1, 0, 0, 0], 0)
  | 3, 4 => (e [0, 1, 0, 1, 0, 0, 0, 1, 1, 1], 0)
  | 4, 2 => (e [0, 0, 1, 1, 1, 1, 1, 1, 1, 0], 0)
  | _, _ => (e [1, 1, 1, 1, 1, 1, 1, 1, 1, 1], 2)

/-- An MRAM range erased. -/
def eraseMram (a n : Nat) (s : State) : State := s.modMem fun m => { m with mram := Mem.clear m.mram a n }

/-- One of the ten regions of `lcErases` erased. -/
def eraseRegion (i : Nat) (s : State) : State :=
  match i with
  | 0 => (eraseMram 0x10000000 0x400000 s).modMem fun m =>
      { m with verSup := [false, false], slotVer := [0, 0] ++ m.slotVer.drop 2, slotSec := [0, 0] ++ m.slotSec.drop 2 }
  | 1 => (eraseMram 0x10400000 0x200000 s).modMem fun m =>
      { m with verApp := [false, false], slotVer := m.slotVer.take 2 ++ [0, 0], slotSec := m.slotSec.take 2 ++ [0, 0] }
  | 2 =>
    let s := (s.modEng fun e => { e with stored := [], storedPrev := [] }).modMem fun m => { m with block := [], blockPrev := [] }
    let s := s.modClk fun c => { c with xrefHz := Clk.reset.xrefHz }
    s.modModes fun m => { m with startMode := Modes.reset.startMode, rampMs := Modes.reset.rampMs, backup := Modes.reset.backup }
  | 3 => s.modSafety fun z =>
      { z with
        active := Safety.reset.active, pending := none, applyNext := none, writing := none
        log := { z.log with password := none, failures := 0, lockUntil := 0, lockPeriod := SLog.reset.lockPeriod } }
  | 4 => s.modSafety fun z => { z with log := { z.log with entries := [], next := 0 } }
  | 5 => s.modRec fun r => { r with mram := [] }
  | 6 =>
    let b2 := s.husk.buf2.map fun b => { b with seq := 0 }
    let o : Sealed := { s.husk.opn with seq := if s.husk.buf2.isSome then 1 else 0 }
    { s with husk := { s.husk with blocks := [], lastHash := zeros 16, buf2 := b2, opn := o } }
  | 7 => eraseMram 0x10F00000 0x100000 s
  | 8 => s.modNet fun n => { n with fleetKey := none, benStored := 0, benNext := 0 }
  | _ => s.modMem fun m => { m with ownerKey := none }

/-- The erase of a transition and its record completed in the new state (R545, R546). -/
def lcErase (a b : Nat) (s : State) : State :=
  let e := lcErases a b
  let s := (List.range 10).foldl (fun s i => if e.1.getD i false then eraseRegion i s else s) s
  s.modMem fun m =>
    { m with lc := b, lcPend := none, devKey := if e.2 = 1 then true else if e.2 = 2 then false else m.devKey }

/-- MEM_LIFECYCLE (R540). -/
def lcEv (a b what : Nat) : Ev := ev 0x0F32 0 [BitVec.ofNat 8 a, BitVec.ofNat 8 b, BitVec.ofNat 8 what]

/-- The erase of a recorded transition completes (R546): the new state is recorded, and the device resets with cause 0x04. -/
def execLcEraseComplete (t : Nat) (s : State) : Res :=
  let s := s.advance t
  .next (match s.mem.lcPend with
    | some l => if l.recorded then deviceReset 4 ((lcErase l.lcFrom l.lcTo s).post t (lcEv l.lcFrom l.lcTo 1)) else s
    | none => s)

/-- A transition whose record is found pending at start-up is repeated from the beginning of its erase (R546). -/
def lcResume (t : Nat) (s : State) : State :=
  match s.mem.lcPend with
  | some l => if l.recorded then (lcErase l.lcFrom l.lcTo s).post t (lcEv l.lcFrom l.lcTo 2) else s
  | none => s

/-! ### MEM_SPLICE (R534, R535) -/

/-- The spare converter taken by a splice: a free one, else the shadowing one (spec/12_sensing.md R347). -/
def State.spliceSpare (s : State) : Option Nat := (s.convs 1 ++ s.convs 2).head?

/-- The named element is not in service (R535). -/
def notInService (s : State) (kind e : Nat) : Bool :=
  match kind with
  | 1 => s.eng.cores.getD e 0 != 1 || s.voters.length != 3
  | 2 => s.sense.roles.getD e 4 != 0
  | 3 => decide (5 ≤ (s.sar e).logical)
  | 4 => (s.cmp e).cell.isNone
  | 5 => s.clk.main != e || (!s.loopRetired && (s.loop s.standby).state != 1)
  | _ => false

/-- No spare of the kind remains (R535, R40). -/
def noSpareLeft (s : State) (kind e : Nat) : Bool :=
  match kind with
  | 1 => s.coresIn 0 == 0
  | 2 => s.convSpares == 0
  | 3 => s.sarSpare.isNone
  | 4 => (s.freeCell ((s.cmp e).cell.getD 52)).isNone
  | 5 => s.loopRetired
  | 6 => s.mem.rowSpares.getD e 0 == 0
  | _ => s.mem.secSpares == 0

/-- A splice of the kind runs (R535): a core's, or a converter's while the only spare confirms. -/
def splicing (s : State) (kind : Nat) : Bool :=
  match kind with
  | 1 => s.eng.splice.isSome || s.eng.forceDissent != []
  | 2 => s.convSpares != 0 && s.spliceSpare.isNone
  | _ => false

/-- The number of elements of a kind; positions of rows and sectors (R538). -/
def kindElements (kind : Nat) : Nat := ([1, 4, 26, 6, 52, 2, 24, 1] : List Nat).getD kind 1
def kindPositions (kind : Nat) : Nat := if kind = 6 then 2048 else if kind = 7 then 4096 else 1

/-- The standby loop takes over, and the old main is retired (R535). -/
def loopSplice (t l : Nat) (s : State) : State :=
  let s := (switchOver t 3 s).modLoop l fun x => { x with state := 3 }
  loopSpliced t l (s.post t (lockEv l 2 (Config.freeNat "CLK_LOCK cause of MEM_SPLICE" l % 256) (s.loop l).diff))

/-- The splice by the sequence of its kind (R534, R535). -/
def spliceNow (t kind e pos : Nat) (s : State) : State :=
  match kind with
  | 1 => s.modEng fun x => { x with forceDissent := x.forceDissent ++ [e] }
  | 2 => match s.spliceSpare with | some sp => retireConv t (s.sense.convAin.getD e 0) sp (t + 10) s | none => s
  | 3 => match s.sarSpare with | some sp => spliceSar t e sp s | none => s
  | 4 => failCell t e ((s.cmp e).cell.getD 52) s
  | 5 => loopSplice t e s
  | 6 => rowSplice t e pos s
  | _ => (sectorSplice t pos s).1

def specMemSplice : CmdSpec :=
  { opcode := 0x0F08, lenOk := len 4
    modeBad := fun s _ => s.mem.lcPend.isSome
    stateBad := fun s p => decide (u8 p.payload 1 < kindElements (u8 p.payload 0)) && notInService s (u8 p.payload 0) (u8 p.payload 1)
    checks := fun _ p => [inB p.payload 0 1 7, (1, decide (u8 p.payload 1 < kindElements (u8 p.payload 0))),
      (2, decide (u16 p.payload 2 < kindPositions (u8 p.payload 0)))]
    busyBad := fun s p => splicing s (u8 p.payload 0)
    spareBad := fun s p => noSpareLeft s (u8 p.payload 0) (u8 p.payload 1)
    run := fun p s =>
      { st := spliceNow p.t (u8 p.payload 0) (u8 p.payload 1) (u16 p.payload 2) s
        keep := if u8 p.payload 0 = 1 then (if p.ack then some fun d s => s.modCmd fun q => { q with durable := q.durable ++ [{ d with image := 3, bytes := setDurable d.bytes }] } else none)
          else durableNow p } }

/-! ### MEM_STATUS, MEM_HEALTH_READ (R538, R541) -/

/-- The 64 bytes of MEM_STATUS. -/
def memStatus (s : State) : List Byte :=
  let m := s.mem
  le 1 m.lc ++ le 1 (flagAt m.lcPend.isSome 0 + flagAt m.degraded 1 + flagAt m.ownerKey.isSome 2 + flagAt s.net.fleetKey.isSome 3 + flagAt m.serial.isSome 4) ++
  le 1 (m.bootSup + flagAt ((m.bootSup == 1) != s.sys.supSlotB) 7) ++ le 1 (if s.sys.d10Held then 0xFF else m.bootApp) ++
  ((List.range 24).map fun b => BitVec.ofNat 8 (m.rowSpares.getD b 0)) ++ le 2 m.secSpares ++ zeros 2 ++
  le 4 (m.secMin.getD 0 0) ++ le 4 (m.secMin.getD 1 0) ++ le 8 m.scrubAt ++ zeros 16

/-- Byte j of line l of the health record: R537 gives its counters and no layout, which is a free value (notes/assumptions/40.md). -/
def healthByte (s : State) (l j : Nat) : Byte :=
  let f := Config.freeNat "health record layout" (64 * l + j)
  BitVec.ofNat 8 (s.health (f / 4) / 256 ^ (f % 4))

def specMemStatus : CmdSpec := { opcode := 0x0F00, lenOk := len 0, run := fun _ s => { st := s, data := memStatus s } }

def specMemHealthRead : CmdSpec :=
  { opcode := 0x0F09, lenOk := len 4
    checks := fun _ p => [(2, decide (1 ≤ u16 p.payload 2) && decide (u16 p.payload 2 ≤ 63) && decide (u16 p.payload 0 + u16 p.payload 2 ≤ 4096))]
    run := fun p s =>
      { st := s
        data := (List.range (u16 p.payload 2)).flatMap fun i => (List.range 64).map fun j => healthByte s (u16 p.payload 0 + i) j } }

def execMemStatus (p : Packet) (s : State) : Res := runCommand specMemStatus p s
def execMemImageLoad (p : Packet) (s : State) : Res := runCommand specMemImageLoad p s
def execMemDataWrite (p : Packet) (s : State) : Res := runCommand specMemDataWrite p s
def execMemDataRead (p : Packet) (s : State) : Res := runCommand specMemDataRead p s
def execMemKeyInstall (p : Packet) (s : State) : Res := runCommand specMemKeyInstall p s
def execMemSerialSet (p : Packet) (s : State) : Res := runCommand specMemSerialSet p s
def execMemLcChallenge (p : Packet) (s : State) : Res := runCommand specMemLcChallenge p s
def execMemLcTransition (p : Packet) (s : State) : Res := runCommand specMemLcTransition p s
def execMemSplice (p : Packet) (s : State) : Res := runCommand specMemSplice p s
def execMemHealthRead (p : Packet) (s : State) : Res := runCommand specMemHealthRead p s

/-! ### The JTAG port (spec/21_package_electrical.md R577) -/

/-- IDCODE (R577): [31:28] DIE_REV, then 0x8256, 0x525 and 1. -/
def idcode (s : State) : Nat := s.sys.dieRev % 16 * 2 ^ 28 + 0x8256 * 2 ^ 12 + 0x525 * 2 + 1

/-- A JTAG instruction: 0 EXTEST, 1 SAMPLE/PRELOAD, 2 IDCODE, 3 BYPASS, 4 another that drives a pin, 5 any other. Those that drive pins are
executed in Blank, Manufacture and Return alone, and select the bypass register elsewhere. -/
def execJtagInstruction (t kind : Nat) (pins : List (Nat × Bool)) (s : State) : Res :=
  let s := s.advance t
  let drives := kind == 0 || kind == 4
  let ok := s.mem.lc == 0 || s.mem.lc == 1 || s.mem.lc == 4
  within kind 6 (s.modMem fun m =>
    { m with jtagIr := if drives && !ok then 3 else if 4 ≤ kind then 4 else kind, jtagDr := if kind = 2 then idcode s else 0, extestPins := if drives && ok then pins else [] })

end Sys2Proof.Machine
end

