-- ==== Sys2Proof/Machine/HuskKeeper.lean ====
section
/-! DEFINITION. The husk keeper and its command group (spec/20_husk.md). -/

namespace Sys2Proof.Machine

def State.modHusk (f : Husk → Husk) (s : State) : State := { s with husk := f s.husk }

/-- An event of the husk (R554, R562): appended to the open block in every state; on the rings at once while the supervisor runs, at the
next Ready otherwise. -/
def huskPost (t : Nat) (e : Ev) (s : State) : State :=
  let time := if s.sys.ready then s.stamp t else s.time
  let s := if s.husk.d0Up then s.modHusk fun h => h.append (e.record time 0 false) else s
  if s.sys.ready then recEventTriggers time e (markEvent time e (postRings time e s))
  else s.modHusk fun h => { h with waiting := h.waiting ++ [e.record time 0 false] }

/-! ### Stores and states (R547 to R549) -/

/-- A quantity with a rising and a falling threshold (R548). -/
def hyst (on off v : Nat) (was : Bool) : Bool := decide (on ≤ v) || (was && decide (off ≤ v))

/-- The husk's state changed, with HUSK_STATE. -/
def huskEnter (t st : Nat) (s : State) : State :=
  let old := s.husk.state
  if old = st then s
  else huskPost t (ev 0x1030 0 ([BitVec.ofNat 8 old, BitVec.ofNat 8 st] ++ le 2 s.husk.vls)) (s.modHusk fun h => { h with state := st })

/-- The state that R549 gives while D0 runs and is not Dark. -/
def Husk.target (h : Husk) (io : Bool) : Nat :=
  if h.sealing.isSome then 1 else if io then 0 else if 2600 ≤ h.vls then 2 else 3

/-- The store that is charged while VDD_IO is good (R548): VQS to 2.5 V, then VLS to VLS_MAX. -/
def Husk.chargeTo (h : Husk) (io : Bool) : Nat := if !io then 0 else if h.vqs < 2500 then 1 else if h.vls < 10 * h.vlsMax then 2 else 0

/-- The charger and the state taken anew. -/
def huskSettle (t : Nat) (s : State) : State :=
  let s := s.modHusk fun h => { h with charging := if h.d0Up then h.chargeTo s.sys.railIo else 0 }
  if s.husk.d0Up ∧ s.husk.state ≠ 4 then huskEnter t (s.husk.target s.sys.railIo) s else s

/-- KEEP_OUT as R548 has it, with HUSK_KEEP when it changes: cause 0 command, 1 VLS, 2 ready. -/
def keepSettle (t cause : Nat) (s : State) : State :=
  let on := s.husk.keepReady && s.husk.keepEn
  if on = s.husk.keepOn then s
  else huskPost t (ev 0x1034 0 [if on then 1 else 0, BitVec.ofNat 8 cause]) (s.modHusk fun h => { h with keepOn := on })

/-- The thresholds of R548 against the present voltages. -/
def thresholds (t : Nat) (s : State) : State :=
  let h := s.husk
  let pg := hyst 3600 2400 h.vls h.pg
  let kr := hyst 3000 2600 h.vls h.keepReady
  let s := s.modHusk fun h => { h with pg := pg, keepReady := kr, vqsReady := decide (2110 ≤ h.vqs) }
  let s := if pg = h.pg then s else huskPost t (ev 0x1033 0 [if pg then 1 else 0]) s
  huskSettle t (keepSettle t (if kr then 2 else 1) s)

/-- The stores' voltages as measured, mV. -/
def setVolts (vqs vls : Nat) (s : State) : State := s.modHusk fun h => { h with vqs := vqs, vls := vls }

/-- A store voltage crosses a threshold (R548). -/
def execVlsThreshold (t vqs vls : Nat) (s : State) : Res :=
  let s := setVolts vqs vls (s.advance t)
  .next (if s.husk.d0Up ∧ s.husk.state ≠ 4 then thresholds t s else s)

/-- Time marked lost (R552), in the open block's flags too: without the supervisor the RTC counts from 0. -/
def markLost (t why : Nat) (s : State) : State :=
  let s := if s.timeLoaded then s else { s with time := 0 }
  huskPost t (ev 0x1032 0 [BitVec.ofNat 8 why])
    (s.modHusk fun h => { h with timeLost := true, rtc := 0, opn := { h.opn with sflags := h.opn.sflags ||| 8 } })

/-- The D0 supply without VDD_IO, mV: the higher of the stores (R548). -/
def Husk.supply (h : Husk) : Nat := max h.vqs h.vls

/-- The D0 supply falls below 1.8 V without VDD_IO (R548, R552): Dark, the RTC stopped, time lost. -/
def execHuskTimeLost (o : StoresAt) (s : State) : Res :=
  let s := setVolts o.v.vqs o.v.vls (s.advance o.t)
  .next (if s.husk.d0Up ∧ !s.sys.railIo ∧ s.husk.state ≠ 4 ∧ s.husk.supply < 1800 then markLost o.t 1 (huskEnter o.t 4 s) else s)

/-- D0 after its reset: the open block, the second buffer, the counters and the configuration are lost (R548, R559); what is in MRAM and the
stores' charge stay. -/
def Husk.afterD0 (h : Husk) : Husk :=
  { Husk.reset with
    cfgStored := h.cfgStored, vqs := h.vqs, vls := h.vls, teg := h.teg, tegMv := h.tegMv, tegUw := h.tegUw, blocks := h.blocks }

/-- The D0 supply falls below 1.5 V (R548). -/
def execD0Reset (o : StoresAt) (s : State) : Res :=
  let s := setVolts o.v.vqs o.v.vls (s.advance o.t)
  .next (if s.husk.d0Up ∧ !s.sys.railIo ∧ s.husk.supply < 1500 then s.modHusk Husk.afterD0 else s)

/-- The D0 supply rises to 1.8 V (R548, R552): D0 starts with its thresholds not ready and time marked lost; from Dark without a D0 reset it
goes on with what it retained. -/
def execD0PowerOn (t vqs vls : Nat) (s : State) : Res :=
  let s := setVolts vqs vls (s.advance t)
  let s :=
    if !s.sys.railIo ∧ s.husk.supply < 1800 then s
    else if s.husk.d0Up then (if s.husk.state = 4 then thresholds t (huskEnter t (s.husk.target s.sys.railIo) s) else s)
    else
      let s := s.modHusk fun h => { h with d0Up := true, txGate := h.teg }
      let s := huskEnter t (s.husk.target s.sys.railIo) (markLost t 2 s)
      let s := if s.husk.teg then huskPost t (ev 0x1035 0 ([1, 0] ++ le 2 s.husk.tegMv)) s else s
      thresholds t s
  .next s

/-- VDD_IO good while another rail is not (R548, spec/02_startup_reset.md R43): D0 moves onto VDD_IO and the husk enters Main; the pad clamps
hold the outputs (R35, R53). -/
def execVddIoGood (o : RailAt) (s : State) : Res :=
  let s := (s.advance o.t).modSys (Sys.noteRail 2 o.o)
  .next (if s.sys.railIo ∨ (s.sys.railCore ∧ s.sys.railAn) ∨ !railNext 2 false o.o then s
    else
      let s := s.modSys fun y => { y with railIo := true }
      if s.husk.d0Up then thresholds o.t (huskEnter o.t (s.husk.target true) s) else s)

/-! ### The harvester (R550) -/

/-- The harvester started or stopped. -/
def tegTo (t : Nat) (on : Bool) (s : State) : State :=
  if s.husk.teg = on then s
  else
    let s := s.modHusk fun h => { h with teg := on, txGate := on && h.d0Up, tegUw := if on then h.tegUw else 0 }
    if s.husk.d0Up then huskPost t (ev 0x1035 0 ([if on then 1 else 0, 0] ++ le 2 s.husk.tegMv)) s else s

/-- The harvester starts or stops, with the open-circuit voltage in 0.1 mV. -/
def execHuskTeg (t : Nat) (on : Bool) (voc : Nat) (s : State) : Res :=
  .next (tegTo t on ((s.advance t).modHusk fun h => { h with tegMv := voc }))

/-- The measurement of each second while the harvester runs: below 20 mV it stops. -/
def execTegMeasure (t voc uw : Nat) (s : State) : Res :=
  let s := s.advance t
  .next (if s.husk.teg ∧ s.husk.d0Up ∧ elapsed s.husk.tegAt 1000000000 t then
      let s := s.modHusk fun h => { h with tegMv := voc, tegUw := uw, tegAt := t }
      if voc < 200 then tegTo t false s else s
    else s)

/-! ### Time (R551, R552) -/

/-- The drift observed since the last write, in steps of 0.1 ppm, nearest (R551): the RTC's reading less device time, over the time between. -/
def Husk.drift (h : Husk) (now : Nat) (dev : Int) : Int :=
  let e := now - h.rtcWritten
  if e = 0 then 0 else (20000000 * dev + e) / (2 * e)

/-- The supervisor writes device time into the RTC (R551). -/
def rtcWrite (s : State) : State := s.modHusk fun h => { h with rtc := s.time, rtcWritten := s.time }

/-- Each second (R551), with the RTC's reading less device time in ns: device time is written, and the rate trimmed by the drift observed. -/
def execRtcWrite (o : RtcAt) (s : State) : Res :=
  let s := s.advance o.t
  .next (if s.timeLoaded ∧ s.husk.d0Up ∧ elapsed s.husk.rtcWritten 1000000000 o.t then
      rtcWrite (s.modHusk fun h => { h with rtcTrim := h.rtcTrim - h.drift s.time o.dev })
    else s)

/-! ### The sealed log and power failure (R553 to R558) -/

/-- A block written to its place in the region: the latest 1,024 are retained. -/
def Husk.keepBlock (b : Sealed) (h : Husk) : Husk :=
  let l := h.blocks ++ [b]
  { h with blocks := l.drop (l.length - 1024) }

/-- A full block written to MRAM while VDD_IO is good (R554). -/
def execSealedBlockWrite (t : Nat) (s : State) : Res :=
  let s := s.advance t
  .next (match s.husk.buf2 with
    | some b => if s.sys.railIo then (s.modHusk fun h => { h.keepBlock b with buf2 := none }).countN (hcMram 8) 32 else s
    | none => s)

/-- E_LS times 250, and E_commit and other energies in 0.1 µJ (R555). -/
def Husk.els250 (h : Husk) : Nat := if h.vls < 3000 then 0 else h.cLs * (h.vls * h.vls - 9000000)
def eCommit10 (lines : Nat) : Nat := 150 + 7 * lines
/-- E_LS covers an energy in 0.1 µJ. -/
def Husk.funds (h : Husk) (e10 : Nat) : Bool := decide (25 * e10 ≤ h.els250)

/-- The decision of R555: the seal's source (0 none, 1 VQS, 2 VLS), and whether the commit burst is funded. -/
def Husk.decide (h : Husk) : Nat × Bool :=
  let ec := eCommit10 h.commitLines
  if h.vqsReady then (1, h.funds ec) else if h.funds (400 + ec) then (2, true) else if h.funds 400 then (2, false) else (0, false)

/-- The power failure of R555, with the store voltages of that instant: HUSK_POWER_FAIL in the open block, the bursts decided, the seal's block
closed. A block that is full already is the one sealed (R558). -/
def powerFailure (t vqs vls : Nat) (s : State) : State :=
  let s := (setVolts vqs vls s).modHusk fun h => { h with vqsReady := decide (2110 ≤ h.vqs) }
  let h := s.husk
  if !h.d0Up ∨ h.powerFail ∨ h.sealing.isSome then s
  else
    let d := h.decide
    let commit := d.2 && h.commitLines != 0
    let skip := !d.2 && h.commitLines != 0
    let rails := flagAt (!s.sys.railCore) 0 + flagAt (!s.sys.railAn) 1 + flagAt (!s.sys.railIo) 2
    let what := flagAt (d.1 == 1) 0 + flagAt (d.1 == 2) 1 + flagAt (d.1 == 0) 2 + flagAt commit 3 + flagAt skip 4
    let e := ev 0x1031 0 ([BitVec.ofNat 8 rails, BitVec.ofNat 8 what] ++ le 2 vqs ++ le 2 vls)
    let flags := flagAt commit 0 + flagAt skip 1
    let shut (s : State) : State := s.modHusk fun h => let c := h.close 2 flags; { c.2 with sealing := some c.1, sealFrom := d.1, commitBurst := commit }
    let s := if d.1 = 0 then huskPost t e s else if h.opn.events.length < 63 then shut (huskPost t e s) else huskPost t e (shut s)
    huskSettle t (s.modHusk fun h => { h with powerFail := true })

/-- The burst ends (R556): the sealed block stands in MRAM; with every rail good again the power-on-reset hold begins (R558). -/
def execBurstComplete (t : Nat) (s : State) : Res :=
  let s := s.advance t
  .next (match s.husk.sealing with
    | none => s
    | some b =>
      let s := s.modHusk fun h => { h.keepBlock b with sealing := none, sealFrom := 0, commitBurst := false }
      let s := huskSettle t (s.countN (hcMram 8) (min ((b.events.length + 1) / 2 + 1) 32))
      if s.sys.railCore ∧ s.sys.railAn ∧ s.sys.railIo ∧ s.sys.boot = .off then s.modSys fun y => { y with boot := .hold } else s)

/-- The tail of a capture that a commit burst can still write (R556, spec/14_recorder.md R414): one line in progress, two of header and marks,
then whole blocks in order. -/
def tailBlocks : Nat → List Block → List Block
  | _, [] => []
  | n, b :: r => let k := (b.bytes + 63) / 64; if k ≤ n then b :: tailBlocks (n - k) r else []

/-- The capture in progress with AUTO_COMMIT at a power failure (R414): it ends at detection, and its blocks up to detection − 50 µs are
committed with truncated set. -/
def commitTail (t : Nat) (s : State) : State :=
  match s.recorder.cur with
  | some c =>
    if s.recorder.state = 2 ∧ c.committing ∧ s.husk.commitBurst then
      let d := s.finished { c with tEnd := min c.tEnd t, trunc := true, committing := false }
      let inWin := d.blocks.filterMap (Block.within (c.tTrig - (s.recorder.pre * 1000 : Nat)) ((t : Int) - 50000))
      let blocks := tailBlocks (s.husk.commitLines - 3) inWin
      let c : Capture := { d with blocks := blocks, bytes := blockBytes blocks }
      if s.recorder.roomFor c.bytes then
        s.modRec fun r => let r := makeRoom c.bytes r.mram.length r; { r with mram := r.mram ++ [c] }
      else s
    else s
  | none => s

/-- What the supervisor does with the husk at Ready (R554, R559, R562): after a D0 restart the stored configuration is restored and the next
block takes its number from the region; the open block is continued; the husk's events wait no longer. -/
def huskReady (s : State) : State :=
  let h := s.husk
  let restored : Husk := match h.cfgStored with
    | some [k, c, v, n, m] => { h with keepEn := k == 1, cLs := c, vlsMax := v, commitLines := n, sealMask := m }
    | _ => h
  let next := match h.blocks.getLast? with | some b => b.seq + 1 | none => 0
  let hash := match h.blocks.getLast? with | some b => b.hash | none => zeros 16
  let fresh : Husk :=
    { restored with opn := { restored.opn with seq := next, sflags := restored.opn.sflags ||| 16 }, lastHash := hash }
  let carried : Husk := { h with opn := { h.opn with cause := if h.opn.events = [] then 0 else 3 } }
  let late := h.waiting
  let s := s.modHusk fun _ => { (if h.d0Restarted then fresh else carried) with d0Restarted := false, lostSinceReady := 0, waiting := [] }
  late.foldl (fun s r => postRings (u64 r 0) { id := u16 r 8, source := u16 r 10, data := slice r 16 16, tie := false } s) s

/-! ### Commands (R559 to R561) -/

def specHuskConfig : CmdSpec :=
  { opcode := 0x1000, lenOk := len 16, image := some 3
    checks := fun _ p => [maskB p.payload 0 1] ++ resv p.payload 1 1 ++ [inH p.payload 2 10 220, inH p.payload 4 360 500, inH p.payload 6 0 4096] ++
      resv p.payload 10 2 ++ resv p.payload 12 4
    energyBad := fun s p => decide (s.husk.commitLines < u16 p.payload 6) && !s.husk.funds (eCommit10 (u16 p.payload 6))
    run := fun p s =>
      { st := huskSettle p.t <| keepSettle p.t 0 (s.modHusk fun h =>
          { h with
            keepEn := bit (u8 p.payload 0) 0, cLs := u16 p.payload 2, vlsMax := u16 p.payload 4, commitLines := u16 p.payload 6
            sealMask := u16 p.payload 8 }) } }

/-- The 32 bytes of HUSK_STATUS (R561). -/
def huskStatus (s : State) : List Byte :=
  let h := s.husk
  let d := h.decide
  le 1 h.state ++
  le 1 (flagAt h.pg 0 + flagAt h.keepOn 1 + flagAt h.keepReady 2 + flagAt h.teg 3 + flagAt h.timeLost 4 +
    flagAt (d.2 && h.commitLines != 0) 5 + flagAt h.vqsReady 6) ++
  le 2 h.vqs ++ le 2 h.vls ++ le 2 h.tegMv ++ le 4 h.tegUw ++ le 4 (h.els250 / 250) ++ le 4 (eCommit10 h.commitLines / 10) ++
  le 4 h.opn.seq ++ le 1 h.opn.events.length ++ zeros 1 ++ le 2 h.lostSinceReady ++ le 4 ((s.time - h.rtcWritten) / 1000000000)

def specHuskStatus : CmdSpec := { opcode := 0x1001, lenOk := len 0, run := fun _ s => { st := s, data := huskStatus s } }

def specHuskTimeSet : CmdSpec :=
  { opcode := 0x1002, lenOk := len 8
    modeBad := fun s _ => s.timeValid
    checks := fun _ p => [(0, u64 p.payload 0 != 0)]
    run := fun p s => { st := rtcWrite ((s.stepTime (u64 p.payload 0)).modHusk fun h => { h with timeLost := false }) } }

/-- The block of a sequence number: retained, or the open one, whose seal record holds only its first five bytes (R559). -/
def Husk.logBlock (h : Husk) (n : Nat) : Option (List Byte) :=
  if n = h.opn.seq then
    some (le 4 n ++ [1] ++ zeros 3 ++ fit 2016 h.opn.events.flatten ++ le 4 h.opn.seq ++ le 1 h.opn.events.length ++ zeros 27)
  else (h.blocks.find? fun b => b.seq == n).map fun b => le 4 n ++ zeros 4 ++ b.head ++ fit 16 b.hash

def specHuskLogRead : CmdSpec :=
  { opcode := 0x1003, lenOk := len 8
    checks := fun s p => (0, (s.husk.logBlock (u32 p.payload 0)).isSome) :: resv p.payload 4 4
    run := fun p s => { st := s, data := (s.husk.logBlock (u32 p.payload 0)).getD [] } }

def execHuskConfig (p : Packet) (s : State) : Res := runCommand specHuskConfig p s
def execHuskStatus (p : Packet) (s : State) : Res := runCommand specHuskStatus p s
def execHuskTimeSet (p : Packet) (s : State) : Res := runCommand specHuskTimeSet p s
def execHuskLogRead (p : Packet) (s : State) : Res := runCommand specHuskLogRead p s

end Sys2Proof.Machine
end

