-- ==== Sys2Proof/Machine/Hitch.lean ====
section
/-! DEFINITION. The hitch swap (spec/05_sheaf_table.md R142 to R146, spec/03_command_interface.md R68). -/

namespace Sys2Proof.Machine

/-- The deferrable opcodes (R68). -/
def deferrable : List CmdSpec :=
  [specSheafEnable, specSheafLimitsSet, specSheafMapSet, specProfileTarget, specProfileHold, specGridTrackerConfig, specGridFunction,
   specGridSetpoint, specGridVsmConfig, specGridLimits, specPortMpptConfig, specPortEnable, specPortBatSet, specPwmDutySet]

/-- DEFER_DROPPED (R151): its source is the channel; of a command that names no channel the source is not stated, a free value. -/
def dropEv (c : CmdSpec) (p : Packet) (st : Status) : Ev :=
  let src := match c.channel with | some f => f p.payload | none => Config.freeNat "DEFER_DROPPED source without a channel" c.opcode % 65536
  ev 0x0234 src (le 2 p.tag.toNat ++ le 2 st.code ++ le 2 c.opcode)

/-- One deferred command at the swap: applied, or discarded with DEFER_DROPPED; the numbers applied and dropped so far go with it. -/
def swapOne (t : Nat) (x : State × Nat × Nat) (d : Deferred) : State × Nat × Nat :=
  let s := x.1.modCmd fun c => { c with deferred := c.deferred.erase d }
  match deferrable.find? fun c => c.opcode == d.opcode with
  | none => (s, x.2)
  | some c =>
    let p := { d.pkt with t := t }
    let r := c.applyDeferred p s
    match r.2 with
    | none => (r.1, x.2.1 + 1, x.2.2)
    | some st => (r.1.post t (dropEv c p st), x.2.1, x.2.2 + 1)

/-- The swap of hitch group g (R145). -/
def hitchSwap (t g : Nat) (s : State) : State :=
  let ms := s.members g
  let flip (v : Nat) : Nat := (v - bits v 3 3 * 8) ^^^ 16
  let s := ms.foldl (fun s n => deviceBits n flip s) s
  let r := (s.cmd.deferred.filter fun d => d.group == g).foldl (swapOne t) (s, 0, 0)
  let s := r.1.modEng fun e => { e with hitch := upd e.hitch g fun h => { h with armed := false } }
  s.post t (ev 0x0231 g (le 2 ms.length ++ le 2 r.2.1 ++ le 2 r.2.2))

/-- The base tick at t is the swap boundary of group g (R143): at or after the request, a boundary of every rate group in use that holds a member. -/
def State.swapAt (s : State) (t g : Nat) : Bool :=
  let h := s.eng.hitch.getD g Hitch.reset
  h.armed && decide (h.request ≤ t) && s.eng.hasRate && s.eng.tickAt == t &&
  (s.members g).all fun n => let r := chGroup s.eng.run n; !s.groupUsed r || s.isBoundary r

/-- The swap of group g when it is armed and its boundary has come. -/
def swapDue (t g : Nat) (s : State) : State := if s.swapAt t g then hitchSwap t g s else s

/-- A hitch swap on its boundary (R145). -/
def execHitchSwapped (t g : Nat) (s : State) : Res := within g 16 (swapDue t g (s.advance t))

end Sys2Proof.Machine
end

