-- ==== Sys2Proof/Machine/Load.lean ====
section
/-! DEFINITION. Load events of legs (spec/11_pwm.md R316 to R331), and the delivery of a pipeline sample or a housekeeping result to every group
that reads it (spec/12_sensing.md R340, R354; spec/95_what_each_step_holds.md). -/

namespace Sys2Proof.Machine

/-! ### Load events -/

/-- A leg's carrier delay in 125 ps steps (R318): its phase as a fraction of a period of n counts, nearest step, ties up. -/
def phaseSteps (phase : Int) (n : Nat) : Int := (phase * n + 2048) / 4096

/-- A phase in steps as a leg's local carrier takes it: whole counts on the ring oscillator (R332). -/
def State.phaseDelay (s : State) (phase : Int) (n : Nat) : Int :=
  if s.d6Ring then (phaseSteps phase n + 8) / 16 * 16 else phaseSteps phase n

/-- The change of the local period by a new phase: within half a turn (R318). -/
def State.phaseShift (s : State) (old new : Int) (n : Nat) : Int :=
  let p : Int := 16 * n
  (s.phaseDelay new n - s.phaseDelay old n + p / 2) % p - p / 2

/-- The shadow as the load event at t takes it (R325, R326): a write counts when it completed before the event; one that completes at its instant leaves
what an earlier one wrote. -/
def Leg.latched (t : Nat) (l : Leg) : Leg :=
  if !l.shNew then l
  else if l.shAt < t then { l with acDuty := l.shDuty, acPhase := l.shPhase, shNew := false, shOld := none }
  else match l.shOld with
    | some (d, p) => { l with acDuty := d, acPhase := p, shOld := none }
    | none => l

/-- A Starting leg may take its first load event (R329, R330): 2 µs, and the bootstrap precharge, have passed. -/
def Leg.startReady (t : Nat) (l : Leg) : Bool :=
  l.preDone && decide (l.startedAt + (if l.boot then l.bootPre * 1000 else 2000) ≤ t)

/-- The other leg of a three-level phase (R320): positions 0 and 1 stand next to each other in the grid configuration. -/
def State.phasePartner (s : State) (n : Nat) : Option Nat :=
  match s.grid.cfg with
  | none => none
  | some c =>
    let i := c.legs.findIdx fun x => x == n
    let r := (s.leg n).role
    let j := if r = 3 then some (i + 1) else if r = 4 ∧ 0 < i then some (i - 1) else none
    match j with
    | some k => let m := c.legs.getD k 255; if (s.leg m).role = 7 - r then some m else none
    | none => none

/-- The duty asked of a leg at the load event (R319, R333): a test leg stays below its ceiling, and an unowned battery leg out of test runs at half. -/
def State.askedDuty (s : State) (n : Nat) (l : Leg) : Int :=
  let v := l.acDuty.toInt
  if l.state = 4 then min v l.testCeil.toInt
  else if (l.role = 7 ∨ l.role = 8) ∧ !s.owned 1 n then 0x4000
  else v

/-- Both legs of a three-level phase receive a positive duty (R320): flagged, counted, and posted at most once in any second. -/
def interlock (t n m : Nat) (s : State) : State :=
  let (p0, p1) := if (s.leg n).role = 3 then (n, m) else (m, n)
  let s := s.modLeg n fun l => { l with flags := l.flags ||| 4, lockCount := if l.role = 3 then l.lockCount + 1 else l.lockCount }
  let d (k : Nat) : List Byte := le 2 ((s.leg k).latched t).acDuty.toNat
  let due : Bool := match (s.leg p0).lockEvtAt with | some a => decide (a + 1000000000 ≤ t) | none => true
  if due then
    let s' := s.modLeg p0 fun l => { l with lockEvtAt := some t }
    s'.post t (ev 0x0731 p0 ([BitVec.ofNat 8 p1, 0] ++ d p0 ++ d p1))
  else s

/-- The refresh limit acts (R331): flagged, and posted at most once in any second. -/
def bootLimit (t n : Nat) (asked applied : Int) (s : State) : State :=
  let s := s.modLeg n fun l => { l with flags := l.flags ||| 2, bootActAt := some t }
  let due : Bool := match (s.leg n).bootEvtAt with | some a => decide (a + 1000000000 ≤ t) | none => true
  if due then
    (s.modLeg n fun l => { l with bootEvtAt := some t }).post t (ev 0x0732 n (leI 2 asked ++ leI 2 applied))
  else s

/-- The end of the last qualifying PWML interval as the load event at t finds it (R330): one still on qualifies once it is long enough. -/
def Leg.refreshed (d : D6Clock) (t : Nat) (x : Int) (old l : Leg) : Nat :=
  let start : Option Int := if old.pwmL then some (8 * ((old.onL : Int) - old.loadAt)) else none
  let done := old.edges.filter fun e => decide (e.1 ≤ x - old.loadD)
  let r := refreshFrom d old start done old.refreshEnd
  if l.pwmL ∧ l.onL + l.bootRefresh * 10 ≤ t then t else r

/-- The duty that a leg receives at the load event at t (R320). -/
def State.dutyAt (s : State) (t n : Nat) : Int := s.askedDuty n ((s.leg n).latched t)

/-- The interval of L steps placed for a leg in carrier compare (R316 to R321, R330, R331): what is asked of it, 0 where both legs of its phase ask for
more, and d_lim where a refresh is due. -/
def placeCompare (t n : Nat) (peak : Bool) (mode L : Nat) (s : State) : State :=
  let l := s.leg n
  let ring := s.d6Ring
  let asked := s.askedDuty n l
  let both := match s.phasePartner n with | some m => decide (0 < asked) && decide (0 < s.dutyAt t m) | none => false
  let s := match s.phasePartner n with | some m => if both then interlock t n m s else s | none => s
  let v : Int := if both then 0 else asked
  let refresh := l.needsRefresh s.pwm.d6 t L
  let lim : Int := l.dLim L
  let limited := refresh && decide (lim < v)
  let app : Int := if limited then lim else v
  let s := if limited then bootLimit t n asked app s else s
  let parts := if refresh then [(0, dutySteps ring (dutyOf app) L)] else onParts ring mode l.loads peak L (dutyOf app)
  s.modLeg n fun l =>
    let l := { l with applied := BitVec.ofInt 16 (max 0 app), flags := if asked < 0 then l.flags ||| 8 else l.flags }
    l.placeParts ring L parts

/-- The interval of L steps placed for a leg in current mode (R322): its duty is a threshold. Where a refresh is due PWMH ends at d_lim at the latest,
and the limit has acted where D_MAX is above it (R330, R331; notes/assumptions/31.md). -/
def placeCurMode (t n L : Nat) (s : State) : State :=
  let l := s.leg n
  let ring := s.d6Ring
  let asked := s.askedDuty n l
  let refresh := l.needsRefresh s.pwm.d6 t L
  let off := if refresh then min L (dutySteps ring (l.dLim L) L) else L
  let s := if refresh && decide (l.dLim L < l.dMax) && l.lmode == 1 then bootLimit t n l.dMax (l.dLim L) s else s
  s.modLeg n fun l =>
    let l := { l with applied := BitVec.ofInt 16 (max 0 asked), flags := if asked < 0 then l.flags ||| 8 else l.flags }
    l.placeCurrent ring L (dutySteps ring l.dMax L) off

/-- The edges of the interval that begins at t, D6 step x, placed (R316 to R324, R330, R331, R322). An interval that a new phase shortens to nothing runs to
the next load event of its kind (R318). -/
def placeInterval (t n : Nat) (peak : Bool) (b : TbCfg) (x shift : Int) (s : State) : State :=
  let old := s.leg n
  let iv : Int := loadInterval b old.loads
  let L := (if 0 < iv + shift then iv + shift else iv + shift + 16 * b.n).toNat
  let s := s.modLeg n fun l => { l.rebase s.pwm.d6 t x with refreshEnd := old.refreshed s.pwm.d6 t x (old.rebase s.pwm.d6 t x) }
  if old.lmode = 0 then placeCompare t n peak b.mode L s else placeCurMode t n L s

/-- A comparator that shows at the start of a current-mode interval what ends its first part acts at once (R322), unless blanking of the leg's own turn-on
edge is about to mask it: then it asserts again when the window ends (spec/13_protection.md R374). -/
def curStart (t n : Nat) (s : State) : State :=
  let l := s.leg n
  let c := s.cmp l.cmp
  let masked := c.blankLeg == n && decide (0 < c.blankNs) && bit c.blankEdges (if l.lmode = 1 then 0 else 1)
  if (l.lmode = 1 ∧ c.above ∧ !masked) ∨ (l.lmode = 2 ∧ !c.above) then curEdge t n s else s

/-- The instant of leg n's local carrier that a load event at t is at: the valley, or the peak of an up-down carrier, as the leg is configured, delayed by its
active phase (R314, R318); none where t is no such instant, or has had its load event. -/
def State.loadHit (s : State) (t n : Nat) (peak : Bool) : Option Int :=
  let l := s.leg n
  let b := (s.tb l.tb).inForce
  let offered := l.hasCfg && b.enable && (if peak then b.mode == 2 && bit l.loads 1 else bit l.loads 0)
  if offered then
    (s.carrierHit t l.tb (s.phaseDelay l.acPhase.toInt b.n + if peak then 8 * b.n else 0)).filter fun x => decide (l.loadD < x)
  else none

/-- What a load event at t, D6 step x, does (R325, R326, R329): the shadow is copied to the active register; a Starting leg that is ready enters Switching,
unless its group reacts (spec/01_architecture.md R25); edges are placed, but for a test leg from the load event after its start on; decimators and
comparators follow. -/
def loadNow (t leg : Nat) (peak : Bool) (x : Int) (s : State) : State :=
  let l := s.leg leg
  let b := (s.tb l.tb).inForce
  let waits := l.state == 1 && (!l.startReady t || l.sto || s.inReaction leg)
  let s := if waits then s else s.modLeg leg (Leg.latched t)
  let shift := s.phaseShift l.acPhase.toInt (s.leg leg).acPhase.toInt b.n
  let s := if l.state = 1 ∧ !waits then legTo t leg 2 0 s else s
  let y := s.leg leg
  let s := if (y.state = 2 ∨ (y.state = 4 ∧ y.startedAt < t)) ∧ !y.sto then placeInterval t leg peak b x shift s
    else if waits then s else s.modLeg leg fun l => { l with loadAt := t, loadD := x }
  curStart t leg (cmpLoad leg (decimLoad leg t s))

/-- A leg's load event (R325): where its local carrier comes to one at t. -/
def execLoadEvent (t leg : Nat) (peak : Bool) (s : State) : Res :=
  let s := pwmSettle t (s.advance t)
  within leg 48 (match s.loadHit t leg peak with
    | some x => loadNow t leg peak x (d6Sync t x s)
    | none => s)

/-! ### Samples and results -/

/-- The oldest boundary whose pass is still to come. -/
def State.oldestDue (s : State) : Option Nat :=
  s.eng.due.foldl (fun m r => some (match m with | some x => min x r.atT | none => r.atT)) none

/-- A decimator result delivered to its readers (R342): the DC-link defence, the PV port engine, the islanding detector, window monitors and the recorder. An invalid
one does not reach the defence or the port engine (notes/assumptions/32.md). -/
def ainResult (t a out stamp : Nat) (v : Int) (valid : Bool) (quad : Int) (s : State) : State :=
  let d := (s.ain a).outs.getD out Decim.reset
  let s := if valid then awnSample stamp a out v quad (pvTap 1 a out stamp v (dclSample t a out v s)) else s
  recResult t 1 a out stamp (s.groupDelay d) v valid d.clipped (monResult t false a out v valid s)

/-- The four outputs of an input take a sample (R342 to R344). -/
def decimSample (t a : Nat) (v : Int) (bad clip : Bool) (quad : Int) (s : State) : State :=
  (List.range 4).foldl (fun s o =>
    let d := (s.ain a).outs.getD o Decim.reset
    let r := d.sample s.oldestDue t v bad clip
    let s := s.modAin a fun x => { x with outs := x.outs.set o r.1 }
    r.2.foldl (fun s x => ainResult t a o x.1 x.2.1 x.2.2 quad s) s) s

/-- The measured angle that the tracker has with a sample of a front G input (spec/07_grid_current.md R190, R197). -/
def frontAngle (t a : Nat) (angle : Option Nat) (s : State) : State :=
  match s.grid.cfg, angle with
  | some c, some x => if c.frontG.contains a then angleSample t x s else s
  | _, _ => s

/-- A pipeline sample (R340): the code of AIN a with aperture t, and what the tracker has with it (spec/07_grid_current.md R190,
spec/09_islanding.md R265). -/
def execPipelineSample (t a : Nat) (code : Int) (o : FrontObs) (s : State) : Res :=
  let s := s.advance t
  let code := if code < -8192 then -8192 else if 8191 < code then 8191 else code
  let clip := code == -8192 || code == 8191
  within a 24 (if s.d7Off then s else
    let stuck := (s.ain a).stuckOut
    let s := s.modAin a fun x => if x.enable then x.checked t code else { x with code := code, lastAt := t }
    let s := if stuck && !(s.ain a).stuckOut then unstick a s else s
    let bad := (s.ain a).marked || (s.ain a).pathFail
    let s := if clip then clipSample t a s else s
    let s := pathTake t 1 a code (suspects t a (kirSample t a s))
    frontAngle t a o.angle (decimSample t a (code * 4) bad clip o.quad s))

/-- The conversion whose result is delivered at t, 1.05 µs after its start: what it converts and its start (R354). -/
def Sar.ready (t : Nat) (z : Sar) : Option (Nat × Nat) :=
  match z.conv, z.busy with
  | some c, _ => if c.2 + 1050 ≤ t then some c else none
  | none, some n => if z.startAt + 1050 ≤ t then some (n, z.startAt) else none
  | none, none => none

/-- A SAR result (R354): the code of the conversion in progress on unit u, delivered to its readers and checked. -/
def execSarResult (t u code : Nat) (s : State) : Res :=
  let s := s.advance t
  let z := s.sar u
  let code := min 4095 code
  within u 6 (match (if s.d7Off then none else z.ready t) with
    | none => s
    | some (n, start) =>
      let s := s.modSar u fun z => if z.conv.isSome then { z with conv := none } else { z with busy := none }
      if n = 0x100 then testResult t u (start + 250) code s
      else
        let s := pathTake (start + 250) 2 n (code : Nat) (hkResult u n start code s)
        let h := s.hk n
        let v : Int := (code * 8 : Nat)
        let s := if h.valid then pvTap 2 n 4 h.stamp v s else s
        let s := recResult t 2 n 0 h.stamp 0 v h.valid false (monResult t true n 0 v h.valid s)
        hkReadDone n start s)

end Sys2Proof.Machine
end

