-- ==== Sys2Proof/Machine/Tick.lean ====
section
/-! DEFINITION. The two ticks: the supervisor's 1 ms safety tick (spec/00_scope.md R593) and the base tick of the control engine
(spec/06_control_engine.md R155 to R158). -/

namespace Sys2Proof.Machine

/-! ### The safety tick -/

/-- The supervisor firmware runs: from the +domains step on (spec/02_startup_reset.md, cold start). -/
def State.firmwareRuns (s : State) : Bool :=
  match s.sys.boot with
  | .domains => true | .cal => true | .sheaf => true | .tests => true | .ready => true
  | _ => false

/-- A safety tick can fall at t (R593): 1 ms after the one before, on a whole millisecond of device time once it is loaded, and not sooner after a
step than R593 allows. -/
def State.tickFits (s : State) (t : Nat) : Bool := decide (s.nextTick ≤ t) && (!s.timeLoaded || t % 1000000 == 0)

/-- RESET_BTN_N seen low or released on a tick (spec/02_startup_reset.md R57): the length of the latest press stands until the next one. -/
def Button.tick (low : Bool) (b : Button) : Button :=
  if low then { b with low := if b.high = 0 then satInc 0xFFFFFFFF b.low else 1, high := 0 } else { b with high := satInc 0xFFFFFFFF b.high }

/-- Running state and statistics copied into the entry of every enabled channel (spec/05_sheaf_table.md R124). -/
def copyStates (s : State) : State :=
  (chansWhere fun n => s.enabled n).foldl (fun s n =>
    s.store (0x20300000 + entryAt n 0x380) ((s.chan n).stateBytes ++ (s.chan n).statBytes)) s

/-- What the managers do on a tick from Ready on, in the order of the priorities of spec/04_operating_modes.md R105: the safety functions; the tracker;
islanding decisions and the passive functions; ride-through; then the grid and the ports manager, legs, modes and the state copy. -/
def managers (t : Nat) (o : GridObs) (s : State) : State :=
  let s := trackerTick t o (safetyTick t s)
  let s := rtTick t o (passiveTick t (islDecision t s))
  let s := pwmSettle t (ptpSlew t (portsTick t (gridManager t s)))
  let s := modeDegraded (outputOrders t (legsUpdate t s))
  resetNow (copyStates (startAttempt t s))

/-- The 1 ms tick of the supervisor (R593), with what the grid inputs measure and the level of RESET_BTN_N. -/
def execSafetyTick (t : Nat) (o : GridObs) (btnLow : Bool) (s : State) : Res :=
  let s := s.advance t
  .next (if s.firmwareRuns && s.tickFits t then
      let s := { s.modSys fun y => { y with button := y.button.tick btnLow } with nextTick := t + 1000000 }
      if s.sys.ready then managers t o s else if s.sys.boot = .tests then safetyTick t s else s
    else s)

/-! ### The base tick -/

/-- A rate configuration takes effect, and its tick is number 0 (R156, R181). -/
def rateInForce (c : RateCfg) (s : State) : State :=
  s.modEng fun e =>
    let grp (g : Nat) : RateGrp :=
      let w := c.groups.getD g 0
      let old := e.groups.getD g RateGrp.reset
      { old with lost := false, mult := bits w 15 0, reaction := bits w 19 16, pgroup := bits w 22 20 }
    { e with hasRate := true, rate := c, ratePend := none, tick := 0, groups := (List.range 8).map grp }

/-- The index of the tick at t: the waiting configuration restarts the count (R181). -/
def countTick (t : Nat) (s : State) : State :=
  let s := match s.eng.ratePend with
    | some c => rateInForce c s
    | none => s.modEng fun e => { e with tick := (e.tick + 1) % 2 ^ 64 }
  s.modEng fun e => { e with tickAt := t }

/-- The groups with a boundary on the present tick (R156). -/
def State.dueGroups (s : State) : List Nat := (List.range 8).filter fun g => s.isBoundary g

/-- What falls on a boundary of the grid rate group before the passes: waiting configurations, the virtual machine and its outputs, the links, the
injected code (spec/07_grid_current.md R203, R211, R215, spec/09_islanding.md R261). -/
def gridBoundary (t : Nat) (o : TrackObs) (s : State) : State :=
  awnBoundary (deliverLinks (setOutputs t o (awnLatch (awnResume t (vsmBoundary t (gridPendings s))))))

/-- The delivery of the links on a boundary of the grid rate group (spec/07_grid_current.md R203): the base tick of the boundary runs the same in its
place. -/
def execLinkDelivery (t : Nat) (s : State) : Res :=
  let s := s.advance t
  .next (if s.onGridBoundary t then deliverLinks s else s)

/-- The generators of group g updated (R174). -/
def gensOf (t g : Nat) (s : State) : State :=
  (List.range 32).foldl (fun s k => if (s.gen k).group = g then updateGen t k s else s) s

/-- The channels of group g in ascending order. -/
def State.chansOf (s : State) (g : Nat) : List Nat := chansWhere fun n => chGroup s.eng.run n == g

/-- The passes of group g issued at its boundary, in channel order (R157). -/
def State.passesOf (s : State) (t g : Nat) : List PassRec :=
  ((s.chansOf g).filter fun n => chEnable s.eng.act n && (s.chan n).running).map fun n => issuePass t n s

/-- Whether the grid configuration names group g as the grid rate group. -/
def State.isGridGroup (s : State) (g : Nat) : Bool := match s.grid.cfg with | some c => c.group == g | none => false

/-- The boundaries of the due groups (R110, R137, R157, R164): overruns; exports of a splice; hitch swaps; the tracker; the mode change and the restart of
the grid group, to which the outputs of its boundary are adapted (spec/07_grid_current.md R194, R212); generators, virtual machine and links; pending effects and starts; then the due passes, ahead of those of higher groups that
have not committed. -/
def boundaries (t : Nat) (o : TrackObs) (gs : List Nat) (s : State) : State :=
  let grid := gs.any s.isGridGroup
  let s := gs.foldl (fun s g => boundaryOverrun t g s) s
  let s := gs.foldl (fun s g => exportGroup g s) s
  let s := (List.range 16).foldl (fun s g => swapDue t g s) s
  let s := latchOutputs t o s
  let s := if grid then gateDue t (modeDue t s) else s
  let s := gs.foldl (fun s g => gensOf t g s) { s with gens := s.gens.map Gen.commit }
  let s := if grid then gridBoundary t o s else s
  let s := gs.foldl (fun s g => (s.chansOf g).foldl (fun s n => boundaryChan n (faultDue t n s)) s) s
  let new := gs.flatMap fun g => s.passesOf t g
  s.modEng fun e => Engine.begin { e with due := new ++ e.due }

/-- The timebase of the base tick comes to the selected event of its carrier at t, one that has had no base tick (R155): its D6 step. -/
def State.tickHit (s : State) (t : Nat) : Option Int :=
  match s.rateCfg with
  | none => none
  | some c =>
    let b := (s.tb c.tb).inForce
    let zero := if b.mode ≠ 2 ∨ c.event ≠ 0 then s.carrierHit t c.tb 0 else none
    (match zero with
      | some x => some x
      | none => if b.mode = 2 ∧ c.event ≠ 1 then s.carrierHit t c.tb (8 * b.n) else none).filter fun x => decide (s.eng.tickD < x)

/-- A base tick (R155 to R158), with what the tracker's filters give each core (R190 to R195). Without a rate configuration, while its timebase
is disabled, away from its carrier's events, and before Ready there is none. -/
def execBaseTick (t : Nat) (o : TrackObs) (s : State) : Res :=
  let s := pwmSettle t (s.advance t)
  .next (match (if s.sys.ready then s.tickHit t else none) with
    | none => s
    | some x =>
      let s := countTick t ((d6Sync t x s).modEng fun e => { e with tickD := x })
      finishSplice t (boundaries t o s.dueGroups s))

end Sys2Proof.Machine
end

