-- ==== Sys2Proof/Machine/Startup.lean ====
section
/-! DEFINITION. Supplies, the cold start, resets and the reset button (spec/02_startup_reset.md R43 to R58, R592,
spec/19_memory_lifecycle_spares.md R531, R532). -/

namespace Sys2Proof.Machine

/-! ### Rails (R43, R47) -/

/-- VDD_CORE, VDD_AN and VDD_IO are good (R44). -/
def Sys.railsGood (y : Sys) : Bool := y.railCore && y.railAn && y.railIo
/-- The same of the device. -/
def State.railsGood (s : State) : Bool := s.sys.railCore && s.sys.railAn && s.sys.railIo

/-- A reset sequence is in progress, or the device is held off (R49): until Ready, or the recovery of the boot ROM. -/
def State.inSequence (s : State) : Bool := s.sys.boot != .recovery && !(s.sys.boot == .ready && s.sys.ready)

/-- Rail r reported at a rising: a rail that is not good may become so (R43). -/
def railUp (r : Nat) (o : RailObs) (y : Sys) : Sys :=
  let z := y.noteRail r o
  z.setRail r (y.rail r || railNext r false o)

/-- VDD_CORE, VDD_AN and VDD_IO rising (R43, R44, R47): each becomes good by its own monitor. With the last of the three the cause is recorded, and the
power-on-reset hold begins; during a burst of the husk, at its end (spec/20_husk.md R558). -/
def execPowerOnReset (t : Nat) (o : RailsObs) (s : State) : Res :=
  let s := s.advance t
  .next (if s.railsGood ∨ s.sys.boot ≠ .off then s
    else
      let y := railUp 2 o.io (railUp 1 o.an (railUp 0 o.core s.sys))
      let s' := { s with sys := y }
      if y.railsGood then
        let cause := if y.belowPowerOn then 1 else y.resetCause
        let boot : BootStage := if s.husk.sealing.isSome then .off else .hold
        let s' := s'.modSys fun y => { y with belowPowerOn := false, resetCause := cause, boot := boot }
        let s' := resetCount cause (s'.modHusk fun h => { h with powerFail := false })
        if s.husk.d0Up then thresholds t (huskSettle t s') else s'
      else if y.railIo && !s.sys.railIo && s.husk.d0Up then thresholds t (huskSettle t s') else s')

/-- A rail stops being good (R43, R47, R49): the husk decides its bursts, and the device is reset with the lowest code of the causes that merge. A
reset that waited for its ramp is cut short. A rail that is not good already may fall below its power-on level; where it
was above its range, its fall below the falling threshold is no further cause (DESIGN CHOICE, notes/assumptions/42.md). -/
def execSupplyReset (t rail uv held low : Nat) (v : Stores) (s : State) : Res :=
  let s := s.advance t
  let o : RailObs := { uv := uv, held := held, low := low }
  let code := if railOver rail ≤ o.uv then 3 else 2
  let cause := if s.inSequence then min s.sys.resetCause code else code
  let was := s.sys.belowPowerOn && s.sys.boot == .off
  within rail 3 (if s.sys.rail rail && !railNext rail true o then
      let s := s.modSys fun y => { (y.noteRail rail o).setRail rail false with ready := false }
      let s := commitTail t (powerFailure t v.vqs v.vls s)
      let s := if s.husk.d0Up ∧ s.husk.state ≠ 4 then thresholds t s else s
      let s := afterReset cause s
      s.modSys fun y => { (y.setRail rail false).noteRail rail o with boot := .off, belowPowerOn := was || decide (o.low < powerOnLevel rail) }
    else if s.sys.rail rail then s.modSys fun y => { y with railUv := y.railUv.set rail o.uv }
    else s.modSys (Sys.noteRail rail o))

/-- VDD_HV leaves good (R43): the safety outputs open, and the cooling pre-drivers go off. -/
def execVddHvNotGood (o : RailAt) (s : State) : Res :=
  let s := (s.advance o.t).modSys (Sys.noteRail 3 o.o)
  .next (if s.sys.railHv && !railNext 3 true o.o then cutRamp o.t (outputOrders o.t (coolHvLost o.t (s.modSys (Sys.setRail 3 false)))) else s)

/-- VDD_HV becomes good again (R43). -/
def execVddHvGood (o : RailAt) (s : State) : Res :=
  let s := (s.advance o.t).modSys (Sys.noteRail 3 o.o)
  .next (if !s.sys.railHv && railNext 3 false o.o then coolHvGood o.t (s.modSys (Sys.setRail 3 true)) else s)

/-! ### The cold start (R50 to R52) -/

/-- A step of the cold start. -/
def stage (b : BootStage) (s : State) : State := s.modSys fun y => { y with boot := b }

/-- Reset released to D1 and D11; the wipe of SRAM starts (R50). -/
def execResetHoldEnd (t : Nat) (s : State) : Res :=
  let s := s.advance t
  .next (if s.sys.boot = .hold then
      setDomain 11 1 (setDomain 1 1 (stage .wipe (s.modMem fun m => { m with sram := [] })))
    else s)

/-- The wipe is complete (R50): the boot ROM starts, the escape port answers, the D1 heartbeat runs, and a life-cycle transition that was
recorded is resumed (spec/19_memory_lifecycle_spares.md R546). -/
def execSramWipeComplete (t : Nat) (s : State) : Res :=
  let s := s.advance t
  .next (if s.sys.boot = .wipe then
      let s := setDomain 11 2 (setDomain 1 2 (stage .lock s))
      let s := { s with esc := { s.esc with on := true }, safety := { s.safety with heartbeat := true } }
      lcResume t s
    else s)

/-- A loop is Locked and main. -/
def State.mainLocked (s : State) : Bool := s.clk.main != 0xFF

/-- No PLL locks within 20 ms (R52): boot goes on with the ring oscillator. -/
def execPllLockTimeout (t : Nat) (s : State) : Res :=
  let s := s.advance t
  .next (if s.sys.boot = .lock ∧ !s.mainLocked then stage .verify (s.modSys fun y => { y with clockFault := true }) else s)

/-- The slot selected for booting, supervisor or application (R531). -/
def State.selected (s : State) (kind : Nat) : Nat := if kind = 0 then s.mem.bootSup else s.mem.bootApp

/-- MEM_IMAGE (spec/19_memory_lifecycle_spares.md R540). -/
def imageEv (kind what slot : Nat) : Ev := ev 0x0F33 kind [BitVec.ofNat 8 what, BitVec.ofNat 8 slot]

/-- The boot ROM's recovery (R52). -/
def toRecovery (s : State) : State := (stage .recovery s).modSys fun y => { y with recovery := true }

/-- A slot's version and security version as its header gives them. -/
def slotSeen (kind slot version security : Nat) (s : State) : State :=
  let i := 2 * kind + slot
  (setVerified kind slot true s).modMem fun m => { m with slotVer := m.slotVer.set i version, slotSec := m.slotSec.set i security }

/-- The supervisor image of a slot boots (R52): the firmware powers D2..D4, or the cores that the health record names, D6..D9 and, with a verified
application image, D10. -/
def bootFrom (slot version : Nat) (s : State) : State :=
  let s := s.modSys fun y => { y with boot := .domains, supSlotB := slot == 1, fwVersion := version }
  let s := [6, 7, 8, 9].foldl (fun s d => setDomain d 1 s) s
  (List.range 4).foldl (fun s c => if s.eng.cores.getD c 0 = 1 then setDomain (2 + c) 1 s else s) s

/-- A slot's verification ends (R52, R531, R532): verdict 0 it verifies, 3 its signature does but its security version is too low, any other it
fails. The selected slot comes first, then the other one. -/
def execImageVerifyComplete (t kind slot verdict version security : Nat) (s : State) : Res :=
  let s := s.advance t
  let ok := verdict == 0 && decide (s.mem.secMin.getD kind 0 ≤ security)
  let bad := if verdict = 0 ∨ verdict = 3 then 3 else 1
  let first := slot == s.selected kind
  let failed (s : State) : State := (setVerified kind slot false s).post t (imageEv kind bad slot)
  let passed (s : State) : State := (slotSeen kind slot version security s).post t (imageEv kind 0 slot)
  if 2 ≤ kind ∨ 2 ≤ slot then .fault .noSuchUnit
  else if kind = 0 then
    .next (if s.sys.boot = .verify ∨ (s.sys.boot = .lock ∧ s.mainLocked) then
        if s.mem.lc = 5 then toRecovery s
        else if first != s.sys.supTried then
          if ok then bootFrom slot version (passed s)
          else if first then (stage .verify (failed s)).modSys fun y => { y with supTried := true }
          else toRecovery ((failed s).post t (imageEv 0 2 slot))
        else s
      else if s.sys.boot = .domains ∧ (slot == 1) != s.sys.supSlotB then (if ok then passed s else failed s)
      else s)
  else
    .next (if s.sys.boot = .domains ∧ first != s.sys.appTried then
        if ok then setDomain 10 1 ((stage .cal (passed s)).modSys fun y => { y with appSlotB := slot == 1, d10Held := false })
        else if first then (failed s).modSys fun y => { y with appTried := true }
        else (stage .cal ((failed s).post t (imageEv 1 2 slot))).modSys fun y => { y with d10Held := true }
      else s)

/-- The start-up calibration ends (R361), and device time is loaded from the husk's RTC (spec/00_scope.md R15, R593): 0, and
not valid, while time is marked lost. -/
def execConverterCalibrationComplete (t : Nat) (s : State) : Res :=
  let s := s.advance t
  .next (if s.sys.boot = .domains ∨ s.sys.boot = .cal then
      let now := if s.husk.timeLost then 0 else s.time
      let s := s.shiftTime ((now : Int) - s.time)
      let s := { s with time := now, timeLoaded := true, timeValid := !s.husk.timeLost, nextTick := (now / 1000000 + 1) * 1000000 }
      let up (d : Nat) (s : State) : State := if s.sys.domains.getD d 0 = 1 then setDomain d 2 s else s
      let s := calibrate s
      stage .sheaf ((List.range 12).foldl (fun s d => up d s) s)
    else s)

/-! ### The stored configuration (R52, R592) -/

/-- The opcodes whose effects the block image holds (spec/19_memory_lifecycle_spares.md R528). -/
def blockSpecs : List CmdSpec :=
  [specRingConfig, specEngineRateSet, specProfileConfig, specGridConfig, specGridTrackerConfig, specGridFunction, specGridVsmConfig, specGridLimits,
   specRtProfile, specRtRegionSet, specRtTripSet, specRtSupport, specRtService, specRtDclinkConfig, specIslAwnConfig, specIslPassiveSet,
   specIslPeerSet] ++
  [specPortPvConfig, specPortBatConfig, specPortChopperConfig, specPortShareConfig, specPortMpptConfig, specPortBmsConfig, specPortEnable,
   specPwmTimebaseConfig, specPwmLegConfig, specSenseAinConfig, specSenseDecimConfig, specSenseKirchhoffSet, specSenseCheckConfig,
   specSenseHkConfig, specSensePathTest] ++
  [specProtGroupConfig, specProtFltConfig, specProtCmpConfig, specProtMonConfig, specRecLaneConfig, specRecTriggerConfig, specRecCaptureConfig,
   specRecMapConfig, specNetPortConfig, specNetIpConfig, specNetNeighbourSet, specNetCanConfig, specNetUartConfig, specNetFleetConfig,
   specNetDispatchAuth, specNetVrelBind, specCoolConfig, specClkRefConfig]

/-- One stored command of the block image applied, without its checks (R592). -/
def applyStored (t : Nat) (s : State) (e : Nat × List Byte) : State :=
  if e.1 = 0x0104 then applySettings e.2 s else
  match blockSpecs.find? fun c => c.opcode == e.1 with
  | some c => (c.run { src := .escape, tag := 0, session := 0, flags := 0, payload := e.2, t := t } s).st
  | none => s

/-- CONFIG_FALLBACK (spec/03_command_interface.md R591). -/
def fallbackEv (source kind what off : Nat) : Ev := ev 0x0186 source ([BitVec.ofNat 8 kind, BitVec.ofNat 8 what] ++ le 2 off)

/-- An image taken from the copy in force (0), from the other one (1), or as delivered (2) (R52). -/
def copyOf {α : Type} (w : Nat) (a b d : α) : α := if w = 0 then a else if w = 1 then b else d

/-- The block image applied (R592), the start mode and the ramp time among it (R100, R528). -/
def loadBlock (t w : Nat) (s : State) : State :=
  let l := copyOf w s.mem.block s.mem.blockPrev []
  let s := { s with clk := { s.clk with xrefHz := storedXref l, xrefInUse := storedXref l } }
  let s := (l.foldl (applyStored t) (applySettings (deviceSettings []) s)).modMem fun m => { m with blockNext := l }
  if w = 0 then s else s.post t (fallbackEv 0 1 (w - 1) 0)

/-- The first check that entry n fails as SHEAF_INVALIDATE would check it, as an offset of the entry (R139, R592): the rate group, the ranges, the
load, the owners (notes/assumptions/42.md). -/
def storedBad (s : State) (n : Nat) (img : List Byte) : Option Nat :=
  if imgEnable img ∧ !s.inUse (imgGroup img) then some 3
  else match firstBad (s.entryChecks img) with
    | some o => some o
    | none => if !(s.loadOkWith n false fun _ => img) then some 0 else s.conflictAt (fun m => m == n) img

/-- One entry of the stored Sheaf image loaded (R592): as stored, or with ENABLE = 0 and CONFIG_FALLBACK, its CFG_CRC then as stored (DESIGN CHOICE,
notes/assumptions/42.md). -/
def loadStored (t : Nat) (m : Mem) (s : State) (n : Nat) : State :=
  let img := Mem.readN m (entryAt n 0) 0x380
  let img := img.set 3 (BitVec.ofNat 8 (u8 img 3 - bits (u8 img 3) 3 3 * 8))
  let put (e : List Byte) (s : State) : State :=
    (loadEntry n (placeEntry n 0 e s)).modChan n fun c => { c with pendStart := imgEnable e }
  match storedBad s n img with
  | none => put img s
  | some o => (put (img.set 3 (BitVec.ofNat 8 (u8 img 3 % 128))) s).post t (fallbackEv n 2 0 o)

/-- The templates of the stored image, in memory and in the cores. -/
def loadTemplates (m : Mem) (s : State) : State :=
  let t := (m.filter fun c => decide (0x40000 ≤ c.1)).map fun c => (c.1 - 0x40000, c.2)
  let s := (List.range 64).foldl (fun s i => restore t (i * 0x200) (0x20340000 + i * 0x200) 0x200 s) s
  s.modEng fun e => { e with templates := t }

/-- The Sheaf image loaded: templates, then entries in ascending order (R592). -/
def loadSheaf (t w : Nat) (s : State) : State :=
  let m := copyOf w s.eng.stored s.eng.storedPrev []
  let s := (List.range 256).foldl (loadStored t m) (loadTemplates m s)
  if w = 0 then s else s.post t (fallbackEv 0 0 (w - 1) 0)

/-- The +Sheaf step (R592), with the copy of the Sheaf image and of the block image that passes its CRC: 0 the one in force, 1 the other, 2 none.
The stored list of path tests starts with the +tests step (spec/12_sensing.md R360). -/
def execSheafImageLoad (t sheaf block : Nat) (s : State) : Res :=
  let s := s.advance t
  .next (if s.sys.boot = .sheaf then
      let s := stage .tests (loadSheaf t sheaf (loadBlock t block s))
      if s.sense.pathList = [] then s else startPathTest s.sense.pathList none s
    else s)

/-! ### Tests and Ready -/

/-- A converter that failed its start-up test (R52): substituted, or reported with no spare (spec/12_sensing.md R349). -/
def startConv (t : Nat) (s : State) (a : Nat) : State :=
  match s.spliceSpare with
  | some sp => retireConv t a sp (t + 10) s
  | none => s.post t (verdictEv t a 3 255 255 (t + 10))

/-- A SAR unit that failed (R52). -/
def startSar (t : Nat) (s : State) (u : Nat) : State :=
  match s.sarSpare with
  | some p => spliceSar t u p s
  | none => (s.modSar u fun z => { z with marked := true }).post t (ev 0x0833 (s.sar u).logical [2, BitVec.ofNat 8 u, 255])

/-- The +tests step ends (R52), the stored path test among its tests (spec/12_sensing.md R360), with the inputs whose converter failed, the failed SAR
units, the comparator cells that failed (spec/13_protection.md R389), and the safety outputs whose readback failed, each with the element. -/
def execStartUpTestsComplete (t : Nat) (convs sars cells : List Nat) (outs : List (Nat × Nat)) (s : State) : Res :=
  let s := s.advance t
  .next (if s.sys.boot = .tests ∧ s.sense.pathRun = [] then
      let s := sars.foldl (startSar t) (convs.foldl (startConv t) s)
      let s := cells.foldl (fun s k => if s.prot.cellOk.getD k false then cellFailed t k s else s) s
      stage .ready (outs.foldl (fun s x => outFault t x.1 1 x.2 s) s)
    else s)

/-- The security minimums raised to those of the images that run (spec/19_memory_lifecycle_spares.md R532). -/
def raiseMinimums (s : State) : State :=
  s.modMem fun m =>
    let a := max (m.secMin.getD 0 0) (m.slotSec.getD (if s.sys.supSlotB then 1 else 0) 0)
    let b := if s.sys.domains.getD 10 0 = 2 then max (m.secMin.getD 1 0) (m.slotSec.getD (if s.sys.appSlotB then 3 else 2) 0) else m.secMin.getD 1 0
    { m with secMin := [a, b] }

/-- Ready (R51 to R54): safe stop, commands accepted, RST_OUT_N high; the start mode is wanted (spec/04_operating_modes.md R100), a pending safety
image applies, the Benmor counter advances (spec/16_networks_fleet.md R468, R471), the husk's log and configuration are taken up, and cooling
starts. -/
def execReady (t : Nat) (s : State) : Res :=
  let s := s.advance t
  .next (if s.sys.boot = .ready ∧ !s.sys.ready then
      let s := (s.modSys fun y => { y with ready := true, rstOutN := true }).setInt 25
      let s := s.modModes fun m => { m with mode := 1, startWanted := m.startMode != 1 }
      let s := (raiseMinimums s).modNet fun n => { n with benNext := n.benStored, benStored := n.benStored + 65536 }
      let s := huskSettle t (keepSettle t 2 (huskReady (protDegraded s)))
      let s := announce false (awnRefresh t 1 (applyPending t s))
      [0, 1, 2, 3, 4, 5, 6, 7, 48, 49, 50, 51].foldl (fun s n => passHeads t n s) (coolReady t (legsUpdate t s))
    else s)

/-! ### The reset button (R57, R58) -/

/-- The release tick of a press of 50 to 7,999 ticks (R57). -/
def execButtonReset (t : Nat) (s : State) : Res :=
  let s := s.advance t
  let b := s.sys.button
  .next (if b.ready ∧ !b.stuck ∧ b.high = 1 ∧ 50 ≤ b.low ∧ b.low < 8000 then requestReset t 5 s else s)

/-- A press held for 8,000 ticks (R57). -/
def execResetButtonStuck (t : Nat) (s : State) : Res :=
  let s := s.advance t
  let b := s.sys.button
  .next (if !b.stuck ∧ b.high = 0 ∧ 8000 ≤ b.low then
      (s.modSys fun y => { y with button := { y.button with stuck := true, ready := false } }).post t (ev 0x0180 0 [])
    else s)

/-- A stuck button released for 1,000 ticks (R57). -/
def execResetButtonFreed (t : Nat) (s : State) : Res :=
  let s := s.advance t
  let b := s.sys.button
  .next (if b.stuck ∧ 1000 ≤ b.high then
      (s.modSys fun y => { y with button := { y.button with stuck := false, ready := true } }).post t (ev 0x0181 0 [])
    else s)

/-- The input ready after a release of 1 s (R55). -/
def execResetBtnReady (t : Nat) (s : State) : Res :=
  let s := s.advance t
  let b := s.sys.button
  .next (if !b.ready ∧ !b.stuck ∧ 1000 ≤ b.high then s.modSys fun y => { y with button := { y.button with ready := true } } else s)

end Sys2Proof.Machine
end

