-- ==== Sys2Proof/Machine/Dispatch.lean ====
section
/-! DEFINITION. The dispatch: one arm per command of spec/opcode_table.json, each one direct call of its meaning. -/

namespace Sys2Proof.Machine

def exec (i : Instr) (s : State) : Host.Outcome State Fault Refusal :=
  match i with
  | .sysInfo p => Sys2Proof.Machine.execSysInfo p s
  | .sysStatus p => Sys2Proof.Machine.execSysStatus p s
  | .sysReset p => Sys2Proof.Machine.execSysReset p s
  | .sysUnfreeze p => Sys2Proof.Machine.execSysUnfreeze p s
  | .sysMode p => Sys2Proof.Machine.execSysMode p s
  | .ringConfig p => Sys2Proof.Machine.execRingConfig p s
  | .sessionOpen p => Sys2Proof.Machine.execSessionOpen p s
  | .sessionClose p => Sys2Proof.Machine.execSessionClose p s
  | .sheafEntryWrite p => Sys2Proof.Machine.execSheafEntryWrite p s
  | .sheafEntryRead p => Sys2Proof.Machine.execSheafEntryRead p s
  | .sheafEnable p => Sys2Proof.Machine.execSheafEnable p s
  | .sheafCoefStage p => Sys2Proof.Machine.execSheafCoefStage p s
  | .sheafCoefLive p => Sys2Proof.Machine.execSheafCoefLive p s
  | .sheafHitchArm p => Sys2Proof.Machine.execSheafHitchArm p s
  | .sheafHitchCancel p => Sys2Proof.Machine.execSheafHitchCancel p s
  | .sheafLimitsSet p => Sys2Proof.Machine.execSheafLimitsSet p s
  | .sheafMapSet p => Sys2Proof.Machine.execSheafMapSet p s
  | .sheafStateSet p => Sys2Proof.Machine.execSheafStateSet p s
  | .sheafStats p => Sys2Proof.Machine.execSheafStats p s
  | .sheafTemplateWrite p => Sys2Proof.Machine.execSheafTemplateWrite p s
  | .sheafInvalidate p => Sys2Proof.Machine.execSheafInvalidate p s
  | .sheafCommit p => Sys2Proof.Machine.execSheafCommit p s
  | .engineRateSet p => Sys2Proof.Machine.execEngineRateSet p s
  | .engineStatus p => Sys2Proof.Machine.execEngineStatus p s
  | .profileConfig p => Sys2Proof.Machine.execProfileConfig p s
  | .profileTarget p => Sys2Proof.Machine.execProfileTarget p s
  | .profileHold p => Sys2Proof.Machine.execProfileHold p s
  | .profileRead p => Sys2Proof.Machine.execProfileRead p s
  | .gridConfig p => Sys2Proof.Machine.execGridConfig p s
  | .gridTrackerConfig p => Sys2Proof.Machine.execGridTrackerConfig p s
  | .gridStatus p => Sys2Proof.Machine.execGridStatus p s
  | .gridFunction p => Sys2Proof.Machine.execGridFunction p s
  | .gridSetpoint p => Sys2Proof.Machine.execGridSetpoint p s
  | .gridVsmConfig p => Sys2Proof.Machine.execGridVsmConfig p s
  | .gridLimits p => Sys2Proof.Machine.execGridLimits p s
  | .rtProfile p => Sys2Proof.Machine.execRtProfile p s
  | .rtRegionSet p => Sys2Proof.Machine.execRtRegionSet p s
  | .rtTripSet p => Sys2Proof.Machine.execRtTripSet p s
  | .rtSupport p => Sys2Proof.Machine.execRtSupport p s
  | .rtService p => Sys2Proof.Machine.execRtService p s
  | .rtDclinkConfig p => Sys2Proof.Machine.execRtDclinkConfig p s
  | .rtDclinkClear p => Sys2Proof.Machine.execRtDclinkClear p s
  | .rtStatus p => Sys2Proof.Machine.execRtStatus p s
  | .islAwnConfig p => Sys2Proof.Machine.execIslAwnConfig p s
  | .islPassiveSet p => Sys2Proof.Machine.execIslPassiveSet p s
  | .islPeerSet p => Sys2Proof.Machine.execIslPeerSet p s
  | .islStatus p => Sys2Proof.Machine.execIslStatus p s
  | .islPccMap p => Sys2Proof.Machine.execIslPccMap p s
  | .islBaselineReset p => Sys2Proof.Machine.execIslBaselineReset p s
  | .portPvConfig p => Sys2Proof.Machine.execPortPvConfig p s
  | .portBatConfig p => Sys2Proof.Machine.execPortBatConfig p s
  | .portChopperConfig p => Sys2Proof.Machine.execPortChopperConfig p s
  | .portShareConfig p => Sys2Proof.Machine.execPortShareConfig p s
  | .portMpptConfig p => Sys2Proof.Machine.execPortMpptConfig p s
  | .portBmsConfig p => Sys2Proof.Machine.execPortBmsConfig p s
  | .portEnable p => Sys2Proof.Machine.execPortEnable p s
  | .portBatSet p => Sys2Proof.Machine.execPortBatSet p s
  | .portSweep p => Sys2Proof.Machine.execPortSweep p s
  | .portStatus p => Sys2Proof.Machine.execPortStatus p s
  | .portBmsStatus p => Sys2Proof.Machine.execPortBmsStatus p s
  | .portMapRead p => Sys2Proof.Machine.execPortMapRead p s
  | .pwmTimebaseConfig p => Sys2Proof.Machine.execPwmTimebaseConfig p s
  | .pwmLegConfig p => Sys2Proof.Machine.execPwmLegConfig p s
  | .pwmDutySet p => Sys2Proof.Machine.execPwmDutySet p s
  | .pwmLegTest p => Sys2Proof.Machine.execPwmLegTest p s
  | .pwmStatus p => Sys2Proof.Machine.execPwmStatus p s
  | .senseAinConfig p => Sys2Proof.Machine.execSenseAinConfig p s
  | .senseDecimConfig p => Sys2Proof.Machine.execSenseDecimConfig p s
  | .senseKirchhoffSet p => Sys2Proof.Machine.execSenseKirchhoffSet p s
  | .senseCheckConfig p => Sys2Proof.Machine.execSenseCheckConfig p s
  | .senseHkConfig p => Sys2Proof.Machine.execSenseHkConfig p s
  | .senseHkRead p => Sys2Proof.Machine.execSenseHkRead p s
  | .sensePathTest p => Sys2Proof.Machine.execSensePathTest p s
  | .senseStatus p => Sys2Proof.Machine.execSenseStatus p s
  | .protGroupConfig p => Sys2Proof.Machine.execProtGroupConfig p s
  | .protFltConfig p => Sys2Proof.Machine.execProtFltConfig p s
  | .protCmpConfig p => Sys2Proof.Machine.execProtCmpConfig p s
  | .protMonConfig p => Sys2Proof.Machine.execProtMonConfig p s
  | .protRelease p => Sys2Proof.Machine.execProtRelease p s
  | .protTrip p => Sys2Proof.Machine.execProtTrip p s
  | .protCmpTest p => Sys2Proof.Machine.execProtCmpTest p s
  | .protStatus p => Sys2Proof.Machine.execProtStatus p s
  | .recLaneConfig p => Sys2Proof.Machine.execRecLaneConfig p s
  | .recTriggerConfig p => Sys2Proof.Machine.execRecTriggerConfig p s
  | .recCaptureConfig p => Sys2Proof.Machine.execRecCaptureConfig p s
  | .recArm p => Sys2Proof.Machine.execRecArm p s
  | .recTrigger p => Sys2Proof.Machine.execRecTrigger p s
  | .recRead p => Sys2Proof.Machine.execRecRead p s
  | .recDelete p => Sys2Proof.Machine.execRecDelete p s
  | .recCommit p => Sys2Proof.Machine.execRecCommit p s
  | .recMapConfig p => Sys2Proof.Machine.execRecMapConfig p s
  | .recStatClear p => Sys2Proof.Machine.execRecStatClear p s
  | .recSkewCal p => Sys2Proof.Machine.execRecSkewCal p s
  | .recStatus p => Sys2Proof.Machine.execRecStatus p s
  | .safetyStatus p => Sys2Proof.Machine.execSafetyStatus p s
  | .safetyUnlock p => Sys2Proof.Machine.execSafetyUnlock p s
  | .safetyLock p => Sys2Proof.Machine.execSafetyLock p s
  | .safetyStage p => Sys2Proof.Machine.execSafetyStage p s
  | .safetyCommit p => Sys2Proof.Machine.execSafetyCommit p s
  | .safetyRead p => Sys2Proof.Machine.execSafetyRead p s
  | .safetyPassword p => Sys2Proof.Machine.execSafetyPassword p s
  | .safetyAck p => Sys2Proof.Machine.execSafetyAck p s
  | .safetyOutputReq p => Sys2Proof.Machine.execSafetyOutputReq p s
  | .safetyOutputTest p => Sys2Proof.Machine.execSafetyOutputTest p s
  | .safetyLogRead p => Sys2Proof.Machine.execSafetyLogRead p s
  | .netPortConfig p => Sys2Proof.Machine.execNetPortConfig p s
  | .netIpConfig p => Sys2Proof.Machine.execNetIpConfig p s
  | .netNeighbourSet p => Sys2Proof.Machine.execNetNeighbourSet p s
  | .netPtpOffset p => Sys2Proof.Machine.execNetPtpOffset p s
  | .netCanConfig p => Sys2Proof.Machine.execNetCanConfig p s
  | .netUartConfig p => Sys2Proof.Machine.execNetUartConfig p s
  | .netFleetConfig p => Sys2Proof.Machine.execNetFleetConfig p s
  | .netFleetKey p => Sys2Proof.Machine.execNetFleetKey p s
  | .netDispatchAuth p => Sys2Proof.Machine.execNetDispatchAuth p s
  | .netVrelBind p => Sys2Proof.Machine.execNetVrelBind p s
  | .netPeerRead p => Sys2Proof.Machine.execNetPeerRead p s
  | .netStatus p => Sys2Proof.Machine.execNetStatus p s
  | .coolConfig p => Sys2Proof.Machine.execCoolConfig p s
  | .coolRun p => Sys2Proof.Machine.execCoolRun p s
  | .coolStatus p => Sys2Proof.Machine.execCoolStatus p s
  | .coolHealth p => Sys2Proof.Machine.execCoolHealth p s
  | .clkRefConfig p => Sys2Proof.Machine.execClkRefConfig p s
  | .clkStatus p => Sys2Proof.Machine.execClkStatus p s
  | .clkSwap p => Sys2Proof.Machine.execClkSwap p s
  | .memStatus p => Sys2Proof.Machine.execMemStatus p s
  | .memImageLoad p => Sys2Proof.Machine.execMemImageLoad p s
  | .memDataWrite p => Sys2Proof.Machine.execMemDataWrite p s
  | .memDataRead p => Sys2Proof.Machine.execMemDataRead p s
  | .memKeyInstall p => Sys2Proof.Machine.execMemKeyInstall p s
  | .memSerialSet p => Sys2Proof.Machine.execMemSerialSet p s
  | .memLcChallenge p => Sys2Proof.Machine.execMemLcChallenge p s
  | .memLcTransition p => Sys2Proof.Machine.execMemLcTransition p s
  | .memSplice p => Sys2Proof.Machine.execMemSplice p s
  | .memHealthRead p => Sys2Proof.Machine.execMemHealthRead p s
  | .huskConfig p => Sys2Proof.Machine.execHuskConfig p s
  | .huskStatus p => Sys2Proof.Machine.execHuskStatus p s
  | .huskTimeSet p => Sys2Proof.Machine.execHuskTimeSet p s
  | .huskLogRead p => Sys2Proof.Machine.execHuskLogRead p s
  | .doorbellWrite t m n v => Sys2Proof.Machine.execDoorbellWrite t m n v s
  | .intStatusWrite t m v => Sys2Proof.Machine.execIntStatusWrite t m v s
  | .timeLoRead t m => Sys2Proof.Machine.execTimeLoRead t m s
  | .registerWrite t m addr v => Sys2Proof.Machine.execRegisterWrite t m addr v s
  | .hspiWrite t addr data => Sys2Proof.Machine.execHspiWrite t addr data s
  | .hspiQuadWrite t addr data => Sys2Proof.Machine.execHspiQuadWrite t addr data s
  | .hspiRead t addr n => Sys2Proof.Machine.execHspiRead t addr n s
  | .hspiQuadRead t addr n => Sys2Proof.Machine.execHspiQuadRead t addr n s
  | .escapeWrite t frame => Sys2Proof.Machine.execEscapeWrite t frame s
  | .escapeRead t n => Sys2Proof.Machine.execEscapeRead t n s
  | .unknownInstruction t b => Sys2Proof.Machine.execUnknownInstruction t b s
  | .hostUartPacket t frame => Sys2Proof.Machine.execHostUartPacket t frame s
  | .heldReply t n => Sys2Proof.Machine.execHeldReply t n s
  | .firewallViolation t m addr write cores => Sys2Proof.Machine.execFirewallViolation t m addr write cores s
  | .frozenD10Restart t => Sys2Proof.Machine.execFrozenD10Restart t s
  | .powerOnReset t o => Sys2Proof.Machine.execPowerOnReset t o s
  | .supplyReset t rail uv held low v => Sys2Proof.Machine.execSupplyReset t rail uv held low v s
  | .vddHvNotGood o => Sys2Proof.Machine.execVddHvNotGood o s
  | .vddHvGood o => Sys2Proof.Machine.execVddHvGood o s
  | .resetHoldEnd t => Sys2Proof.Machine.execResetHoldEnd t s
  | .sramWipeComplete t => Sys2Proof.Machine.execSramWipeComplete t s
  | .imageVerifyComplete t kind slot verdict version security => Sys2Proof.Machine.execImageVerifyComplete t kind slot verdict version security s
  | .pllLockTimeout t => Sys2Proof.Machine.execPllLockTimeout t s
  | .converterCalibrationComplete t => Sys2Proof.Machine.execConverterCalibrationComplete t s
  | .sheafImageLoad t sheaf block => Sys2Proof.Machine.execSheafImageLoad t sheaf block s
  | .startUpTestsComplete t convs sars cells outs => Sys2Proof.Machine.execStartUpTestsComplete t convs sars cells outs s
  | .ready t => Sys2Proof.Machine.execReady t s
  | .startModeAttempt t => Sys2Proof.Machine.execStartModeAttempt t s
  | .buttonReset t => Sys2Proof.Machine.execButtonReset t s
  | .resetButtonStuck t => Sys2Proof.Machine.execResetButtonStuck t s
  | .resetButtonFreed t => Sys2Proof.Machine.execResetButtonFreed t s
  | .resetBtnReady t => Sys2Proof.Machine.execResetBtnReady t s
  | .heartbeatLost t => Sys2Proof.Machine.execHeartbeatLost t s
  | .supervisorFault t => Sys2Proof.Machine.execSupervisorFault t s
  | .unrecoverableFault t unit => Sys2Proof.Machine.execUnrecoverableFault t unit s
  | .domainFault t d => Sys2Proof.Machine.execDomainFault t d s
  | .domainRestarted t d => Sys2Proof.Machine.execDomainRestarted t d s
  | .safeStopRampEnd t => Sys2Proof.Machine.execSafeStopRampEnd t s
  | .modeEntered t => Sys2Proof.Machine.execModeEntered t s
  | .modeAborted t => Sys2Proof.Machine.execModeAborted t s
  | .resynchronisationComplete t => Sys2Proof.Machine.execResynchronisationComplete t s
  | .safetyTick t o btnLow => Sys2Proof.Machine.execSafetyTick t o btnLow s
  | .baseTick t o => Sys2Proof.Machine.execBaseTick t o s
  | .passVote t subject unit claims late clocks => Sys2Proof.Machine.execPassVote t subject unit claims late clocks s
  | .voteLate t core r => Sys2Proof.Machine.execVoteLate t core r s
  | .sampleTimeout t ain out => Sys2Proof.Machine.execSampleTimeout t ain out s
  | .channelFault t ch => Sys2Proof.Machine.execChannelFault t ch s
  | .rateOverrun t g => Sys2Proof.Machine.execRateOverrun t g s
  | .coreDomainOff t core => Sys2Proof.Machine.execCoreDomainOff t core s
  | .coreSpliceTransfer t differed => Sys2Proof.Machine.execCoreSpliceTransfer t differed s
  | .hitchSwapped t g => Sys2Proof.Machine.execHitchSwapped t g s
  | .trackerLocked t => Sys2Proof.Machine.execTrackerLocked t s
  | .trackerAcquiring t => Sys2Proof.Machine.execTrackerAcquiring t s
  | .reacqClear t => Sys2Proof.Machine.execReacqClear t s
  | .linkDelivery t => Sys2Proof.Machine.execLinkDelivery t s
  | .classReturn t => Sys2Proof.Machine.execClassReturn t s
  | .rtTrip t => Sys2Proof.Machine.execRtTrip t s
  | .rtRestart t => Sys2Proof.Machine.execRtRestart t s
  | .restartTimeout t => Sys2Proof.Machine.execRestartTimeout t s
  | .enterServiceComplete t => Sys2Proof.Machine.execEnterServiceComplete t s
  | .dclChopperFault t => Sys2Proof.Machine.execDclChopperFault t s
  | .dclRelease t => Sys2Proof.Machine.execDclRelease t s
  | .dclUndervoltage t => Sys2Proof.Machine.execDclUndervoltage t s
  | .awnChip t => Sys2Proof.Machine.execAwnChip t s
  | .awnEvaluation t angle => Sys2Proof.Machine.execAwnEvaluation t angle s
  | .awnEpoch t => Sys2Proof.Machine.execAwnEpoch t s
  | .islDetected t => Sys2Proof.Machine.execIslDetected t s
  | .peerPcc t m => Sys2Proof.Machine.execPeerPcc t m s
  | .autoScanDwell t m => Sys2Proof.Machine.execAutoScanDwell t m s
  | .rocofTrip t => Sys2Proof.Machine.execRocofTrip t s
  | .pvPortStart t p => Sys2Proof.Machine.execPvPortStart t p s
  | .localTracker t p slope v w => Sys2Proof.Machine.execLocalTracker t p slope v w s
  | .mapHalving t p => Sys2Proof.Machine.execMapHalving t p s
  | .globalSearch t mean => Sys2Proof.Machine.execGlobalSearch t mean s
  | .pvSweep t p mean deficit => Sys2Proof.Machine.execPvSweep t p mean deficit s
  | .pvReferencePost t => Sys2Proof.Machine.execPvReferencePost t s
  | .curtailmentUpdate t => Sys2Proof.Machine.execCurtailmentUpdate t s
  | .bmsNodeReport t bus ident data => Sys2Proof.Machine.execBmsNodeReport t bus ident data s
  | .bmsNodeStale t n => Sys2Proof.Machine.execBmsNodeStale t n s
  | .bmsNodeDeparted t n => Sys2Proof.Machine.execBmsNodeDeparted t n s
  | .bmsStatusSend t bus => Sys2Proof.Machine.execBmsStatusSend t bus s
  | .loadEvent t leg peak => Sys2Proof.Machine.execLoadEvent t leg peak s
  | .bootPrecharge t leg => Sys2Proof.Machine.execBootPrecharge t leg s
  | .legTestEnd t leg => Sys2Proof.Machine.execLegTestEnd t leg s
  | .pipelineSample t a code o => Sys2Proof.Machine.execPipelineSample t a code o s
  | .senseSuspect t check unit => Sys2Proof.Machine.execSenseSuspect t check unit s
  | .senseVerdict t a b d => Sys2Proof.Machine.execSenseVerdict t a b d s
  | .converterPowerOff t c => Sys2Proof.Machine.execConverterPowerOff t c s
  | .checkSuspensionEnd t check unit => Sys2Proof.Machine.execCheckSuspensionEnd t check unit s
  | .shadowVisit t offset gain => Sys2Proof.Machine.execShadowVisit t offset gain s
  | .sarStart t u reqs => Sys2Proof.Machine.execSarStart t u reqs s
  | .sarResult t u code => Sys2Proof.Machine.execSarResult t u code s
  | .testDacStep t => Sys2Proof.Machine.execTestDacStep t s
  | .sensePath t diffs => Sys2Proof.Machine.execSensePath t diffs s
  | .calibrationCorrection t gains => Sys2Proof.Machine.execCalibrationCorrection t gains s
  | .fltAsserted t n => Sys2Proof.Machine.execFltAsserted t n s
  | .fltReady t n => Sys2Proof.Machine.execFltReady t n s
  | .comparatorAsserted t n => Sys2Proof.Machine.execComparatorAsserted t n s
  | .hardCellAsserted t n => Sys2Proof.Machine.execHardCellAsserted t n s
  | .monitorActs t n => Sys2Proof.Machine.execMonitorActs t n s
  | .softStep t g => Sys2Proof.Machine.execSoftStep t g s
  | .innerStep t g => Sys2Proof.Machine.execInnerStep t g s
  | .protRetry t g => Sys2Proof.Machine.execProtRetry t g s
  | .triesClear t g => Sys2Proof.Machine.execTriesClear t g s
  | .partnerSuspect t n => Sys2Proof.Machine.execPartnerSuspect t n s
  | .cmpSelfTestStep t cellBad standBad => Sys2Proof.Machine.execCmpSelfTestStep t cellBad standBad s
  | .cellPowerOff t k => Sys2Proof.Machine.execCellPowerOff t k s
  | .cmpTestComplete t codes => Sys2Proof.Machine.execCmpTestComplete t codes s
  | .recTimeTrigger t k => Sys2Proof.Machine.execRecTimeTrigger t k s
  | .recComplete t => Sys2Proof.Machine.execRecComplete t s
  | .persistenceHalving t m => Sys2Proof.Machine.execPersistenceHalving t m s
  | .readoutRecord t n => Sys2Proof.Machine.execReadoutRecord t n s
  | .skewCalComplete t => Sys2Proof.Machine.execSkewCalComplete t s
  | .safetyInputSample t levels => Sys2Proof.Machine.execSafetyInputSample t levels s
  | .testPulse t src => Sys2Proof.Machine.execTestPulse t src s
  | .discrepancyFault t k => Sys2Proof.Machine.execDiscrepancyFault t k s
  | .outputReadback t x pinMv hvMv uA => Sys2Proof.Machine.execOutputReadback t x pinMv hvMv uA s
  | .outputFault t x => Sys2Proof.Machine.execOutputFault t x s
  | .lightTestStep t x pinMv hvMv uA => Sys2Proof.Machine.execLightTestStep t x pinMv hvMv uA s
  | .feedbackTimeout t x => Sys2Proof.Machine.execFeedbackTimeout t x s
  | .outputTest t => Sys2Proof.Machine.execOutputTest t s
  | .darkTestStep t x pinMv hvMv uA => Sys2Proof.Machine.execDarkTestStep t x pinMv hvMv uA s
  | .vrelPdu t ip port pdu => Sys2Proof.Machine.execVrelPdu t ip port pdu s
  | .vrelTimeout t c => Sys2Proof.Machine.execVrelTimeout t c s
  | .vrelProduce t c => Sys2Proof.Machine.execVrelProduce t c s
  | .safetySessionTimeout t => Sys2Proof.Machine.execSafetySessionTimeout t s
  | .ethernetFrame t port frame beyond => Sys2Proof.Machine.execEthernetFrame t port frame beyond s
  | .announce t src counter payload => Sys2Proof.Machine.execAnnounce t src counter payload s
  | .dispatch t src payload => Sys2Proof.Machine.execDispatch t src payload s
  | .command t src pkt => Sys2Proof.Machine.execCommand t src pkt s
  | .canFrame t c ident fd ext brs remote data => Sys2Proof.Machine.execCanFrame t c ident fd ext brs remote data s
  | .uartReceive t data => Sys2Proof.Machine.execUartReceive t data s
  | .frameTransmit t n => Sys2Proof.Machine.execFrameTransmit t n s
  | .netLink t port isUp => Sys2Proof.Machine.execNetLink t port isUp s
  | .ptpTimeout t => Sys2Proof.Machine.execPtpTimeout t s
  | .announceSend t => Sys2Proof.Machine.execAnnounceSend t s
  | .peerAgedOut t addr => Sys2Proof.Machine.execPeerAgedOut t addr s
  | .dispatchExpiry t => Sys2Proof.Machine.execDispatchExpiry t s
  | .canBusOff t c => Sys2Proof.Machine.execCanBusOff t c s
  | .canBusRecovered t c => Sys2Proof.Machine.execCanBusRecovered t c s
  | .networkSessionTimeout t addr => Sys2Proof.Machine.execNetworkSessionTimeout t addr s
  | .coolPrechargeEnd t d => Sys2Proof.Machine.execCoolPrechargeEnd t d s
  | .alignEnd t d => Sys2Proof.Machine.execAlignEnd t d s
  | .commutation t d => Sys2Proof.Machine.execCommutation t d s
  | .backEmfCrossing t d => Sys2Proof.Machine.execBackEmfCrossing t d s
  | .crossingMiss t d => Sys2Proof.Machine.execCrossingMiss t d s
  | .coastTimeout t d => Sys2Proof.Machine.execCoastTimeout t d s
  | .coolPwmPeriod t d iU iV iW mean => Sys2Proof.Machine.execCoolPwmPeriod t d iU iV iW mean s
  | .coolOvercurrent t d => Sys2Proof.Machine.execCoolOvercurrent t d s
  | .bootstrapLockout t d phase => Sys2Proof.Machine.execBootstrapLockout t d phase s
  | .coolHourly t d up => Sys2Proof.Machine.execCoolHourly t d up s
  | .lockWindow t l diff roKhz => Sys2Proof.Machine.execLockWindow t l diff roKhz s
  | .clkSwitch t err0 err1 => Sys2Proof.Machine.execClkSwitch t err0 err1 s
  | .relockTimeout t l => Sys2Proof.Machine.execRelockTimeout t l s
  | .xrefAbsent t => Sys2Proof.Machine.execXrefAbsent t s
  | .xrefPresent t => Sys2Proof.Machine.execXrefPresent t s
  | .missingEdge t k => Sys2Proof.Machine.execMissingEdge t k s
  | .clkRegion t ctl iface => Sys2Proof.Machine.execClkRegion t ctl iface s
  | .scrub t hits => Sys2Proof.Machine.execScrub t hits s
  | .sramDoubleBitError t addr => Sys2Proof.Machine.execSramDoubleBitError t addr s
  | .mramVerifyFailure t kind addr image => Sys2Proof.Machine.execMramVerifyFailure t kind addr image s
  | .copyPointerSwitch t image => Sys2Proof.Machine.execCopyPointerSwitch t image s
  | .blockImageCommit t => Sys2Proof.Machine.execBlockImageCommit t s
  | .healthCommit t => Sys2Proof.Machine.execHealthCommit t s
  | .lcEraseComplete t => Sys2Proof.Machine.execLcEraseComplete t s
  | .vlsThreshold t vqs vls => Sys2Proof.Machine.execVlsThreshold t vqs vls s
  | .huskTimeLost o => Sys2Proof.Machine.execHuskTimeLost o s
  | .d0Reset o => Sys2Proof.Machine.execD0Reset o s
  | .huskTeg t on voc => Sys2Proof.Machine.execHuskTeg t on voc s
  | .tegMeasure t voc uw => Sys2Proof.Machine.execTegMeasure t voc uw s
  | .rtcWrite o => Sys2Proof.Machine.execRtcWrite o s
  | .burstComplete t => Sys2Proof.Machine.execBurstComplete t s
  | .sealedBlockWrite t => Sys2Proof.Machine.execSealedBlockWrite t s
  | .unknownOpcodePacket src t bytes valid => Sys2Proof.Machine.execUnknownOpcodePacket src t bytes valid s
  | .safetyOutputOvercurrent t x => Sys2Proof.Machine.execSafetyOutputOvercurrent t x s
  | .comparatorReleased t n => Sys2Proof.Machine.execComparatorReleased t n s
  | .jtagInstruction t kind pins => Sys2Proof.Machine.execJtagInstruction t kind pins s
  | .vddIoGood o => Sys2Proof.Machine.execVddIoGood o s
  | .d0PowerOn t vqs vls => Sys2Proof.Machine.execD0PowerOn t vqs vls s
  | .sramCorrection t addr => Sys2Proof.Machine.execSramCorrection t addr s

end Sys2Proof.Machine
end

