-- ==== Sys2Proof/Machine/CommandTable.lean ====
section
/-! DEFINITION. The rows of the command table that are command packets, each with its checks and effect: a reading aid and the subject of the
statements about every packet. -/

namespace Sys2Proof.Machine

/-- The opcode of a row that is a command packet, and the packet; none for a host access or a happening. -/
def packetOf (i : Instr) : Option (CmdSpec × Packet) :=
  match i with
  | .sysInfo p => some (specSysInfo, p)
  | .sysStatus p => some (specSysStatus, p)
  | .sysReset p => some (specSysReset, p)
  | .sysUnfreeze p => some (specSysUnfreeze, p)
  | .sysMode p => some (specSysMode, p)
  | .ringConfig p => some (specRingConfig, p)
  | .sessionOpen p => some (specSessionOpen, p)
  | .sessionClose p => some (specSessionClose, p)
  | .sheafEntryWrite p => some (specSheafEntryWrite, p)
  | .sheafEntryRead p => some (specSheafEntryRead, p)
  | .sheafEnable p => some (specSheafEnable, p)
  | .sheafCoefStage p => some (specSheafCoefStage, p)
  | .sheafCoefLive p => some (specSheafCoefLive, p)
  | .sheafHitchArm p => some (specSheafHitchArm, p)
  | .sheafHitchCancel p => some (specSheafHitchCancel, p)
  | .sheafLimitsSet p => some (specSheafLimitsSet, p)
  | .sheafMapSet p => some (specSheafMapSet, p)
  | .sheafStateSet p => some (specSheafStateSet, p)
  | .sheafStats p => some (specSheafStats, p)
  | .sheafTemplateWrite p => some (specSheafTemplateWrite, p)
  | .sheafInvalidate p => some (specSheafInvalidate, p)
  | .sheafCommit p => some (specSheafCommit, p)
  | .engineRateSet p => some (specEngineRateSet, p)
  | .engineStatus p => some (specEngineStatus, p)
  | .profileConfig p => some (specProfileConfig, p)
  | .profileTarget p => some (specProfileTarget, p)
  | .profileHold p => some (specProfileHold, p)
  | .profileRead p => some (specProfileRead, p)
  | .gridConfig p => some (specGridConfig, p)
  | .gridTrackerConfig p => some (specGridTrackerConfig, p)
  | .gridStatus p => some (specGridStatus, p)
  | .gridFunction p => some (specGridFunction, p)
  | .gridSetpoint p => some (specGridSetpoint, p)
  | .gridVsmConfig p => some (specGridVsmConfig, p)
  | .gridLimits p => some (specGridLimits, p)
  | .rtProfile p => some (specRtProfile, p)
  | .rtRegionSet p => some (specRtRegionSet, p)
  | .rtTripSet p => some (specRtTripSet, p)
  | .rtSupport p => some (specRtSupport, p)
  | .rtService p => some (specRtService, p)
  | .rtDclinkConfig p => some (specRtDclinkConfig, p)
  | .rtDclinkClear p => some (specRtDclinkClear, p)
  | .rtStatus p => some (specRtStatus, p)
  | .islAwnConfig p => some (specIslAwnConfig, p)
  | .islPassiveSet p => some (specIslPassiveSet, p)
  | .islPeerSet p => some (specIslPeerSet, p)
  | .islStatus p => some (specIslStatus, p)
  | .islPccMap p => some (specIslPccMap, p)
  | .islBaselineReset p => some (specIslBaselineReset, p)
  | .portPvConfig p => some (specPortPvConfig, p)
  | .portBatConfig p => some (specPortBatConfig, p)
  | .portChopperConfig p => some (specPortChopperConfig, p)
  | .portShareConfig p => some (specPortShareConfig, p)
  | .portMpptConfig p => some (specPortMpptConfig, p)
  | .portBmsConfig p => some (specPortBmsConfig, p)
  | .portEnable p => some (specPortEnable, p)
  | .portBatSet p => some (specPortBatSet, p)
  | .portSweep p => some (specPortSweep, p)
  | .portStatus p => some (specPortStatus, p)
  | .portBmsStatus p => some (specPortBmsStatus, p)
  | .portMapRead p => some (specPortMapRead, p)
  | .pwmTimebaseConfig p => some (specPwmTimebaseConfig, p)
  | .pwmLegConfig p => some (specPwmLegConfig, p)
  | .pwmDutySet p => some (specPwmDutySet, p)
  | .pwmLegTest p => some (specPwmLegTest, p)
  | .pwmStatus p => some (specPwmStatus, p)
  | .senseAinConfig p => some (specSenseAinConfig, p)
  | .senseDecimConfig p => some (specSenseDecimConfig, p)
  | .senseKirchhoffSet p => some (specSenseKirchhoffSet, p)
  | .senseCheckConfig p => some (specSenseCheckConfig, p)
  | .senseHkConfig p => some (specSenseHkConfig, p)
  | .senseHkRead p => some (specSenseHkRead, p)
  | .sensePathTest p => some (specSensePathTest, p)
  | .senseStatus p => some (specSenseStatus, p)
  | .protGroupConfig p => some (specProtGroupConfig, p)
  | .protFltConfig p => some (specProtFltConfig, p)
  | .protCmpConfig p => some (specProtCmpConfig, p)
  | .protMonConfig p => some (specProtMonConfig, p)
  | .protRelease p => some (specProtRelease, p)
  | .protTrip p => some (specProtTrip, p)
  | .protCmpTest p => some (specProtCmpTest, p)
  | .protStatus p => some (specProtStatus, p)
  | .recLaneConfig p => some (specRecLaneConfig, p)
  | .recTriggerConfig p => some (specRecTriggerConfig, p)
  | .recCaptureConfig p => some (specRecCaptureConfig, p)
  | .recArm p => some (specRecArm, p)
  | .recTrigger p => some (specRecTrigger, p)
  | .recRead p => some (specRecRead, p)
  | .recDelete p => some (specRecDelete, p)
  | .recCommit p => some (specRecCommit, p)
  | .recMapConfig p => some (specRecMapConfig, p)
  | .recStatClear p => some (specRecStatClear, p)
  | .recSkewCal p => some (specRecSkewCal, p)
  | .recStatus p => some (specRecStatus, p)
  | .safetyStatus p => some (specSafetyStatus, p)
  | .safetyUnlock p => some (specSafetyUnlock, p)
  | .safetyLock p => some (specSafetyLock, p)
  | .safetyStage p => some (specSafetyStage, p)
  | .safetyCommit p => some (specSafetyCommit, p)
  | .safetyRead p => some (specSafetyRead, p)
  | .safetyPassword p => some (specSafetyPassword, p)
  | .safetyAck p => some (specSafetyAck, p)
  | .safetyOutputReq p => some (specSafetyOutputReq, p)
  | .safetyOutputTest p => some (specSafetyOutputTest, p)
  | .safetyLogRead p => some (specSafetyLogRead, p)
  | .netPortConfig p => some (specNetPortConfig, p)
  | .netIpConfig p => some (specNetIpConfig, p)
  | .netNeighbourSet p => some (specNetNeighbourSet, p)
  | .netPtpOffset p => some (specNetPtpOffset, p)
  | .netCanConfig p => some (specNetCanConfig, p)
  | .netUartConfig p => some (specNetUartConfig, p)
  | .netFleetConfig p => some (specNetFleetConfig, p)
  | .netFleetKey p => some (specNetFleetKey, p)
  | .netDispatchAuth p => some (specNetDispatchAuth, p)
  | .netVrelBind p => some (specNetVrelBind, p)
  | .netPeerRead p => some (specNetPeerRead, p)
  | .netStatus p => some (specNetStatus, p)
  | .coolConfig p => some (specCoolConfig, p)
  | .coolRun p => some (specCoolRun, p)
  | .coolStatus p => some (specCoolStatus, p)
  | .coolHealth p => some (specCoolHealth, p)
  | .clkRefConfig p => some (specClkRefConfig, p)
  | .clkStatus p => some (specClkStatus, p)
  | .clkSwap p => some (specClkSwap, p)
  | .memStatus p => some (specMemStatus, p)
  | .memImageLoad p => some (specMemImageLoad, p)
  | .memDataWrite p => some (specMemDataWrite, p)
  | .memDataRead p => some (specMemDataRead, p)
  | .memKeyInstall p => some (specMemKeyInstall, p)
  | .memSerialSet p => some (specMemSerialSet, p)
  | .memLcChallenge p => some (specMemLcChallenge, p)
  | .memLcTransition p => some (specMemLcTransition, p)
  | .memSplice p => some (specMemSplice, p)
  | .memHealthRead p => some (specMemHealthRead, p)
  | .huskConfig p => some (specHuskConfig, p)
  | .huskStatus p => some (specHuskStatus, p)
  | .huskTimeSet p => some (specHuskTimeSet, p)
  | .huskLogRead p => some (specHuskLogRead, p)
  | _ => none

end Sys2Proof.Machine
end

