-- ==== Sys2Proof/WellFormed.lean ====
section
/-! DEFINITION. Well-formed commands: a packet from a source that exists with a payload that LENGTH can state, and a happening of a unit that
exists. -/

namespace Sys2Proof

/-- The source exists: host rings 0..7, application rings 48..51 (R72). -/
def Source.ok : Source → Bool
  | .hostRing n => decide (n < 8)
  | .appRing k => decide (k < 4)
  | .net a => decide (a < 2 ^ 18)
  | .escape => true

/-- A packet from a source that exists, its payload of at most 4,076 bytes (R59). -/
def Packet.ok (p : Packet) : Bool := p.src.ok && decide (p.payload.length ≤ 4076)

/-- An address of SRAM (R518). -/
def sramAddr (a : Nat) : Bool := decide (0x20000000 ≤ a) && decide (a < 0x20600000)

/-- A command is well formed. -/
def Instr.wellFormed : Instr → Bool
  | .sysInfo p => p.ok
  | .sysStatus p => p.ok
  | .sysReset p => p.ok
  | .sysUnfreeze p => p.ok
  | .sysMode p => p.ok
  | .ringConfig p => p.ok
  | .sessionOpen p => p.ok
  | .sessionClose p => p.ok
  | .sheafEntryWrite p => p.ok
  | .sheafEntryRead p => p.ok
  | .sheafEnable p => p.ok
  | .sheafCoefStage p => p.ok
  | .sheafCoefLive p => p.ok
  | .sheafHitchArm p => p.ok
  | .sheafHitchCancel p => p.ok
  | .sheafLimitsSet p => p.ok
  | .sheafMapSet p => p.ok
  | .sheafStateSet p => p.ok
  | .sheafStats p => p.ok
  | .sheafTemplateWrite p => p.ok
  | .sheafInvalidate p => p.ok
  | .sheafCommit p => p.ok
  | .engineRateSet p => p.ok
  | .engineStatus p => p.ok
  | .profileConfig p => p.ok
  | .profileTarget p => p.ok
  | .profileHold p => p.ok
  | .profileRead p => p.ok
  | .gridConfig p => p.ok
  | .gridTrackerConfig p => p.ok
  | .gridStatus p => p.ok
  | .gridFunction p => p.ok
  | .gridSetpoint p => p.ok
  | .gridVsmConfig p => p.ok
  | .gridLimits p => p.ok
  | .rtProfile p => p.ok
  | .rtRegionSet p => p.ok
  | .rtTripSet p => p.ok
  | .rtSupport p => p.ok
  | .rtService p => p.ok
  | .rtDclinkConfig p => p.ok
  | .rtDclinkClear p => p.ok
  | .rtStatus p => p.ok
  | .islAwnConfig p => p.ok
  | .islPassiveSet p => p.ok
  | .islPeerSet p => p.ok
  | .islStatus p => p.ok
  | .islPccMap p => p.ok
  | .islBaselineReset p => p.ok
  | .portPvConfig p => p.ok
  | .portBatConfig p => p.ok
  | .portChopperConfig p => p.ok
  | .portShareConfig p => p.ok
  | .portMpptConfig p => p.ok
  | .portBmsConfig p => p.ok
  | .portEnable p => p.ok
  | .portBatSet p => p.ok
  | .portSweep p => p.ok
  | .portStatus p => p.ok
  | .portBmsStatus p => p.ok
  | .portMapRead p => p.ok
  | .pwmTimebaseConfig p => p.ok
  | .pwmLegConfig p => p.ok
  | .pwmDutySet p => p.ok
  | .pwmLegTest p => p.ok
  | .pwmStatus p => p.ok
  | .senseAinConfig p => p.ok
  | .senseDecimConfig p => p.ok
  | .senseKirchhoffSet p => p.ok
  | .senseCheckConfig p => p.ok
  | .senseHkConfig p => p.ok
  | .senseHkRead p => p.ok
  | .sensePathTest p => p.ok
  | .senseStatus p => p.ok
  | .protGroupConfig p => p.ok
  | .protFltConfig p => p.ok
  | .protCmpConfig p => p.ok
  | .protMonConfig p => p.ok
  | .protRelease p => p.ok
  | .protTrip p => p.ok
  | .protCmpTest p => p.ok
  | .protStatus p => p.ok
  | .recLaneConfig p => p.ok
  | .recTriggerConfig p => p.ok
  | .recCaptureConfig p => p.ok
  | .recArm p => p.ok
  | .recTrigger p => p.ok
  | .recRead p => p.ok
  | .recDelete p => p.ok
  | .recCommit p => p.ok
  | .recMapConfig p => p.ok
  | .recStatClear p => p.ok
  | .recSkewCal p => p.ok
  | .recStatus p => p.ok
  | .safetyStatus p => p.ok
  | .safetyUnlock p => p.ok
  | .safetyLock p => p.ok
  | .safetyStage p => p.ok
  | .safetyCommit p => p.ok
  | .safetyRead p => p.ok
  | .safetyPassword p => p.ok
  | .safetyAck p => p.ok
  | .safetyOutputReq p => p.ok
  | .safetyOutputTest p => p.ok
  | .safetyLogRead p => p.ok
  | .netPortConfig p => p.ok
  | .netIpConfig p => p.ok
  | .netNeighbourSet p => p.ok
  | .netPtpOffset p => p.ok
  | .netCanConfig p => p.ok
  | .netUartConfig p => p.ok
  | .netFleetConfig p => p.ok
  | .netFleetKey p => p.ok
  | .netDispatchAuth p => p.ok
  | .netVrelBind p => p.ok
  | .netPeerRead p => p.ok
  | .netStatus p => p.ok
  | .coolConfig p => p.ok
  | .coolRun p => p.ok
  | .coolStatus p => p.ok
  | .coolHealth p => p.ok
  | .clkRefConfig p => p.ok
  | .clkStatus p => p.ok
  | .clkSwap p => p.ok
  | .memStatus p => p.ok
  | .memImageLoad p => p.ok
  | .memDataWrite p => p.ok
  | .memDataRead p => p.ok
  | .memKeyInstall p => p.ok
  | .memSerialSet p => p.ok
  | .memLcChallenge p => p.ok
  | .memLcTransition p => p.ok
  | .memSplice p => p.ok
  | .memHealthRead p => p.ok
  | .huskConfig p => p.ok
  | .huskStatus p => p.ok
  | .huskTimeSet p => p.ok
  | .huskLogRead p => p.ok
  | .doorbellWrite _ _ n _ => decide (n < 64)
  | .intStatusWrite _ _ _ => true
  | .timeLoRead _ _ => true
  | .registerWrite _ _ _ _ => true
  | .hspiWrite _ _ _ => true
  | .hspiQuadWrite _ _ _ => true
  | .hspiRead _ _ _ => true
  | .hspiQuadRead _ _ _ => true
  | .escapeWrite _ _ => true
  | .escapeRead _ _ => true
  | .unknownInstruction _ _ => true
  | .hostUartPacket _ _ => true
  | .heldReply _ n => decide (n < 64)
  | .firewallViolation _ m _ _ _ => decide (m < 7)
  | .frozenD10Restart _ => true
  | .powerOnReset _ _ => true
  | .supplyReset _ rail _ _ _ _ => decide (rail < 3)
  | .vddHvNotGood _ => true
  | .vddHvGood _ => true
  | .resetHoldEnd _ => true
  | .sramWipeComplete _ => true
  | .imageVerifyComplete _ kind slot _ _ _ => decide (kind < 2) && decide (slot < 2)
  | .pllLockTimeout _ => true
  | .converterCalibrationComplete _ => true
  | .sheafImageLoad _ _ _ => true
  | .startUpTestsComplete _ _ _ _ _ => true
  | .ready _ => true
  | .startModeAttempt _ => true
  | .buttonReset _ => true
  | .resetButtonStuck _ => true
  | .resetButtonFreed _ => true
  | .resetBtnReady _ => true
  | .heartbeatLost _ => true
  | .supervisorFault _ => true
  | .unrecoverableFault _ unit => decide (unit < 4)
  | .domainFault _ _ => true
  | .domainRestarted _ _ => true
  | .safeStopRampEnd _ => true
  | .modeEntered _ => true
  | .modeAborted _ => true
  | .resynchronisationComplete _ => true
  | .safetyTick _ _ _ => true
  | .baseTick _ _ => true
  | .passVote _ subject unit _ _ _ => subject != 1 || decide (unit < 32)
  | .voteLate _ core _ => decide (core < 4)
  | .sampleTimeout _ ain _ => decide (ain < 24)
  | .channelFault _ ch => decide (ch < 256)
  | .rateOverrun _ g => decide (g < 8)
  | .coreDomainOff _ core => decide (core < 4)
  | .coreSpliceTransfer _ _ => true
  | .hitchSwapped _ g => decide (g < 16)
  | .trackerLocked _ => true
  | .trackerAcquiring _ => true
  | .reacqClear _ => true
  | .linkDelivery _ => true
  | .classReturn _ => true
  | .rtTrip _ => true
  | .rtRestart _ => true
  | .restartTimeout _ => true
  | .enterServiceComplete _ => true
  | .dclChopperFault _ => true
  | .dclRelease _ => true
  | .dclUndervoltage _ => true
  | .awnChip _ => true
  | .awnEvaluation _ _ => true
  | .awnEpoch _ => true
  | .islDetected _ => true
  | .peerPcc _ m => decide (m < 64)
  | .autoScanDwell _ m => decide (m < 64)
  | .rocofTrip _ => true
  | .pvPortStart _ p => decide (p < 16)
  | .localTracker _ p _ _ _ => decide (p < 16)
  | .mapHalving _ p => decide (p < 16)
  | .globalSearch _ _ => true
  | .pvSweep _ p _ _ => decide (p < 16)
  | .pvReferencePost _ => true
  | .curtailmentUpdate _ => true
  | .bmsNodeReport _ bus _ _ => decide (bus < 2)
  | .bmsNodeStale _ n => decide (n < 64)
  | .bmsNodeDeparted _ n => decide (n < 64)
  | .bmsStatusSend _ bus => decide (bus < 2)
  | .loadEvent _ leg _ => decide (leg < 48)
  | .bootPrecharge _ leg => decide (leg < 48)
  | .legTestEnd _ leg => decide (leg < 48)
  | .pipelineSample _ a _ _ => decide (a < 24)
  | .senseSuspect _ check unit => if check = 3 then decide (unit < 8) else decide (unit < 24)
  | .senseVerdict _ _ _ _ => true
  | .converterPowerOff _ c => decide (c < 26)
  | .checkSuspensionEnd _ check unit => if check = 3 then decide (unit < 8) else decide (unit < 24)
  | .shadowVisit _ _ _ => true
  | .sarStart _ u _ => decide (u < 6)
  | .sarResult _ u _ => decide (u < 6)
  | .testDacStep _ => true
  | .sensePath _ _ => true
  | .calibrationCorrection _ _ => true
  | .fltAsserted _ n => decide (n < 48)
  | .fltReady _ n => decide (n < 48)
  | .comparatorAsserted _ n => decide (n < 52)
  | .hardCellAsserted _ n => decide (n < 52)
  | .monitorActs _ n => decide (n < 32)
  | .softStep _ g => decide (g < 8)
  | .innerStep _ g => decide (g < 8)
  | .protRetry _ g => decide (g < 8)
  | .triesClear _ g => decide (g < 8)
  | .partnerSuspect _ n => decide (n < 32)
  | .cmpSelfTestStep _ _ _ => true
  | .cellPowerOff _ k => decide (k < 52)
  | .cmpTestComplete _ _ => true
  | .recTimeTrigger _ k => decide (k < 4)
  | .recComplete _ => true
  | .persistenceHalving _ m => decide (m < 2)
  | .readoutRecord _ n => decide (24 ≤ n) && decide (n < 32)
  | .skewCalComplete _ => true
  | .safetyInputSample _ _ => true
  | .testPulse _ src => decide (src < 2)
  | .discrepancyFault _ k => decide (k < 8)
  | .outputReadback _ x _ _ _ => decide (x < 4)
  | .outputFault _ x => decide (x < 4)
  | .lightTestStep _ x _ _ _ => decide (x < 4)
  | .feedbackTimeout _ x => decide (x < 4)
  | .outputTest _ => true
  | .darkTestStep _ x _ _ _ => decide (x < 4)
  | .vrelPdu _ _ _ _ => true
  | .vrelTimeout _ c => decide (c < 4)
  | .vrelProduce _ c => decide (c < 4)
  | .safetySessionTimeout _ => true
  | .ethernetFrame _ port _ _ => decide (port < 2)
  | .announce _ src _ _ => decide (src < 2 ^ 18)
  | .dispatch _ src _ => decide (src < 2 ^ 18)
  | .command _ src _ => decide (src < 2 ^ 18)
  | .canFrame _ c _ _ _ _ _ _ => decide (c < 2)
  | .uartReceive _ _ => true
  | .frameTransmit _ n => decide (n < 64)
  | .netLink _ port _ => decide (port < 2)
  | .ptpTimeout _ => true
  | .announceSend _ => true
  | .peerAgedOut _ _ => true
  | .dispatchExpiry _ => true
  | .canBusOff _ c => decide (c < 2)
  | .canBusRecovered _ c => decide (c < 2)
  | .networkSessionTimeout _ _ => true
  | .coolPrechargeEnd _ d => decide (d < 2)
  | .alignEnd _ d => decide (d < 2)
  | .commutation _ d => decide (d < 2)
  | .backEmfCrossing _ d => decide (d < 2)
  | .crossingMiss _ d => decide (d < 2)
  | .coastTimeout _ d => decide (d < 2)
  | .coolPwmPeriod _ d _ _ _ _ => decide (d < 2)
  | .coolOvercurrent _ d => decide (d < 2)
  | .bootstrapLockout _ d _ => decide (d < 2)
  | .coolHourly _ d _ => decide (d < 2)
  | .lockWindow _ l _ _ => decide (l < 2)
  | .clkSwitch _ _ _ => true
  | .relockTimeout _ l => decide (l < 2)
  | .xrefAbsent _ => true
  | .xrefPresent _ => true
  | .missingEdge _ k => decide (k < 12)
  | .clkRegion _ _ _ => true
  | .scrub _ hits => hits.all sramAddr
  | .sramDoubleBitError _ addr => sramAddr addr
  | .mramVerifyFailure _ kind addr _ => decide (0x10000000 ≤ addr) && decide (addr < 0x11000000) && decide (kind < 3)
  | .copyPointerSwitch _ image => decide (image < 5)
  | .blockImageCommit _ => true
  | .healthCommit _ => true
  | .lcEraseComplete _ => true
  | .vlsThreshold _ _ _ => true
  | .huskTimeLost _ => true
  | .d0Reset _ => true
  | .huskTeg _ _ _ => true
  | .tegMeasure _ _ _ => true
  | .rtcWrite _ => true
  | .burstComplete _ => true
  | .sealedBlockWrite _ => true
  | .unknownOpcodePacket src _ _ _ => src.ok
  | .safetyOutputOvercurrent _ x => decide (x < 4)
  | .comparatorReleased _ n => decide (n < 52)
  | .jtagInstruction _ kind _ => decide (kind < 6)
  | .vddIoGood _ => true
  | .d0PowerOn _ _ _ => true
  | .sramCorrection _ addr => sramAddr addr

end Sys2Proof
end

