-- ==== Sys2Proof/Safety.lean ====
section
/-! DEFINITION. The terms that statements use: a packet accepted, what answering it may touch, and the invariants of the block. -/

namespace Sys2Proof.Machine

/-! ### Command packets -/

/-- The ring whose descriptor a source's packets take, if any. -/
def takeRing : Source → Option Nat
  | .hostRing n => some n
  | .appRing k => some (48 + k)
  | _ => none

/-- The addresses of the flags bytes of a packet's ring: those that taking packets from it may write (R73, R75). -/
def ringFlags (p : Packet) (s : State) : List Nat :=
  match takeRing p.src with
  | some n => ((s.ring n).devIndex :: List.range (s.ring n).size).map fun i => (s.ring n).base + 16 * i + 12
  | none => []

/-- The addresses of the flags bytes that taking a packet writes where nothing stands in its way: one for each descriptor of its span (R73). -/
def takeAddrs (p : Packet) (s : State) : List Nat :=
  match takeRing p.src with
  | some n => (s.spanOf n (s.ring n).size (s.ring n).devIndex (16 + p.payload.length)).map fun i => (s.ring n).base + 16 * i + 12
  | none => []

/-- The indices of at most k descriptors from index i on that are exposed: those before the index that the host has written (R74). -/
def exposedFrom (r : Ring) : Nat → Nat → List Nat
  | 0, _ => []
  | k + 1, i => if i = r.hostIndex then [] else i :: exposedFrom r k ((i + 1) % r.size)

/-- No exposed descriptor of the packet's ring is one that is not executed (R75). -/
abbrev InOrder (p : Packet) (s : State) : Prop :=
  ∀ n ∈ takeRing p.src, ∀ i ∈ exposedFrom (s.ring n) ((s.ring n).size + 1) (s.ring n).devIndex, s.rejects n i = false

/-- The state that a packet's checks see (R63): device time at the packet's time, the packet taken from its ring. -/
def seen (p : Packet) (s : State) : State := takePacket p (arrived p s)

/-- The state that an accepted packet's effect starts from: its session has been used, and UART0 sends from the first accepted command on (R53). -/
def begun (p : Packet) (s : State) : State := firstAccepted (touchSession p (seen p s))

/-- The command processor takes the packet of bytes b now: its source exists and may submit (R51, R72, R76, R83). -/
abbrev Taken (b : List Byte) (p : Packet) (s : State) : Prop := sourceOk p.src = true ∧ takes b p (arrived p s) = true

/-- The packet is taken, passes every check of R63, and is to act now: no dry run (R66), not deferred (R68). -/
abbrev Accepts (c : CmdSpec) (p : Packet) (s : State) : Prop :=
  Taken (packetBytes c.opcode p) p s ∧ c.fails p (seen p s) = none ∧ p.dry = false ∧ p.hitch = false

/-- s with what answering a command touches as t has it: the present instant; ring indexes, records and INT_STATUS; the UART line; the escape port;
the command processor (sessions' last use, counters, replies that wait); Benmor sending; the descriptors' flags bytes; and the mark that the block
image is to be stored (R61, R67, R72, R76, R83, R85, R469, R528). -/
def answered (s t : State) : State :=
  { s with
    time := t.time, rings := t.rings, esc := t.esc, cmd := t.cmd
    host := { s.host with intStatus := t.host.intStatus, uartOut := t.host.uartOut, uartEnd := t.host.uartEnd }
    net := { s.net with benSent := t.net.benSent, benHeld := t.net.benHeld, benNext := t.net.benNext, benCommit := t.net.benCommit }
    mem := { s.mem with sram := t.mem.sram, mram := t.mem.mram, blockNext := t.mem.blockNext, blockDirty := t.mem.blockDirty } }

/-- t is s but for what answering a command touches. -/
abbrev AnsweredFrom (s t : State) : Prop := t = answered s t

/-- s with what answering touches as t has it, and the husk and the recorder, which take the events of descriptors that are not executed (R75). -/
def passed (s t : State) : State := { answered s t with husk := t.husk, recorder := t.recorder }

/-- t is s but for what looking at a ring and answering touch. -/
abbrev PassedFrom (s t : State) : Prop := t = passed s t

/-- The answer of an accepted command with its effect u: the stored image marked, the command counted, and the reply with its status and
data sent, or held until the effect is stored (R61, R67, R92). -/
def answer (c : CmdSpec) (p : Packet) (st : Status) (data : List Byte) (u : State) : State :=
  finishReply c p { st := u, data := data, status := st } (whenReady countAccepted (c.noted p u))

/-- A packet of row i that its opcode accepts completes: its effect leads from the state it starts from to u, and it is answered. -/
abbrev Effects (i : Instr) (c : CmdSpec) (p : Packet) (s : State) (st : Status) (data : List Byte) (u : State) : Prop :=
  Accepts c p s → exec i s = .next (answer c p st data u)

/-- A packet of row i that its opcode accepts is answered OK with its data, and does nothing else. -/
abbrev Answers (i : Instr) (c : CmdSpec) (p : Packet) (s : State) (data : List Byte) : Prop := Effects i c p s .ok data (begun p s)

/-- A packet of row i that its opcode accepts has the effect u, and its reply is kept as `keep` says: the opcode answers it later. -/
abbrev EffectsLater (i : Instr) (c : CmdSpec) (p : Packet) (s : State) (st : Status) (data : List Byte) (keep : DurReply → State → State)
    (u : State) : Prop :=
  Accepts c p s → exec i s =
    .next (keep { src := p.src, image := c.image.getD 0, bytes := c.reply p st 0 (p.ack && c.image.isSome) data }
      (whenReady countAccepted (c.noted p u)))

/-! ### Invariants -/

/-- Memory holds its canonical form: addresses strictly rising, no byte 0 listed. -/
abbrev MemCanonical (s : State) : Prop := Mem.wf s.mem.sram = true ∧ Mem.wf s.mem.mram = true

/-- A pending life-cycle transition starts from the state in force and is one of those of R543. -/
abbrev LifeCycleLegal (s : State) : Prop := ∀ l ∈ s.mem.lcPend, l.lcFrom = s.mem.lc ∧ lcListed l.lcFrom l.lcTo = true

/-- No session has the value 0 (R70, R71). -/
abbrev SessionsLegal (s : State) : Prop := ∀ x ∈ s.cmd.sessions, x.value ≠ 0

end Sys2Proof.Machine
end

