-- ==== Sys2Proof/Certificates/Slice0/Obligations.lean ====
section
/-! DEFINITION. The statements for the provers: what a step does, what every command packet has in common, what each family of commands does,
and the invariants that every step keeps. A clause about a packet says what an accepted packet leads to (Effects, Answers, EffectsLater of
Safety.lean); what answering itself may touch is stated once, in AnsweringTouchesOnlyTheReply. -/

open Sys2Proof Sys2Proof.Machine

/-! ### The step -/

/-- A step takes the command at the front of the queue and runs it with the rest of the queue. -/
def Obligations.StepRunsTheFrontCommand : Prop :=
  ∀ (c : Instr) (r : List Instr) (s : State), step { s with pending := c :: r } = exec c { s with pending := r }

/-- Every command answers a next state, or stops at a unit that does not exist; none is refused. -/
def Obligations.NoCommandIsRefused : Prop :=
  ∀ (i : Instr) (s : State), (∃ t, exec i s = .next t) ∨ exec i s = .fault .noSuchUnit

/-- Every well-formed command answers a next state, whatever the state. -/
def Obligations.WellFormedCommandsComplete : Prop :=
  ∀ (i : Instr) (s : State), i.wellFormed = true → ∃ t, exec i s = .next t

/-- A packet of a source that does not exist stops (R72): no ring beyond the submission rings 0 to 7 and 48 to 51 carries commands. -/
def Obligations.MissingSourceStops : Prop :=
  ∀ (i : Instr) (c : CmdSpec) (p : Packet) (s : State), packetOf i = some (c, p) →
    ((∃ n, p.src = .hostRing n ∧ 8 ≤ n) ∨ (∃ k, p.src = .appRing k ∧ 4 ≤ k)) → exec i s = .fault .noSuchUnit

/-! ### Reset -/

/-- A device reset (R48): SRAM is wiped, every session is gone, no command is accepted, the heartbeat is lost, so that all four safety outputs
open, RST_OUT_N is low, and MRAM, the life-cycle state and D0 are kept. Device time is not loaded, so that what is stamped reads 0 (R15). -/
def Obligations.DeviceResetScope : Prop :=
  ∀ (cause : Nat) (s : State),
    let t := deviceReset cause s
    t.mem.sram = [] ∧ t.cmd.sessions = [] ∧ t.cmd.accepted = 0 ∧ t.cmd.rejected = 0 ∧ t.sys.ready = false ∧ t.sys.rstOutN = false ∧
    t.esc.on = false ∧ t.safety.heartbeat = false ∧ t.timeLoaded = false ∧ (∀ x, t.stamp x = 0) ∧ t.sys.resetCause = cause ∧
    t.mem.mram = s.mem.mram ∧ t.mem.lc = s.mem.lc ∧ t.mem.serial = s.mem.serial ∧ t.mem.ownerKey = s.mem.ownerKey ∧ t.husk = s.husk ∧
    (∀ x < 4, (t.safety.outs.getD x SOut.reset).soh = false ∧ (t.safety.outs.getD x SOut.reset).sol = false)

/-- The state after power-up holds what the spec gives it: not ready, no rail good, no clock fault, interrupt status 0, no session, memory
empty, core D the spare beside A, B and C voting, Acquiring, momentary-cessation class 3, RT_PRIORITY 1, and three return ticks. -/
def Obligations.ResetHoldsTheGivenValues : Prop :=
  let s := State.reset
  s.sys.ready = false ∧ s.sys.recovery = false ∧ s.sys.clockFault = false ∧ s.sys.rstOutN = false ∧ s.sys.resetCause = 1 ∧
  (s.sys.railCore || s.sys.railAn || s.sys.railIo || s.sys.railHv) = false ∧ s.host.intStatus = 0 ∧ s.host.frozen = 0 ∧
  s.cmd.sessions = [] ∧ s.cmd.accepted = 0 ∧ s.mem.sram = [] ∧ s.modes.mode = 0 ∧ s.modes.rampMs = 100 ∧ s.eng.cores = [1, 1, 1, 0] ∧
  s.grid.trk.state = 1 ∧ s.rt.cls = 3 ∧ s.rt.rtPriority = 1 ∧ s.rt.returnTicks = 3 ∧ s.rt.restartMax = 200 ∧ s.rt.esDelay = 300 ∧
  s.isl.rocof.enable = false ∧ s.isl.vshift.enable = false ∧ s.pending = []

/-! ### What every packet has in common -/

/-- Before an effect, only answering has touched the state, and, where descriptors that are not executed stand in the ring (R75), the events of them; and an answer touches nothing but device time, the rings, the escape port, the
command processor, INT_STATUS, the UART line, Benmor's sending, the descriptor's flags byte and the mark of the block image. -/
def Obligations.AnsweringTouchesOnlyTheReply : Prop :=
  ∀ (c : CmdSpec) (p : Packet) (s u : State) (st : Status) (data : List Byte),
    PassedFrom s (begun p s) ∧ (InOrder p s → AnsweredFrom s (begun p s)) ∧ AnsweredFrom u (answer c p st data u) ∧
    (begun p s).cmd.accepted = s.cmd.accepted ∧
    (u.sys.ready = true → (answer c p st data u).cmd.accepted = (u.cmd.accepted + 1) % 2 ^ 32)

/-- A packet taken stores to no byte of memory but its ring's flags bytes, and with no exposed descriptor to pass over to those of the descriptors it came from
(R73, R75): every other byte of SRAM and MRAM reads as before. -/
def Obligations.TakingAPacketStoresOneByte : Prop :=
  ∀ (p : Packet) (s : State) (a : Nat), (a ∉ ringFlags p s ∨ (InOrder p s ∧ a ∉ takeAddrs p s)) →
    Mem.read (seen p s).mem.sram a = Mem.read s.mem.sram a ∧ Mem.read (seen p s).mem.mram a = Mem.read s.mem.mram a

/-- A packet that fails a check is answered with the first step it fails (R63) and changes nothing but what answering touches (R65): no session,
no counter of accepted commands, no byte of memory but its descriptor's. MEM_LC_TRANSITION, whose failed signature uses up its challenge, is
apart. -/
def Obligations.RejectedPacketChangesNothing : Prop :=
  ∀ (i : Instr) (c : CmdSpec) (p : Packet) (s : State) (st : Status) (d : Nat),
    packetOf i = some (c, p) → (∀ q, i ≠ .memLcTransition q) → Taken (packetBytes c.opcode p) p s → c.fails p (seen p s) = some (st, d) →
    ∃ t, exec i s = .next t ∧ AnsweredFrom (seen p s) t ∧ t.cmd.sessions = s.cmd.sessions ∧ t.cmd.accepted = s.cmd.accepted ∧
      t.cmd.deferred = s.cmd.deferred ∧ t.mem.sram = (seen p s).mem.sram ∧ t.mem.mram = (seen p s).mem.mram ∧
      t.mem.blockNext = s.mem.blockNext ∧ t.mem.blockDirty = s.mem.blockDirty ∧
      (s.sys.ready = true → p.dry = false → t.cmd.rejected = (s.cmd.rejected + 1) % 2 ^ 32)

/-- A dry run (R66) that passes every check is answered, and changes nothing but what answering touches and its own counter: nothing is
accepted, deferred or stored. -/
def Obligations.DryRunChangesNothing : Prop :=
  ∀ (i : Instr) (c : CmdSpec) (p : Packet) (s : State),
    packetOf i = some (c, p) → Taken (packetBytes c.opcode p) p s → c.fails p (seen p s) = none → p.dry = true →
    ∃ t, exec i s = .next t ∧ AnsweredFrom (seen p s) t ∧ t.cmd.accepted = s.cmd.accepted ∧ t.cmd.rejected = s.cmd.rejected ∧
      t.cmd.deferred = s.cmd.deferred ∧ t.cmd.durable = s.cmd.durable ∧ t.mem.sram = (seen p s).mem.sram ∧
      t.mem.mram = (seen p s).mem.mram ∧ t.mem.blockNext = s.mem.blockNext ∧ t.mem.blockDirty = s.mem.blockDirty

/-- A packet with HITCH_DEFER that passes every check waits for its hitch group's swap (R68), at the end of the deferred commands; it has no
effect yet. -/
def Obligations.DeferredPacketWaits : Prop :=
  ∀ (i : Instr) (c : CmdSpec) (p : Packet) (s : State),
    packetOf i = some (c, p) → Taken (packetBytes c.opcode p) p s → c.fails p (seen p s) = none → p.dry = false → p.hitch = true →
    ∃ t, exec i s = .next t ∧ AnsweredFrom (seen p s) t ∧ c.defer = true ∧
      t.cmd.deferred = s.cmd.deferred ++ [{ group := c.hitchGroup p (begun p s), opcode := c.opcode, pkt := p }]

/-- A packet that the command processor does not take stays with its source, and nothing but the present instant changes, but that a descriptor at the
ring's head which is not executed is passed over (R75): on a ring before Ready
(R51), with no descriptor exposed (R74), while an earlier reply of the ring waits (R76), and of the application core while D10 is off (R29); in the
escape port unless it is the frame that the port holds and no reply waits there (R83). -/
def Obligations.UntakenPacketsStay : Prop :=
  (∀ (i : Instr) (c : CmdSpec) (p : Packet) (s : State) (n : Nat),
     packetOf i = some (c, p) → sourceOk p.src = true → ringOf p.src = some n →
     (s.sys.ready = false ∨ (s.ring n).devIndex = (s.ring n).hostIndex ∨ (∃ h ∈ s.cmd.held, some h.ring = replyRing p.src) ∨
       (48 ≤ n ∧ s.sys.domains.getD 10 0 ≠ 2)) →
     exec i s = .next (arrived p s) ∧ ((InOrder p s ∨ s.sys.ready = false ∨ (s.ring n).devIndex = (s.ring n).hostIndex) → exec i s = .next (s.advance p.t))) ∧
  (∀ (i : Instr) (c : CmdSpec) (p : Packet) (s : State),
     packetOf i = some (c, p) → p.src = .escape →
     (s.esc.on = false ∨ s.esc.busy = false ∨ s.esc.replyReady = true ∨ s.esc.frame ≠ packetBytes c.opcode p) → exec i s = .next (s.advance p.t))

/-- A reply packet (R61): OPCODE with bit 15 set, the command's TAG, LENGTH of its data, RFLAGS, VERSION 1, STATUS, DETAIL, the data, and the
CRC-32C of all of it. -/
def Obligations.ReplyFraming : Prop :=
  ∀ (op st detail fl : Nat) (tag : BitVec 16) (data : List Byte),
    op < 2 ^ 15 → st < 2 ^ 16 → detail < 2 ^ 16 → fl < 2 ^ 8 → data.length < 2 ^ 16 →
    let r := replyBytes op tag fl st detail data
    r.length = 16 + data.length ∧ u16 r 0 = op + 2 ^ 15 ∧ u16 r 2 = tag.toNat ∧ u16 r 4 = data.length ∧ u8 r 6 = fl ∧ u8 r 7 = 1 ∧
    u16 r 8 = st ∧ u16 r 10 = detail ∧ slice r 12 data.length = data ∧ r.drop (12 + data.length) = le 4 (crc32c (r.take (12 + data.length)))

/-- A packet that fails its CRC is answered E_CRC with OPCODE and TAG as received (R62), and is counted as rejected, or with DRY_RUN, echoed in
RFLAGS, as a dry run (R61, R66).

Completes: unknownOpcodePacket. -/
def Obligations.CrcFailureEchoesOpcodeAndTag : Prop :=
  ∀ (src : Source) (t : Nat) (b : List Byte) (s : State),
    let p := rawPacket src t b
    Taken b p s → u16 b 4 ≤ 4076 → b.length = u16 b 4 + 16 → crc32c (b.take (12 + u16 b 4)) ≠ u32 b (12 + u16 b 4) →
    exec (.unknownOpcodePacket src t b b.length) s =
      .next (sendReply src (replyBytes (u16 b 0) (BitVec.ofNat 16 (u16 b 2)) (flagAt p.dry 1) 0x0103 0 [])
        (whenReady (if p.dry then countDry else countRejected .eCrc) (seen p s)))

/-! ### Command packets, family by family -/

/-- System commands (R91 to R94): what each accepted one does.

SYS_MODE (R98 to R101): an accepted one drops what waited for another mode, stores the start mode where STORE asks, and starts the
transition, and its reply waits for the store where ACK_ON_DURABLE asks; the reply gives the present mode, the target and the expected time, OK where the mode already stands and OK_DEFERRED otherwise.

Completes: sysInfo, sysStatus, sysReset, sysUnfreeze, sysMode, ringConfig, sessionOpen, sessionClose. -/
def Obligations.SystemAndModePackets : Prop :=
  (∀ (p : Packet) (s : State),
     let u := begun p s
     let b := p.payload
     let r := u.ring (u8 b 0)
     Answers (.sysInfo p) specSysInfo p s (infoReply u) ∧
     Answers (.sysStatus p) specSysStatus p s (statusReply u) ∧
     (u.legsOff = true → u.modes.ramping = false →
       Effects (.sysReset p) specSysReset p s .ok []
         { u with sys := { u.sys with resetPending := if u.sys.resetPending = 0 then 4 else min u.sys.resetPending 4 } }) ∧
     Effects (.sysReset p) specSysReset p s .ok [] (requestReset p.t 4 u) ∧
     (u8 b 0 ≠ 2 → Effects (.sysUnfreeze p) specSysUnfreeze p s .ok []
       (State.post p.t (ev 0x0191 (u8 b 0) [BitVec.ofNat 8 (issuer p.src)])
         { u with host := { u.host with
             frozen := u.host.frozen &&& ~~~ (BitVec.ofNat 7 (2 ^ u8 b 0)), stalled := u.host.stalled.set (u8 b 0) 0 } })) ∧
     Effects (.sysUnfreeze p) specSysUnfreeze p s .ok [] (unfreeze p.t (u8 b 0) (issuer p.src) u) ∧
     Effects (.ringConfig p) specRingConfig p s .ok []
       { u with rings := upd u.rings (u8 b 0) fun _ => { r with
           configured := true, k := u8 b 1, owner := u8 b 2, irq := bit (u8 b 3) 0, base := u32 b 4, mask := u16 b 8
           hostIndex := 0, devIndex := 0, seq := 0, bad := [], recs := [] } } ∧
     (∀ src, p.src.sid = some src → Effects (.sessionOpen p) specSessionOpen p s .ok (le 4 u.sessionValue.toNat)
       { u with cmd := { u.cmd with sessions := u.cmd.sessions ++ [{ src := src, value := u.sessionValue, lastUsed := u.time }] }
                freeCtr := u.freeCtr + 1 }) ∧
     (u.safety.unlocked = none → Effects (.sessionClose p) specSessionClose p s .ok []
       { u with cmd := { u.cmd with sessions := u.cmd.sessions.filter fun x => !(some x.src == p.src.sid && x.value == p.session) } }) ∧
     Effects (.sessionClose p) specSessionClose p s .ok [] (u.dropSessions fun x => some x.src == p.src.sid && x.value == p.session)) ∧
  (∀ (p : Packet) (s : State),
     let u := begun p s
     let b := p.payload
     let target := u8 b 0
     let ms := u.rampOf (u16 b 4)
     let v := { u with modes := { u.modes with startWanted := false, restartArmed := false, reconnect := 0 } }
     let w := noteSettings { v with modes := { v.modes with startMode := target } }
     let data (n : Nat) : List Byte := [BitVec.ofNat 8 u.modes.mode, BitVec.ofNat 8 target] ++ le 2 n
     (u8 b 2 ≠ 1 → u.modes.mode = target → u.modes.trans = none →
       Effects (.sysMode p) specSysMode p s .ok (data 0) (commandMode p.t target ms v)) ∧
     (u8 b 2 ≠ 1 → (u.modes.mode ≠ target ∨ u.modes.trans ≠ none) →
       Effects (.sysMode p) specSysMode p s .okDeferred (data (u.expectedMs target ms)) (commandMode p.t target ms v)) ∧
     (u8 b 2 = 1 → p.ack = false → u.modes.mode = target → u.modes.trans = none →
       Effects (.sysMode p) specSysMode p s .ok (data 0) (commandMode p.t target ms w)) ∧
     (u8 b 2 = 1 → p.ack = false → (u.modes.mode ≠ target ∨ u.modes.trans ≠ none) →
       Effects (.sysMode p) specSysMode p s .okDeferred (data (u.expectedMs target ms)) (commandMode p.t target ms w)) ∧
     ((u8 b 2 = 1 → p.ack = true → u.modes.mode = target → u.modes.trans = none →
        EffectsLater (.sysMode p) specSysMode p s .ok (data 0) sendStored (commandMode p.t target ms w)) ∧
      (u8 b 2 = 1 → p.ack = true → (u.modes.mode ≠ target ∨ u.modes.trans ≠ none) →
        EffectsLater (.sysMode p) specSysMode p s .okDeferred (data (u.expectedMs target ms)) sendStored (commandMode p.t target ms w))))

/-- Sheaf commands that act at once (R148, R149): reads, statistics, templates, hitch groups, the commit.

Sheaf commands that change a channel's entry (R137, R139, R148): on a channel that does not run the effect stands at once; on a
running one it waits for the channel's next boundary, and the reply with it; a stop waits for the end of the pass under way (R150).

Completes: sheafEntryWrite, sheafEntryRead, sheafEnable, sheafCoefStage, sheafCoefLive, sheafHitchArm, sheafHitchCancel, sheafLimitsSet, sheafMapSet,
sheafStateSet, sheafStats, sheafTemplateWrite, sheafInvalidate, sheafCommit. -/
def Obligations.SheafTablePackets : Prop :=
  (∀ (p : Packet) (s : State),
     let u := begun p s
     let b := p.payload
     let n := u16 b 0
     let c := u.chan n
     let counted : Chan := { c with passes := 0, limCount := 0, satCount := 0, evtSupp := 0, invCount := 0, disCount := 0 }
     let unflagged (c : Chan) : Chan := { c with faulted := false, overrun := false, invalid := false, lim := false, sat := false }
     let kept := if bit (u8 b 2) 0 then counted else c
     let cleared := if bit (u8 b 2) 1 then unflagged kept else kept
     Answers (.sheafEntryRead p) specSheafEntryRead p s
       (Mem.readN u.eng.run (n * 0x400) 0x380 ++ c.stateBytes ++ c.statBytes) ∧
     Effects (.sheafStats p) specSheafStats p s .ok c.statBytes
       { u with eng := { u.eng with chans := upd u.eng.chans n fun _ => cleared } } ∧
     (let req := if u64 b 4 = 0 then p.t else u64 b 4
      let bd := (u.swapBoundary (u8 b 0) req p.t).getD 0
      Effects (.sheafHitchArm p) specSheafHitchArm p s .okDeferred (le 8 bd) (arm (u8 b 0) req bd u)) ∧
     Effects (.sheafHitchCancel p) specSheafHitchCancel p s .ok [] (disarm (u8 b 0) u) ∧
     (let t := fit 0x180 (b.drop 4) ++ le 1 (u8 b 1) ++ zeros 0x7F
      Effects (.sheafTemplateWrite p) specSheafTemplateWrite p s .ok []
        { u with
          mem := { u.mem with sram := Mem.writeN u.mem.sram (0x20340000 + u8 b 0 * 0x200) t }
          eng := { u.eng with templates := Mem.writeN u.eng.templates (u8 b 0 * 0x200) t } }) ∧
     Effects (.sheafCommit p) specSheafCommit p s .ok (le 4 (crc32c (sheafImage u)))
       { u with eng := { u.eng with sheafCommit := true, commitImg := sheafStored u } }) ∧
  (∀ (p : Packet) (s : State),
     let u := begun p s
     let b := p.payload
     let n := u16 b 0
     let at1 (i : Instr) (c : CmdSpec) (v : State) : Prop :=
       let w := v.modChan n fun x => { x with pending := true }
       (u.live n = false → Effects i c p s .ok [] (effectNow n w)) ∧
       (u.live n = true → EffectsLater i c p s .ok [] (fun d s => s.modChan n fun x => { x with replies := x.replies ++ [d] }) w)
     at1 (.sheafEntryWrite p) specSheafEntryWrite
       ((writeImg n (slice b 4 0x380) u).modChan n fun c => { c with pendReset := c.pendReset || bit (u8 b 2) 0 }) ∧
     at1 (.sheafCoefStage p) specSheafCoefStage (placeEntry n (bankAt u n false (u8 b 2)) (b.drop 4) u) ∧
     at1 (.sheafCoefLive p) specSheafCoefLive (placeEntry n (bankAt u n true (u8 b 2)) (slice b 4 2) u) ∧
     at1 (.sheafLimitsSet p) specSheafLimitsSet (placeEntry n (0x300 + 4 * u8 b 2) (b.drop 4) u) ∧
     at1 (.sheafMapSet p) specSheafMapSet (placeEntry n ((if u8 b 2 = 0 then 0x40 else 0x340) + 4 * u8 b 3) (b.drop 8) u) ∧
     (bit (u8 b 2) 0 = true → at1 (.sheafEnable p) specSheafEnable
       (let v := (writeEnable n true u).modChan n fun c => { c with pendStart := true, pendReset := c.pendReset || bit (u8 b 2) 1 }
        v.modEng fun e => { e with groups := upd e.groups (chGroup e.run n) fun g => { g with stopped := false } })) ∧
     (let v := disableChan n (u.modChan n fun c => { c with pendStart := false, pendRun := false })
      let w := (writeEnable n false v).modChan n fun x => { x with pending := true }
      bit (u8 b 2) 0 = false → u.enabled n = true →
       ((v.chan n).pendStop = false → Effects (.sheafEnable p) specSheafEnable p s .ok [] (effectNow n w)) ∧
       ((v.chan n).pendStop = true → EffectsLater (.sheafEnable p) specSheafEnable p s .ok []
         (fun d s => s.modChan n fun x => { x with replies := x.replies ++ [d] }) w)) ∧
     (bit (u8 b 2) 0 = false → u.enabled n = false → Effects (.sheafEnable p) specSheafEnable p s .ok [] u) ∧
     (let ws := (List.range (u8 b 3)).map fun i => (u8 b 2 + i, signed 40 (uN 5 b (4 + 8 * i)))
      (u.live n = false → Effects (.sheafStateSet p) specSheafStateSet p s .ok []
        (u.modChan n fun c => { c with words := ws.foldl (fun w x => w.set x.1 x.2) c.words })) ∧
      (u.live n = true → EffectsLater (.sheafStateSet p) specSheafStateSet p s .ok []
        (fun d s => s.modChan n fun x => { x with replies := x.replies ++ [d] }) (u.modChan n fun c => { c with pendWords := c.pendWords ++ ws }))) ∧
     (let r := (List.range (u16 b 2)).map fun i => n + i
      let v := r.foldl (fun s m => loadFromMemory m (bit (u8 b 4) 0) s) u
      (slowest u r = none → Effects (.sheafInvalidate p) specSheafInvalidate p s .ok [] v) ∧
      (∀ m, slowest u r = some m → EffectsLater (.sheafInvalidate p) specSheafInvalidate p s .ok []
        (fun d s => s.modChan m fun x => { x with replies := x.replies ++ [d] }) v)))

/-- Engine and profile commands (R181 to R184): a rate configuration waits for the next base tick; a profile command sets the generator.

Completes: engineRateSet, engineStatus, profileConfig, profileTarget, profileHold, profileRead. -/
def Obligations.EngineAndProfilePackets : Prop :=
  ∀ (p : Packet) (s : State),
    let u := begun p s
    let b := p.payload
    let k := u8 b 0
    let g := u.gen k
    Effects (.engineRateSet p) specEngineRateSet p s .ok []
      { u with eng := { u.eng with ratePend := some { tb := u8 b 0, event := u8 b 1, groups := (List.range 8).map fun g => u32 b (4 + 4 * g) } } } ∧
    Answers (.engineStatus p) specEngineStatus p s (engineStatus u) ∧
    Effects (.profileConfig p) specProfileConfig p s .ok []
      { u with gens := upd u.gens k fun _ => { g with
          group := u8 b 1, enable := bit (u8 b 2) 0, arrEvt := bit (u8 b 2) 1, powerSp := bit (u8 b 2) 2, vMax := f32 b 4, aMax := f32 b 8
          jMax := f32 b 12, initSrc := f32 b 16, band := u16 b 20 } } ∧
    (g.held = true → Effects (.profileTarget p) specProfileTarget p s .ok []
      { u with gens := upd u.gens k fun _ => { g with pendTarget := some (BitVec.ofNat 16 (u16 b 2)) } }) ∧
    (g.held = false → Effects (.profileTarget p) specProfileTarget p s .ok []
      { u with gens := upd u.gens k fun _ =>
          { g with target := BitVec.ofNat 16 (u16 b 2), arrived := g.arrived && g.target == BitVec.ofNat 16 (u16 b 2) } }) ∧
    (bit (u8 b 1) 0 = true → g.held = true → Effects (.profileHold p) specProfileHold p s .ok [] { u with gens := upd u.gens k fun _ => g }) ∧
    (bit (u8 b 1) 0 = true → g.held = false → Effects (.profileHold p) specProfileHold p s .ok []
      { u with gens := upd u.gens k fun _ => { g with
          held := true
          holdPoint := if secondsF (u.period g.group) = 0 then g.p else g.holdAt genFuel (secondsF (u.period g.group)) } }) ∧
    (bit (u8 b 1) 0 = false → g.pendTarget = none → Effects (.profileHold p) specProfileHold p s .ok []
      { u with gens := upd u.gens k fun _ => { g with held := false } }) ∧
    (∀ x, bit (u8 b 1) 0 = false → g.pendTarget = some x → Effects (.profileHold p) specProfileHold p s .ok []
      { u with gens := upd u.gens k fun _ =>
          { g with held := false, pendTarget := none, target := x, arrived := g.arrived && g.target == x } }) ∧
    (let moving := !(feq g.v 0 && feq g.a 0)
     Answers (.profileRead p) specProfileRead p s
       (leI 2 (fQ15Up g.p) ++ leI 2 (fQ15Up (fdiv g.v g.vMax)) ++ leI 2 (fQ15Up (fdiv g.a g.aMax)) ++ le 2 g.target.toNat ++
        le 1 (flagAt g.enable 0 + flagAt moving 1 + flagAt g.held 2 + flagAt (u.owned 3 k) 3 + flagAt g.arrived 4) ++ zeros 3 ++
        le 4 (g.arrivalUs (u.period g.group))))

/-- Grid commands (R215 to R221): what each sets; tracker and virtual-machine parameters wait for the grid-group boundary.

Completes: gridConfig, gridTrackerConfig, gridStatus, gridFunction, gridSetpoint, gridVsmConfig, gridLimits. -/
def Obligations.GridPackets : Prop :=
  ∀ (p : Packet) (s : State),
    let u := begun p s
    let b := p.payload
    let f := u.grid.fns.getD (u8 b 0) GridFn.reset
    let v : Vsm := { u.grid.vsm with
      h := f32 b 0, rf := f32 b 4, kd := f32 b 8, rq := f32 b 12, tq := f32 b 16, deltaMax := f32 b 20, fLim := f32 b 24, fSet := f32 b 28 }
    Effects (.gridConfig p) specGridConfig p s .ok [] (applyGridCfg p.t (gridCfgOf b) u) ∧
    Effects (.gridTrackerConfig p) specGridTrackerConfig p s .ok []
      { u with grid := { u.grid with
          tcfgPend := some { bw := u16 b 0, leadNs := u16 b 2, coastPu := u8 b 4, snapDeg := u8 b 5, eventDeg := u8 b 6 } } } ∧
    Answers (.gridStatus p) specGridStatus p s (gridStatus u) ∧
    Effects (.gridFunction p) specGridFunction p s .ok []
      { u with grid := { u.grid with fns := upd u.grid.fns (u8 b 0) fun _ =>
          { f with code := u8 b 1, resp := f32 b 4, params := (List.range 8).map fun i => f32 b (8 + 4 * i) } } } ∧
    Effects (.gridSetpoint p) specGridSetpoint p s .ok []
      { u with grid := { u.grid with pSet := f32 b 0, qSet := f32 b 4, vSet := f32 b 8 }, net := { u.net with expiry := none } } ∧
    Effects (.gridVsmConfig p) specGridVsmConfig p s .ok []
      { u with grid := { u.grid with vsmPend := some v } } ∧
    Effects (.gridLimits p) specGridLimits p s .ok []
      { u with grid := { u.grid with
          lim := { iMax := f32 b 0, priority := u8 b 4, exportW := f32 b 8, importW := f32 b 12, sMax := f32 b 16 } } }

/-- Ride-through and DC-link commands (R249 to R256): what each sets; a trip function keeps a running count that its new T is compared with
(R231), and CHOP_FAULT is cleared by its own command alone.

Completes: rtProfile, rtRegionSet, rtTripSet, rtSupport, rtService, rtDclinkConfig, rtDclinkClear, rtStatus. -/
def Obligations.RideThroughPackets : Prop :=
  ∀ (p : Packet) (s : State),
    let u := begun p s
    let b := p.payload
    let k := u8 b 0
    let old := u.rt.trips.getD k TripFn.reset
    let new : TripFn :=
      { enable := bit (u8 b 1) 0, thr := if k < 4 then (u16 b 2 : Int) else s16 b 2, tTicks := u32 b 4, count := 0, tripped := false }
    Effects (.rtProfile p) specRtProfile p s .ok [] { u with rt := loadProfile k u.rt } ∧
    Effects (.rtRegionSet p) specRtRegionSet p s .ok []
      { u with rt := { u.rt with
          u1 := u16 b 0, u2 := u16 b 2, u3 := u16 b 4, o1 := u16 b 6, o2 := u16 b 8
          b := (List.range 5).map fun i => bits (u16 b 10) (2 * i + 1) (2 * i) } } ∧
    Effects (.rtTripSet p) specRtTripSet p s .ok []
      { u with rt := { u.rt with trips := upd u.rt.trips k fun _ => old.keep new } } ∧
    Effects (.rtSupport p) specRtSupport p s .ok []
      { u with rt := { u.rt with
          rtPriority := u8 b 0, returnTicks := u8 b 1, permissive := u8 b 2, kSupport := u16 b 4, dB := u16 b 6, pRecover := f32 b 8
          restartMax := u16 b 12 } } ∧
    Effects (.rtService p) specRtService p s .ok []
      { u with rt := { u.rt with
          esVLo := u16 b 0, esVHi := u16 b 2, esFLo := s16 b 4, esFHi := u16 b 6, esDelay := u16 b 8, esRamp := u16 b 10
          esDone := u.rt.esDone && u16 b 8 * 1000 ≤ u.rt.esTicks } } ∧
    Effects (.rtDclinkConfig p) specRtDclinkConfig p s .ok []
      { u with dcl := { u.dcl with
          hasCfg := true, ain := u8 b 0, out := u8 b 1 % 4, chopAin := u8 b 2, uv := u16 b 4, rel := u16 b 6, ov1 := u16 b 8, ov2 := u16 b 10
          fs := u16 b 12, chopFs := u16 b 14, chopIMin := u16 b 16, chopDMin := u16 b 18, relSince := none, chopSince := none } } ∧
    Effects (.rtDclinkClear p) specRtDclinkClear p s .ok [] { u with dcl := { u.dcl with chopFault := false, chopSince := none } } ∧
    Answers (.rtStatus p) specRtStatus p s (rtStatus u)

/-- Islanding commands (R280 to R284): what each sets; a peer that leaves the map by its reassignment is posted as PEER_PCC (R275).

Completes: islAwnConfig, islPassiveSet, islPeerSet, islStatus, islPccMap, islBaselineReset. -/
def Obligations.IslandingPackets : Prop :=
  ∀ (p : Packet) (s : State),
    let u := begun p s
    let b := p.payload
    let m := u8 b 0
    let old := u.isl.corr.getD m Corr.reset
    let free := if u8 b 1 = 2 then u.nextPeer m 0x40000 else none
    let code := if u8 b 1 = 2 then free.getD 0 else u32 b 4
    let new : Corr :=
      { mode := u8 b 1, code := code, held := u8 b 1 == 1 || free.isSome, inMap := false, share := none, count := 0, dwell := 0 }
    let v := { u with isl := { u.isl with corr := u.isl.corr.set m new } }
    let pasv (x : Passive) : Passive :=
      { x with enable := bit (u8 b 1) 0, thr := u16 b 2, w := u16 b 4, t := u32 b 8, acted := x.acted && u32 b 8 ≤ x.count }
    Effects (.islAwnConfig p) specIslAwnConfig p s .ok [] (applyAwnCfg p.t (awnCfgOf b) u) ∧
    (m = 0 → Effects (.islPassiveSet p) specIslPassiveSet p s .ok [] { u with isl := { u.isl with rocof := pasv u.isl.rocof } }) ∧
    (m ≠ 0 → Effects (.islPassiveSet p) specIslPassiveSet p s .ok [] { u with isl := { u.isl with vshift := pasv u.isl.vshift } }) ∧
    (old.inMap = false → Effects (.islPeerSet p) specIslPeerSet p s .ok [] v) ∧
    (old.inMap = true → Effects (.islPeerSet p) specIslPeerSet p s .ok []
      (State.post p.t (ev 0x0532 m ([0] ++ le 3 old.code ++ le 2 (old.share.getD 0))) v)) ∧
    Answers (.islStatus p) specIslStatus p s (islStatus u) ∧
    Answers (.islPccMap p) specIslPccMap p s (pccMap u) ∧
    Effects (.islBaselineReset p) specIslBaselineReset p s .ok [] { u with isl := { u.isl with relearn := true } }

/-- Port commands (R307 to R312): what each sets.

Completes: portPvConfig, portBatConfig, portChopperConfig, portShareConfig, portMpptConfig, portBmsConfig, portEnable, portBatSet, portSweep,
portStatus, portBmsStatus, portMapRead. -/
def Obligations.PortPackets : Prop :=
  ∀ (p : Packet) (s : State),
    let u := begun p s
    let b := p.payload
    let k := u8 b 0
    let n := u.bms k
    let x := u.pv k
    Effects (.portPvConfig p) specPortPvConfig p s .ok [] (applyPvCfg p.t k (pvCfgOf b) u) ∧
    Effects (.portBatConfig p) specPortBatConfig p s .ok [] (applyBatCfg p.t k (batCfgOf b) u) ∧
    (let d := if u.ports.chopper = 255 then u else dropLeg u.ports.chopper u
     let d := if k = 255 then d else claimLeg k 9 none d
     Effects (.portChopperConfig p) specPortChopperConfig p s .ok [] (legsUpdate p.t { d with ports := { d.ports with chopper := k } })) ∧
    Effects (.portShareConfig p) specPortShareConfig p s .ok []
      { u with ports := { u.ports with
          hasShare := true, linkBase := k, batMode := u8 b 1, vdcRef := u16 b 2, holdOff := u8 b 4, sweepPar := u8 b 5, pHold := u16 b 6 } } ∧
    (k < 16 → Effects (.portMpptConfig p) specPortMpptConfig p s .ok []
      { u with ports := { u.ports with pv := upd u.ports.pv k fun _ => { x with mppt := mpptOf b } } }) ∧
    (k = 255 → Effects (.portMpptConfig p) specPortMpptConfig p s .ok []
      ((List.range 16).foldl (fun s j => s.modPv j fun x => { x with mppt := mpptOf b }) u)) ∧
    Effects (.portBmsConfig p) specPortBmsConfig p s .ok []
      { u with ports := { u.ports with bms := upd u.ports.bms k fun _ =>
          { n with port := u8 b 1, period := u16 b 2, timeout := u16 b 4, disable := u16 b 6 } } } ∧
    (k = 1 → bit (u8 b 2) 0 = false → Effects (.portEnable p) specPortEnable p s .ok []
      (legsUpdate p.t (batState p.t (u8 b 1) (u.modBat (u8 b 1) fun x => { x with enable := false })))) ∧
    (k = 1 → bit (u8 b 2) 0 = true → Effects (.portEnable p) specPortEnable p s .ok []
      (legsUpdate p.t (batState p.t (u8 b 1) (u.modBat (u8 b 1) fun x => { x with enable := true })))) ∧
    (k = 0 → bit (u8 b 2) 0 = false → Effects (.portEnable p) specPortEnable p s .ok []
      (legsUpdate p.t ((pvTo p.t (u8 b 1) 0 (abortSweep p.t (u8 b 1) 6 u)).modPv (u8 b 1) fun x => { x with ordered := false, reserve := 0 }))) ∧
    (k = 0 → bit (u8 b 2) 0 = true → (u.pv (u8 b 1)).state = 0 → Effects (.portEnable p) specPortEnable p s .ok []
      (pvTo p.t (u8 b 1) 1 (u.modPv (u8 b 1) fun x => { x with credit := 0 }))) ∧
    (k = 0 → bit (u8 b 2) 0 = true → (u.pv (u8 b 1)).state ≠ 0 → Effects (.portEnable p) specPortEnable p s .ok [] u) ∧
    (k = 255 → Effects (.portBatSet p) specPortBatSet p s .ok []
      { u with ports := { u.ports with batSet := f32 b 4, batSetPort := false, bat := u.ports.bat.map fun x => { x with setW := 0 } }, net := { u.net with expiry := none } }) ∧
    (k ≠ 255 → Effects (.portBatSet p) specPortBatSet p s .ok []
      { u with
        ports := { u.ports with batSetPort := true, bat := upd u.ports.bat k fun x => { x with setW := f32 b 4 } }
        net := { u.net with expiry := none } }) ∧
    (∀ c, x.cfg = some c → Effects (.portSweep p) specPortSweep p s .ok []
      { u with ports := { u.ports with pv := upd u.ports.pv k fun _ =>
          { x with ordered := true, reserve := fmul (intF (x.meanP : Nat) 1000) (x.plan (c.vMin * 10)) } } }) ∧
    Answers (.portStatus p) specPortStatus p s (portStatus u) ∧
    Answers (.portBmsStatus p) specPortBmsStatus p s (bmsStatus u) ∧
    Answers (.portMapRead p) specPortMapRead p s (mapRows (u.pv k) (u8 b 1))

/-- PWM commands (R332 to R337): a duty is written to the leg's shadow at device time; a test starts or ends; status clears the sticky flags.

Completes: pwmTimebaseConfig, pwmLegConfig, pwmDutySet, pwmLegTest, pwmStatus. -/
def Obligations.PwmPackets : Prop :=
  ∀ (p : Packet) (s : State),
    let u := begun p s
    let b := p.payload
    let k := u8 b 0
    let v := pwmSettle u.time u
    let setD := bit (u8 b 1) 0
    let setP := bit (u8 b 1) 1
    let ph : BitVec 16 := BitVec.ofNat 16 (u16 b 12)
    Effects (.pwmTimebaseConfig p) specPwmTimebaseConfig p s .ok []
      (pwmSettle v.time { v with pwm := { v.pwm with tbs := upd v.pwm.tbs k fun x =>
        { x with cfg := tbCfgOf b, pend := true, pendAt := v.pwm.d6.steps v.time } } }) ∧
    (let l := (v.leg k).asked
     let w := curMode (if l.lmode = 0 then 255 else l.cmp) (if bits (u8 b 2) 1 0 = 0 then 255 else u8 b 3) v
     Effects (.pwmLegConfig p) specPwmLegConfig p s .ok []
       (w.modLeg k fun l => { l with
         role := if l.role = 0 then 1 else l.role
         nextAt := w.pwm.d6.steps w.time
         next := some
           { tb := u8 b 1, lmode := bits (u8 b 2) 1 0, loads := bits (u8 b 2) 3 2, boot := bit (u8 b 2) 4, cmp := u8 b 3, dtH := u16 b 4, dtL := u16 b 6
             minPulse := u16 b 8, dMax := u16 b 10, phase := ph, bootHold := u16 b 14, bootRefresh := u16 b 16, bootPre := u16 b 18 } })) ∧
    ((setD || setP) = true → Effects (.pwmDutySet p) specPwmDutySet p s .ok []
      (legsUpdate u.time (u.modLeg k fun l =>
        { l.write u.time (if setD then some (BitVec.ofNat 16 (u16 b 2)) else none) (if setP then some (BitVec.ofNat 16 (u16 b 4)) else none) with
          duSet := l.duSet || setD }))) ∧
    ((setD || setP) = false → Effects (.pwmDutySet p) specPwmDutySet p s .ok [] (legsUpdate u.time u)) ∧
    (setD = true → Effects (.pwmLegTest p) specPwmLegTest p s .ok []
      (legsUpdate u.time (u.modLeg k fun l =>
        { l.write u.time (some 0) none with testEnd := u.time + u32 b 4 * 1000000, testCeil := BitVec.ofNat 16 (u16 b 2) }))) ∧
    (setD = false → Effects (.pwmLegTest p) specPwmLegTest p s .ok [] (endLegTest u.time k u)) ∧
    Effects (.pwmStatus p) specPwmStatus p s .ok (pwmStatus u)
      { u with pwm := { u.pwm with legs := u.pwm.legs.map fun l => { l with flags := 0 } } }

/-- Sensing commands (R362 to R367): what each sets; HK_READ and PATH_TEST answer when their conversions or tests end.

Completes: senseAinConfig, senseDecimConfig, senseKirchhoffSet, senseCheckConfig, senseHkConfig, senseHkRead, sensePathTest, senseStatus. -/
def Obligations.SensingPackets : Prop :=
  ∀ (p : Packet) (s : State),
    let u := begun p s
    let b := p.payload
    let k := u8 b 0
    let a := u.ain k
    let kir : Kir := { Kir.reset with
      enable := bit (u8 b 1) 0, members := (List.range (min 4 (u8 b 2))).map fun i => u8 b (4 + i), signs := u8 b 3, thr := u16 b 8 }
    let conf := { u with sense := { u.sense with confTol := u16 b 0, shOffset := u16 b 2, shGain := u16 b 4, shEnable := bit (u8 b 6) 0 } }
    let l := (List.range 8).map fun i => u8 b i
    let used := (l.filter fun n => n != 255).eraseDups
    let paths := pathEntries b
    Effects (.senseAinConfig p) specSenseAinConfig p s .ok []
      (fixVisit (fixShadow { u with sense := { u.sense with ains := upd u.sense.ains k fun _ => { a with
          enable := bit (u8 b 1) 0, stuck := bit (u8 b 1) 1, winLo := s16 b 2, winHi := s16 b 4, fs := f32 b 8, unit := u16 b 12
          rangeCnt := 0, stuckCnt := 0 } } })) ∧
    Effects (.senseDecimConfig p) specSenseDecimConfig p s .ok []
      (u.modAin k fun a => { a with outs := upd a.outs (u8 b 1) fun d =>
        let d := { d with cfgPend := some (u8 b 2, u8 b 3, u16 b 4) }
        if d.cnt = 0 ∨ !d.on then d.windowEnd else d }) ∧
    Effects (.senseKirchhoffSet p) specSenseKirchhoffSet p s .ok [] (u.modKir k fun _ => kir) ∧
    Effects (.senseCheckConfig p) specSenseCheckConfig p s .ok [] (fixShadow conf) ∧
    (let asked := u.sense.hkReads.any fun r => r.wait.contains k
     Effects (.senseHkConfig p) specSenseHkConfig p s .ok []
      { u with sense := { u.sense with hks := upd u.sense.hks k fun h =>
        let h' := { hkOf b h with reqAt := u.time, evAt := some (u.pwm.d6.steps u.time) }
        if asked then { h' with pending := h.pending, pendRead := h.pending.isSome } else h' } }) ∧
    (used = [] → Effects (.senseHkRead p) specSenseHkRead p s .ok (zeros 96) u) ∧
    (used ≠ [] → EffectsLater (.senseHkRead p) specSenseHkRead p s .ok []
      (fun d s => { s with sense := { s.sense with hkReads := s.sense.hkReads ++ [{ hks := l, wait := used, since := s.time, reply := d }] } })
      (used.foldl (fun s n => s.modHk n (Hk.readRequest s.time)) u)) ∧
    (bit k 0 = false → EffectsLater (.sensePathTest p) specSensePathTest p s .ok []
      (fun d s => startPathTest paths (some d) s) u) ∧
    (bit k 0 = true → EffectsLater (.sensePathTest p) specSensePathTest p s .ok []
      (fun d s => startPathTest paths (some (if p.ack then { d with bytes := setDurable d.bytes } else d)) s)
      { u with
        mem := { u.mem with blockNext := noteBlock 0x0806 0 b u.mem.blockNext, blockDirty := true }
        sense := { u.sense with pathList := paths } }) ∧
    Answers (.senseStatus p) specSenseStatus p s (senseStatus u)

/-- Protection commands (R393 to R398): groups, FLT inputs, comparators and monitors are set and the legs evaluated; a release posts
PROT_RELEASE and arms the group; a trip command trips its group or all, cause 10; the in-place test answers at its end.

Completes: protGroupConfig, protFltConfig, protCmpConfig, protMonConfig, protRelease, protTrip, protCmpTest, protStatus. -/
def Obligations.ProtectionPackets : Prop :=
  ∀ (p : Packet) (s : State),
    let u := begun p s
    let b := p.payload
    let k := u8 b 0
    let g := u.pgroup k
    let c := u.cmp k
    let d := cmpCfgOf b c
    let m := u.mon k
    let e := monCfgOf b m
    let tested := (List.range k).map fun i => u8 b (4 + i)
    Effects (.protGroupConfig p) specProtGroupConfig p s .ok []
      (legsUpdate u.time { u with prot := { u.prot with groups := upd u.prot.groups k fun _ => { g with
        hard := bit (u8 b 1) 0, legs := maskLegs (uN 6 b 2), tSoft1 := u16 b 8, tInner := u16 b 10, retries := u8 b 12, tRetry := u16 b 14
        retryClear := u16 b 16 } } }) ∧
    Effects (.protFltConfig p) specProtFltConfig p s .ok []
      (legsUpdate u.time (u.modFlt k fun _ =>
        { kind := u8 b 1, high := bit (u8 b 2) 0, filter := u8 b 3, cmp := u8 b 4, ground := u8 b 5, burden := u8 b 6, asserted := true
          ready := false })) ∧
    (d.input = 0 → Effects (.protCmpConfig p) specProtCmpConfig p s .ok []
      (legsUpdate u.time (protDegraded ((dropTest k u).modCmp k fun c => { Cmp.reset with action := if c.action = 3 then 3 else 0 })))) ∧
    (d.input ≠ 0 → (c.cell.isSome && c.sameBut d) = false → Effects (.protCmpConfig p) specProtCmpConfig p s .ok []
      (legsUpdate u.time (protDegraded ((dropTest k ((u.cellFor k).elim u fun j => mapCell k j u)).modCmp k fun _ => { d with
        inForce := if d.action = 3 then d.inForce else d.code, cell := u.cellFor k, main := true, live := true, hard := false, ready := false
        suspect := false, evtAt := none, mainAt := 0 })))) ∧
    (d.input ≠ 0 → (c.cell.isSome && c.sameBut d) = true → Effects (.protCmpConfig p) specProtCmpConfig p s .ok []
      (legsUpdate u.time (protDegraded (u.modCmp k fun _ => { d with
        inForce := if d.rampLeg < 48 then c.inForce else if d.action = 3 then d.inForce else d.code
        main := if c.action = 2 then c.live else c.main })))) ∧
    ((m.hasCfg && m.sameBut e) = true → Effects (.protMonConfig p) specProtMonConfig p s .ok []
      (legsUpdate u.time (u.modMon k fun _ => e))) ∧
    ((m.hasCfg && m.sameBut e) = false → Effects (.protMonConfig p) specProtMonConfig p s .ok []
      (legsUpdate u.time (u.modMon k fun _ =>
        { e with count := 0, past := false, ready := false, lastInvalid := false, acted := false, insideAt := none }))) ∧
    Effects (.protRelease p) specProtRelease p s .ok []
      (armGroup u.time k (State.post u.time (ev 0x0933 k [BitVec.ofNat 8 g.state])
        ((clearHeld k u).modPGroup k fun q => { q with tries := 0, latchPend := false }))) ∧
    (k ≠ 255 → Effects (.protTrip p) specProtTrip p s .ok [] (tripGroup u.time k 0xFF00 10 0 u)) ∧
    (k = 255 → Effects (.protTrip p) specProtTrip p s .ok []
      (tripAll u.time 0xFF00 10 0 u)) ∧
    EffectsLater (.protCmpTest p) specProtCmpTest p s .ok []
      (fun d s => { s with prot := { s.prot with cmpTest := tested, cmpReply := some d } })
      (tested.foldl (fun s n => s.modCmp n fun c => { c with underTest := true }) u) ∧
    Answers (.protStatus p) specProtStatus p s (protStatus u)

/-- Recorder commands (R420): what each sets; a manual trigger fires with device time; statistics are cleared in SRAM; a skew
calibration answers when its window ends.

Completes: recLaneConfig, recTriggerConfig, recCaptureConfig, recArm, recTrigger, recRead, recDelete, recCommit, recMapConfig, recStatClear,
recSkewCal, recStatus. -/
def Obligations.RecorderPackets : Prop :=
  ∀ (p : Packet) (s : State),
    let u := begun p s
    let b := p.payload
    let k := u8 b 0
    let r := u.recorder
    let laned := u.modLane k fun _ => laneOf b
    let capB := u.captureBytes (u32 b 4) (u32 b 12)
    let skew (d : DurReply) (s : State) : SkewCal :=
      { ref := k, lanes := (List.range (u8 b 1)).map fun i => u8 b (8 + i), level := s16 b 2, untilT := s.time + u16 b 4 * 1000000, reply := d }
    let trig : Trig := { Trig.reset with
      typ := u8 b 1, lane := u8 b 2, dir := u8 b 3, hi := s16 b 4, lo := s16 b 6, n := u16 b 8, t := u64 b 12, id := u16 b 12, emask := u16 b 14
      periodMs := u32 b 20 }
    let map : PMap := { PMap.reset with
      enable := bit (u8 b 1) 0, time := bit (u8 b 1) 1, laneY := u8 b 2, laneX := u8 b 3, span := u32 b 4, half := u16 b 8 }
    let sram := if bit k 0 then Mem.clear u.mem.sram 0x202B0000 0x10000 else u.mem.sram
    Effects (.recLaneConfig p) specRecLaneConfig p s .ok []
      (laned.modRec fun r =>
        { r with capBytes := laned.captureBytes laned.recorder.pre laned.recorder.maxUs
                 slots := slotsOf (laned.captureBytes laned.recorder.pre laned.recorder.maxUs), opn := [] }) ∧
    Effects (.recTriggerConfig p) specRecTriggerConfig p s .ok [] (u.modTrig k fun _ => trig) ∧
    Effects (.recCaptureConfig p) specRecCaptureConfig p s .ok (le 1 (slotsOf capB) ++ le 3 capB)
      { u with recorder := { r with
          rep := bit k 0, extend := bit k 1, stopOvf := bit k 2, autoCommit := bit k 3, stream := bit k 4, streamRing := u8 b 1
          pre := u32 b 4, post := u32 b 8, maxUs := u32 b 12, markMask := u32 b 16, slots := slotsOf capB, capBytes := capB } } ∧
    (k = 1 → u.recBusy = true → Effects (.recArm p) specRecArm p s .ok [] u) ∧
    (k = 1 → u.recBusy = false → Effects (.recArm p) specRecArm p s .ok []
      (armRecorder u.time { u with recorder := { r with
        ovfPosted := false, trigs := r.trigs.map fun x => { x with armed := true, count := 0 } } })) ∧
    (k ≠ 1 → Effects (.recArm p) specRecArm p s .ok []
      { u with recorder := { r with state := 0, cur := none, opn := [], history := [], rearm := false, nextFires := [] } }) ∧
    Effects (.recTrigger p) specRecTrigger p s .ok (le 8 u.time) (recFire u.cmdUnit u.time u) ∧
    Effects (.recRead p) specRecRead p s .ok []
      { u with recorder := { r with readouts := r.readouts ++
          [{ cap := if 2 ≤ u8 b 2 then 0xFFFF else u16 b 0, src := u8 b 2, sel := u8 b 3, ring := u8 b 4, recNo := 0, atT := 0 }] } } ∧
    (let v := { u with recorder := { r with mram := r.mram.filter fun c => c.id != u16 b 0 } }
     (u8 b 2 = 1 → p.ack = false → Effects (.recDelete p) specRecDelete p s .ok [] v) ∧
     (u8 b 2 = 1 → p.ack = true → EffectsLater (.recDelete p) specRecDelete p s .ok [] (fun d s => sendReply d.src (setDurable d.bytes) s) v)) ∧
    (u8 b 2 ≠ 1 → Effects (.recDelete p) specRecDelete p s .ok []
      { u with recorder := { r with done := r.done.filter fun c => c.id != u16 b 0 } }) ∧
    (∀ c, u.capture false (u16 b 0) = some c →
      let v := commitCapture u.time { c with protect := bit (u8 b 2) 0 } u
      (p.ack = false → Effects (.recCommit p) specRecCommit p s .ok (le 4 v.recorder.mramFree) v) ∧
      (p.ack = true → EffectsLater (.recCommit p) specRecCommit p s .ok (le 4 v.recorder.mramFree)
        (fun d s => sendReply d.src (setDurable d.bytes) s) v)) ∧
    Effects (.recMapConfig p) specRecMapConfig p s .ok [] { u with recorder := { r with maps := upd r.maps k fun _ => map } } ∧
    (bit k 1 = false → Effects (.recStatClear p) specRecStatClear p s .ok [] { u with mem := { u.mem with sram := sram } }) ∧
    (bit k 1 = true → Effects (.recStatClear p) specRecStatClear p s .ok []
      { u with mem := { u.mem with sram := Mem.clear sram 0x202C0000 0x40000 } }) ∧
    EffectsLater (.recSkewCal p) specRecSkewCal p s .ok []
      (fun d s => { s with recorder := { s.recorder with
        lanes := s.recorder.lanes.map fun x => { x with skewAt := none }, skew := some (skew d s) } })
      u ∧
    Answers (.recStatus p) specRecStatus p s (recStatus r)

/-- Safety commands (R449 to R457): a good password unlocks the session and copies the active image into staging (R451); staging is patched
item by item; a commit ends the unlock and is written, tightening at once, relaxing by the next safe stop; acknowledgements, requests and
output tests are taken. A command of the unlocked session restarts its 600 s.

Completes: safetyStatus, safetyUnlock, safetyLock, safetyStage, safetyCommit, safetyRead, safetyPassword, safetyAck, safetyOutputReq,
safetyOutputTest, safetyLogRead. -/
def Obligations.SafetyPackets : Prop :=
  ∀ (p : Packet) (s : State),
    let w := begun p s
    let u := touched p w
    let b := p.payload
    let z := u.safety
    let img := u.stagingImg
    let good := { u with safety := { z with log := { z.log with failures := 0, lockUntil := 0, lockPeriod := 60 } } }
    let opened := logPlain p.t 1 p.session
      { good with safety := { good.safety with unlocked := some p.session, staging := some z.active, lastCmd := p.t } }
    let reply (r : Nat) (v : State) : List Byte := unlockReply p.t r v
    let kind := if tightening w.safety.active w.stagingImg then 0 else if w.inSafeStop then 1 else 2
    let sw := safetySwitch p.t w
    let newImg := patch img (itemAt (u8 b 0) (u8 b 1)) (b.drop 4)
    let changed := { good with safety := { good.safety with log := { good.safety.log with password := some (passwordRecord (slice b 68 (u8 b 1)) u) } } }
    Effects (.safetyStatus p) specSafetyStatus p s .ok (safetyStatus u) u ∧
    (checkPassword p.t (slice b 4 (u8 b 0)) u = 0 → Effects (.safetyUnlock p) specSafetyUnlock p s .ok (reply 0 opened) opened) ∧
    (∀ r, checkPassword p.t (slice b 4 (u8 b 0)) u = r → r ≠ 0 →
      Effects (.safetyUnlock p) specSafetyUnlock p s .ok (reply r (afterCheck p.t r p.session u)) (afterCheck p.t r p.session u)) ∧
    Effects (.safetyLock p) specSafetyLock p s .ok []
      (logPlain p.t 3 p.session { w with safety := { w.safety with unlocked := none, staging := none } }) ∧
    Effects (.safetyStage p) specSafetyStage p s .ok (le 4 (scrc newImg)) { u with safety := { z with staging := some newImg } } ∧
    EffectsLater (.safetyCommit p) specSafetyCommit p s (if kind = 2 then .okDeferred else .ok)
      ([BitVec.ofNat 8 (if kind = 2 then 1 else 0)] ++ zeros 3 ++ le 4 (scrc w.stagingImg))
      (fun d s => { s with safety := { s.safety with writeReply := some d } })
      { sw with safety := { sw.safety with unlocked := none, staging := none, writing := some w.stagingImg, writeKind := kind, writeSession := p.session } } ∧
    (let d := match u8 b 0 with | 0 => z.active | 1 => img | _ => z.pending.getD []
     Effects (.safetyRead p) specSafetyRead p s .ok (d ++ le 4 (scrc d)) u) ∧
    (u8 b 0 ≠ 0 → checkPassword p.t (slice b 4 (u8 b 0)) u = 0 →
      Effects (.safetyPassword p) specSafetyPassword p s .ok (reply 0 (logPlain p.t 7 p.session changed)) (logPlain p.t 7 p.session changed)) ∧
    (∀ r, u8 b 0 ≠ 0 → checkPassword p.t (slice b 4 (u8 b 0)) u = r → r ≠ 0 →
      Effects (.safetyPassword p) specSafetyPassword p s .ok (reply r (afterCheck p.t r p.session u)) (afterCheck p.t r p.session u)) ∧
    (u8 b 0 = 0 → z.log.lockUntil ≤ p.t →
      Effects (.safetyPassword p) specSafetyPassword p s .ok (reply 0 (logPlain p.t 7 p.session changed)) (logPlain p.t 7 p.session changed)) ∧
    (u8 b 0 = 0 → p.t < z.log.lockUntil →
      Effects (.safetyPassword p) specSafetyPassword p s .ok (reply 2 (afterCheck p.t 2 p.session u)) (afterCheck p.t 2 p.session u)) ∧
    Effects (.safetyAck p) specSafetyAck p s .ok []
      ((List.range 4).foldl (fun s i => if bit (u8 b 0) i && s.ackable i then s.modSf i fun f => { f with ack := true } else s) u) ∧
    Effects (.safetyOutputReq p) specSafetyOutputReq p s .ok []
      ((List.range 4).foldl (fun s x => if s.disconnectOut x then s else s.modOut x fun o => { o with req := bit (u8 b 0) x }) u) ∧
    (u8 b 0 = 0 → Effects (.safetyOutputTest p) specSafetyOutputTest p s .ok (zeros 4)
      (queueTests p.t (fun x => bit (u8 b 0) x) { u with safety := { z with testMask := 0 } })) ∧
    (u8 b 0 ≠ 0 → EffectsLater (.safetyOutputTest p) specSafetyOutputTest p s .ok (zeros 4)
      (fun d s => testsTick p.t { s with safety := { s.safety with testReply := some d } })
      (queueTests p.t (fun x => bit (u8 b 0) x) { u with safety := { z with testMask := 0 } })) ∧
    (let i := (u32 b 0 + 2 ^ 32 - z.log.oldest) % 2 ^ 32
     Effects (.safetyLogRead p) specSafetyLogRead p s .ok ((z.log.entries.drop i).take (u16 b 4)).flatten u)

/-- Network commands (R460 to R478): ports, addresses, neighbours, CAN, UART, fleet, authority and Vrel bindings are set; an offset steers
device time; peers and status are read.

Completes: netPortConfig, netIpConfig, netNeighbourSet, netPtpOffset, netCanConfig, netUartConfig, netFleetConfig, netFleetKey, netDispatchAuth,
netVrelBind, netPeerRead, netStatus. -/
def Obligations.NetworkPackets : Prop :=
  ∀ (p : Packet) (s : State),
    let u := begun p s
    let b := p.payload
    let k := u8 b 0
    let n := u.net
    let x := n.ports.getD k Port.reset
    let c := n.cans.getD k CanCtl.reset
    let nb : Neigh := { valid := bit (u8 b 1) 0, written := bit (u8 b 1) 0, v6 := bit (u8 b 1) 1, mac := slice b 2 6, ip := slice b 8 16 }
    let bd : Bind := { bound := bit (u8 b 1) 0, v6 := bit (u8 b 1) 1, port := u16 b 2, ip := slice b 4 16 }
    Effects (.netPortConfig p) specNetPortConfig p s .ok []
      { u with net := { n with ports := upd n.ports k fun _ => { x with
          enable := bit (u8 b 1) 0, sgmii := bit (u8 b 1) 1, failover := bit (u8 b 1) 2, mac := slice b 2 6, phyRx := u16 b 8
          phyTx := u16 b 10 } } } ∧
    Effects (.netIpConfig p) specNetIpConfig p s .ok []
      { u with net := { n with
          ports := upd n.ports k fun _ => { x with pre4 := u8 b 1, pre6 := u8 b 2, ip4 := slice b 4 4, ip6 := slice b 8 16 }
          vrelPort := u16 b 24, benPort := u16 b 26 } } ∧
    Effects (.netNeighbourSet p) specNetNeighbourSet p s .ok [] { u with net := { n with neigh := n.neigh.set k nb } } ∧
    (let v := ptpOffset (signed 64 (u64 b 0)) (u64 b 8) u
     Effects (.netPtpOffset p) specNetPtpOffset p s .ok [if v.net.ptpLocked then 1 else 0, 0, 0, 0] v) ∧
    Effects (.netCanConfig p) specNetCanConfig p s .ok []
      { u with net := { n with cans := upd n.cans k fun _ => { c with role := u8 b 1, nominal := u32 b 4, data := u32 b 8 } } } ∧
    Effects (.netUartConfig p) specNetUartConfig p s .ok [] { u with net := { n with uartRate := u32 b 0, uartParity := u8 b 4 } } ∧
    Effects (.netFleetConfig p) specNetFleetConfig p s .ok []
      { u with net := { n with
          fleetId := u32 b 0, addr := some (uN 3 b 4), announceS := u8 b 7, group4 := slice b 8 4, group6 := slice b 12 16
          dispatchers := addrList b 28, managers := addrList b 40, conflict := n.conflict && n.addr == some (uN 3 b 4) } } ∧
    Effects (.netFleetKey p) specNetFleetKey p s .ok [] { u with net := { n with fleetKey := some b } } ∧
    Effects (.netDispatchAuth p) specNetDispatchAuth p s .ok []
      { u with net := { n with authority := bit k 0, fbP := f32 b 4, fbQ := f32 b 8 } } ∧
    Effects (.netVrelBind p) specNetVrelBind p s .ok [] { u with net := { n with binds := n.binds.set k bd } } ∧
    Answers (.netPeerRead p) specNetPeerRead p s
      (le 2 n.peers.length ++ zeros 2 ++ ((n.peers.drop (u16 b 0)).take (u8 b 2)).flatMap (peerBytes u)) ∧
    Answers (.netStatus p) specNetStatus p s (netStatus u)

/-- Cooling and clock commands (R494, R495, R515, R516).

Completes: coolConfig, coolRun, coolStatus, coolHealth, clkRefConfig, clkStatus, clkSwap. -/
def Obligations.CoolingAndClockPackets : Prop :=
  ∀ (p : Packet) (s : State),
    let u := begun p s
    let b := p.payload
    let k := u8 b 0
    let d := u.drive k
    let v := if bit (u8 b 1) 0 then u.modDrive k fun d =>
      { d with baseline := 0, blHours := 0, blSum := 0, blN := 0, refSum := 0, refN := 0, refNs := 0, wear := false } else u
    let v := if u16 b 2 = 0 then v else v.modDrive k fun d => { d with refSpeed := u16 b 2 }
    let e := v.drive k
    let hz := u32 b 0
    let div := (2 * 6000000000 * 2 ^ 24 + hz) / (2 * hz)
    let m := u.clk.main
    let sw := { u with clk := { u.clk with
      main := 1 - m, sources := u.clk.sources.map fun x => if x = 1 then 0 else x, switches := satInc 65535 u.clk.switches, lastSwitch := p.t, bothSus := 0 } }
    Effects (.coolConfig p) specCoolConfig p s .ok []
      { u with cool := { u.cool with drives := upd u.cool.drives k fun _ => { d with cfg := some (coolCfgOf b) } } } ∧
    (bit (u8 b 1) 0 = true → bit (u8 b 1) 1 = false → d.state = 0 → k < u.cool.drives.length → Effects (.coolRun p) specCoolRun p s .ok []
      (driveStart p.t k 0 (u.modDrive k fun d => { d with target := u16 b 2, stopped := false }))) ∧
    Effects (.coolRun p) specCoolRun p s .ok [] (coolRun p.t k (bit (u8 b 1) 0) (bit (u8 b 1) 1) (u16 b 2) u) ∧
    Answers (.coolStatus p) specCoolStatus p s (driveStatus u 0 ++ driveStatus u 1) ∧
    Effects (.coolHealth p) specCoolHealth p s .ok
      (((List.range 6).flatMap fun i => le 4 (e.counters.getD i 0)) ++ le 2 e.baseline ++ le 2 e.hourly ++ le 2 e.refSpeed ++ zeros 2) v ∧
    Effects (.clkRefConfig p) specClkRefConfig p s .ok (le 2 (div / 2 ^ 24) ++ le 3 (div % 2 ^ 24) ++ zeros 3)
      { u with clk := { u.clk with xrefHz := hz } } ∧
    Answers (.clkStatus p) specClkStatus p s (clkStatus u) ∧
    Effects (.clkSwap p) specClkSwap p s .ok [] ((sw.count (hcLoop m 1)).commitHealth.post p.t (switchEv 0xFF 0 1 3))

/-- Memory, life-cycle and husk commands (R538 to R546, R559 to R562).

Completes: memStatus, memImageLoad, memDataWrite, memDataRead, memKeyInstall, memSerialSet, memLcChallenge, memLcTransition, memSplice, memHealthRead,
huskConfig, huskStatus, huskTimeSet, huskLogRead. -/
def Obligations.MemoryAndHuskPackets : Prop :=
  ∀ (p : Packet) (s : State),
    let u := begun p s
    let b := p.payload
    let kind := u8 b 0
    let slot := u8 b 1
    let o := u32 b 4
    let d := b.drop 8
    let whole := slotWith u kind slot o d
    let put := mramPut (if kind = 0 then slot else 2) (slotBase kind slot + o) d u
    let n := u.freeBytes 4
    let h := { u with husk := { u.husk with
      keepEn := bit (u8 b 0) 0, cLs := u16 b 2, vlsMax := u16 b 4, commitLines := u16 b 6, sealMask := u16 b 8 } }
    let stepped := u.stepTime (u64 b 0)
    let now (d : DurReply) (s : State) : State := sendReply d.src (setDurable d.bytes) s
    Answers (.memStatus p) specMemStatus p s (memStatus u) ∧
    (bit (u8 b 2) 0 = true → p.ack = false → Effects (.memImageLoad p) specMemImageLoad p s .ok ([1] ++ zeros 3 ++ le 4 (crc32c (whole.take (o + d.length))))
      (selectSlot p.t kind slot whole put)) ∧
    (bit (u8 b 2) 0 = false → p.ack = false → Effects (.memImageLoad p) specMemImageLoad p s .ok ([0] ++ zeros 3 ++ le 4 (crc32c (whole.take (o + d.length))))
      (setVerified kind slot false put)) ∧
    (bit (u8 b 2) 0 = true → p.ack = true → EffectsLater (.memImageLoad p) specMemImageLoad p s .ok
      ([1] ++ zeros 3 ++ le 4 (crc32c (whole.take (o + d.length)))) now (selectSlot p.t kind slot whole put)) ∧
    (bit (u8 b 2) 0 = false → p.ack = true → EffectsLater (.memImageLoad p) specMemImageLoad p s .ok
      ([0] ++ zeros 3 ++ le 4 (crc32c (whole.take (o + d.length)))) now (setVerified kind slot false put)) ∧
    (p.ack = false → Effects (.memDataWrite p) specMemDataWrite p s .ok [] (mramPut 12 (0x10F00000 + u32 b 0) d u)) ∧
    (p.ack = true → EffectsLater (.memDataWrite p) specMemDataWrite p s .ok [] now
      (mramPut 12 (0x10F00000 + u32 b 0) d u)) ∧
    Answers (.memDataRead p) specMemDataRead p s (u.load (0x10F00000 + u32 b 0) (u16 b 4)) ∧
    Effects (.memKeyInstall p) specMemKeyInstall p s .ok [] { u with mem := { u.mem with ownerKey := some (slice b 0 97) } } ∧
    Effects (.memSerialSet p) specMemSerialSet p s .ok [] { u with mem := { u.mem with serial := some b } } ∧
    Effects (.memLcChallenge p) specMemLcChallenge p s .ok n
      { u with freeCtr := u.freeCtr + 4, mem := { u.mem with nonce := some (n, u.time) } } ∧
    Effects (.memLcTransition p) specMemLcTransition p s .ok []
      (let w := beginRamp p.t u.modes.rampMs
         { u with mem := { u.mem with nonce := none, lcPend := some { lcFrom := u.mem.lc, lcTo := kind, recorded := false } } }
       if w.modes.ramping then w else lcRecord p.t w) ∧
    (let spliced := spliceNow p.t kind slot (u16 b 2) u
     (p.ack = false → Effects (.memSplice p) specMemSplice p s .ok [] spliced) ∧
     (kind ≠ 1 → p.ack = true → EffectsLater (.memSplice p) specMemSplice p s .ok [] now spliced) ∧
     (kind = 1 → p.ack = true → EffectsLater (.memSplice p) specMemSplice p s .ok []
       (fun d s => { s with cmd := { s.cmd with durable := s.cmd.durable ++ [{ d with image := 3, bytes := setDurable d.bytes }] } }) spliced)) ∧
    Answers (.memHealthRead p) specMemHealthRead p s
      ((List.range (u16 b 2)).flatMap fun i => (List.range 64).map fun j => healthByte u (u16 b 0 + i) j) ∧
    Effects (.huskConfig p) specHuskConfig p s .ok [] (huskSettle p.t (keepSettle p.t 0 h)) ∧
    Answers (.huskStatus p) specHuskStatus p s (huskStatus u) ∧
    Effects (.huskTimeSet p) specHuskTimeSet p s .ok []
      { stepped with husk := { stepped.husk with timeLost := false, rtc := stepped.time, rtcWritten := stepped.time } } ∧
    Answers (.huskLogRead p) specHuskLogRead p s ((u.husk.logBlock (u32 b 0)).getD [])

/-! ### Host accesses -/

/-- Doorbells, interrupt status, the time latch and other register addresses (R77 to R80, R87): a doorbell of a device-produced ring frees its
records, a doorbell beyond the ring is rejected with RING_ERROR, 1s written to INT_STATUS clear their bits, a write with a reserved bit set is
discarded (R10), word 4 of the window latches word 5, and a write elsewhere in the system block freezes its master.

The firewall (R87 to R89): a violation by a master other than the supervisor and the engine freezes it, sets FREEZE and posts the event; one
that every voting core presents trips every group and forces safe stop, and one that some of them present makes each of these dissent; the
application core, frozen for 60 s or three times within 600 s, has D10 restarted and its sessions closed.

Completes: doorbellWrite, intStatusWrite, timeLoRead, registerWrite, firewallViolation, frozenD10Restart. -/
def Obligations.RegisterAndFirewallAccesses : Prop :=
  (∀ (t : Nat) (s : State),
     let u := s.advance t
     (∀ n v, 8 ≤ n → n < 16 → u.isFrozen 5 = false → v < 4096 → (u.ring n).configured = true → v < (u.ring n).size →
       (v + (u.ring n).size - (u.ring n).hostIndex) % (u.ring n).size ≤
         ((u.ring n).devIndex + (u.ring n).size - (u.ring n).hostIndex) % (u.ring n).size →
       exec (.doorbellWrite t 5 n v) s = .next { u with rings := upd u.rings n fun r =>
         { r with hostIndex := v, recs := r.recs.drop ((v + r.size - (u.ring n).hostIndex) % r.size) } }) ∧
     (∀ n v, n < 16 → u.isFrozen 5 = false → v < 4096 → (u.ring n).size ≤ v →
       exec (.doorbellWrite t 5 n v) s = .next ((u.setInt 24).post t (ev 0x0192 n (le 2 v ++ [1, 0])))) ∧
     (∀ m n v, n < 64 → u.isFrozen m = true →
       exec (.doorbellWrite t m n v) s = .next { u with host := { u.host with stalled := upd u.host.stalled m (· + 1) } }) ∧
     (∀ m v, m = 4 ∨ m = 5 ∨ m = 0 → u.isFrozen m = false → v.toNat < 2 ^ 28 →
       exec (.intStatusWrite t m v) s = .next { u with host := { u.host with intStatus := u.host.intStatus &&& ~~~ v } }) ∧
     (∀ m v, m = 4 ∨ m = 5 ∨ m = 0 → u.isFrozen m = false → 2 ^ 28 ≤ v.toNat → exec (.intStatusWrite t m v) s = .next u) ∧
     (∀ m, u.isFrozen m = false →
       exec (.timeLoRead t m) s = .next { u with host := { u.host with timeLatch := BitVec.ofNat 32 (u.now / 2 ^ 32) } }) ∧
     (∀ m off v, 2 ≤ m → m < 7 → u.isFrozen m = false → 0x104 ≤ off → off < 0x10000 →
       exec (.registerWrite t m (0x40000000 + off) v) s = .next (freezeMaster t m (0x40000000 + off) true u) ∧
       ∃ w, exec (.registerWrite t m (0x40000000 + off) v) s = .next w ∧
         w.host.frozen = u.host.frozen ||| BitVec.ofNat 7 (2 ^ m) ∧ (m ≠ 2 → w.mem = u.mem))) ∧
  (∀ (t : Nat) (s : State),
     let u := s.advance t
     (∀ m a w cores, 2 ≤ m → m < 7 → u.isFrozen m = false → u.mayReach m w a = false →
       exec (.firewallViolation t m a w cores) s = .next (freezeMaster t m a w u) ∧
       ∃ v, exec (.firewallViolation t m a w cores) s = .next v ∧ v.isFrozen m = true ∧
         (m ≠ 2 → v.mem = u.mem ∧ v.modes = u.modes ∧ v.eng = u.eng)) ∧
     (∀ a w cores, u.isFrozen 1 = false → allowedAt u.mem.lc 1 w a = false →
       ((List.range 4).all fun c => u.eng.cores.getD c 0 != 1 || cores.contains c) = true →
       exec (.firewallViolation t 1 a w cores) s = .next (forceSafeStop t 0x02
         (((List.range 8).foldl (fun s g => tripGroup t g 0xFF00 9 0 s) { u with host := { u.host with frozen := u.host.frozen ||| 2 } }).setInt 27))) ∧
     (∀ a w cores, u.isFrozen 1 = false → allowedAt u.mem.lc 1 w a = false →
       ((List.range 4).all fun k => u.eng.cores.getD k 0 != 1 || cores.contains k) = false →
       exec (.firewallViolation t 1 a w cores) s = .next { u with eng := { u.eng with
         forceDissent := u.eng.forceDissent ++ (cores.filter fun c => decide (c < 4)).map (· + 8) } }) ∧
     (∀ m a w cores, m < 7 → u.mayReach m w a = true → exec (.firewallViolation t m a w cores) s = .next u) ∧
     (u.isFrozen 4 = true → (u.host.appFrozenAt + 60000000000 ≤ t ∨ 3 ≤ u.host.appFreezes.length) →
       ∃ v, exec (.frozenD10Restart t) s = .next v ∧ v.isFrozen 4 = false ∧ v.sys.domains = u.sys.domains.set 10 1 ∧
         v.cmd.sessions = u.cmd.sessions.filter fun x => !(x.src == .app)))

/-- Memory accesses over HSPI_ (R82): the bytes of one 4 KB page that the host may write are stored in SRAM and the rest of the transaction is
dropped and counted from Ready; a read gives the bytes of the page, those of the device-produced rings where they stand, and 0xFF past it. Single
and quad instructions act alike.

The escape port, unknown SPI instructions, host-over-UART and held replies (R76, R81, R83, R85).

Completes: hspiWrite, hspiQuadWrite, hspiRead, hspiQuadRead, escapeWrite, escapeRead, unknownInstruction, hostUartPacket, heldReply. -/
def Obligations.PortAccesses : Prop :=
  (∀ (t a : Nat) (s : State),
     let u := s.advance t
     u.isFrozen 5 = false → 0x20000000 ≤ a → a < 0x40000000 →
     (∀ d : List Byte,
       let k := min d.length (4096 - a % 4096)
       let v : State := { u with host := { u.host with spiOut := [] }, mem := { u.mem with sram := Mem.writeN u.mem.sram a (d.take k) } }
       let w : State := if k < d.length ∧ u.sys.ready = true then { v with cmd := { v.cmd with trunc4k := (v.cmd.trunc4k + 1) % 2 ^ 32 } } else v
       (∀ i < k, allowedAt u.mem.lc 5 true (a + i) = true) →
       exec (.hspiWrite t a d) s = .next w ∧ exec (.hspiQuadWrite t a d) s = .next w) ∧
     (∀ n : Nat,
       let k := min n (4096 - a % 4096)
       let v : State := { u with host := { u.host with
         spiOut := ((List.range k).map fun i => u.shown (a + i)) ++ List.replicate (n - k) 0xFF } }
       let w : State := if k < n ∧ u.sys.ready = true then { v with cmd := { v.cmd with trunc4k := (v.cmd.trunc4k + 1) % 2 ^ 32 } } else v
       (∀ i < k, allowedAt u.mem.lc 5 false (a + i) = true) →
       exec (.hspiRead t a n) s = .next w ∧ exec (.hspiQuadRead t a n) s = .next w)) ∧
  (∀ (t : Nat) (s : State),
     let u := s.advance t
     let r := u.ring 7
     (∀ f, u.esc.on = true → f ≠ [] → u.esc.busy = false → u.esc.replyReady = false →
       exec (.escapeWrite t f) s = .next { u with esc := { u.esc with busy := true, frame := f } }) ∧
     (∀ f, u.esc.on = true → f ≠ [] → (u.esc.busy = true ∨ u.esc.replyReady = true) → u.sys.ready = true →
       exec (.escapeWrite t f) s = .next { u with cmd := { u.cmd with escDiscarded := (u.cmd.escDiscarded + 1) % 2 ^ 32 } }) ∧
     (∀ n, u.esc.replyReady = true → u.esc.reply.length < n →
       exec (.escapeRead t n) s = .next { u with
         host := { u.host with spiOut := fit n (BitVec.ofNat 8 (flagAt u.esc.busy 1 + 1) :: u.esc.reply) }
         esc := { u.esc with replyReady := false, reply := [] } }) ∧
     (∀ n, u.esc.replyReady = false →
       exec (.escapeRead t n) s = .next { u with host := { u.host with spiOut := fit n [BitVec.ofNat 8 (flagAt u.esc.busy 1)] } }) ∧
     (∀ b : Byte, b ≠ 0x02 → b ≠ 0x32 → b ≠ 0x0B → b ≠ 0x6B → b ≠ 0xE5 → b ≠ 0xE6 →
       exec (.unknownInstruction t b) s = .next { u with host := { u.host with spiOut := [] } }) ∧
     (∀ f, (u.esc.on = false ∨ (u.sys.ready = false ∧ (u.esc.busy = true ∨ u.esc.replyReady = true))) → exec (.escapeWrite t f) s = .next u) ∧
     (∀ p : List Byte, 16 ≤ (uartUnescape p).length → (uartUnescape p).length ≤ 4092 → u.host.uartHost = true →
       (r.hostIndex + 1) % r.size ≠ r.devIndex → exec (.hostUartPacket t ([0x7E] ++ p ++ [0x7E])) s =
         .next (((u.store (u.uartBuf r.hostIndex) (uartUnescape p)).store (r.base + 16 * r.hostIndex)
           (le 4 (u.uartBuf r.hostIndex) ++ le 2 4096 ++ le 2 (uartUnescape p).length ++ le 4 r.seq ++ [4] ++ zeros 3)).modRing 7 fun r =>
             { r with hostIndex := (r.hostIndex + 1) % r.size, seq := (r.seq + 1) % 2 ^ 32 })) ∧
     (∀ n h, n < 64 → u.cmd.held.find? (fun h => h.ring == n) = some h → (u.ring n).full = false →
       exec (.heldReply t n) s = .next (({ u with
         cmd := { u.cmd with held := u.cmd.held.erase h }
         rings := upd u.rings n fun r => { r with
           devIndex := (r.devIndex + 1) % r.size, seq := (r.seq + 1) % 2 ^ 32, recs := r.recs ++ [h.bytes] } } : State).setRingInt n)))

/-! ### Start-up, supplies and reset -/

/-- Power-on (R43, R44, R47, R50): each rail becomes good by its own monitor, and the third begins the hold with cause 1 where a rail had been below
its power-on level; the hold's end wipes SRAM and starts D1 and D11; the wipe's end starts the boot ROM, the escape port and the D1 heartbeat; without a
lock the boot goes on with CLOCK_FAULT.

The end of the cold start (R15, R51, R52, R361, R592): the calibration loads device time from the husk's clock, 0 and not valid while time is marked
lost; the Sheaf step applies the block image, the device settings in it or else their defaults, and leads to the tests, the tests to the last stage, and
READY to safe stop with commands accepted, the READY bit set and RST_OUT_N high.

Completes: powerOnReset, resetHoldEnd, sramWipeComplete, pllLockTimeout, converterCalibrationComplete, sheafImageLoad, startUpTestsComplete, ready. -/
def Obligations.ColdStartStages : Prop :=
  (∀ (t : Nat) (s : State),
     let u := s.advance t
     (∀ o : RailsObs, u.railsGood = false → u.sys.boot = .off → u.husk.sealing = none → u.husk.d0Up = false →
       let y := railUp 2 o.io (railUp 1 o.an (railUp 0 o.core u.sys))
       (y.railsGood = false → exec (.powerOnReset t o) s = .next { u with sys := y }) ∧
       (y.railsGood = true → ∃ w, exec (.powerOnReset t o) s = .next w ∧ w.sys.boot = .hold ∧ w.railsGood = true ∧
         w.sys.belowPowerOn = false ∧ w.husk.powerFail = false ∧
         w.sys.resetCause = (if u.sys.belowPowerOn || decide (o.core.low < 400000) || decide (o.an.low < 900000) || decide (o.io.low < 1500000) then 1
           else u.sys.resetCause))) ∧
     (u.sys.boot = .hold → exec (.resetHoldEnd t) s = .next (setDomain 11 1 (setDomain 1 1 { u with
       sys := { u.sys with boot := .wipe }, mem := { u.mem with sram := [] } }))) ∧
     (u.sys.boot = .wipe → u.mem.lcPend = none → ∃ w, exec (.sramWipeComplete t) s = .next w ∧ w.sys.boot = .lock ∧
       w.sys.domains = (u.sys.domains.set 1 2).set 11 2 ∧ w.esc = { u.esc with on := true } ∧ w.safety = { u.safety with heartbeat := true }) ∧
     (u.sys.boot = .lock → u.clk.main = 0xFF → exec (.pllLockTimeout t) s = .next { u with
       sys := { u.sys with boot := .verify, clockFault := true } })) ∧
  (∀ (t : Nat) (s : State),
     let u := s.advance t
     ((u.sys.boot = .domains ∨ u.sys.boot = .cal) → ∃ w, exec (.converterCalibrationComplete t) s = .next w ∧ w.sys.boot = .sheaf ∧
       w.timeLoaded = true ∧ w.time = (if u.husk.timeLost then 0 else u.time) ∧ w.timeValid = !u.husk.timeLost ∧
       w.nextTick = (w.time / 1000000 + 1) * 1000000) ∧
     (u.sys.boot = .sheaf → ∃ w, exec (.sheafImageLoad t 2 2) s = .next w ∧ w.sys.boot = .tests ∧ w.mem.blockNext = [] ∧
       w.modes.startMode = 1 ∧ w.modes.rampMs = 100) ∧
     (∀ e, u.sys.boot = .sheaf → u.mem.block = [(0x0104, e)] → ∃ w, exec (.sheafImageLoad t 0 0) s = .next w ∧ w.sys.boot = .tests ∧
       w.mem.blockNext = u.mem.block ∧ w.modes.startMode = u8 e 0 ∧ w.modes.rampMs = u16 e 1) ∧
     (u.sys.boot = .tests → u.sense.pathRun = [] →
       exec (.startUpTestsComplete t [] [] [] []) s = .next { u with sys := { u.sys with boot := .ready } }) ∧
     (∀ x el, u.sys.boot = .tests → u.sense.pathRun = [] → x < 4 → exec (.startUpTestsComplete t [] [] [] [(x, el)]) s =
       .next { outFault t x 1 el u with sys := { (outFault t x 1 el u).sys with boot := .ready } }) ∧
     (∀ a b c d, u.sys.boot = .tests → u.sense.pathRun ≠ [] → exec (.startUpTestsComplete t a b c d) s = .next u) ∧
     (u.sys.boot = .ready → u.sys.ready = false → u.modes.trans = none →
       let v := raiseMinimums (State.setInt 25 { u with
         sys := { u.sys with ready := true, rstOutN := true }, modes := { u.modes with mode := 1, startWanted := u.modes.startMode != 1 } })
       let x := { v with net := { v.net with benNext := v.net.benStored, benStored := v.net.benStored + 65536 } }
       let y := announce false (awnRefresh t 1 (applyPending t (huskSettle t (keepSettle t 2 (huskReady (protDegraded x))))))
       exec (.ready t) s = .next ([0, 1, 2, 3, 4, 5, 6, 7, 48, 49, 50, 51].foldl (fun s n => passHeads t n s) (coolReady t (legsUpdate t y))) ∧
       x.sys.ready = true ∧ x.sys.rstOutN = true ∧ x.host.intStatus.getLsbD 25 = true ∧ x.modes.mode = 1 ∧
       ∃ w, exec (.ready t) s = .next w ∧ w.sys.ready = true ∧ w.sys.rstOutN = true ∧ w.modes.mode = 1 ∧ w.mem.lc = u.mem.lc))

/-- The boot ROM (R52, R531): the selected supervisor slot boots when it verifies at its least security version; a failed one gives way to the
other slot, and with both failed the device is in recovery. The application slot is verified alike, and D10 stays off when both fail.

Completes: imageVerifyComplete. -/
def Obligations.BootRomChoosesTheSlot : Prop :=
  ∀ (t slot version security : Nat) (s : State),
    let u := s.advance t
    slot < 2 →
    (u.sys.boot = .verify → u.mem.lc ≠ 5 → u.sys.supTried = false → slot = u.mem.bootSup → u.mem.secMin.getD 0 0 ≤ security →
      u.eng.cores = [1, 1, 1, 0] →
      ∃ w, exec (.imageVerifyComplete t 0 slot 0 version security) s = .next w ∧ w.sys.boot = .domains ∧ w.sys.supSlotB = (slot == 1) ∧
        w.sys.fwVersion = version ∧
        w.sys.domains = ((((((u.sys.domains.set 6 1).set 7 1).set 8 1).set 9 1).set 2 1).set 3 1).set 4 1) ∧
    (u.sys.boot = .verify → u.mem.lc ≠ 5 → u.sys.supTried = false → slot = u.mem.bootSup →
      ∃ w, exec (.imageVerifyComplete t 0 slot 1 version security) s = .next w ∧ w.sys.boot = .verify ∧ w.sys.supTried = true ∧
        w.sys.recovery = u.sys.recovery) ∧
    (u.sys.boot = .verify → u.mem.lc ≠ 5 → u.sys.supTried = true → slot ≠ u.mem.bootSup →
      ∃ w, exec (.imageVerifyComplete t 0 slot 1 version security) s = .next w ∧ w.sys.boot = .recovery ∧ w.sys.recovery = true) ∧
    (u.sys.boot = .verify → u.mem.lc = 5 →
      ∃ w, exec (.imageVerifyComplete t 0 slot 0 version security) s = .next w ∧ w.sys.boot = .recovery ∧ w.sys.recovery = true) ∧
    (u.sys.boot = .domains → u.sys.appTried = false → slot = u.mem.bootApp → u.mem.secMin.getD 1 0 ≤ security →
      ∃ w, exec (.imageVerifyComplete t 1 slot 0 version security) s = .next w ∧ w.sys.boot = .cal ∧ w.sys.d10Held = false ∧
        w.sys.domains = u.sys.domains.set 10 1) ∧
    (u.sys.boot = .domains → u.sys.appTried = true → slot ≠ u.mem.bootApp →
      ∃ w, exec (.imageVerifyComplete t 1 slot 1 version security) s = .next w ∧ w.sys.boot = .cal ∧ w.sys.d10Held = true)

/-- Supplies (R43, R47 to R49): a rail that leaves its thresholds resets the device with code 2, or 3 for an overvoltage, and the lowest of the causes
that merge; a rail that stays within them is good still; VDD_HV leaving good opens the safety outputs, where a ramp in progress ends (R102), and its
return is recorded.

RESET_BTN_N (R55, R57, R58): a press of 50 to 7,999 ticks asks for a reset, cause 5, on its release; 8,000 ticks are a stuck button, which is
posted and ignored; 1,000 ticks released free it, and make the input ready after a reset.

Completes: supplyReset, vddHvNotGood, vddHvGood, buttonReset, resetButtonStuck, resetButtonFreed, resetBtnReady, vddIoGood. -/
def Obligations.SupplyAndButtonEvents : Prop :=
  (∀ (t rail : Nat) (o : RailObs) (s : State),
     let u := s.advance t
     let code := if railOver rail ≤ o.uv then 3 else 2
     (∀ v, rail < 3 → u.sys.rail rail = true → railNext rail true o = false → u.sys.boot = .ready → u.sys.ready = true →
       ∃ w, exec (.supplyReset t rail o.uv o.held o.low v) s = .next w ∧ w.sys.ready = false ∧ w.sys.boot = .off ∧ w.sys.rail rail = false ∧
         w.sys.resetCause = code ∧ w.mem.sram = [] ∧ w.cmd.sessions = [] ∧ w.safety.heartbeat = false ∧
         w.sys.belowPowerOn = decide (o.low < powerOnLevel rail) ∧ w.mem.lc = u.mem.lc) ∧
     (∀ v, rail < 3 → u.sys.rail rail = true → railNext rail true o = false → u.sys.boot = .wipe →
       ∃ w, exec (.supplyReset t rail o.uv o.held o.low v) s = .next w ∧ w.sys.resetCause = min u.sys.resetCause code ∧ w.sys.boot = .off) ∧
     (∀ v, rail < 3 → u.sys.rail rail = true → railNext rail true o = true → exec (.supplyReset t rail o.uv o.held o.low v) s =
       .next { u with sys := { u.sys with railUv := u.sys.railUv.set rail o.uv } }) ∧
     (∀ v, rail < 3 → u.sys.rail rail = false → exec (.supplyReset t rail o.uv o.held o.low v) s = .next { u with sys := u.sys.noteRail rail o })) ∧
  (∀ (t : Nat) (o : RailObs) (s : State),
     let u := s.advance t
     let v : State := { u with sys := u.sys.noteRail 3 o }
     let q : State := { u with sys := u.sys.noteRail 2 o }
     (u.sys.railHv = true → railNext 3 true o = false → exec (.vddHvNotGood ⟨t, o⟩) s =
       .next (cutRamp t (outputOrders t (coolHvLost t { v with sys := { v.sys with railHv := false } })))) ∧
     ((u.sys.railHv = false ∨ railNext 3 true o = true) → exec (.vddHvNotGood ⟨t, o⟩) s = .next v) ∧
     (u.sys.railHv = false → railNext 3 false o = true → exec (.vddHvGood ⟨t, o⟩) s =
       .next (coolHvGood t { v with sys := { v.sys with railHv := true } })) ∧
     ((u.sys.railHv = true ∨ railNext 3 false o = false) → exec (.vddHvGood ⟨t, o⟩) s = .next v) ∧
     (u.sys.railIo = false → u.sys.railCore = false → u.husk.d0Up = false → railNext 2 false o = true →
       exec (.vddIoGood ⟨t, o⟩) s = .next { q with sys := { q.sys with railIo := true } }) ∧
     (railNext 2 false o = false → exec (.vddIoGood ⟨t, o⟩) s = .next q)) ∧
  (∀ (t : Nat) (s : State),
     let u := s.advance t
     let b := u.sys.button
     (b.ready = true → b.stuck = false → b.high = 1 → 50 ≤ b.low → b.low < 8000 → exec (.buttonReset t) s = .next (requestReset t 5 u)) ∧
     (b.ready = true → b.stuck = false → b.high = 1 → 50 ≤ b.low → b.low < 8000 → u.legsOff = true → u.modes.ramping = false →
       exec (.buttonReset t) s =
       .next { u with sys := { u.sys with resetPending := if u.sys.resetPending = 0 then 5 else min u.sys.resetPending 5 } }) ∧
     (b.low < 50 ∨ 8000 ≤ b.low → exec (.buttonReset t) s = .next u) ∧
     (b.stuck = false → b.high = 0 → 8000 ≤ b.low → exec (.resetButtonStuck t) s =
       .next (State.post t (ev 0x0180 0 []) { u with sys := { u.sys with button := { b with stuck := true, ready := false } } })) ∧
     (b.stuck = true → 1000 ≤ b.high → exec (.resetButtonFreed t) s =
       .next (State.post t (ev 0x0181 0 []) { u with sys := { u.sys with button := { b with stuck := false, ready := true } } })) ∧
     (b.ready = false → b.stuck = false → 1000 ≤ b.high → exec (.resetBtnReady t) s =
       .next { u with sys := { u.sys with button := { b with ready := true } } }))

/-- Faults of units (R29, R34 to R36, R41): a lost heartbeat opens the safety outputs, where a ramp in progress ends; a supervisor fault forces safe stop
with cause 2; an unrecoverable fault of D6 or D7 trips every group and marks the domain, which goes off in safe stop, and with D6 the pad clamps hold every
pin; a fault in D8, D9 or D10 takes its domain alone off, with the domain-off event, and its restart takes it back on.

Completes: heartbeatLost, supervisorFault, unrecoverableFault, domainFault, domainRestarted. -/
def Obligations.UnitFaults : Prop :=
  ∀ (t : Nat) (s : State),
    let u := s.advance t
    let tripped := tripAll t 0xFF00 9 0 u
    let done (v : State) : State := if v.modes.mode ≤ 1 ∧ v.modes.trans = none then faultedOff t v else v
    let off (d : Nat) : State := if u.sys.domains.getD d 0 = 0 then setDomain d 3 u else State.post t (domainOffEv d) (setDomain d 3 u)
    exec (.heartbeatLost t) s = .next (cutRamp t (outputOrders t { u with safety := { u.safety with heartbeat := false } })) ∧
    exec (.supervisorFault t) s = .next (forceSafeStop t 2 u) ∧
    (u.modes.mode ≠ 0 → u.modes.mode ≠ 1 → u.modes.trans = none →
      exec (.supervisorFault t) s = .next (forceMode t 2 1 0 false u)) ∧
    exec (.unrecoverableFault t 0) s = .next (done (forceSafeStop t 2 (padClamp (allLegsOff t (setDomain 6 3 tripped))))) ∧
    exec (.unrecoverableFault t 1) s = .next (done (forceSafeStop t 2 (setDomain 7 3 tripped))) ∧
    exec (.unrecoverableFault t 2) s = .next (done (forceSafeStop t 2 tripped)) ∧
    exec (.unrecoverableFault t 3) s = .next (done (forceSafeStop t 2 u)) ∧
    exec (.domainFault t 8) s = .next { off 8 with recorder := { (off 8).recorder with state := 0, cur := none } } ∧
    exec (.domainFault t 9) s = .next (off 9) ∧
    exec (.domainFault t 10) s = .next { off 10 with
      cmd := { (off 10).cmd with
        held := (off 10).cmd.held.filter fun h => h.ring < 52
        durable := (off 10).cmd.durable.filter fun r => r.src.sid != some .app
        deferred := (off 10).cmd.deferred.filter fun q => q.pkt.src.sid != some .app } } ∧
    ((u.sys.domains.getD 8 0 = 3 ∨ u.sys.domains.getD 8 0 = 1) → exec (.domainRestarted t 8) s =
      .next ((List.range 16).foldl (fun s p => pvLost t p s) (recRestart (awnRestart t (setDomain 8 2 u))))) ∧
    ((u.sys.domains.getD 9 0 = 3 ∨ u.sys.domains.getD 9 0 = 1) → ∃ w, exec (.domainRestarted t 9) s = .next w ∧
      w.sys.domains = u.sys.domains.set 9 2 ∧ w.net.peers = [] ∧ w.net.ptpLocked = false ∧
      w.cmd.sessions = u.cmd.sessions.filter fun x => !(match x.src with | .net _ => true | _ => false)) ∧
    ((u.sys.domains.getD 10 0 = 3 ∨ u.sys.domains.getD 10 0 = 1) → ∃ w, exec (.domainRestarted t 10) s = .next w ∧
      w.sys.domains = u.sys.domains.set 10 2 ∧ w.cmd.sessions = u.cmd.sessions.filter fun x => !(x.src == .app))

/-! ### Modes -/

/-- Mode transitions (R99 to R104, R110): the ramp's end rests the generators and switches every leg off; a transition whose conditions hold enters its
mode on a boundary of the grid rate group and posts MODE_ENTERED; one whose condition is lost turns to safe stop with MODE_ABORTED; three evaluations close the disconnect of a
resynchronisation; the start mode is tried while it is wanted.

The safety tick (R593): each tick that fits its place runs the managers from Ready, the safety functions alone during the tests, and the
button's count always, and the next one comes 1 ms later; one that comes between two ticks does nothing.

Completes: startModeAttempt, safeStopRampEnd, modeEntered, modeAborted, resynchronisationComplete, safetyTick. -/
def Obligations.ModeTransitionsAndTick : Prop :=
  (∀ (t : Nat) (s : State),
     let u := s.advance t
     let v := softBegin t u
     (u.modes.ramping = true → u.modes.rampEnd ≤ t →
       exec (.safeStopRampEnd t) s = .next (resetNow (lcRecord t (endRamp t u)))) ∧
     ((∀ tr, u.modes.trans = some tr → tr.target ≠ 3) → endRamp t u =
       outputOrders t (allLegsOff t { u with gens := u.gens.map Gen.rest, modes := { u.modes with ramping := false } })) ∧
     ((u.modes.ramping = false ∨ t < u.modes.rampEnd) → exec (.safeStopRampEnd t) s = .next u) ∧
     (∀ tr, u.onGridBoundary t = true → v.modes.trans = some tr → v.transDone t tr = true → exec (.modeEntered t) s =
       .next (secondStep t tr.next tr.cause (afterEntry t tr.prev tr.target tr.cause (enterMode t tr.target tr.cause v)))) ∧
     (∀ tr, u.onGridBoundary t = true → v.modes.trans = some tr → v.transDone t tr = false → exec (.modeEntered t) s = .next v) ∧
     (u.onGridBoundary t = true → u.modes.trans = none → exec (.modeEntered t) s = .next u) ∧
     (u.onGridBoundary t = false → exec (.modeEntered t) s = .next u) ∧
     (∀ tr k, u.modes.trans = some tr → tr.target ≠ 1 → tr.cause ≠ 8 → entryBad u tr.target tr.prev = some k →
       ∃ w, exec (.modeAborted t) s = .next w ∧ w.modes.mode = u.modes.mode ∧ (∃ r, w.modes.trans = some r ∧ r.target = 1 ∧ r.cause = tr.cause) ∧
         (u.modes.rampMs ≠ 0 → w.modes.ramping = true)) ∧
     (∀ tr, u.modes.trans = some tr → entryBad u tr.target tr.prev = none → exec (.modeAborted t) s = .next u) ∧
     (∀ tr, u.modes.trans = some tr → tr.resync = true → 3 ≤ tr.evals → exec (.resynchronisationComplete t) s =
       .next (outputOrders t { u with modes := { u.modes with trans := some { tr with resync := false } } })) ∧
     (∀ tr, u.modes.trans = some tr → (tr.resync = false ∨ tr.evals < 3) → exec (.resynchronisationComplete t) s = .next u) ∧
     (u.modes.startWanted = false → u.modes.restartArmed = false → exec (.startModeAttempt t) s = .next u) ∧
     (u.modes.startWanted = true → u.modes.trans = none → u.modes.startMode = 1 → exec (.startModeAttempt t) s =
       .next { u with modes := { u.modes with startWanted := false } }) ∧
     (u.modes.startWanted = true → u.modes.trans = none → u.modes.startMode = 2 → u.modes.mode = 1 → u.modeBad 2 = false →
       comboRefused u 2 = false → exec (.startModeAttempt t) s =
         .next (ordersNow t { u with modes := { u.modes with
           trans := some { target := 2, prev := 1, cause := 0, next := 0, resync := false, evals := 0, ms := u.modes.rampMs, softAt := none } } }))) ∧
  (∀ (t : Nat) (o : GridObs) (low : Bool) (s : State),
     let u := s.advance t
     let v := { u with sys := { u.sys with button := u.sys.button.tick low }, nextTick := t + 1000000 }
     (u.sys.boot = .ready → u.sys.ready = true → u.tickFits t = true → exec (.safetyTick t o low) s = .next (managers t o v)) ∧
     (u.sys.boot = .tests → u.sys.ready = false → u.tickFits t = true → exec (.safetyTick t o low) s = .next (safetyTick t v)) ∧
     (u.sys.boot = .cal → u.sys.ready = false → u.tickFits t = true → exec (.safetyTick t o low) s = .next v) ∧
     (u.firmwareRuns = false → exec (.safetyTick t o low) s = .next u) ∧
     (u.timeLoaded = true → (t % 1000000 ≠ 0 ∨ t < u.nextTick) → exec (.safetyTick t o low) s = .next u) ∧
     (u.timeLoaded = false → u.tickFits t = decide (u.nextTick ≤ t)))

/-! ### The control engine -/

/-- Base ticks (R155 to R158, R181): without a rate configuration, before Ready, or where the carrier of the base timebase has no event there,
nothing happens; the first tick after ENGINE_RATE_SET puts the configuration in force and counts from 0, a later one counts on, and the groups
due at it take their boundaries. A zero of the carrier that lies after the last tick is a tick.

A splice of a core and a hitch swap (R145, R170, R171): the retired core's domain goes off and the spare's starts; an identical transfer makes the
spare Joining with every used group to export, one with an item that differs twice ends the splice; a swap waits for its boundary.

Completes: baseTick, coreDomainOff, coreSpliceTransfer, hitchSwapped. -/
def Obligations.BaseTicksAndSplices : Prop :=
  (∀ (t : Nat) (o : TrackObs) (s : State),
     let u := pwmSettle t (s.advance t)
     (u.rateCfg = none → exec (.baseTick t o) s = .next u) ∧
     (u.sys.ready = false → exec (.baseTick t o) s = .next u) ∧
     (u.tickHit t = none → exec (.baseTick t o) s = .next u) ∧
     (∀ x, u.sys.ready = true → u.tickHit t = some x →
       let z := (d6Sync t x u).modEng fun e => { e with tickD := x }
       let v := countTick t z
       exec (.baseTick t o) s = .next (finishSplice t (boundaries t o v.dueGroups v)) ∧ v.eng.tickAt = t ∧
       (∀ r, z.eng.ratePend = some r → v.eng.tick = 0 ∧ v.eng.rate = r ∧ v.eng.hasRate = true ∧ v.eng.ratePend = none) ∧
       (z.eng.ratePend = none → v.eng.tick = (z.eng.tick + 1) % 2 ^ 64)) ∧
     (∀ c x, u.rateCfg = some c → (u.tb c.tb).inForce.mode ≠ 2 → u.carrierHit t c.tb 0 = some x → u.eng.tickD < x → u.tickHit t = some x)) ∧
  (∀ (t k : Nat) (s : State),
     let u := s.advance t
     (∀ sp, k < 4 → u.eng.cores.getD k 0 = 3 → u.eng.splice = some sp → sp.retired = k → sp.moved = false →
       exec (.coreDomainOff t k) s = .next (setDomain (2 + sp.incoming) 1 (domainOff t (2 + k) 0 u))) ∧
     (k < 4 → u.eng.cores.getD k 0 = 3 → u.eng.splice = none → exec (.coreDomainOff t k) s = .next (domainOff t (2 + k) 0 u)) ∧
     (k < 4 → u.eng.cores.getD k 0 ≠ 3 → exec (.coreDomainOff t k) s = .next u) ∧
     (∀ sp d, u.eng.splice = some sp → sp.moved = false → (d.any fun x => decide (2 ≤ x.2)) = false →
       let gs := (List.range 8).filter fun g => u.groupUsed g
       exec (.coreSpliceTransfer t d) s = .next (finishSplice t { setDomain (2 + sp.incoming) 2 u with
         eng := { u.eng with
           cores := u.eng.cores.set sp.incoming 2
           splice := some { sp with moved := true, exports := gs.map fun g => (g, 0), toJoin := u.runningIn gs, units := u.unitsIn gs } } })) ∧
     (∀ sp d, u.eng.splice = some sp → sp.moved = false → (d.any fun x => decide (2 ≤ x.2)) = true →
       ∃ v, exec (.coreSpliceTransfer t d) s = .next v ∧ v.eng.splice = none ∧
         v.eng.cores = u.eng.cores.set sp.incoming 3 ∧ v.eng.degraded = true ∧ v.eng.noSpare = true) ∧
     (∀ d, u.eng.splice = none → exec (.coreSpliceTransfer t d) s = .next u) ∧
     (k < 16 → u.swapAt t k = true → exec (.hitchSwapped t k) s = .next (hitchSwap t k u)) ∧
     (k < 16 → ((u.eng.hitch.getD k Hitch.reset).armed = false ∨ t < (u.eng.hitch.getD k Hitch.reset).request) →
       exec (.hitchSwapped t k) s = .next u))

/-- Votes (R167 to R170): an agreed pass is committed and leaves the queue, its channel's PASSES counted; without a majority nothing is committed and
the channel takes its reaction, cause 2; a dissent, by value or late, retires its core. A generator without a majority is disabled at its last committed
values, and the tracker without one forces safe stop.

Late samples, faults and overruns (R133, R158, R164 to R166): a channel whose passes have been invalid for 100 µs takes its reaction; passes of a
group left uncommitted a period after their boundary are abandoned, each channel flagged OVERRUN and the group's total counted.

Completes: passVote, voteLate, sampleTimeout, channelFault, rateOverrun. -/
def Obligations.PassVotesAndFaults : Prop :=
  (∀ (t k clocks : Nat) (s : State),
     let u := s.advance t
     let x (r : PassRec) : PassResult := (resolveInit r u).resultOf r
     let done (r : PassRec) : State := retirePass r true (commitPass t r (x r) clocks (usedForced (resolveInit r u)))
     let dissent (r : PassRec) (c kind : Nat) : State := finishSplice t (afterPass r.ch (dissented t r.ch [r.ch] 2 (c, kind)
       ((done r).modChan r.ch fun q => { q with disCount := satInc 65535 q.disCount })))
     (u.eng.due = [] → ∀ claims late, exec (.passVote t 0 k claims late clocks) s = .next u) ∧
     (u.eng.forceDissent = [] → u.eng.splice = none →
       (∀ r l, u.eng.due = r :: l → 2 ≤ u.voters.length →
         exec (.passVote t 0 k [] [] clocks) s = .next (finishSplice t (afterPass r.ch (done r)))) ∧
       (∀ r l a b q, u.eng.due = r :: l → u.voters = [a, b] → q.core = a → (claimResult q).same (x r) = false →
         exec (.passVote t 0 k [q] [] clocks) s = .next (finishSplice t (noMajority t r (usedForced (resolveInit r u))))) ∧
       (∀ r l a b c q, u.eng.due = r :: l → u.voters = [a, b, c] → q.core = c → (claimResult q).same (x r) = false →
         exec (.passVote t 0 k [q] [] clocks) s = .next (dissent r c 0)) ∧
       (∀ r l a b c, u.eng.due = r :: l → u.voters = [a, b, c] → exec (.voteLate t c ⟨[], clocks⟩) s = .next (dissent r c 1)) ∧
       (∀ c claims, c < 4 → u.voters.contains c = false → exec (.voteLate t c ⟨claims, clocks⟩) s = .next u) ∧
       (k < 32 → 2 ≤ u.voters.length → exec (.passVote t 1 k [] [] clocks) s = .next (setUnit k (u.unitVals k) (usedForced u))) ∧
       (∀ a b q, k < 32 → u.voters = [a, b] → q.core = a → q.vals ≠ u.unitVals k → exec (.passVote t 1 k [q] [] clocks) s =
         .next ((u.readers 3 (some k)).foldl (fun s n => chanFault t n 3 s)
           { usedForced u with gens := upd u.gens k fun g => { g with enable := false, p := g.pWas, v := g.vWas, a := g.aWas, vScale := g.sWas } })) ∧
       (2 ≤ u.voters.length → exec (.passVote t 2 k [] [] clocks) s = .next (setUnit 32 (u.unitVals 32) (usedForced u))) ∧
       (∀ v g, k < 32 → k < v.gens.length → (setUnit k (v.unitVals k) v).gen k = (v.gen k).commit ∧
         (g ≠ k → (setUnit k (v.unitVals k) v).gen g = v.gen g)) ∧
       (∀ a b q, u.voters = [a, b] → q.core = a → q.vals ≠ u.unitVals 32 →
         exec (.passVote t 2 k [q] [] clocks) s = .next (forceSafeStop t 2 (usedForced u))))) ∧
  (∀ (t k : Nat) (s : State),
     let u := s.advance t
     let old := u.eng.due.filter fun r => r.group == k && u.period k != 0 && decide (r.atT + u.period k ≤ t)
     (∀ a, k < 256 → (u.chan k).invSince = some a → (u.chan k).running = true → a + 100000 ≤ (u.chan k).invAt →
       exec (.channelFault t k) s = .next ((chanFault t k 1 u).modChan k fun c => { c with invSince := none })) ∧
     (∀ a, k < 256 → (u.chan k).invSince = some a → (u.chan k).invAt < a + 100000 → exec (.channelFault t k) s = .next u) ∧
     (k < 8 → old = [] → exec (.rateOverrun t k) s = .next u) ∧
     (k < 8 → old ≠ [] → exec (.rateOverrun t k) s = .next (overrun t k old u)) ∧
     (∀ out, k < 24 → u.eng.due = [] → exec (.sampleTimeout t k out) s = .next u) ∧
     (∀ r out i, k < 24 → u.eng.due = [r] → i < 16 → i ∉ r.timeouts →
       (let w := inSlot u.eng.act r.ch i; slotKind w = 1 ∧ slotIndex w = k ∧ slotSub w = out) →
       u.sampleCame ((u.ain k).outs.getD out Decim.reset) r.atT = false →
       ∃ v r', exec (.sampleTimeout t k out) s = .next v ∧ v.eng.due = [r'] ∧ i ∈ r'.timeouts ∧ r'.ch = r.ch ∧
         r'.ins.getD i (0, none, 0, true) =
           (let x := u.slotValue r.atT (inSlot u.eng.act r.ch i); (x.1, some (x.2.1.getD x.2.2.1), x.2.2.1, x.2.2.2))))

/-! ### Grid, ride-through, DC link, islanding -/

/-- The tracker and the links (R194, R196, R203): Locked after 20 ticks, Acquiring again after 3 bad ones, each posted with the old and the new state;
REACQ clears at its time; the eight link values are delivered once, on a boundary of the grid rate group.

The DC-link defence (R245, R247): a chopper that conducts no current for 20 µs latches CHOP_FAULT and posts it; 10 ms below DCL_REL release the
defence, with step 0.

Completes: trackerLocked, trackerAcquiring, reacqClear, linkDelivery, dclChopperFault, dclRelease. -/
def Obligations.GridTrackerAndDcLink : Prop :=
  (∀ (t : Nat) (s : State),
     let u := s.advance t
     let k := u.grid.trk
     (k.state = 1 → 20 ≤ k.lockCount → exec (.trackerLocked t) s =
       .next (State.post t (ev 0x0430 0 ([1, 2, 0, 0] ++ le 4 k.f))
         { u with grid := { u.grid with trk := { k with state := 2, lockCount := 0, badCount := 0, lockedAt := t } } })) ∧
     ((k.state ≠ 1 ∨ k.lockCount < 20) → exec (.trackerLocked t) s = .next u) ∧
     (k.state = 2 → (3 ≤ k.badCount ∨ fInRange k.f = false) → exec (.trackerAcquiring t) s =
       .next (State.post t (ev 0x0430 0 ([2, 1, 0, 0] ++ le 4 k.f))
         { u with grid := { u.grid with trk := { k with state := 1, lockCount := 0, badCount := 0 } } })) ∧
     (k.reacq = true → k.reacqUntil ≤ t → exec (.reacqClear t) s =
       .next { u with grid := { u.grid with trk := { k with reacq := false } } }) ∧
     (u.onGridBoundary t = false → exec (.linkDelivery t) s = .next u) ∧
     (∀ c l, u.onGridBoundary t = true → u.grid.cfg = some c → u.grid.linkOut = some l → exec (.linkDelivery t) s = .next { u with
       grid := { u.grid with linkOut := none }
       eng := { u.eng with links := (List.range 8).foldl (fun a i => a.set (c.linkBase + i) (l.getD i 0)) u.eng.links } })) ∧
  (∀ (t : Nat) (s : State),
     let u := s.advance t
     (∀ a, u.dcl.chopSince = some a → a + 20000 ≤ t → u.dcl.chopFault = false → exec (.dclChopperFault t) s =
       .next (State.post t (ev 0x0444 u.ports.chopper (le 2 u.vdcV ++ le 2 (u.leg u.ports.chopper).applied.toNat))
         { u with dcl := { u.dcl with chopFault := true } })) ∧
     (∀ a, u.dcl.chopSince = some a → t < a + 20000 → exec (.dclChopperFault t) s = .next u) ∧
     (∀ a, u.dcl.relSince = some a → a + 10000000 ≤ t → u.dcl.active = true →
       let v := (List.range 16).foldl (fun s p => if (s.pv p).state = 6 then pvRestart t p s else s)
         { u with dcl := { u.dcl with active := false, step2 := false } }
       let w := (List.range 4).foldl (fun s b =>
         (if (s.bat b).state = 4 then batTo t b 3 s else s).modBat b fun x => { x with overridden := false }) v
       exec (.dclRelease t) s = .next (dclEvent t 0 (legsUpdate t w))) ∧
     (∀ a, u.dcl.relSince = some a → (t < a + 10000000 ∨ u.dcl.active = false) → exec (.dclRelease t) s = .next u) ∧
     ((u.rt.uvDcTicks < 5 ∨ u.rt.uvActed = true) → exec (.dclUndervoltage t) s = .next u))

/-- Ride-through (R226, R229, R236, R237, R242): a return to a less severe class, trips, the restart on its boundary, the restart that comes too late,
and the end of the enter-service delay.

Completes: classReturn, rtTrip, rtRestart, restartTimeout, enterServiceComplete. -/
def Obligations.RideThroughHappenings : Prop :=
  ∀ (t : Nat) (s : State),
    let u := s.advance t
    let r := u.rt
    (u.tripMask ≠ 0 → exec (.rtTrip t) s = .next (rtTrip t u)) ∧
    (u.tripMask = 0 → exec (.rtTrip t) s = .next u) ∧
    (u.tripMask ≠ 0 → (u.modes.mode = 1 ∨ u.modes.mode = 2) → r.esTicks = 0 → r.esDone = false → exec (.rtTrip t) s =
      .next (State.post t (ev 0x0441 0 (le 2 (u.tripMask + flagAt u.uvTrip 9) ++ le 2 (milli16 r.vLo) ++ le 2 (milli16 r.vHi) ++ le 4 r.f))
        { u with rt := { r with
          trips := r.trips.map fun x => { x with tripped := x.tripped || (x.enable && x.tTicks ≤ x.count) }, uvActed := r.uvActed || u.uvTrip } })) ∧
    (r.retCount ≠ 0 → r.returnTicks ≤ r.retCount → exec (.classReturn t) s = .next (cessationReturn t (classTo t r.retMax u))) ∧
    (r.retCount < r.returnTicks → exec (.classReturn t) s = .next u) ∧
    (u.onGridBoundary t = true → r.gateOpening = true → exec (.rtRestart t) s =
      .next (State.post t (ev 0x0442 0 (leI 2 r.gateEps ++ le 4 (min 0xFFFFFFFF ((r.gateOpenAt - r.gateAt) / 1000))))
        (legsUpdate t (modeChannels t u.modes.mode (initPower t (vsmEnter 6 u.modes.mode
          { u with rt := { r with gateClosed := false, gateOpening := false } })))))) ∧
    ((u.onGridBoundary t = false ∨ r.gateOpening = false) → exec (.rtRestart t) s = .next u) ∧
    (r.gateClosed = true → r.gateOpening = false → r.gateTimed = false → (u.modes.mode = 4 ∨ u.modes.mode = 5) →
      r.gateAt + r.restartMax * 1000000 ≤ t →
      exec (.restartTimeout t) s = .next (rtTrip t u) ∧ u.tripsAt t = u.tripMask + 256 + flagAt u.uvTrip 9) ∧
    ((r.gateClosed = false ∨ t < r.gateAt + r.restartMax * 1000000) → exec (.restartTimeout t) s = .next u) ∧
    (r.esDone = false → r.esDelay * 1000 ≤ r.esTicks → u.esCond = true → exec (.enterServiceComplete t) s =
      .next (serviceCauses t (State.post t (ev 0x0443 0 [1]) { u with rt := { r with esDone := true } })))

/-- A DC-link undervoltage of 5 ms in grid-following or grid-forming is a trip (R248): one RT_TRIP with bit 9 of its mask set beside all that trips on
the tick, and safe stop from cause 7, unless a cause of a higher priority has decided the mode on this tick (R105).

Completes: dclUndervoltage. -/
def Obligations.DcLinkUndervoltageTrips : Prop :=
  ∀ (t : Nat) (s : State),
    let u := s.advance t
    (u.modes.mode = 4 ∨ u.modes.mode = 5) → u.modes.trans = none → 5 ≤ u.rt.uvDcTicks → u.rt.uvActed = false → u.outranked t 7 = false →
      exec (.dclUndervoltage t) s = .next (forceMode t 0x07 1 0 false
        (let v := State.post t (ev 0x0441 0
            (le 2 (u.tripMask + flagAt (u.gateTimeout t) 8 + 512) ++ le 2 (milli16 u.rt.vLo) ++ le 2 (milli16 u.rt.vHi) ++ le 4 u.rt.f))
          { u with rt := { u.rt with
            gateTimed := u.rt.gateTimed || u.gateTimeout t, uvActed := true
            trips := u.rt.trips.map fun x => { x with tripped := x.tripped || (x.enable && x.tTicks ≤ x.count) } } }
         { v with rt := { v.rt with afterTrip := true } })) ∧
      ∃ w r, exec (.dclUndervoltage t) s = .next w ∧ w.modes.trans = some r ∧ r.target = 1 ∧ r.cause = 7

/-- Islanding (R257, R260, R264 to R267, R269, R270, R274 to R276): chips with their sample records and epochs of the running code, evaluations on the
chip grid, decisions acted on once, a peer that joins or leaves the map after 20 or 200 evaluations, the scan that moves on, and the ROCOF trip.

Completes: awnChip, awnEvaluation, awnEpoch, islDetected, peerPcc, autoScanDwell, rocofTrip. -/
def Obligations.IslandingHappenings : Prop :=
  ∀ (t : Nat) (s : State),
    let u := s.advance t
    let x := u.isl
    (∀ e, awnRefresh t 1 u = u → x.state ≠ 0 → x.state ≠ 3 → u.d8On = true → x.epochAt = some e → e ≤ t →
      let n := (t - e) / 500000
      let new : AwnChip := { AwnChip.reset with start := e + n * 500000, j := n % 2000, c := chip x.codeInUse (n % 2000) }
      exec (.awnChip t) s = .next { u with isl := { x with
        chip := n % 2000, chipVal := chip x.codeInUse (n % 2000), aligned := x.aligned && u.awnAlign
        chips := if (x.chips.head?.map fun y => y.start) = some (e + n * 500000) then x.chips else (new :: x.chips).take 202 } }) ∧
    (awnRefresh t 1 u = u → (x.state = 0 ∨ x.state = 3 ∨ u.d8On = false) → exec (.awnChip t) s = .next u) ∧
    (x.epochAt = none → exec (.awnEpoch t) s = .next u) ∧
    (∀ e, x.epochAt = some e → t < e + 1000000000 → exec (.awnEpoch t) s = .next u) ∧
    (∀ e, x.epochAt = some e → e + 1000000000 ≤ t →
      let v : State := { u with isl := { x with cfg := x.cfgPend.getD x.cfg, cfgPend := none } }
      exec (.awnEpoch t) s = .next (awnChip t { v with isl := { v.isl with
        epochAt := some (if v.awnAlign then t - t % 1000000000 else e + (t - e) / 1000000000 * 1000000000), aligned := v.awnAlign
        codeInUse := v.awnCode.1, srcInUse := v.awnCode.2
        spanAt := if x.cfgPend.isSome || (v.awnAlign && !x.aligned) || x.codeInUse != v.awnCode.1 then some t else x.spanAt } })) ∧
    (∀ angle, (u.awnDue t = false ∨ u.d8On = false ∨ x.state = 0 ∨ x.state = 3) → exec (.awnEvaluation t angle) s = .next u) ∧
    (∀ angle c, u.grid.cfg = some c → u.awnDue t = true → u.d8On = true → x.state ≠ 0 → x.state ≠ 3 →
      let o := awnMeasure c u (u.awnChips t)
      exec (.awnEvaluation t angle) s = .next (awnDecide t o (o.arg.getD angle) u)) ∧
    (∀ angle c,
      let o := awnMeasure c u (u.awnChips t)
      u.grid.cfg = some c → u.awnDue t = true → u.d8On = true → x.relearn = false → x.state = 2 → u.lacksAwnSlot = false →
      u.awnValidBut t o = true → fle 0x3F000000 o.ri = true →
      exec (.awnEvaluation t angle) s = .next (awnCount t o.z { u with isl := { x with
        z := o.z, zAngle := o.arg.getD angle, riA := milliF o.ri, ir := o.ir, lastValid := true, lastValidAt := t, noPathCount := 0
        corr := (List.range 64).map fun m =>
          if m = 0 then x.corr.getD 0 Corr.reset else corrStep u true o m (x.corr.getD m Corr.reset) } })) ∧
    (x.decided ≠ 0 → exec (.islDetected t) s = .next (islAct t x.decided { u with isl := { x with decided := 0 } })) ∧
    (x.decided ≠ 0 → u.modes.mode = 1 → exec (.islDetected t) s =
      .next (State.post t (ev 0x0530 0 ([BitVec.ofNat 8 x.decided, 0] ++ le 2 (milliF x.z) ++ le 2 (milliF (x.zBase.getD 0)) ++ le 2 x.ir))
        { u with isl := { x with decided := 0 } })) ∧
    (∀ m, 0 < m → m < 64 → (x.corr.getD m Corr.reset).inMap = false → 20 ≤ (x.corr.getD m Corr.reset).count →
      exec (.peerPcc t m) s = .next (State.post t
        (ev 0x0532 m ([1] ++ le 3 (x.corr.getD m Corr.reset).code ++ le 2 ((x.corr.getD m Corr.reset).share.getD 0)))
        { u with isl := { x with corr := upd x.corr m fun c => { c with inMap := !c.inMap, count := 0, dwell := 0 } } })) ∧
    (∀ m, 0 < m → m < 64 → (x.corr.getD m Corr.reset).inMap = true → 200 ≤ (x.corr.getD m Corr.reset).count →
      exec (.peerPcc t m) s = .next (State.post t
        (ev 0x0532 m ([0] ++ le 3 (x.corr.getD m Corr.reset).code ++ le 2 ((x.corr.getD m Corr.reset).share.getD 0)))
        { u with isl := { x with corr := upd x.corr m fun c => { c with inMap := !c.inMap, count := 0, dwell := 0 } } })) ∧
    (∀ m, 0 < m → m < 64 → (x.corr.getD m Corr.reset).inMap = true → (x.corr.getD m Corr.reset).count < 200 →
      exec (.peerPcc t m) s = .next u) ∧
    (∀ m, m < 64 →
      let c := x.corr.getD m Corr.reset
      let next := u.nextPeer m c.code
      c.mode = 2 → c.inMap = false → (c.held = false ∨ (c.count < 20 ∧ 20 ≤ c.dwell)) →
      exec (.autoScanDwell t m) s = .next { u with isl := { x with corr := upd x.corr m fun c =>
        { c with code := next.getD c.code, held := c.held || next.isSome, dwell := 0, count := 0, share := none } } }) ∧
    (∀ m, m < 64 → (x.corr.getD m Corr.reset).mode ≠ 2 → exec (.autoScanDwell t m) s = .next u) ∧
    (x.rocof.enable = true → x.rocof.acted = false → x.rocof.t ≤ x.rocof.count → exec (.rocofTrip t) s =
      .next (islAct t 3 { u with isl := { x with rocof := { x.rocof with acted := true } } }))

/-! ### PV and battery ports -/

/-- PV ports (R289, R292 to R296, R304): a waiting port starts after 10 ms in range; the local tracker moves the reference by the measured slope; the
map is halved rounding down; the references posted carry the dither; a sweep ends accepted only when its dwell holds; k moves with the DC link.

BMS nodes (R300, R475, R476): a valid report is taken and moves the node on; an invalid message is discarded and counted, one from another bus
is also posted once; silence for BMS_TIMEOUT makes a node Stale, and staleness for BMS_DISABLE Departed; the device sends its own message.

Completes: pvPortStart, localTracker, mapHalving, globalSearch, pvSweep, pvReferencePost, curtailmentUpdate, bmsNodeReport, bmsNodeStale,
bmsNodeDeparted, bmsStatusSend. -/
def Obligations.PortHappenings : Prop :=
  (∀ (t p : Nat) (s : State),
     let u := s.advance t
     let x := u.pv p
     p < 16 →
     (∀ c, x.cfg = some c → x.state = 1 → 10 ≤ x.inWin → u.quiet = false → u.modes.mode ≠ 0 → u.pvLatched c = false → u.dcl.active = false →
       exec (.pvPortStart t p) s =
       .next (legsUpdate t (pvTo t p 2 (u.modPv p fun x => { x with ref := min (x.volts c) (c.vMax * 10) })))) ∧
     (x.inWin < 10 → exec (.pvPortStart t p) s = .next u) ∧
     (∀ c free0 free1 free2, x.cfg = some c → x.state = 2 → x.phase ≠ 3 → u.d8On = true → x.fitAt + 10000000 ≤ t →
       let slope := (x.fit c free0 free1 free2).1
       let v := (x.fit c free0 free1 free2).2.1
       let w := (x.fit c free0 free1 free2).2.2
       (feq w 0 = false → trackMove slope v w =
         fclamp (fdiv (fmul (fmul (fmul 0x3E800000 slope) v) v) w) (fneg (fmul 0x3BA3D70A v)) (fmul 0x3BA3D70A v)) ∧
       ∃ z, exec (.localTracker t p free0 free1 free2) s = .next z ∧ (z.pv p).ref = min 65535 ((x.ref * 65536 + x.refF + fround (trackMove slope v w) 655360).toNat / 65536) ∧
         (z.pv p).vMpp = min 65535 (fround v 10).toNat ∧ (z.pv p).pMpp = (fround w 1000).toNat ∧
         (z.pv p).refDitherAt = !x.refDitherAt ∧ (z.pv p).fitN = 0 ∧ z.grid = u.grid ∧ z.pwm = u.pwm) ∧
     (∀ slope v w, (u.d8On = false ∨ t < x.fitAt + 10000000) → exec (.localTracker t p slope v w) s = .next u) ∧
     (u.d8On = true → x.halvedAt + x.mppt.mapHalf * 1000000000 ≤ t → exec (.mapHalving t p) s =
       .next (u.modPv p fun x => { x with map := (x.map.map fun e => (e.1, e.2 / 2)).filter fun e => e.2 != 0, halvedAt := t })) ∧
     (u.d8On = false ∨ t < x.halvedAt + x.mppt.mapHalf * 1000000000 → exec (.mapHalving t p) s = .next u) ∧
     (∀ mean, u.d8On = true → u.ports.searchAt + 1000000000 ≤ t → exec (.globalSearch t mean) s =
       .next ((List.range 16).foldl (fun s p => searchPort t p (mean.getD p 0) s) (u.modPorts fun p => { p with searchAt := t }))) ∧
     (∀ mean, (u.d8On = false ∨ t < u.ports.searchAt + 1000000000) → exec (.globalSearch t mean) s = .next u) ∧
     (∀ mean deficit, u.d8On = true → x.state = 3 → x.phase = 2 → x.dwellAt + x.mppt.dwell * 1000000 ≤ t → x.dwellN ≠ 0 →
       fle (x.mppt.over (intF (x.pNow : Nat) 1000)) (intF (x.dwellP : Nat) (1000 * x.dwellN)) = true →
       exec (.pvSweep t p mean deficit) s =
         .next (pvTo t p 2 (endSweep t p 1 0 x.bestV (x.dwellP / x.dwellN) x.farV (u.modPv p fun x => { x with loss := x.loss + deficit })))) ∧
     (∀ mean deficit, u.d8On = true → x.state = 3 → x.phase = 2 → x.dwellAt + x.mppt.dwell * 1000000 ≤ t → x.dwellN = 0 →
       fle (x.mppt.over (intF (x.pNow : Nat) 1000)) (intF (mean : Nat) 1000) = true → exec (.pvSweep t p mean deficit) s =
         .next (pvTo t p 2 (endSweep t p 1 0 x.bestV mean x.farV (u.modPv p fun x => { x with loss := x.loss + deficit })))) ∧
     (∀ mean deficit, u.d8On = true → x.state = 3 → x.phase = 4 → x.ref = x.vNow → exec (.pvSweep t p mean deficit) s =
       .next (pvTo t p 2 (endSweep t p 2 0 x.vNow x.pNow x.farV (u.modPv p fun x => { x with loss := x.loss + deficit })))) ∧
     (∀ mean deficit, (u.d8On = false ∨ x.state ≠ 3 ∨ x.phase < 2 ∨ (x.phase = 2 ∧ t < x.dwellAt + x.mppt.dwell * 1000000)) →
       exec (.pvSweep t p mean deficit) s = .next u) ∧
     (∀ c, x.cfg = some c → x.state = 2 → x.phase ≠ 3 → u.d8On = true →
       ∃ z, exec (.pvReferencePost t) s = .next z ∧ (z.pv p).refAt = t ∧ (z.pv p).posted = BitVec.ofInt 16
         (fQ15Up (intF (((x.ref : Int) + (if x.refDitherAt then (x.mppt.dither : Int) else -(x.mppt.dither : Int))) * 65536 + x.refF) (c.vFs * 655360)))) ∧
     (∀ c, x.cfg = some c → x.state = 2 → x.phase = 3 → u.d8On = true → ∃ z, exec (.pvReferencePost t) s = .next z ∧
       (z.pv p).ref = (x.goBack t).ref ∧ min x.ref x.vNow ≤ (z.pv p).ref ∧ (z.pv p).ref ≤ max x.ref x.vNow) ∧
     (u.d8On = false → exec (.pvReferencePost t) s = .next u) ∧
     (u.holdingMode = true → u.ports.hasShare = true → u.dcl.vdcValid = true → u.ports.curtAt + 50000 ≤ t →
       exec (.curtailmentUpdate t) s = .next (yieldAll t { u with ports := { u.ports with
         k := fclamp (fsub u.ports.k (fmul 0x3A03126F (fsub u.vdcF (intF (u.vHold : Nat) 1)))) 0 f1, curtAt := t } })) ∧
     (u.holdingMode = false ∨ t < u.ports.curtAt + 50000 → exec (.curtailmentUpdate t) s = .next u)) ∧
  (∀ (t n bus : Nat) (s : State),
     let u := s.advance t
     let b := u.bms n
     let c := u.net.cans.getD bus CanCtl.reset
     n < 64 → bus < 2 →
     ((b.state = 1 ∨ b.state = 2) → b.timeout < b.age → exec (.bmsNodeStale t n) s = .next (bmsTo t n 3 u)) ∧
     ((b.state = 1 ∨ b.state = 2) → b.age ≤ b.timeout → exec (.bmsNodeStale t n) s = .next u) ∧
     (b.state = 3 → b.disable ≤ b.staleTicks → exec (.bmsNodeDeparted t n) s = .next (bmsTo t n 4 u)) ∧
     (b.state ≠ 3 ∨ b.staleTicks < b.disable → exec (.bmsNodeDeparted t n) s = .next u) ∧
     (u.d9On = false → exec (.bmsStatusSend t bus) s = .next u ∧ ∀ ident d, exec (.bmsNodeReport t bus ident d) s = .next u) ∧
     (u.d9On = true → c.role = 1 → c.busOff = false → exec (.bmsStatusSend t bus) s = .next { u with net := { u.net with
       cans := upd u.net.cans bus fun c => { c with sent := some (0x1B5C0080,
         [BitVec.ofNat 8 u.modes.mode, if u.dcl.step2 then 1 else 0] ++ zeros 6) } } }) ∧
     (c.role ≠ 1 → exec (.bmsStatusSend t bus) s = .next u ∧ ∀ ident d, exec (.bmsNodeReport t bus ident d) s = .next u) ∧
     (∀ d, u.d9On = true → c.role = 1 → c.busOff = false → d.length = 16 → u8 d 8 < 4 → (d.drop 10).all (· == 0) = true → b.seq ≠ some (u8 d 9) →
       (b.state = 0 ∨ b.state = 4 ∨ b.bus = some bus) →
       exec (.bmsNodeReport t bus (0x1B5C0001 + 256 * n) d) s = .next (bmsReport t bus n d u)) ∧
     (∀ ident d, u.d9On = true → c.role = 1 → c.busOff = false → (d.length ≠ 16 ∨ ident / 65536 ≠ 0x1B5C) →
       exec (.bmsNodeReport t bus ident d) s = .next { u with net := { u.net with canDiscards := (u.net.canDiscards + 1) % 2 ^ 32 } }) ∧
     (∀ d, u.d9On = true → c.role = 1 → c.busOff = false → d.length = 16 → u8 d 8 < 4 → (d.drop 10).all (· == 0) = true → b.seq ≠ some (u8 d 9) →
       (b.state = 1 ∨ b.state = 2 ∨ b.state = 3) → b.bus ≠ some bus → b.otherPosted = false →
       exec (.bmsNodeReport t bus (0x1B5C0001 + 256 * n) d) s =
         .next (State.post t (ev 0x0C36 bus [3, BitVec.ofNat 8 n]) ((canDiscard u).modBms n fun b => { b with otherPosted := true }))) ∧
     (∀ d, b.state = 2 → bit (u8 d 8) 1 = false →
       let w := bmsReport t bus n d u
       (w.bms n).state = 2 ∧ (w.bms n).age = 0 ∧ (w.bms n).iChg = u16 d 0 ∧ (w.bms n).iDis = u16 d 2 ∧
         (w.bms n).vChg = u16 d 4 ∧ (w.bms n).vDis = u16 d 6 ∧ (w.bms n).closed = bit (u8 d 8) 0))

/-! ### Legs and sensing -/

/-- Legs (R325, R326, R329, R330, R333): where the leg's carrier has no load event nothing happens; a ready Starting leg enters Switching with its
shadow copied; one that waits, or whose STO is held, places nothing; a Switching leg and a leg under test place their interval; a Starting leg waits
its 2 µs; the bootstrap precharge holds PWML; a test ends at its time.

Completes: loadEvent, bootPrecharge, legTestEnd. -/
def Obligations.LegHappenings : Prop :=
  ∀ (t n : Nat) (s : State),
    n < 48 →
    (∀ peak,
      let u := pwmSettle t (s.advance t)
      (u.loadHit t n peak = none → exec (.loadEvent t n peak) s = .next u) ∧
      (∀ x, u.loadHit t n peak = some x →
        let w := d6Sync t x u
        let l := w.leg n
        let b := (w.tb l.tb).inForce
        let v := w.modLeg n (Leg.latched t)
        let shift := v.phaseShift l.acPhase.toInt (v.leg n).acPhase.toInt b.n
        let loaded (z : State) : State := curStart t n (cmpLoad n (decimLoad n t z))
        (l.state = 1 → (l.startReady t = false ∨ l.sto = true ∨ w.inReaction n = true) → exec (.loadEvent t n peak) s = .next (loaded w)) ∧
        ((l.state = 0 ∨ l.state = 3) → exec (.loadEvent t n peak) s =
          .next (loaded (v.modLeg n fun l => { l with loadAt := t, loadD := x }))) ∧
        (l.state = 2 → l.sto = false → exec (.loadEvent t n peak) s = .next (loaded (placeInterval t n peak b x shift v))) ∧
        (l.state = 4 → l.startedAt < t → l.sto = false → exec (.loadEvent t n peak) s = .next (loaded (placeInterval t n peak b x shift v))) ∧
        (l.state = 1 → l.startReady t = true → l.sto = false → w.inReaction n = false → exec (.loadEvent t n peak) s =
          .next (loaded (placeInterval t n peak b x shift (legTo t n 2 0 v)))))) ∧
    (let u := s.advance t
     let l := u.leg n
     (l.state = 1 → l.boot = true → l.preDone = false → l.startedAt + 2000 ≤ t → l.sto = false → exec (.bootPrecharge t n) s =
       .next (u.modLeg n fun l => { l with
         pwmL := (u.leg n).role != 9, onL := if (u.leg n).role != 9 then t else l.onL, preDone := true, startedAt := t, loadAt := t
         loadD := u.pwm.d6.steps t, intLen := (u.leg n).bootPre * 8000
         edges := [(((u.leg n).bootPre * 8000 : Nat), false, false)], refreshEnd := t + l.bootPre * 1000 })) ∧
     (l.state ≠ 1 ∨ t < l.startedAt + 2000 → exec (.bootPrecharge t n) s = .next u) ∧
     (l.testEnd ≠ 0 → l.testEnd ≤ t → exec (.legTestEnd t n) s = .next (endLegTest t n u)) ∧
     (l.testEnd ≠ 0 → l.testEnd ≤ t → l.state = 4 → u.inReaction n = false → (u.modLeg n fun l => { l with testEnd := 0 }).inReaction n = false →
       exec (.legTestEnd t n) s = .next (legTo t n 0 2 (u.modLeg n fun l => { l with testEnd := 0 }))) ∧
     (l.testEnd = 0 ∨ t < l.testEnd → exec (.legTestEnd t n) s = .next u))

/-- Pipeline inputs (R340, R345 to R348, R351, R361): a sample reaches its checks, decimators and the tracker; a due check flags its inputs; the
confirmation's verdict splices the converter or frees the input; a retired converter is unpowered; a suspended check resumes after 1 ms.

SAR units and path tests (R354 to R360): an idle unit starts an urgent input before others; its result reaches the input with its stamp and
flags; the test DAC steps every unit but the retired ones; a path test marks its inputs, posts and replies.

Completes: pipelineSample, senseSuspect, senseVerdict, converterPowerOff, checkSuspensionEnd, shadowVisit, sarStart, sarResult, testDacStep,
sensePath, calibrationCorrection. -/
def Obligations.SensingHappenings : Prop :=
  (∀ (t a : Nat) (s : State),
     let u := s.advance t
     let x := u.ain a
     a < 24 →
     (∀ code angle quad, u.d7Off = true → exec (.pipelineSample t a code ⟨angle, quad⟩) s = .next u) ∧
     (∀ (code : Int) angle quad, u.d7Off = false → -8192 ≤ code → code ≤ 8191 →
       let clip := code == -8192 || code == 8191
       let taken (v : State) : State := frontAngle t a angle (decimSample t a (code * 4) ((v.ain a).marked || (v.ain a).pathFail) clip quad
         (pathTake t 1 a code (suspects t a (kirSample t a (if clip then clipSample t a v else v)))))
       let v := u.modAin a fun x => x.checked t code
       (x.enable = false → exec (.pipelineSample t a code ⟨angle, quad⟩) s = .next (taken (u.modAin a fun x => { x with code := code, lastAt := t }))) ∧
       (x.enable = true → (x.stuckOut = false ∨ (v.ain a).stuckOut = true) → exec (.pipelineSample t a code ⟨angle, quad⟩) s = .next (taken v)) ∧
       (x.enable = true → x.stuckOut = true → (v.ain a).stuckOut = false →
         exec (.pipelineSample t a code ⟨angle, quad⟩) s = .next (taken (unstick a v)))) ∧
     (u.d7Off = false → x.enable = true → 64 ≤ x.rangeCnt → x.suspRange = false → u.flagged 1 255 [a] = false →
       exec (.senseSuspect t 1 a) s = .next (flagSuspect t 1 255 [a] u)) ∧
     (u.d7Off = false → x.enable = true → x.stuck = true → 512 ≤ x.stuckCnt → x.suspStuck = false → x.stuckOut = false → u.flagged 2 255 [a] = false →
       exec (.senseSuspect t 2 a) s = .next (flagSuspect t 2 255 [a] u)) ∧
     (∀ g, g < 8 → u.d7Off = false → (u.kir g).enable = true → 64 ≤ (u.kir g).cnt → (u.kir g).suspended = false →
       let l := (List.range 24).filter fun a => (u.kir g).members.contains a
       u.flagged 3 g l = false → exec (.senseSuspect t 3 g) s = .next (flagSuspect t 3 g l u)) ∧
     (∀ g, g < 8 → (u.kir g).cnt < 64 → exec (.senseSuspect t 3 g) s = .next u) ∧
     (∀ p q r, (u.d7Off = true ∨ u.sense.confirm = none) → exec (.senseVerdict t p q r) s = .next u) ∧
     (∀ p q r c, u.d7Off = false → u.sense.confirm = some c → c.check ≠ 4 → 128 * u.sense.confTol < p → exec (.senseVerdict t p q r) s =
       .next (endConfirm t { c with spare := none } ((unmark c.all (retireConv t (c.ains.headD 0) (c.spare.getD 0) c.since u)).modKir c.group
         fun k => { k with cnt := 0 }))) ∧
     (∀ p q r c, u.d7Off = false → u.sense.confirm = some c → c.check ≠ 4 → p ≤ 128 * u.sense.confTol → c.ains.tail = [] →
       exec (.senseVerdict t p q r) s =
         .next (endConfirm t c (suspend c (unmark c.all (State.post t (verdictEv t (c.ains.headD 0) 0 255 255 c.since) u))))) ∧
     (∀ p q r c y l, u.d7Off = false → u.sense.confirm = some c → c.check ≠ 4 → p ≤ 128 * u.sense.confTol → c.ains.tail = y :: l →
       exec (.senseVerdict t p q r) s =
         .next ((routeConfirm (c.spare.getD 0) y (State.post t (verdictEv t (c.ains.headD 0) 0 255 255 c.since) u)).modSense
           fun z => { z with confirm := some { c with ains := y :: l } })) ∧
     (∀ p q r c, u.d7Off = false → u.sense.confirm = some c → c.check = 4 → exec (.senseVerdict t p q r) s = .next (shadowVerdict t p q r c u)) ∧
     (∀ c, c < 26 → u.sense.roles.getD c 0 = 4 → u.sense.convOn.getD c false = true → u.sense.convOffAt.getD c 0 ≤ t →
       exec (.converterPowerOff t c) s = .next ({ u with sense := { u.sense with convOn := u.sense.convOn.set c false } }).commitHealth) ∧
     (∀ c, c < 26 → u.sense.roles.getD c 0 ≠ 4 → exec (.converterPowerOff t c) s = .next u) ∧
     (u.d7Off = false → x.suspRange = true → falseFor t x.okRange = true → exec (.checkSuspensionEnd t 1 a) s =
       .next (u.modAin a fun x => { x with suspRange := false })) ∧
     (u.d7Off = false → x.suspStuck = true → falseFor t x.okStuck = true → exec (.checkSuspensionEnd t 2 a) s =
       .next (u.modAin a fun x => { x with suspStuck := false })) ∧
     (∀ g, g < 8 → u.d7Off = false → (u.kir g).suspended = true → falseFor t (u.kir g).okSince = true → exec (.checkSuspensionEnd t 3 g) s =
       .next (u.modKir g fun k => { k with suspended := false })) ∧
     (u.d7Off = true → ∀ c n, exec (.checkSuspensionEnd t c n) s = .next u) ∧
     (∀ o g, (u.d7Off = true ∨ u.arbitrates = true ∨ u.convs 2 = []) → exec (.shadowVisit t o g) s = .next u) ∧
     (∀ o g w l, u.d7Off = false → u.arbitrates = false → u.convs 2 = w :: l → u.visitable (u.sense.convAin.getD w 255) = false →
       exec (.shadowVisit t o g) s = .next (fixVisit u)) ∧
     (∀ o g w l, u.d7Off = false → u.arbitrates = false → u.convs 2 = w :: l → u.visitable (u.sense.convAin.getD w 255) = true →
       u.sense.shSecond = false → o.natAbs ≤ u.sense.shOffset * 1000 → g.natAbs ≤ u.sense.shGain * 1000 →
       ∃ z, exec (.shadowVisit t o g) s = .next z ∧ z.sense.shSecond = true ∧ z.sense.confirm = u.sense.confirm ∧ z.sense.queue = u.sense.queue) ∧
     (∀ l, u.d7Off = false → u.sense.calAt + 10000000 ≤ t → exec (.calibrationCorrection t l) s =
       .next ((calibrate u).modSense fun z => { z with
         calAt := t, gainCorr := (List.range 26).map fun c => sat16 (l.getD c (u.sense.gainCorr.getD c 0)) })) ∧
     (∀ l, (u.d7Off = true ∨ t < u.sense.calAt + 10000000) → exec (.calibrationCorrection t l) s = .next u)) ∧
  (∀ (t k : Nat) (s : State),
     let u := s.advance t
     k < 6 →
     (let v := { u with sense := { u.sense with hks := u.sense.hks.map fun h : Hk => u.hkEvents (u.pwm.d6.steps t) (h.timer t) } }
      (∀ l n, (u.sar k).busy = some n → ((u.sar k).conv ≠ none ∨ t < (u.sar k).startAt + 1000) →
       ∃ w, exec (.sarStart t k l) s = .next w ∧ w.sense.sars = u.sense.sars ∧ w.sense.hks = v.sense.hks) ∧
      (∀ l n, (u.sar k).busy = some n → (u.sar k).conv = none → (u.sar k).startAt + 1000 ≤ t →
       ∃ w, exec (.sarStart t k l) s = .next w ∧ (w.sar k).conv = some (n, (u.sar k).startAt)) ∧
      (∀ l n, u.d7Off = false → (u.sar k).busy = none → (u.sar k).logical ≠ 254 → v.sarNext k = some n → n < 64 → k < u.sense.sars.length →
       ∃ w, exec (.sarStart t k l) s = .next w ∧ (w.sar k).busy = some n ∧ (w.sar k).startAt = t ∧ (w.hk n).pending = none)) ∧
     (let v := u.modSar k fun z => if z.conv.isSome then { z with conv := none } else { z with busy := none }
      (∀ code, (u.d7Off = true ∨ (u.sar k).ready t = none) → exec (.sarResult t k code) s = .next u) ∧
      (∀ code start, u.d7Off = false → (u.sar k).ready t = some (0x100, start) →
        exec (.sarResult t k code) s = .next (testResult t k (start + 250) (min 4095 code) v)) ∧
      (∀ (code n start : Nat), u.d7Off = false → (u.sar k).ready t = some (n, start) → n ≠ 0x100 → code ≤ 4095 →
        let w := pathTake (start + 250) 2 n (code : Nat) (hkResult k n start code v)
        let x : Int := (code * 8 : Nat)
        let y := if (w.hk n).valid then pvTap 2 n 4 (w.hk n).stamp x w else w
        exec (.sarResult t k code) s = .next (hkReadDone n start
          (recResult t 2 n 0 (w.hk n).stamp 0 x (w.hk n).valid false (monResult t true n 0 x (w.hk n).valid y))))) ∧
     (u.d7Off = false → u.sense.pathRun = [] → u.sense.dacAt + 250000 ≤ t → exec (.testDacStep t) s = .next { u with sense := { u.sense with
       dacStep := (u.sense.dacStep + 1) % 16, dacAt := t
       sars := u.sense.sars.map fun z => { z with testDue := z.logical != 254, lastIn := none } } }) ∧
     (u.d7Off = true ∨ u.sense.pathRun ≠ [] ∨ t < u.sense.dacAt + 250000 → exec (.testDacStep t) s = .next u) ∧
     (∀ diffs, u.d7Off = false → u.sense.pathDiffs.length ≠ u.sense.pathRun.length → exec (.sensePath t diffs) s = .next u) ∧
     (∀ e d diffs, u.sense.pathRun = [e] → u.sense.pathDiffs = [d] → u.sense.pathReply = none → exec (.sensePath t diffs) s =
       .next { pathResult t e d u with sense :=
         { (pathResult t e d u).sense with pathRun := [], pathReply := none, tdac := none, pathDiffs := [], pathIdx := 0 } }))

/-! ### Protection -/

/-- Fault inputs, comparators and monitors (R368, R372, R376 to R379, R385): an assertion of a source trips the group it belongs to with its cause; an
output already held trips no second time; a released or inactive input is ready; a monitor acts once; a partner becomes suspect and is tested.

Completes: fltAsserted, fltReady, comparatorAsserted, hardCellAsserted, monitorActs, partnerSuspect, comparatorReleased. -/
def Obligations.ProtectionSources : Prop :=
  ∀ (t n : Nat) (s : State),
    let u := s.advance t
    let f := u.flt n
    let c := u.cmp n
    (n < 48 → f.kind = 0 → u.domainOn 6 = true →
      let v := u.modFlt n fun f => { f with asserted := true, ready := false }
      (∀ g, v.groupOf n = some g → exec (.fltAsserted t n) s = .next (tripGroup t g n 1 0 v)) ∧
      (v.groupOf n = none → exec (.fltAsserted t n) s = .next v) ∧
      exec (.fltReady t n) s = .next (legsUpdate t (u.modFlt n fun f => { f with asserted := false, ready := true }))) ∧
    (n < 48 → (f.kind ≠ 0 ∨ u.domainOn 6 = false) → exec (.fltAsserted t n) s = .next u ∧ exec (.fltReady t n) s = .next u) ∧
    (n < 52 → u.d7Off = false → u.fed n = true → u.blanked t n = false →
      ((c.live = false ∧ c.main = false) ∨ (c.live = true ∧ u.maskedSince t n = true ∧ c.latch = 0)) →
      let v := u.modCmp n fun c => { c with live := true, main := true, ready := false, mainAt := t }
      (∀ g, c.action = 1 → v.cmpGroup (u.cmp n) = some g → exec (.comparatorAsserted t n) s = .next (tripGroup t g (c.source n) 2 (v.thrNow t n) v)) ∧
      (c.action = 1 → v.cmpGroup (u.cmp n) = none → exec (.comparatorAsserted t n) s = .next v) ∧
      (c.action = 2 → exec (.comparatorAsserted t n) s = .next (cmpEvent t n v)) ∧
      (c.action = 3 → exec (.comparatorAsserted t n) s = .next (curChange t n v)) ∧
      (c.action ≠ 1 → c.action ≠ 2 → c.action ≠ 3 → exec (.comparatorAsserted t n) s = .next v)) ∧
    (n < 52 → u.d7Off = false → u.fed n = true → c.live = false → u.blanked t n = false → c.main = true →
      exec (.comparatorAsserted t n) s = .next (u.modCmp n fun c => { c with live := true, ready := false })) ∧
    (n < 52 → (u.d7Off = true ∨ u.fed n = false ∨ u.blanked t n = true ∨ (c.live = true ∧ u.maskedSince t n = false)) →
      exec (.comparatorAsserted t n) s = .next u) ∧
    (n < 52 → (u.d7Off = true ∨ u.fed n = false) → exec (.comparatorReleased t n) s = .next u) ∧
    (n < 52 → u.d7Off = false → u.fed n = true →
      let v := u.modCmp n fun c => { c with live := false, ready := true, main := c.main && c.latch != 0 && c.mainAt != 0 }
      (c.action ≠ 3 → exec (.comparatorReleased t n) s = .next (legsUpdate t v)) ∧
      (c.action = 3 → exec (.comparatorReleased t n) s = .next (legsUpdate t (curChange t n v)))) ∧
    (n < 52 → u.d7Off = false → u.fed n = true → c.under = false → c.action = 1 → c.hard = false →
      let v := u.modCmp n fun c => { c with hard := true }
      (∀ g, v.cmpGroup (u.cmp n) = some g → exec (.hardCellAsserted t n) s = .next (tripGroup t g (c.source n) 3 (min (2 * c.inForce) 1023) v)) ∧
      (v.cmpGroup (u.cmp n) = none → exec (.hardCellAsserted t n) s = .next v)) ∧
    (n < 52 → (u.d7Off = true ∨ u.fed n = false ∨ c.under = true ∨ c.action ≠ 1 ∨ c.hard = true) → exec (.hardCellAsserted t n) s = .next u) ∧
    (let m := u.mon n
     n < 32 → u.domainOn 7 = true → m.hasCfg = true → m.n ≤ m.count → m.past = true → m.acted = false →
      let v := u.modMon n fun m => { m with acted := true }
      let w := if !(v.cmp m.partner).main && !v.blanked t m.partner then suspectCmp m.partner v else v
      (m.action = 1 → exec (.monitorActs t n) s = .next (tripGroup t m.group (0x200 + n) 4 (wrap 16 m.val) w)) ∧
      (m.action = 2 → exec (.monitorActs t n) s = .next (State.post t (ev 0x0936 n (leI 2 m.val ++ [if m.tripHi ≤ m.val then 1 else 0])) w)) ∧
      (m.action ≠ 1 → m.action ≠ 2 → exec (.monitorActs t n) s = .next w)) ∧
    (n < 32 → (u.domainOn 7 = false ∨ (u.mon n).count < (u.mon n).n ∨ (u.mon n).acted = true) → exec (.monitorActs t n) s = .next u) ∧
    (let m := u.mon n
     let c := u.cmp m.partner
     n < 32 →
      (∀ a, u.d7Off = false → m.hasCfg = true → c.live = true → u.unmaskedFrom t m.partner + 1000000 ≤ t → m.insideAt = some a → a + 1000000 ≤ t →
        exec (.partnerSuspect t n) s = .next (suspectCmp m.partner u)) ∧
      (∀ k, m.partner < 52 → c.cell = some k → c.suspect = false → suspectCmp m.partner u =
        ((u.modCmp m.partner fun c => { c with suspect := true }).modProt fun p => { p with testNext := some m.partner }).count (hcCell k 1)) ∧
      ((u.d7Off = true ∨ c.live = false ∨ m.insideAt = none) → exec (.partnerSuspect t n) s = .next u))

/-- Reactions (R381, R386, R387): a soft reaction's second step takes PWMH low; the last step trips the legs and the group waits or latches; at its retry
a waiting group with clear sources is armed, one that is not counts a try, and with its tries used up latches; tries are cleared after RETRY_CLEAR.

Comparator cells (R379, R389 to R392): a suspect comparator's cell is tested first; a failed cell gives its mapping to a free one; a stand-in that
fails is retired; a retired cell is unpowered; an in-place test ends with its cells as they were when they pass.

Completes: softStep, innerStep, protRetry, triesClear, cmpSelfTestStep, cellPowerOff, cmpTestComplete. -/
def Obligations.ReactionsAndCellTests : Prop :=
  (∀ (t g : Nat) (s : State),
     let u := s.advance t
     let p := u.pgroup g
     g < 8 →
     (p.state = 1 → p.step1 = true → p.reactAt + p.tSoft1 * 10 ≤ t → exec (.softStep t g) s = .next
       (((u.reactingLegs g).foldl (fun s n => s.modLeg n fun l => { l with pwmH := false, pwmL := l.pwmL && (l.role == 3 || l.role == 4) }) u).modPGroup g
         fun p => { p with step1 := false })) ∧
     ((p.state ≠ 1 ∨ p.step1 = false ∨ t < p.reactAt + p.tSoft1 * 10) → exec (.softStep t g) s = .next u) ∧
     (p.state = 1 → p.step1 = false → p.reactAt + ((if p.hard then 0 else p.tSoft1) + p.tInner) * 10 ≤ t →
       let v := (u.reactingLegs g).foldl (fun s n => legTo t n 3 1 (s.modLeg n fun l => { l with pwmH := false, pwmL := false })) u
       (p.latchPend = true → exec (.innerStep t g) s = .next (latchGroup t g v)) ∧
       (p.latchPend = false → exec (.innerStep t g) s = .next (v.modPGroup g fun p => { p with state := 2 }))) ∧
     (p.state ≠ 1 ∨ p.step1 = true ∨ t < p.reactAt + ((if p.hard then 0 else p.tSoft1) + p.tInner) * 10 → exec (.innerStep t g) s = .next u) ∧
     (p.state = 2 → p.retryAt ≤ t →
       let v := clearHeld g u
       (v.sourcesClear g = true → exec (.protRetry t g) s = .next (State.post t (ev 0x0931 g [BitVec.ofNat 8 p.tries, 1]) (armGroup t g (initOwners g v)))) ∧
       (v.sourcesClear g = false → p.tries < p.retries → exec (.protRetry t g) s = .next (State.post t (ev 0x0931 g [BitVec.ofNat 8 (p.tries + 1), 0])
         (v.modPGroup g fun p => { p with tries := p.tries + 1, retryAt := p.retryAt + p.tRetry * 1000000 }))) ∧
       (v.sourcesClear g = false → p.retries ≤ p.tries → exec (.protRetry t g) s = .next (latchGroup t g v))) ∧
     ((p.state ≠ 2 ∨ t < p.retryAt) → exec (.protRetry t g) s = .next u) ∧
     (p.state = 0 → p.armedAt + p.retryClear * 1000000000 ≤ t →
       exec (.triesClear t g) s = .next (u.modPGroup g fun p => { p with tries := 0 })) ∧
     (t < p.armedAt + p.retryClear * 1000000000 → exec (.triesClear t g) s = .next u)) ∧
  (∀ (t : Nat) (s : State),
     let u := s.advance t
     (∀ b sb, u.d7Off = true → exec (.cmpSelfTestStep t b sb) s = .next u) ∧
     (∀ n sb, u.d7Off = false → u.prot.testNext = some n →
       let v := (u.modProt fun p => { p with testNext := none }).modCmp n fun c => { c with suspect := false }
       let k := (u.cmp n).cell.getD 52
       exec (.cmpSelfTestStep t true sb) s = .next (failCell t n k v) ∧
       exec (.cmpSelfTestStep t false sb) s = .next (State.post t (cmpTestEv n 3 k 255) v)) ∧
     (∀ k, u.d7Off = false → u.prot.testNext = none → u.testFrom u.prot.testCell = some k →
       let v := u.modProt fun p => { p with
         testCell := (k + 1) % 52
         testCycles := if decide (k < p.testCell) || k == 51 then (p.testCycles + 1) % 2 ^ 32 else p.testCycles }
       exec (.cmpSelfTestStep t false false) s = .next v ∧
       (∀ n sb, v.cmpOf k = some n → exec (.cmpSelfTestStep t true sb) s = .next (failCell t n k v)) ∧
       (∀ n f, v.cmpOf k = some n → v.freeCell k = some f →
         exec (.cmpSelfTestStep t false true) s = .next (State.post t (cmpTestEv n 2 f 255) (retireCell f v)))) ∧
     (∀ b sb, u.prot.testNext = none → u.testFrom u.prot.testCell = none → exec (.cmpSelfTestStep t b sb) s = .next u) ∧
     (∀ k, k < 52 → u.prot.cellOk.getD k true = false → u.prot.cellOn.getD k false = true → u.prot.cellOffAt.getD k 0 ≤ t →
       exec (.cellPowerOff t k) s =
       .next ({ u with prot := { u.prot with cellOn := u.prot.cellOn.set k false } }).commitHealth) ∧
     (∀ k, k < 52 → u.prot.cellOk.getD k true = true → exec (.cellPowerOff t k) s = .next u) ∧
     (∀ l, u.prot.cmpTest = [] → exec (.cmpTestComplete t l) s = .next u) ∧
     (∀ n x, u.prot.cmpTest = [n] → (u.cmp n).passes x.1 x.2.1 x.2.2 = true →
       let v : State := { u with prot := { u.prot with
         cmps := upd u.prot.cmps n fun c => { c with underTest := false }, cmpTest := [], cmpReply := none } }
       (u.prot.cmpReply = none → exec (.cmpTestComplete t [x]) s = .next v) ∧
       (∀ d, u.prot.cmpReply = some d → exec (.cmpTestComplete t [x]) s = .next (sendReply d.src (d.withData
         ([BitVec.ofNat 8 n, 1] ++ le 2 x.1 ++ le 2 x.2.1 ++ le 2 (if (u.cmp n).under then 0xFFFF else x.2.2))) v))))

/-! ### Recorder -/

/-- Recorder (R405, R411, R416, R417, R419): a time trigger fires at T and then every P ms; a capture completes at its end, and in repeat mode the
recorder is armed again; a map halves its cells; a readout record goes to its ring, the last one frees the capture; a skew calibration sets the delays.

Completes: recTimeTrigger, recComplete, persistenceHalving, readoutRecord, skewCalComplete. -/
def Obligations.RecorderHappenings : Prop :=
  ∀ (t k : Nat) (s : State),
    let u := s.advance t
    let r := u.recorder
    (k < 4 → u.recWorks = true → (u.trig k).typ = 5 → (u.trig k).t ≤ t → (u.trig k).periodMs = 0 → (u.trig k).fired < (u.trig k).t →
      exec (.recTimeTrigger t k) s = .next (recFire k (u.trig k).t u)) ∧
    (k < 4 → u.recWorks = true → ∀ j, (u.trig k).typ = 5 → 0 < (u.trig k).periodMs → t = (u.trig k).t + j * ((u.trig k).periodMs * 1000000) → (u.trig k).fired < t →
      exec (.recTimeTrigger t k) s = .next (recFire k t u)) ∧
    (k < 4 → (u.recWorks = false ∨ (u.trig k).typ ≠ 5 ∨ t < (u.trig k).t) → exec (.recTimeTrigger t k) s = .next u) ∧
    (r.cur = none → exec (.recComplete t) s = .next u) ∧
    (∀ c, u.recWorks = true → r.cur = some c → r.state = 2 → c.tEnd ≤ (t : Int) → (finishCapture t u).recorder.rep = false →
      exec (.recComplete t) s = .next (finishCapture t u)) ∧
    (∀ c, u.recWorks = true → r.cur = some c → r.state = 2 → c.tEnd ≤ (t : Int) → (finishCapture t u).recorder.rep = true →
      exec (.recComplete t) s = .next (armRecorder t (finishCapture t u))) ∧
    (∀ c, r.cur = some c → (u.recWorks = false ∨ (t : Int) < c.tEnd) → exec (.recComplete t) s = .next u) ∧
    (let m := r.maps.getD k PMap.reset
     k < 2 → (u.recWorks = false ∨ m.half = 0 ∨ t < m.halvedAt + m.half * 1000000000) → exec (.persistenceHalving t k) s = .next u) ∧
    (let m := r.maps.getD k PMap.reset
     k < 2 → u.recWorks = true → m.half ≠ 0 → m.halvedAt + m.half * 1000000000 ≤ t → ∃ w, exec (.persistenceHalving t k) s = .next w ∧
      w = { u with mem := { u.mem with sram := w.mem.sram }, recorder := { r with maps := upd r.maps k fun p => { p with halvedAt := t } } } ∧
      ∀ a, (a < 0x202C0000 + k * 0x20000 ∨ 0x202E0000 + k * 0x20000 ≤ a) → w.load a 1 = u.load a 1) ∧
    (∀ n, 24 ≤ n → n < 32 → (r.readouts.find? fun o => o.ring == n) = none → exec (.readoutRecord t n) s = .next u) ∧
    (∀ n, 24 ≤ n → n < 32 → (u.recWorks = false ∨ (u.ring n).configured = false ∨ (u.ring n).full = true) → exec (.readoutRecord t n) s = .next u) ∧
    (∀ n o, 24 ≤ n → n < 32 → (r.readouts.find? fun o => o.ring == n) = some o → u.recWorks = true → (u.ring n).configured = true → (u.ring n).full = false →
      o.src = 3 → o.atT < 255 → exec (.readoutRecord t n) s =
        .next (((u.modRing n fun r => { r.push (readRecord o.cap o.recNo 4 (flagAt (u.ring n).overrun 1) 0
          (u.load (0x202C0000 + o.sel * 0x20000 + 512 * o.atT) 512)) with overrun := false }).setRingInt n).modRec
          fun r => { r with readouts := (r.readouts.filter fun q => q.ring != n) ++ [{ o with recNo := (o.recNo + 1) % 65536, atT := o.atT + 1 }] })) ∧
    (r.skew = none → exec (.skewCalComplete t) s = .next u) ∧
    (∀ q, r.skew = some q → t < q.untilT → exec (.skewCalComplete t) s = .next u) ∧
    (∀ q, r.skew = some q → q.untilT ≤ t → ∃ w, exec (.skewCalComplete t) s = .next w ∧ w.recorder.skew = none ∧ w.pwm = u.pwm ∧ w.prot = u.prot)

/-! ### Safety -/

/-- Safety inputs and the Vrel layer (R434 to R438, R443 to R445, R451): a sample filters every channel and completes orders that feedback shows;
the end of a test pulse checks every pulsed pair; disagreement of T ticks is a pair fault, cause 1; a connection without a PDU for T_EXP faults
and its functions are demanded; a bound connection produces; an idle unlocked session ends.

Completes: safetyInputSample, testPulse, discrepancyFault, vrelPdu, vrelTimeout, vrelProduce, safetySessionTimeout. -/
def Obligations.SafetyInputHappenings : Prop :=
  ∀ (t k : Nat) (s : State),
    let u := s.advance t
    (∀ levels, (∀ x, x < 4 → feedbackLate t x u = u) → exec (.safetyInputSample t levels) s = .next (feedbackSeen { u with safety := { u.safety with
      chans := (List.range 16).map fun ch =>
        (u.safety.chans.getD ch SChan.reset).sample t (u8 u.safety.active (64 + 8 * (ch / 2) + 3)) (bit levels ch)
      tpa := !pulseLow u.safety.active u.safety.tpaAt t, tpb := !pulseLow u.safety.active u.safety.tpbAt t } })) ∧
    (∀ levels, ∃ w, exec (.safetyInputSample t levels) s = .next w ∧ w.eng = u.eng ∧ w.pwm = u.pwm ∧ w.sense = u.sense) ∧
    (u.pulseDue t 0 = true → exec (.testPulse t 0) s =
      .next ((List.range 8).foldl (pairWindow t 0) { u with safety := { u.safety with tpa := true, tpaAt := t } })) ∧
    (u.pulseDue t 1 = true → exec (.testPulse t 1) s =
      .next ((List.range 8).foldl (pairWindow t 1) { u with safety := { u.safety with tpb := true, tpbAt := t } })) ∧
    (∀ src, src < 2 → u.pulseDue t src = false → exec (.testPulse t src) s = .next u) ∧
    (k < 8 → u.demandPair k = true → u.discrepancy k ≤ (u.pair k).disagree → 0 < (u.pair k).disagree → (u.pair k).fault = 0 →
      exec (.discrepancyFault t k) s = .next (State.post t (ev 0x0B31 k [1, BitVec.ofNat 8 (Config.freeNat "discrepancy channel" k % 2)])
        (u.modPair k fun p => { p with fault := 1, okWindows := 0 }))) ∧
    (k < 8 → (u.pair k).disagree < u.discrepancy k → exec (.discrepancyFault t k) s = .next u) ∧
    (k < 4 → (u.conn k).state = 2 → (u.conn k).due = true →
      ((u.conn k).missed = true ∨ (u.conn k).lastAt + connTExp u.safety.active k * 1000000 + 100000 ≤ t) →
      exec (.vrelTimeout t k) s = .next (evalFns t false (connTo t k 3 1 u))) ∧
    (k < 4 → ((u.conn k).due = false ∨ ((u.conn k).missed = false ∧ t < (u.conn k).lastAt + connTExp u.safety.active k * 1000000 + 100000)) →
      exec (.vrelTimeout t k) s = .next u) ∧
    (let v := u.modConn k fun v => { v with prodAt := t }
     k < 4 → (u.conn k).prodAt + connPeriod u.safety.active k * 1000000 ≤ t →
      ((u.conn k).state ≠ 0 → (u.net.binds.getD k Bind.reset).bound = true → exec (.vrelProduce t k) s =
        .next (({ v with safety := { v.safety with txPdus := v.safety.txPdus ++ [(k, pduBytes k v)] } }).modConn k
          fun v => { v with txSeq := (v.txSeq + 1) % 65536, txReset := false })) ∧
      (((u.conn k).state = 0 ∨ (u.net.binds.getD k Bind.reset).bound = false) → exec (.vrelProduce t k) s = .next v)) ∧
    (k < 4 → t < (u.conn k).prodAt + connPeriod u.safety.active k * 1000000 → exec (.vrelProduce t k) s = .next u) ∧
    (∀ ip port pdu, (u.domainOn 9 = false ∨ u.pduConn ip port pdu = none ∨ pdu.length ≠ 12 + u8 pdu 7 ∨ 64 < u8 pdu 7) → exec (.vrelPdu t ip port pdu) s = .next u) ∧
    (∀ ip port pdu c, u.domainOn 9 = true → u.pduConn ip port pdu = some c → pdu.length = 12 + u8 pdu 7 → u8 pdu 7 ≤ 64 →
      let crc := scrc (pdu.take 4 ++ connSig u.safety.active c ++ slice pdu 4 (4 + u8 pdu 7))
      let gap := (u16 pdu 4 + 65536 - (u.conn c).seq) % 65536
      (crc ≠ u32 pdu (8 + u8 pdu 7) → exec (.vrelPdu t ip port pdu) s = .next (connError t c true u)) ∧
      (crc = u32 pdu (8 + u8 pdu 7) → bit (u8 pdu 6) 2 = false → (gap = 0 ∨ connSeqWin u.safety.active c < gap) →
        exec (.vrelPdu t ip port pdu) s = .next (connError t c false u)) ∧
      (crc = u32 pdu (8 + u8 pdu 7) → (bit (u8 pdu 6) 2 = true ∨ (gap ≠ 0 ∧ gap ≤ connSeqWin u.safety.active c)) → u8 pdu 6 / 16 = 0 →
        exec (.vrelPdu t ip port pdu) s = .next (connAccept t c pdu u))) ∧
    (∀ x, u.safety.unlocked = some x → u.safety.lastCmd + 600000000000 ≤ t → exec (.safetySessionTimeout t) s =
      .next { u with safety := { u.safety with unlocked := none, staging := none } }) ∧
    (t < u.safety.lastCmd + 600000000000 → exec (.safetySessionTimeout t) s = .next u)

/-- Safety outputs (R428 to R432): a readback outside the 200 µs after a change counts a mismatch or completes the order; the fourth mismatch, 10 ms of open load,
0.9 A, a late feedback and a failed test each fault the output with their cause, and a fault opens both switches.

Completes: outputReadback, outputFault, lightTestStep, feedbackTimeout, outputTest, darkTestStep, safetyOutputOvercurrent. -/
def Obligations.SafetyOutputHappenings : Prop :=
  ∀ (t x : Nat) (s : State),
    let u := s.advance t
    let o := u.out x
    x < 4 →
    (∀ pin hv i, t < o.chgAt + 200000 → (o.soh = false ∨ o.sol = false) → o.mism < 4 →
      exec (.outputReadback t x pin hv i) s = .next (u.modOut x fun o => { o with openLoadAt := none })) ∧
    (∀ pin hv i, o.chgAt + 200000 ≤ t → (o.soh = false ∨ o.sol = false) → (o.pinOk pin hv && o.currentOk i) = false →
      let v := u.modOut x fun o => { o with openLoadAt := none, mism := satInc 255 o.mism, mismEl := if o.pinOk pin hv then 1 else 0 }
      (o.mism < 3 → exec (.outputReadback t x pin hv i) s = .next v) ∧
      (o.mism = 3 → exec (.outputReadback t x pin hv i) s = .next (outFault t x 1 (if o.pinOk pin hv then 1 else 0) v))) ∧
    (∀ pin hv i, o.chgAt + 200000 ≤ t → o.soh = true → o.sol = true → o.state = 1 → o.light = 0 → u.feedback x = none →
      (o.pinOk pin hv && o.currentOk i) = true → 10000 ≤ i →
      exec (.outputReadback t x pin hv i) s = .next (u.modOut x fun o => { o with openLoadAt := none, mism := 0, state := 2 })) ∧
    (4 ≤ o.mism → exec (.outputFault t x) s = .next (outFault t x 1 o.mismEl u)) ∧
    (∀ a, o.mism < 4 → o.openLoadAt = some a → a + 10000000 ≤ t → exec (.outputFault t x) s = .next (outFault t x 5 1 u)) ∧
    (o.mism < 4 → o.openLoadAt = none → exec (.outputFault t x) s = .next u) ∧
    exec (.safetyOutputOvercurrent t x) s = .next (outFault t x 4 1 (u.count (0x981 + 4 * x))) ∧
    (∀ pin hv i, (o.light = 0 ∨ u.canDrive = false ∨ t < o.chgAt + 300000) → exec (.lightTestStep t x pin hv i) s = .next u) ∧
    (∀ pin hv i, o.light ≠ 0 → u.canDrive = true → o.chgAt + 300000 ≤ t → (o.pinOk pin hv && o.currentOk i) = false →
      exec (.lightTestStep t x pin hv i) s = .next (outFault t x 6 (o.light - 1) u)) ∧
    (∀ pin hv i, o.light = 1 → u.canDrive = true → o.chgAt + 300000 ≤ t → (o.pinOk pin hv && o.currentOk i) = true →
      exec (.lightTestStep t x pin hv i) s = .next (u.modOut x fun o => { o.drive t false true with light := 2 })) ∧
    (∀ pin hv i, o.light = 2 → u.canDrive = true → o.chgAt + 300000 ≤ t → (o.pinOk pin hv && o.currentOk i) = true → exec (.lightTestStep t x pin hv i) s = .next (testPassed t x u)) ∧
    (∀ pin hv i, (o.dark = 0 ∨ u.canDrive = false ∨ t < o.chgAt + 300000) → exec (.darkTestStep t x pin hv i) s = .next u) ∧
    (∀ pin hv i, o.dark = 1 → u.canDrive = true → o.chgAt + 300000 ≤ t → pin < 2000 → exec (.darkTestStep t x pin hv i) s =
      .next (u.modOut x fun o => { o.drive t true true with dark := 2 })) ∧
    (∀ pin hv i, o.dark = 1 → u.canDrive = true → o.chgAt + 300000 ≤ t → 2000 ≤ pin → exec (.darkTestStep t x pin hv i) s = .next (outFault t x 6 0 u)) ∧
    (∀ pin hv i, o.dark = 2 → u.canDrive = true → o.chgAt + 10000000 ≤ t → exec (.darkTestStep t x pin hv i) s = .next (u.modOut x fun o => { o.drive t true false with dark := 3 })) ∧
    (∀ pin hv i, o.dark = 3 → u.canDrive = true → o.chgAt + 300000 ≤ t → i < 5000 → exec (.darkTestStep t x pin hv i) s = .next (testPassed t x u)) ∧
    (∀ pin hv i, o.dark = 3 → u.canDrive = true → o.chgAt + 300000 ≤ t → 5000 ≤ i → exec (.darkTestStep t x pin hv i) s = .next (outFault t x 6 1 u)) ∧
    (∀ c, u.feedback x = some c → o.state = 3 → o.waitAt + u.tOpen x * 1000000 ≤ t → exec (.feedbackTimeout t x) s = .next (outFault t x 2 2 u)) ∧
    (∀ c, u.feedback x = some c → o.state = 1 → o.waitAt + u.tClose x * 1000000 ≤ t → exec (.feedbackTimeout t x) s = .next (outFault t x 3 2 u)) ∧
    ((u.feedback x = none ∨ (o.state ≠ 1 ∧ o.state ≠ 3)) → exec (.feedbackTimeout t x) s = .next u) ∧
    (let p := otPeriod u.safety.active * 1000000000
     (u.safety.otAt + p ≤ t → exec (.outputTest t) s = .next (queueTests t (fun _ => true) { u with safety := { u.safety with otAt := t } })) ∧
     (t < u.safety.otAt + p → exec (.outputTest t) s = .next u)) ∧
    (∀ cause el, (o.state ≠ 4 ∨ o.recover = true) →
      let p := (outFault t x cause el u).out x
      x < u.safety.outs.length → p.state = 4 ∧ p.cause = cause ∧ p.soh = false ∧ p.sol = false ∧ p.testing = false)

/-! ### Network -/

/-- Fleet messages (R470 to R474): an announcement refreshes its peer, a leaving one removes it, the device's own makes no entry; a dispatch without
authority is answered E_AUTH; an expired dispatch leaves the fallback set-points; a command of a listed manager enters ring 46; silent peers and
idle network sessions leave.

Completes: announce, dispatch, command, announceSend, peerAgedOut, dispatchExpiry, networkSessionTimeout. -/
def Obligations.FleetHappenings : Prop :=
  ∀ (t src : Nat) (s : State),
    let u := s.advance t
    let peer (n : Nat) (d : List Byte) : Peer :=
      { addr := src, serial := slice d 0 8, amp := u16 d 8, mode := u8 d 10, aflags := u8 d 11, heard := t, counter := n }
    src < 2 ^ 18 →
    (∀ n d, d.length = 16 → u.d9On = true → u.net.addr ≠ some src → bit (u8 d 11) 1 = false →
      (u.net.peers.any fun p => p.addr == src) = true → exec (.announce t src n d) s = .next { u with net := { u.net with
        peers := insertPeer (peer n d) u.net.peers } }) ∧
    (∀ n d, d.length = 16 → u.d9On = true → u.net.addr ≠ some src → bit (u8 d 11) 1 = true →
      (u.net.peers.any fun p => p.addr == src) = true → exec (.announce t src n d) s = .next (State.post t (peerEv src 2)
        { u with net := { u.net with peers := u.net.peers.filter fun x => x.addr != src } })) ∧
    (∀ n d, d.length = 16 → u.d9On = true → u.net.addr ≠ some src → bit (u8 d 11) 1 = false →
      (u.net.peers.any fun p => p.addr == src) = false → u.net.peers.length < 4096 → exec (.announce t src n d) s = .next (State.post t (peerEv src 1)
        { u with net := { u.net with peers := insertPeer (peer n d) u.net.peers } })) ∧
    (∀ n d, u.d9On = false → exec (.announce t src n d) s = .next u) ∧
    (∀ d, d.length = 24 → u.sys.ready = true → u.d9On = true → (u.net.authority && u.net.dispatchers.contains src) = false →
      exec (.dispatch t src d) s = .next (benSend 0x11 src [0x07, 0x01, 0, 0] (State.post t (dispatchEv 3 src 0x0107) u))) ∧
    (∀ d, d.length = 24 → u.sys.ready = true → u.d9On = true → u.net.authority = true → u.net.dispatchers.contains src = true →
      exec (.dispatch t src d) s = .next (dispatchAct t src d u)) ∧
    (∀ v, u.net.expiry = some v → v ≤ t → exec (.dispatchExpiry t) s = .next (State.post t (dispatchEv 2 u.net.expSrc 0)
      (setBat 0xFF 0 { u with
        grid := { u.grid with pSet := u.net.fbP, qSet := u.net.fbQ }
        net := { u.net with expiry := none } }))) ∧
    ((u.net.expiry = none ∨ ∃ v, u.net.expiry = some v ∧ t < v) → exec (.dispatchExpiry t) s = .next u) ∧
    (∀ p, u.d9On = true → u.net.managers.contains src = true → p.length ≤ 1412 → exec (.command t src p) s = .next (u.deliver 46 p)) ∧
    (∀ p, u.d9On = true → u.net.managers.contains src = false → exec (.command t src p) s = .next (benDiscard u)) ∧
    (u.d9On = true → (u.net.peers.any fun p => p.addr == src && decide (p.heard + 3000000000 * u.net.announceS ≤ t)) = true → exec (.peerAgedOut t src) s =
      .next (State.post t (peerEv src 3) { u with net := { u.net with peers := u.net.peers.filter fun x => x.addr != src } })) ∧
    ((u.d9On = false ∨ (u.net.peers.any fun p => p.addr == src && decide (p.heard + 3000000000 * u.net.announceS ≤ t)) = false) → exec (.peerAgedOut t src) s = .next u) ∧
    exec (.networkSessionTimeout t src) s = .next (u.dropSessions fun x => x.src == .net src && decide (x.lastUsed + 300000000000 ≤ t)) ∧
    (∀ n d, u.net.addr = some src → slice d 0 8 = fit 8 (u.mem.serial.getD []) → exec (.announce t src n d) s = .next u) ∧
    (u.sys.ready = true → u.d9On = true → u.isFrozen 3 = false → u.net.announcedAt + u.net.announceS * 1000000000 ≤ t →
      exec (.announceSend t) s = .next (announce false { u with net := { u.net with announcedAt := t } })) ∧
    ((u.d9On = false ∨ t < u.net.announcedAt + u.net.announceS * 1000000000) → exec (.announceSend t) s = .next u)

/-- Ports, buses and time (R458 to R466, R476, R499): a frame of an enabled, up port is taken by frameIn, dropped when D9's ring oscillator cannot carry it;
CAN frames of the application role and UART buffers go to their rings; transmit heads leave; the failover moves the active port and announces; bus-off is
posted once each way; 5 s without an offset lose the PTP lock.

Completes: ethernetFrame, canFrame, uartReceive, frameTransmit, netLink, ptpTimeout, canBusOff, canBusRecovered. -/
def Obligations.NetworkHappenings : Prop :=
  ∀ (t c : Nat) (s : State),
    let u := s.advance t
    let k := u.net.cans.getD c CanCtl.reset
    c < 2 →
    (∀ f, u.d9On = true → (u.port c).enable = true → (u.port c).up = true → u.isFrozen 3 = false →
      exec (.ethernetFrame t c f false) s = .next (frameIn t c f u)) ∧
    (∀ f, u.d9On = true → (u.port c).enable = true → (u.port c).up = true → u.isFrozen 3 = false → u.clk.sources.getD 9 0 = 2 →
      exec (.ethernetFrame t c f true) s = .next { u with net := { u.net with frameDrops := satInc 0xFFFFFFFF u.net.frameDrops } }) ∧
    (∀ f b, (u.d9On = false ∨ (u.port c).enable = false ∨ (u.port c).up = false) → exec (.ethernetFrame t c f b) s = .next u) ∧
    (∀ i fd e b d, u.d9On = true → k.busOff = false → k.role = 2 → u.isFrozen 3 = false → exec (.canFrame t c i fd e b false d) s =
      .next (u.deliver (42 + c) (netHeader t (2 + c) (flagAt fd 0 + flagAt e 1 + flagAt b 2) d.length i ++ d))) ∧
    (∀ i fd e b r d, (u.d9On = false ∨ k.busOff = true ∨ k.role = 0 ∨ (r = true ∧ k.role = 2)) → exec (.canFrame t c i fd e b r d) s = .next u) ∧
    (∀ i fd e b r d, u.d9On = true → k.busOff = false → k.role = 1 → u.isFrozen 3 = false → (r = true ∨ i / 65536 ≠ 0x1B5C) →
      exec (.canFrame t c i fd e b r d) s = .next (canDiscard u)) ∧
    (∀ d, u.d9On = true → u.host.uartHost = false → u.isFrozen 3 = false → exec (.uartReceive t d) s =
      .next (u.deliver 44 (netHeader t 4 0 d.length 0 ++ d))) ∧
    (∀ d, (u.d9On = false ∨ u.host.uartHost = true) → exec (.uartReceive t d) s = .next u) ∧
    (∀ n, u.d9On = true → u.isFrozen 3 = false → 32 ≤ n → n ≤ 36 →
      (u.canSend n = true → exec (.frameTransmit t n) s = .next (sendHead t n u)) ∧ (u.canSend n = false → exec (.frameTransmit t n) s = .next u)) ∧
    (u.d9On = true → u.isFrozen 3 = false → exec (.frameTransmit t 57) s = .next (sendPdu u)) ∧
    (∀ n, n < 64 → u.d9On = false → exec (.frameTransmit t n) s = .next u) ∧
    (let v : State := { u with net := { u.net with ports := upd u.net.ports c fun p => { p with up := false }, active := 1 - c } }
     u.d9On = true → (u.port c).up = true → u.failover = true → u.net.active = c → exec (.netLink t c false) s =
      .next (announce false (State.post t (ev 0x0C30 c [0, BitVec.ofNat 8 v.offloadPort]) v))) ∧
    (∀ b,
      let v : State := { u with net := { u.net with ports := upd u.net.ports c fun p => { p with up := b } } }
      u.d9On = true → (u.port c).up = !b → (b = true ∨ u.failover = false ∨ u.net.active ≠ c) →
      exec (.netLink t c b) s = .next (State.post t (ev 0x0C30 c [if b then 1 else 0, BitVec.ofNat 8 v.offloadPort]) v)) ∧
    (∀ b, (u.d9On = false ∨ (u.port c).up = b) → exec (.netLink t c b) s = .next u) ∧
    (u.d9On = true → k.busOff = false → exec (.canBusOff t c) s = .next (State.post t (ev 0x0C36 c [1, 0])
      { u with net := { u.net with cans := upd u.net.cans c fun k => { k with busOff := true } } }) ∧ exec (.canBusRecovered t c) s = .next u) ∧
    (u.d9On = true → k.busOff = true → exec (.canBusRecovered t c) s = .next (State.post t (ev 0x0C36 c [2, 0])
      { u with net := { u.net with cans := upd u.net.cans c fun k => { k with busOff := false } } }) ∧ exec (.canBusOff t c) s = .next u) ∧
    (u.net.ptpLocked = true → u.net.ptpLastAt + 5000000000 ≤ t → exec (.ptpTimeout t) s =
      .next (State.post t (ev 0x0C31 0 ([0, 0, 0, 0] ++ leI 8 u.net.ptpLast)) { u with net := { u.net with ptpLocked := false, ptpGood := 0 } })) ∧
    ((u.net.ptpLocked = false ∨ t < u.net.ptpLastAt + 5000000000) → exec (.ptpTimeout t) s = .next u)

/-! ### Cooling and clocks -/

/-- Cooling drives (R483 to R493): the precharge leads to Align and Align to Ramp; a commutation moves the sector, and twice HANDOVER without a handover is a
failed start; a crossing within its window is taken in Run; misses, an overcurrent and sixteen lockouts need a try; Coast, with a try
remaining, starts again or waits for VDD_HV; the tenth hour sets the baseline.

Completes: coolPrechargeEnd, alignEnd, commutation, backEmfCrossing, crossingMiss, coastTimeout, coolPwmPeriod, coolOvercurrent, bootstrapLockout,
coolHourly. -/
def Obligations.CoolingHappenings : Prop :=
  ∀ (t d : Nat) (s : State),
    let u := s.advance t
    let x := u.drive d
    d < 2 →
    (u.domainOn 6 = false → exec (.coolPrechargeEnd t d) s = .next u ∧ exec (.alignEnd t d) s = .next u ∧ exec (.commutation t d) s = .next u ∧
      exec (.backEmfCrossing t d) s = .next u ∧ exec (.crossingMiss t d) s = .next u ∧ exec (.coastTimeout t d) s = .next u ∧
      exec (.coolOvercurrent t d) s = .next u ∧ (∀ i j k m, exec (.coolPwmPeriod t d i j k m) s = .next u) ∧
      (∀ p, exec (.bootstrapLockout t d p) s = .next u) ∧ (∀ up, exec (.coolHourly t d up) s = .next u)) ∧
    (u.domainOn 6 = true → x.state = 1 → x.stateAt + 1000000 ≤ t → exec (.coolPrechargeEnd t d) s = .next (driveTo t d 2 (coolFree 2) u)) ∧
    ((x.state ≠ 1 ∨ t < x.stateAt + 1000000) → exec (.coolPrechargeEnd t d) s = .next u) ∧
    (∀ c, u.domainOn 6 = true → x.cfg = some c → x.state = 2 → x.stateAt + c.tAlign * 1000000 ≤ t →
      exec (.alignEnd t d) s = .next (driveTo t d 3 (coolFree 3) u)) ∧
    (x.state ≠ 2 → exec (.alignEnd t d) s = .next u) ∧
    (∀ c, u.domainOn 6 = true → x.cfg = some c → x.state = 4 → x.commAt ≠ 0 → x.commAt ≤ t → exec (.commutation t d) s =
      .next (u.modDrive d fun x => { x with sector := (x.sector + 1) % 6, lastComm := t, commAt := 0 })) ∧
    (x.state = 4 → (x.commAt = 0 ∨ t < x.commAt) → exec (.commutation t d) s = .next u) ∧
    (∀ c,
      let e := u.d6Since x.stateAt t
      let v := c.rampSpeed e
      let w := u.modDrive d fun x => { x with sector := (x.sector + 1) % 6, lastComm := t, commAt := 0, rampSteps := x.rampSteps + 1,
                                              speed := min 65535 v, stepNs := c.stepOf v }
      x.cfg = some c → x.state = 3 →
      (c.rampTurns e ≤ x.rampSteps → exec (.commutation t d) s = .next u) ∧
      (u.domainOn 6 = true → x.rampSteps < c.rampTurns e → exec (.commutation t d) s = .next (rampFails t d c w))) ∧
    (∀ c, x.cfg = some c → x.state = 4 → t < x.lastComm + x.stepNs * (c.tEdge + 5) / 100 → exec (.backEmfCrossing t d) s = .next u) ∧
    (∀ c, u.domainOn 6 = true → x.cfg = some c → x.state = 4 → x.lastComm + x.stepNs * (c.tEdge + 5) / 100 ≤ t →
      exec (.backEmfCrossing t d) s = .next (runCrossing t d c u)) ∧
    (∀ c, u.domainOn 6 = true → x.cfg = some c → x.state = 3 → x.lastComm + x.stepNs * (c.tEdge + 5) / 100 ≤ t →
      exec (.backEmfCrossing t d) s = .next (rampCrossing t d c u)) ∧
    (∀ c, u.domainOn 6 = true → x.cfg = some c → x.state = 5 → exec (.backEmfCrossing t d) s = .next (coastCrossing t d c u)) ∧
    (∀ c, u.domainOn 6 = true → x.cfg = some c → x.state = 4 → 2 * x.lastCross + 3 * x.stepNs ≤ 2 * t →
      let p := x.lastCross + x.stepNs + x.stepNs * (30 - c.advance) / 60
      let v := u.modDrive d fun y => { y with misses := 1, lastCross := x.lastCross + x.stepNs, commAt := p }
      let w := needTry t d 3 (driveCount d 3 u)
      (x.misses = 0 → p ≤ t → exec (.crossingMiss t d) s =
        .next (v.modDrive d fun x => { x with sector := (x.sector + 1) % 6, lastComm := t, commAt := 0 })) ∧
      (x.misses = 0 → t < p → exec (.crossingMiss t d) s = .next v) ∧
      (x.misses ≠ 0 → exec (.crossingMiss t d) s = .next (State.post t (ev 0x0D31 d
        (le 2 x.speed ++ [BitVec.ofNat 8 (triesIn (t + 1) (w.drive d).tries).length])) w))) ∧
    ((x.state ≠ 4 ∨ 2 * t < 2 * x.lastCross + 3 * x.stepNs) → exec (.crossingMiss t d) s = .next u) ∧
    (u.domainOn 6 = true → x.state = 5 → max x.lastCross x.stateAt + 200000000 ≤ t → x.tryLeft t = true → u.cool.hvGood = true →
      exec (.coastTimeout t d) s = .next (driveTo t d 1 x.cause (u.modDrive d fun x => { x with hvRestart := false }))) ∧
    (u.domainOn 6 = true → x.state = 5 → max x.lastCross x.stateAt + 200000000 ≤ t → x.tryLeft t = true → u.cool.hvGood = false →
      exec (.coastTimeout t d) s = .next (u.modDrive d fun x => { x with hvRestart := true })) ∧
    ((x.state ≠ 5 ∨ x.tryLeft t = false) → exec (.coastTimeout t d) s = .next u) ∧
    (∀ c i j k m, u.domainOn 6 = true → x.cfg = some c → (x.pwmAt = 0 ∨ c.pwmNs ≤ u.d6Since x.pwmAt t) →
      let seen (y : Drive) : Drive := { y with
        pulse := decide (max i (max j k) < c.iLim), current := min 65535 m, refresh := y.locked, locked := [false, false, false]
        pwmAt := t, phaseDuty := edgeDuties t c y }
      (x.state = 2 → exec (.coolPwmPeriod t d i j k m) s = .next (rampFails t d c ((u.modDrive d fun y =>
        if y.state = 2 then seen (dutyNow c u.freeWord.toNat y) else y).drawn 1))) ∧
      (x.state = 3 → exec (.coolPwmPeriod t d i j k m) s = .next (rampFails t d c ((u.modDrive d fun y =>
        if y.state = 3 then { seen (dutyNow c u.freeWord.toNat y) with speed := min 65535 (c.rampSpeed (u.d6Since y.stateAt t)) } else y).drawn 1))) ∧
      (x.state = 4 → exec (.coolPwmPeriod t d i j k m) s = .next (rampFails t d c ((u.modDrive d fun y =>
        if y.state = 4 then runPeriod c (u.pwm.d6.lasts c.pwmNs) (seen (dutyNow c u.freeWord.toNat (refNow c y))) else y).drawn 1)))) ∧
    (∀ c (v : State), (v.drive d).state = 3 → 2 * c.handover ≤ c.rampSpeed (v.d6Since (v.drive d).stateAt t) →
      rampFails t d c v = needTry t d 2 (driveCount d 2 v)) ∧
    (∀ c (v : State), ((v.drive d).state ≠ 3 ∨ c.rampSpeed (v.d6Since (v.drive d).stateAt t) < 2 * c.handover) → rampFails t d c v = v) ∧
    (∀ i j k m, (x.state < 2 ∨ 4 < x.state) → exec (.coolPwmPeriod t d i j k m) s = .next u) ∧
    (∀ c i j k m, x.cfg = some c → x.pwmAt ≠ 0 → u.d6Since x.pwmAt t < c.pwmNs → exec (.coolPwmPeriod t d i j k m) s = .next u) ∧
    (u.domainOn 6 = true → 1 ≤ x.state → x.state ≤ 4 → exec (.coolOvercurrent t d) s = .next (needTry t d 1 (driveCount d 4 u))) ∧
    (∀ c, u.domainOn 6 = true → x.cfg = some c → 5 ≤ x.state → x.cause = 3 → x.pwmAt ≤ x.stateAt → u.d6Since x.pwmAt t < c.pwmNs →
      exec (.coolOvercurrent t d) s = .next ((driveCount d 4 u).modDrive d fun x => { x with cause := 1 })) ∧
    ((x.state = 0 ∨ (4 < x.state ∧ x.cause ≠ 3)) → exec (.coolOvercurrent t d) s = .next u) ∧
    (∀ p, p < 3 → u.domainOn 6 = true → 1 ≤ x.state → x.state ≤ 4 → x.lockouts = [] → exec (.bootstrapLockout t d p) s =
      .next ((driveCount d 5 u).modDrive d fun y => { y with lockouts := [t], locked := y.locked.set p true })) ∧
    (∀ p, (x.state = 0 ∨ 4 < x.state) → exec (.bootstrapLockout t d p) s = .next u) ∧
    (∀ up, elapsed x.hourAt 3600000000000 t = false → exec (.coolHourly t d up) s = .next u) ∧
    (∀ up, u.domainOn 6 = true → elapsed x.hourAt 3600000000000 t = true →
      let v := u.modDrive d fun x => { x with hourAt := t }
      (x.refNs < 3600000000000 → exec (.coolHourly t d up) s = .next v.commitHealth) ∧
      (3600000000000 ≤ x.refNs → exec (.coolHourly t d up) s = .next (wearHour t d up v).commitHealth)) ∧
    (∀ up, x.blHours = 9 →
      let w := wearHour t d up u
      d < u.cool.drives.length → (w.drive d).blHours = 10 ∧
        (w.drive d).baseline = min 65535 (meanOf up (x.blSum + x.refSum) (x.blN + x.refN)) ∧ (w.drive d).wear = x.wear)

/-- Clocks (R498, R502 to R505, R511, R514): three good windows lock a loop, a bad one loses it; an absent XREF loses both; a suspect main gives way to
a locked standby; a loop not relocked in 20 ms is retired; an island without edges moves to the ring oscillator; ten evaluations at 40.25 K set
the region flag.

Completes: lockWindow, clkSwitch, relockTimeout, xrefAbsent, xrefPresent, missingEdge, clkRegion. -/
def Obligations.ClockHappenings : Prop :=
  ∀ (t l : Nat) (s : State),
    let u := s.advance t
    let x := u.loop l
    let due := elapsed x.winAt (4096000000000 / max 1 u.clk.xrefInUse) t
    (∀ d r, l < 2 → (x.state = 3 ∨ u.clk.xref = false ∨ due = false) → exec (.lockWindow t l d r) s = .next u) ∧
    (∀ d r, l < 2 → due = true → u.clk.xref = true → x.state = 1 → -2 ≤ d → d ≤ 2 → exec (.lockWindow t l d r) s =
      .next (({ u with clk := { u.clk with roKhz := r } }).modLoop l fun x => { x with diff := d, winAt := t, good := min 3 (x.good + 1) })) ∧
    (∀ d r, l < 2 → due = true → u.clk.xref = true → x.state = 1 → (d < -2 ∨ 2 < d) → exec (.lockWindow t l d r) s =
      .next (loopLost t l 0 (({ u with clk := { u.clk with roKhz := r } }).modLoop l fun x => { x with diff := d, winAt := t, good := 0 }))) ∧
    (∀ d r, l < 2 → due = true → u.clk.xref = true → (x.state = 0 ∨ x.state = 2) → -2 ≤ d → d ≤ 2 → 2 ≤ x.good → u.clk.main ≠ 0xFF →
      exec (.lockWindow t l d r) s = .next (State.post t (lockEv l 1 0 d)
        ((({ u with clk := { u.clk with roKhz := r } }).modLoop l fun x => { x with diff := d, winAt := t, good := min 3 (x.good + 1) }).modLoop l
          fun x => { x with state := 1 }))) ∧
    (u.clk.xref = true → exec (.xrefAbsent t) s = .next (xrefAbsent t u)) ∧
    (u.clk.xref = false → exec (.xrefAbsent t) s = .next u) ∧
    exec (.xrefPresent t) s = .next { u with clk := { u.clk with xref := true } } ∧
    (∀ a b : Int,
      let v := (u.modLoop 0 fun x => { x with suspect := decide (1000 ≤ a.natAbs) && x.state == 1 }).modLoop 1 fun x =>
        { x with suspect := decide (1000 ≤ b.natAbs) && x.state == 1 }
      let m := v.loop v.clk.main
      let n := v.loop v.standby
      ((v.clk.main = 0xFF ∨ v.clk.xref = false) → exec (.clkSwitch t a b) s = .next v) ∧
      (v.clk.main ≠ 0xFF → v.clk.xref = true → n.state = 1 → n.suspect = false → m.suspect = true →
        exec (.clkSwitch t a b) s = .next (switchOver t 0 { v with clk := { v.clk with bothSus := 0 } })) ∧
      (v.clk.main ≠ 0xFF → v.clk.xref = true → m.suspect = true → n.suspect = true → v.clk.bothSus = 0 →
        exec (.clkSwitch t a b) s = .next { v with clk := { v.clk with bothSus := 1 } }) ∧
      (v.clk.main ≠ 0xFF → v.clk.xref = true → m.suspect = true → n.suspect = true → v.clk.bothSus = 1 →
        exec (.clkSwitch t a b) s = .next (xrefAbsent t { v with clk := { v.clk with bothSus := 2 } }))) ∧
    (l < 2 → x.state = 2 → x.lostAt.headD 0 + 20000000 ≤ t → exec (.relockTimeout t l) s =
      .next (loopSpliced t l (State.post t (lockEv l 2 2 x.diff) (u.modLoop l fun x => { x with state := 3 })))) ∧
    (l < 2 → (x.state ≠ 2 ∨ t < x.lostAt.headD 0 + 20000000) → exec (.relockTimeout t l) s = .next u) ∧
    (∀ k, (k < 2 ∨ k = 6 ∨ k = 7 ∨ k = 11) → u.clk.sources.getD k 3 = 0 → (u.loop u.clk.main).state = 1 → exec (.missingEdge t k) s =
      .next (forceSafeStop t 2 (State.post t (switchEv k 0 2 2)
        ((d6Follow t { u with clk := { u.clk with sources := u.clk.sources.set k 2 } }).modSys fun y => { y with clockFault := true })))) ∧
    (∀ k, k < 12 → 2 ≤ u.clk.sources.getD k 3 → exec (.missingEdge t k) s = .next u) ∧
    (∀ c i, elapsed u.clk.regionAt 10000000 t = false → exec (.clkRegion t c i) s = .next u) ∧
    (∀ c i, elapsed u.clk.regionAt 10000000 t = true → 161 ≤ regionDelta c i → u.clk.region = false → u.clk.hot = 9 → ∃ w, exec (.clkRegion t c i) s = .next w ∧ w.clk.region = true ∧
      w.clk.delta = regionDelta c i) ∧
    (∀ c i, elapsed u.clk.regionAt 10000000 t = true → regionDelta c i < 161 → u.clk.region = false → exec (.clkRegion t c i) s =
      .next { u with clk := { u.clk with regionAt := t, tCtl := hottest c, tIf := hottest i, delta := regionDelta c i, hot := 0, cool := min 10 (u.clk.cool + 1) } })

/-! ### Memory and husk -/

/-- Memory (R520 to R528, R537, R546, R577): a scrub and a read count each correction; a double-bit error clears its word and splices its row; a failed
MRAM line splices its sector, or refuses its commit; a commit captures the image and its pointer puts it in force; an erase records the new
state and resets; EXTEST drives pins in Blank, Manufacture and Return alone.

Completes: scrub, sramDoubleBitError, mramVerifyFailure, copyPointerSwitch, blockImageCommit, healthCommit, lcEraseComplete, jtagInstruction,
sramCorrection. -/
def Obligations.MemoryHappenings : Prop :=
  ∀ (t : Nat) (s : State),
    let u := s.advance t
    (∀ l, l.all inSram = true → elapsed u.mem.scrubAt 60000000000 t = true →
      let v := (l.foldr insertAddr []).foldl (fun s a => correction t a s) u
      exec (.scrub t l) s = .next { v with mem := { v.mem with scrubAt := u.time } } ∧ (l.foldr insertAddr []).Pairwise (· ≤ ·)) ∧
    (∀ l, l.all inSram = true → elapsed u.mem.scrubAt 60000000000 t = false → exec (.scrub t l) s = .next u) ∧
    (∀ a, 0x20000000 ≤ a → a < 0x20600000 → exec (.sramCorrection t a) s = .next (correction t a u)) ∧
    (∀ a, 0x20000000 ≤ a → a < 0x20600000 →
      let v := State.post t (eccEv (bankOf a) 2 (rowOf a) a) (u.count (hcBank (bankOf a) 1))
      (v.mem.rowSpares.getD (bankOf a) 0 ≠ 0 → exec (.sramDoubleBitError t a) s =
        .next (doubleBit t a (rowSplice t (bankOf a) (rowOf a) (v.store (a - a % 8) (zeros 8))))) ∧
      (v.mem.rowSpares.getD (bankOf a) 0 = 0 → exec (.sramDoubleBitError t a) s = .next (doubleBit t a (rowSplice t (bankOf a) (rowOf a) v)))) ∧
    (∀ a i, 0x10000000 ≤ a → a < 0x11000000 → 0 < u.mem.secSpares →
      exec (.mramVerifyFailure t 0 a i) s = .next (sectorSplice t ((a - 0x10000000) / 4096) u).1) ∧
    (∀ a, 0x10000000 ≤ a → a < 0x11000000 → u.mem.secSpares = 0 → u.mem.blockBusy = true →
      exec (.mramVerifyFailure t 0 a 0) s = .next { u with mem := { u.mem with blockBusy := false, blockDirty := true } }) ∧
    (∀ a i, 0x10000000 ≤ a → a < 0x11000000 → exec (.mramVerifyFailure t 2 a i) s =
      .next (State.post t (eccEv (0x100 + mramRegion a) 2 ((a - 0x10000000) / 4096) a) u)) ∧
    (u.mem.blockDirty = true → u.mem.blockBusy = false → exec (.blockImageCommit t) s = .next { u with mem := { u.mem with
      blockBusy := true, blockDirty := false, blockCap := u.mem.blockNext
      blockAck := (u.cmd.durable.filter fun d => d.image == 0).length } }) ∧
    ((u.mem.blockDirty = false ∨ u.mem.blockBusy = true) → exec (.blockImageCommit t) s = .next u) ∧
    (u.mem.blockBusy = true → exec (.copyPointerSwitch t 0) s = .next (flushDurable 0 u.mem.blockAck { u with mem := { u.mem with
      blockPrev := u.mem.block, block := u.mem.blockCap, blockBusy := false } })) ∧
    (u.mem.blockBusy = false → exec (.copyPointerSwitch t 0) s = .next u) ∧
    (u.eng.sheafCommit = false → exec (.copyPointerSwitch t 1) s = .next u) ∧
    (∃ w, exec (.healthCommit t) s = .next w ∧ w.mem.healthStored = w.mem.health ∧ w.pwm = u.pwm ∧ w.mem.sram = u.mem.sram) ∧
    (∀ l, u.mem.lcPend = some l → l.recorded = true → ∃ w, exec (.lcEraseComplete t) s = .next w ∧ w.mem.lc = l.lcTo ∧ w.mem.lcPend = none ∧
      w.sys.resetCause = 4 ∧ w.sys.ready = false) ∧
    ((u.mem.lcPend = none ∨ ∃ l, u.mem.lcPend = some l ∧ l.recorded = false) → exec (.lcEraseComplete t) s = .next u) ∧
    (∀ pins, (u.mem.lc = 0 ∨ u.mem.lc = 1 ∨ u.mem.lc = 4) → exec (.jtagInstruction t 0 pins) s =
      .next { u with mem := { u.mem with jtagIr := 0, jtagDr := 0, extestPins := pins } }) ∧
    (∀ pins, (u.mem.lc ≠ 0 ∧ u.mem.lc ≠ 1 ∧ u.mem.lc ≠ 4) → exec (.jtagInstruction t 0 pins) s =
      .next { u with mem := { u.mem with jtagIr := 3, jtagDr := 0, extestPins := [] } }) ∧
    (∀ pins k, 1 ≤ k → k ≤ 3 → exec (.jtagInstruction t k pins) s =
      .next { u with mem := { u.mem with jtagIr := k, jtagDr := if k = 2 then idcode u else 0, extestPins := [] } })

/-- Husk (R548 to R558): store voltages, the loss of the D0 supply and of time, the D0 reset and start, the harvester and its measurements, the RTC, the
sealed blocks in MRAM, and the end of a burst, from which a device without its rails starts its hold once they are good.

Completes: vlsThreshold, huskTimeLost, d0Reset, huskTeg, tegMeasure, rtcWrite, burstComplete, sealedBlockWrite, d0PowerOn. -/
def Obligations.HuskHappenings : Prop :=
  ∀ (t : Nat) (s : State),
    let u := s.advance t
    let h := u.husk
    (∀ q v, h.d0Up = true → h.state ≠ 4 → exec (.vlsThreshold t q v) s = .next (thresholds t { u with husk := { h with vqs := q, vls := v } })) ∧
    (∀ q v, h.d0Up = false → exec (.vlsThreshold t q v) s = .next { u with husk := { h with vqs := q, vls := v } }) ∧
    (∀ q v, h.d0Up = true → u.sys.railIo = false → h.state ≠ 4 → max q v < 1800 → ∃ w, exec (.huskTimeLost ⟨t, q, v⟩) s = .next w ∧
      w.husk.state = 4 ∧ w.husk.timeLost = true ∧ w.husk.rtc = 0) ∧
    (∀ q v, (h.d0Up = false ∨ u.sys.railIo = true ∨ h.state = 4 ∨ 1800 ≤ max q v) →
      exec (.huskTimeLost ⟨t, q, v⟩) s = .next { u with husk := { h with vqs := q, vls := v } }) ∧
    (∀ q v, h.d0Up = true → u.sys.railIo = false → max q v < 1500 → exec (.d0Reset ⟨t, q, v⟩) s =
      .next { u with husk := Husk.afterD0 { h with vqs := q, vls := v } }) ∧
    (∀ q v, (h.d0Up = false ∨ u.sys.railIo = true ∨ 1500 ≤ max q v) →
      exec (.d0Reset ⟨t, q, v⟩) s = .next { u with husk := { h with vqs := q, vls := v } }) ∧
    (∀ q v, h.d0Up = false → u.sys.railIo = false → max q v < 1800 → exec (.d0PowerOn t q v) s =
      .next { u with husk := { h with vqs := q, vls := v } }) ∧
    (∀ q v, h.d0Up = false → (u.sys.railIo = true ∨ 1800 ≤ max q v) → ∃ w, exec (.d0PowerOn t q v) s = .next w ∧ w.husk.d0Up = true ∧ w.husk.timeLost = true ∧ w.husk.vqs = q ∧ w.husk.vls = v) ∧
    (∀ q v, h.d0Up = true → h.state ≠ 4 → exec (.d0PowerOn t q v) s = .next { u with husk := { h with vqs := q, vls := v } }) ∧
    (∀ voc, h.teg = false → h.d0Up = true → exec (.huskTeg t true voc) s = .next (huskPost t (ev 0x1035 0 ([1, 0] ++ le 2 voc))
      { u with husk := { h with teg := true, txGate := true, tegMv := voc } })) ∧
    (∀ on voc, h.teg = on → exec (.huskTeg t on voc) s = .next { u with husk := { h with tegMv := voc } }) ∧
    (∀ voc uw, h.teg = true → h.d0Up = true → elapsed h.tegAt 1000000000 t = true → 200 ≤ voc → exec (.tegMeasure t voc uw) s =
      .next { u with husk := { h with tegMv := voc, tegUw := uw, tegAt := t } }) ∧
    (∀ voc uw, h.teg = true → h.d0Up = true → elapsed h.tegAt 1000000000 t = true → voc < 200 → exec (.tegMeasure t voc uw) s = .next (huskPost t (ev 0x1035 0 ([0, 0] ++ le 2 voc))
      { u with husk := { h with tegMv := voc, tegUw := 0, tegAt := t, teg := false, txGate := false } })) ∧
    (∀ voc uw, (h.teg = false ∨ elapsed h.tegAt 1000000000 t = false) → exec (.tegMeasure t voc uw) s = .next u) ∧
    (∀ dev, u.timeLoaded = true → h.d0Up = true → elapsed h.rtcWritten 1000000000 t = true → exec (.rtcWrite ⟨t, dev⟩) s =
      .next { u with husk := { h with rtc := u.time, rtcWritten := u.time, rtcTrim := h.rtcTrim - h.drift u.time dev } }) ∧
    (∀ dev, (u.timeLoaded = false ∨ h.d0Up = false ∨ elapsed h.rtcWritten 1000000000 t = false) → exec (.rtcWrite ⟨t, dev⟩) s = .next u) ∧
    (∀ b, h.buf2 = some b → u.sys.railIo = true → exec (.sealedBlockWrite t) s =
      .next (State.countN 0x908 32 { u with husk := { h.keepBlock b with buf2 := none } })) ∧
    (h.buf2 = none → exec (.sealedBlockWrite t) s = .next u) ∧
    (h.sealing = none → exec (.burstComplete t) s = .next u) ∧
    (∀ b, h.sealing = some b → u.sys.railCore = true → u.sys.railAn = true → u.sys.railIo = true → u.sys.boot = .off →
      ∃ w, exec (.burstComplete t) s = .next w ∧ w.sys.boot = .hold ∧ w.husk.sealing = none ∧ w.husk.blocks = (h.blocks ++ [b]).drop (h.blocks.length + 1 - 1024))

/-! ### Invariants of every step -/

/-- Every step keeps the memory's canonical form: addresses strictly rising and no byte 0 listed, in SRAM and in MRAM (INVENTORY.md, Memory and ordering). -/
def Obligations.EveryStepKeepsMemoryCanonical : Prop :=
  ∀ s s' : State, MemCanonical s → step s = .next s' → MemCanonical s'

/-- The life-cycle state moves only along the transitions of R543, never back to Blank or Manufacture, and a pending transition is always one of
them from the state in force (R542, R543, R546). -/
def Obligations.LifeCycleMovesAsListed : Prop :=
  ∀ s s' : State, LifeCycleLegal s → step s = .next s' →
    LifeCycleLegal s' ∧ (s'.mem.lc = s.mem.lc ∨ lcListed s.mem.lc s'.mem.lc = true) ∧ (s'.mem.lc = 0 → s.mem.lc = 0) ∧
      (s'.mem.lc = 1 → s.mem.lc = 0 ∨ s.mem.lc = 1) ∧ (s.mem.lc = 5 → s'.mem.lc = 5)

/-- Every step keeps the sessions legal: no open session has the value 0, which names no session (R70, R71). -/
def Obligations.EveryStepKeepsSessionsLegal : Prop :=
  ∀ s s' : State, SessionsLegal s → step s = .next s' → SessionsLegal s'

/-- The machine after reset meets all three invariants. -/
def Obligations.ResetMeetsTheInvariants : Prop := MemCanonical State.reset ∧ LifeCycleLegal State.reset ∧ SessionsLegal State.reset
end

