-- ==== Sys2Proof/Laws/State.lean ====
section
/-! SUPPORT. One lemma for each part of State and each update: what the update leaves there. -/

namespace Sys2Proof.Machine.State

variable (s : State)

@[simp] theorem modCmd_pending (f : Cmd → Cmd) : (s.modCmd f).pending = s.pending := rfl
@[simp] theorem modCmd_time (f : Cmd → Cmd) : (s.modCmd f).time = s.time := rfl
@[simp] theorem modCmd_timeValid (f : Cmd → Cmd) : (s.modCmd f).timeValid = s.timeValid := rfl
@[simp] theorem modCmd_timeLoaded (f : Cmd → Cmd) : (s.modCmd f).timeLoaded = s.timeLoaded := rfl
@[simp] theorem modCmd_nextTick (f : Cmd → Cmd) : (s.modCmd f).nextTick = s.nextTick := rfl
@[simp] theorem modCmd_freeCtr (f : Cmd → Cmd) : (s.modCmd f).freeCtr = s.freeCtr := rfl
@[simp] theorem modCmd_sys (f : Cmd → Cmd) : (s.modCmd f).sys = s.sys := rfl
@[simp] theorem modCmd_host (f : Cmd → Cmd) : (s.modCmd f).host = s.host := rfl
@[simp] theorem modCmd_esc (f : Cmd → Cmd) : (s.modCmd f).esc = s.esc := rfl
@[simp] theorem modCmd_rings (f : Cmd → Cmd) : (s.modCmd f).rings = s.rings := rfl
@[simp] theorem modCmd_cmd (f : Cmd → Cmd) : (s.modCmd f).cmd = f s.cmd := rfl
@[simp] theorem modCmd_modes (f : Cmd → Cmd) : (s.modCmd f).modes = s.modes := rfl
@[simp] theorem modCmd_eng (f : Cmd → Cmd) : (s.modCmd f).eng = s.eng := rfl
@[simp] theorem modCmd_gens (f : Cmd → Cmd) : (s.modCmd f).gens = s.gens := rfl
@[simp] theorem modCmd_grid (f : Cmd → Cmd) : (s.modCmd f).grid = s.grid := rfl
@[simp] theorem modCmd_rt (f : Cmd → Cmd) : (s.modCmd f).rt = s.rt := rfl
@[simp] theorem modCmd_dcl (f : Cmd → Cmd) : (s.modCmd f).dcl = s.dcl := rfl
@[simp] theorem modCmd_isl (f : Cmd → Cmd) : (s.modCmd f).isl = s.isl := rfl
@[simp] theorem modCmd_ports (f : Cmd → Cmd) : (s.modCmd f).ports = s.ports := rfl
@[simp] theorem modCmd_pwm (f : Cmd → Cmd) : (s.modCmd f).pwm = s.pwm := rfl
@[simp] theorem modCmd_sense (f : Cmd → Cmd) : (s.modCmd f).sense = s.sense := rfl
@[simp] theorem modCmd_prot (f : Cmd → Cmd) : (s.modCmd f).prot = s.prot := rfl
@[simp] theorem modCmd_recorder (f : Cmd → Cmd) : (s.modCmd f).recorder = s.recorder := rfl
@[simp] theorem modCmd_safety (f : Cmd → Cmd) : (s.modCmd f).safety = s.safety := rfl
@[simp] theorem modCmd_net (f : Cmd → Cmd) : (s.modCmd f).net = s.net := rfl
@[simp] theorem modCmd_cool (f : Cmd → Cmd) : (s.modCmd f).cool = s.cool := rfl
@[simp] theorem modCmd_clk (f : Cmd → Cmd) : (s.modCmd f).clk = s.clk := rfl
@[simp] theorem modCmd_mem (f : Cmd → Cmd) : (s.modCmd f).mem = s.mem := rfl
@[simp] theorem modCmd_husk (f : Cmd → Cmd) : (s.modCmd f).husk = s.husk := rfl

@[simp] theorem modHost_pending (f : HostIf → HostIf) : (s.modHost f).pending = s.pending := rfl
@[simp] theorem modHost_time (f : HostIf → HostIf) : (s.modHost f).time = s.time := rfl
@[simp] theorem modHost_timeValid (f : HostIf → HostIf) : (s.modHost f).timeValid = s.timeValid := rfl
@[simp] theorem modHost_timeLoaded (f : HostIf → HostIf) : (s.modHost f).timeLoaded = s.timeLoaded := rfl
@[simp] theorem modHost_nextTick (f : HostIf → HostIf) : (s.modHost f).nextTick = s.nextTick := rfl
@[simp] theorem modHost_freeCtr (f : HostIf → HostIf) : (s.modHost f).freeCtr = s.freeCtr := rfl
@[simp] theorem modHost_sys (f : HostIf → HostIf) : (s.modHost f).sys = s.sys := rfl
@[simp] theorem modHost_host (f : HostIf → HostIf) : (s.modHost f).host = f s.host := rfl
@[simp] theorem modHost_esc (f : HostIf → HostIf) : (s.modHost f).esc = s.esc := rfl
@[simp] theorem modHost_rings (f : HostIf → HostIf) : (s.modHost f).rings = s.rings := rfl
@[simp] theorem modHost_cmd (f : HostIf → HostIf) : (s.modHost f).cmd = s.cmd := rfl
@[simp] theorem modHost_modes (f : HostIf → HostIf) : (s.modHost f).modes = s.modes := rfl
@[simp] theorem modHost_eng (f : HostIf → HostIf) : (s.modHost f).eng = s.eng := rfl
@[simp] theorem modHost_gens (f : HostIf → HostIf) : (s.modHost f).gens = s.gens := rfl
@[simp] theorem modHost_grid (f : HostIf → HostIf) : (s.modHost f).grid = s.grid := rfl
@[simp] theorem modHost_rt (f : HostIf → HostIf) : (s.modHost f).rt = s.rt := rfl
@[simp] theorem modHost_dcl (f : HostIf → HostIf) : (s.modHost f).dcl = s.dcl := rfl
@[simp] theorem modHost_isl (f : HostIf → HostIf) : (s.modHost f).isl = s.isl := rfl
@[simp] theorem modHost_ports (f : HostIf → HostIf) : (s.modHost f).ports = s.ports := rfl
@[simp] theorem modHost_pwm (f : HostIf → HostIf) : (s.modHost f).pwm = s.pwm := rfl
@[simp] theorem modHost_sense (f : HostIf → HostIf) : (s.modHost f).sense = s.sense := rfl
@[simp] theorem modHost_prot (f : HostIf → HostIf) : (s.modHost f).prot = s.prot := rfl
@[simp] theorem modHost_recorder (f : HostIf → HostIf) : (s.modHost f).recorder = s.recorder := rfl
@[simp] theorem modHost_safety (f : HostIf → HostIf) : (s.modHost f).safety = s.safety := rfl
@[simp] theorem modHost_net (f : HostIf → HostIf) : (s.modHost f).net = s.net := rfl
@[simp] theorem modHost_cool (f : HostIf → HostIf) : (s.modHost f).cool = s.cool := rfl
@[simp] theorem modHost_clk (f : HostIf → HostIf) : (s.modHost f).clk = s.clk := rfl
@[simp] theorem modHost_mem (f : HostIf → HostIf) : (s.modHost f).mem = s.mem := rfl
@[simp] theorem modHost_husk (f : HostIf → HostIf) : (s.modHost f).husk = s.husk := rfl

@[simp] theorem modSys_pending (f : Sys → Sys) : (s.modSys f).pending = s.pending := rfl
@[simp] theorem modSys_time (f : Sys → Sys) : (s.modSys f).time = s.time := rfl
@[simp] theorem modSys_timeValid (f : Sys → Sys) : (s.modSys f).timeValid = s.timeValid := rfl
@[simp] theorem modSys_timeLoaded (f : Sys → Sys) : (s.modSys f).timeLoaded = s.timeLoaded := rfl
@[simp] theorem modSys_nextTick (f : Sys → Sys) : (s.modSys f).nextTick = s.nextTick := rfl
@[simp] theorem modSys_freeCtr (f : Sys → Sys) : (s.modSys f).freeCtr = s.freeCtr := rfl
@[simp] theorem modSys_sys (f : Sys → Sys) : (s.modSys f).sys = f s.sys := rfl
@[simp] theorem modSys_host (f : Sys → Sys) : (s.modSys f).host = s.host := rfl
@[simp] theorem modSys_esc (f : Sys → Sys) : (s.modSys f).esc = s.esc := rfl
@[simp] theorem modSys_rings (f : Sys → Sys) : (s.modSys f).rings = s.rings := rfl
@[simp] theorem modSys_cmd (f : Sys → Sys) : (s.modSys f).cmd = s.cmd := rfl
@[simp] theorem modSys_modes (f : Sys → Sys) : (s.modSys f).modes = s.modes := rfl
@[simp] theorem modSys_eng (f : Sys → Sys) : (s.modSys f).eng = s.eng := rfl
@[simp] theorem modSys_gens (f : Sys → Sys) : (s.modSys f).gens = s.gens := rfl
@[simp] theorem modSys_grid (f : Sys → Sys) : (s.modSys f).grid = s.grid := rfl
@[simp] theorem modSys_rt (f : Sys → Sys) : (s.modSys f).rt = s.rt := rfl
@[simp] theorem modSys_dcl (f : Sys → Sys) : (s.modSys f).dcl = s.dcl := rfl
@[simp] theorem modSys_isl (f : Sys → Sys) : (s.modSys f).isl = s.isl := rfl
@[simp] theorem modSys_ports (f : Sys → Sys) : (s.modSys f).ports = s.ports := rfl
@[simp] theorem modSys_pwm (f : Sys → Sys) : (s.modSys f).pwm = s.pwm := rfl
@[simp] theorem modSys_sense (f : Sys → Sys) : (s.modSys f).sense = s.sense := rfl
@[simp] theorem modSys_prot (f : Sys → Sys) : (s.modSys f).prot = s.prot := rfl
@[simp] theorem modSys_recorder (f : Sys → Sys) : (s.modSys f).recorder = s.recorder := rfl
@[simp] theorem modSys_safety (f : Sys → Sys) : (s.modSys f).safety = s.safety := rfl
@[simp] theorem modSys_net (f : Sys → Sys) : (s.modSys f).net = s.net := rfl
@[simp] theorem modSys_cool (f : Sys → Sys) : (s.modSys f).cool = s.cool := rfl
@[simp] theorem modSys_clk (f : Sys → Sys) : (s.modSys f).clk = s.clk := rfl
@[simp] theorem modSys_mem (f : Sys → Sys) : (s.modSys f).mem = s.mem := rfl
@[simp] theorem modSys_husk (f : Sys → Sys) : (s.modSys f).husk = s.husk := rfl

@[simp] theorem modModes_pending (f : Modes → Modes) : (s.modModes f).pending = s.pending := rfl
@[simp] theorem modModes_time (f : Modes → Modes) : (s.modModes f).time = s.time := rfl
@[simp] theorem modModes_timeValid (f : Modes → Modes) : (s.modModes f).timeValid = s.timeValid := rfl
@[simp] theorem modModes_timeLoaded (f : Modes → Modes) : (s.modModes f).timeLoaded = s.timeLoaded := rfl
@[simp] theorem modModes_nextTick (f : Modes → Modes) : (s.modModes f).nextTick = s.nextTick := rfl
@[simp] theorem modModes_freeCtr (f : Modes → Modes) : (s.modModes f).freeCtr = s.freeCtr := rfl
@[simp] theorem modModes_sys (f : Modes → Modes) : (s.modModes f).sys = s.sys := rfl
@[simp] theorem modModes_host (f : Modes → Modes) : (s.modModes f).host = s.host := rfl
@[simp] theorem modModes_esc (f : Modes → Modes) : (s.modModes f).esc = s.esc := rfl
@[simp] theorem modModes_rings (f : Modes → Modes) : (s.modModes f).rings = s.rings := rfl
@[simp] theorem modModes_cmd (f : Modes → Modes) : (s.modModes f).cmd = s.cmd := rfl
@[simp] theorem modModes_modes (f : Modes → Modes) : (s.modModes f).modes = f s.modes := rfl
@[simp] theorem modModes_eng (f : Modes → Modes) : (s.modModes f).eng = s.eng := rfl
@[simp] theorem modModes_gens (f : Modes → Modes) : (s.modModes f).gens = s.gens := rfl
@[simp] theorem modModes_grid (f : Modes → Modes) : (s.modModes f).grid = s.grid := rfl
@[simp] theorem modModes_rt (f : Modes → Modes) : (s.modModes f).rt = s.rt := rfl
@[simp] theorem modModes_dcl (f : Modes → Modes) : (s.modModes f).dcl = s.dcl := rfl
@[simp] theorem modModes_isl (f : Modes → Modes) : (s.modModes f).isl = s.isl := rfl
@[simp] theorem modModes_ports (f : Modes → Modes) : (s.modModes f).ports = s.ports := rfl
@[simp] theorem modModes_pwm (f : Modes → Modes) : (s.modModes f).pwm = s.pwm := rfl
@[simp] theorem modModes_sense (f : Modes → Modes) : (s.modModes f).sense = s.sense := rfl
@[simp] theorem modModes_prot (f : Modes → Modes) : (s.modModes f).prot = s.prot := rfl
@[simp] theorem modModes_recorder (f : Modes → Modes) : (s.modModes f).recorder = s.recorder := rfl
@[simp] theorem modModes_safety (f : Modes → Modes) : (s.modModes f).safety = s.safety := rfl
@[simp] theorem modModes_net (f : Modes → Modes) : (s.modModes f).net = s.net := rfl
@[simp] theorem modModes_cool (f : Modes → Modes) : (s.modModes f).cool = s.cool := rfl
@[simp] theorem modModes_clk (f : Modes → Modes) : (s.modModes f).clk = s.clk := rfl
@[simp] theorem modModes_mem (f : Modes → Modes) : (s.modModes f).mem = s.mem := rfl
@[simp] theorem modModes_husk (f : Modes → Modes) : (s.modModes f).husk = s.husk := rfl

@[simp] theorem modEng_pending (f : Engine → Engine) : (s.modEng f).pending = s.pending := rfl
@[simp] theorem modEng_time (f : Engine → Engine) : (s.modEng f).time = s.time := rfl
@[simp] theorem modEng_timeValid (f : Engine → Engine) : (s.modEng f).timeValid = s.timeValid := rfl
@[simp] theorem modEng_timeLoaded (f : Engine → Engine) : (s.modEng f).timeLoaded = s.timeLoaded := rfl
@[simp] theorem modEng_nextTick (f : Engine → Engine) : (s.modEng f).nextTick = s.nextTick := rfl
@[simp] theorem modEng_freeCtr (f : Engine → Engine) : (s.modEng f).freeCtr = s.freeCtr := rfl
@[simp] theorem modEng_sys (f : Engine → Engine) : (s.modEng f).sys = s.sys := rfl
@[simp] theorem modEng_host (f : Engine → Engine) : (s.modEng f).host = s.host := rfl
@[simp] theorem modEng_esc (f : Engine → Engine) : (s.modEng f).esc = s.esc := rfl
@[simp] theorem modEng_rings (f : Engine → Engine) : (s.modEng f).rings = s.rings := rfl
@[simp] theorem modEng_cmd (f : Engine → Engine) : (s.modEng f).cmd = s.cmd := rfl
@[simp] theorem modEng_modes (f : Engine → Engine) : (s.modEng f).modes = s.modes := rfl
@[simp] theorem modEng_eng (f : Engine → Engine) : (s.modEng f).eng = f s.eng := rfl
@[simp] theorem modEng_gens (f : Engine → Engine) : (s.modEng f).gens = s.gens := rfl
@[simp] theorem modEng_grid (f : Engine → Engine) : (s.modEng f).grid = s.grid := rfl
@[simp] theorem modEng_rt (f : Engine → Engine) : (s.modEng f).rt = s.rt := rfl
@[simp] theorem modEng_dcl (f : Engine → Engine) : (s.modEng f).dcl = s.dcl := rfl
@[simp] theorem modEng_isl (f : Engine → Engine) : (s.modEng f).isl = s.isl := rfl
@[simp] theorem modEng_ports (f : Engine → Engine) : (s.modEng f).ports = s.ports := rfl
@[simp] theorem modEng_pwm (f : Engine → Engine) : (s.modEng f).pwm = s.pwm := rfl
@[simp] theorem modEng_sense (f : Engine → Engine) : (s.modEng f).sense = s.sense := rfl
@[simp] theorem modEng_prot (f : Engine → Engine) : (s.modEng f).prot = s.prot := rfl
@[simp] theorem modEng_recorder (f : Engine → Engine) : (s.modEng f).recorder = s.recorder := rfl
@[simp] theorem modEng_safety (f : Engine → Engine) : (s.modEng f).safety = s.safety := rfl
@[simp] theorem modEng_net (f : Engine → Engine) : (s.modEng f).net = s.net := rfl
@[simp] theorem modEng_cool (f : Engine → Engine) : (s.modEng f).cool = s.cool := rfl
@[simp] theorem modEng_clk (f : Engine → Engine) : (s.modEng f).clk = s.clk := rfl
@[simp] theorem modEng_mem (f : Engine → Engine) : (s.modEng f).mem = s.mem := rfl
@[simp] theorem modEng_husk (f : Engine → Engine) : (s.modEng f).husk = s.husk := rfl

@[simp] theorem modRt_pending (f : Rt → Rt) : (s.modRt f).pending = s.pending := rfl
@[simp] theorem modRt_time (f : Rt → Rt) : (s.modRt f).time = s.time := rfl
@[simp] theorem modRt_timeValid (f : Rt → Rt) : (s.modRt f).timeValid = s.timeValid := rfl
@[simp] theorem modRt_timeLoaded (f : Rt → Rt) : (s.modRt f).timeLoaded = s.timeLoaded := rfl
@[simp] theorem modRt_nextTick (f : Rt → Rt) : (s.modRt f).nextTick = s.nextTick := rfl
@[simp] theorem modRt_freeCtr (f : Rt → Rt) : (s.modRt f).freeCtr = s.freeCtr := rfl
@[simp] theorem modRt_sys (f : Rt → Rt) : (s.modRt f).sys = s.sys := rfl
@[simp] theorem modRt_host (f : Rt → Rt) : (s.modRt f).host = s.host := rfl
@[simp] theorem modRt_esc (f : Rt → Rt) : (s.modRt f).esc = s.esc := rfl
@[simp] theorem modRt_rings (f : Rt → Rt) : (s.modRt f).rings = s.rings := rfl
@[simp] theorem modRt_cmd (f : Rt → Rt) : (s.modRt f).cmd = s.cmd := rfl
@[simp] theorem modRt_modes (f : Rt → Rt) : (s.modRt f).modes = s.modes := rfl
@[simp] theorem modRt_eng (f : Rt → Rt) : (s.modRt f).eng = s.eng := rfl
@[simp] theorem modRt_gens (f : Rt → Rt) : (s.modRt f).gens = s.gens := rfl
@[simp] theorem modRt_grid (f : Rt → Rt) : (s.modRt f).grid = s.grid := rfl
@[simp] theorem modRt_rt (f : Rt → Rt) : (s.modRt f).rt = f s.rt := rfl
@[simp] theorem modRt_dcl (f : Rt → Rt) : (s.modRt f).dcl = s.dcl := rfl
@[simp] theorem modRt_isl (f : Rt → Rt) : (s.modRt f).isl = s.isl := rfl
@[simp] theorem modRt_ports (f : Rt → Rt) : (s.modRt f).ports = s.ports := rfl
@[simp] theorem modRt_pwm (f : Rt → Rt) : (s.modRt f).pwm = s.pwm := rfl
@[simp] theorem modRt_sense (f : Rt → Rt) : (s.modRt f).sense = s.sense := rfl
@[simp] theorem modRt_prot (f : Rt → Rt) : (s.modRt f).prot = s.prot := rfl
@[simp] theorem modRt_recorder (f : Rt → Rt) : (s.modRt f).recorder = s.recorder := rfl
@[simp] theorem modRt_safety (f : Rt → Rt) : (s.modRt f).safety = s.safety := rfl
@[simp] theorem modRt_net (f : Rt → Rt) : (s.modRt f).net = s.net := rfl
@[simp] theorem modRt_cool (f : Rt → Rt) : (s.modRt f).cool = s.cool := rfl
@[simp] theorem modRt_clk (f : Rt → Rt) : (s.modRt f).clk = s.clk := rfl
@[simp] theorem modRt_mem (f : Rt → Rt) : (s.modRt f).mem = s.mem := rfl
@[simp] theorem modRt_husk (f : Rt → Rt) : (s.modRt f).husk = s.husk := rfl

@[simp] theorem modDcl_pending (f : Dcl → Dcl) : (s.modDcl f).pending = s.pending := rfl
@[simp] theorem modDcl_time (f : Dcl → Dcl) : (s.modDcl f).time = s.time := rfl
@[simp] theorem modDcl_timeValid (f : Dcl → Dcl) : (s.modDcl f).timeValid = s.timeValid := rfl
@[simp] theorem modDcl_timeLoaded (f : Dcl → Dcl) : (s.modDcl f).timeLoaded = s.timeLoaded := rfl
@[simp] theorem modDcl_nextTick (f : Dcl → Dcl) : (s.modDcl f).nextTick = s.nextTick := rfl
@[simp] theorem modDcl_freeCtr (f : Dcl → Dcl) : (s.modDcl f).freeCtr = s.freeCtr := rfl
@[simp] theorem modDcl_sys (f : Dcl → Dcl) : (s.modDcl f).sys = s.sys := rfl
@[simp] theorem modDcl_host (f : Dcl → Dcl) : (s.modDcl f).host = s.host := rfl
@[simp] theorem modDcl_esc (f : Dcl → Dcl) : (s.modDcl f).esc = s.esc := rfl
@[simp] theorem modDcl_rings (f : Dcl → Dcl) : (s.modDcl f).rings = s.rings := rfl
@[simp] theorem modDcl_cmd (f : Dcl → Dcl) : (s.modDcl f).cmd = s.cmd := rfl
@[simp] theorem modDcl_modes (f : Dcl → Dcl) : (s.modDcl f).modes = s.modes := rfl
@[simp] theorem modDcl_eng (f : Dcl → Dcl) : (s.modDcl f).eng = s.eng := rfl
@[simp] theorem modDcl_gens (f : Dcl → Dcl) : (s.modDcl f).gens = s.gens := rfl
@[simp] theorem modDcl_grid (f : Dcl → Dcl) : (s.modDcl f).grid = s.grid := rfl
@[simp] theorem modDcl_rt (f : Dcl → Dcl) : (s.modDcl f).rt = s.rt := rfl
@[simp] theorem modDcl_dcl (f : Dcl → Dcl) : (s.modDcl f).dcl = f s.dcl := rfl
@[simp] theorem modDcl_isl (f : Dcl → Dcl) : (s.modDcl f).isl = s.isl := rfl
@[simp] theorem modDcl_ports (f : Dcl → Dcl) : (s.modDcl f).ports = s.ports := rfl
@[simp] theorem modDcl_pwm (f : Dcl → Dcl) : (s.modDcl f).pwm = s.pwm := rfl
@[simp] theorem modDcl_sense (f : Dcl → Dcl) : (s.modDcl f).sense = s.sense := rfl
@[simp] theorem modDcl_prot (f : Dcl → Dcl) : (s.modDcl f).prot = s.prot := rfl
@[simp] theorem modDcl_recorder (f : Dcl → Dcl) : (s.modDcl f).recorder = s.recorder := rfl
@[simp] theorem modDcl_safety (f : Dcl → Dcl) : (s.modDcl f).safety = s.safety := rfl
@[simp] theorem modDcl_net (f : Dcl → Dcl) : (s.modDcl f).net = s.net := rfl
@[simp] theorem modDcl_cool (f : Dcl → Dcl) : (s.modDcl f).cool = s.cool := rfl
@[simp] theorem modDcl_clk (f : Dcl → Dcl) : (s.modDcl f).clk = s.clk := rfl
@[simp] theorem modDcl_mem (f : Dcl → Dcl) : (s.modDcl f).mem = s.mem := rfl
@[simp] theorem modDcl_husk (f : Dcl → Dcl) : (s.modDcl f).husk = s.husk := rfl

@[simp] theorem modIsl_pending (f : Isl → Isl) : (s.modIsl f).pending = s.pending := rfl
@[simp] theorem modIsl_time (f : Isl → Isl) : (s.modIsl f).time = s.time := rfl
@[simp] theorem modIsl_timeValid (f : Isl → Isl) : (s.modIsl f).timeValid = s.timeValid := rfl
@[simp] theorem modIsl_timeLoaded (f : Isl → Isl) : (s.modIsl f).timeLoaded = s.timeLoaded := rfl
@[simp] theorem modIsl_nextTick (f : Isl → Isl) : (s.modIsl f).nextTick = s.nextTick := rfl
@[simp] theorem modIsl_freeCtr (f : Isl → Isl) : (s.modIsl f).freeCtr = s.freeCtr := rfl
@[simp] theorem modIsl_sys (f : Isl → Isl) : (s.modIsl f).sys = s.sys := rfl
@[simp] theorem modIsl_host (f : Isl → Isl) : (s.modIsl f).host = s.host := rfl
@[simp] theorem modIsl_esc (f : Isl → Isl) : (s.modIsl f).esc = s.esc := rfl
@[simp] theorem modIsl_rings (f : Isl → Isl) : (s.modIsl f).rings = s.rings := rfl
@[simp] theorem modIsl_cmd (f : Isl → Isl) : (s.modIsl f).cmd = s.cmd := rfl
@[simp] theorem modIsl_modes (f : Isl → Isl) : (s.modIsl f).modes = s.modes := rfl
@[simp] theorem modIsl_eng (f : Isl → Isl) : (s.modIsl f).eng = s.eng := rfl
@[simp] theorem modIsl_gens (f : Isl → Isl) : (s.modIsl f).gens = s.gens := rfl
@[simp] theorem modIsl_grid (f : Isl → Isl) : (s.modIsl f).grid = s.grid := rfl
@[simp] theorem modIsl_rt (f : Isl → Isl) : (s.modIsl f).rt = s.rt := rfl
@[simp] theorem modIsl_dcl (f : Isl → Isl) : (s.modIsl f).dcl = s.dcl := rfl
@[simp] theorem modIsl_isl (f : Isl → Isl) : (s.modIsl f).isl = f s.isl := rfl
@[simp] theorem modIsl_ports (f : Isl → Isl) : (s.modIsl f).ports = s.ports := rfl
@[simp] theorem modIsl_pwm (f : Isl → Isl) : (s.modIsl f).pwm = s.pwm := rfl
@[simp] theorem modIsl_sense (f : Isl → Isl) : (s.modIsl f).sense = s.sense := rfl
@[simp] theorem modIsl_prot (f : Isl → Isl) : (s.modIsl f).prot = s.prot := rfl
@[simp] theorem modIsl_recorder (f : Isl → Isl) : (s.modIsl f).recorder = s.recorder := rfl
@[simp] theorem modIsl_safety (f : Isl → Isl) : (s.modIsl f).safety = s.safety := rfl
@[simp] theorem modIsl_net (f : Isl → Isl) : (s.modIsl f).net = s.net := rfl
@[simp] theorem modIsl_cool (f : Isl → Isl) : (s.modIsl f).cool = s.cool := rfl
@[simp] theorem modIsl_clk (f : Isl → Isl) : (s.modIsl f).clk = s.clk := rfl
@[simp] theorem modIsl_mem (f : Isl → Isl) : (s.modIsl f).mem = s.mem := rfl
@[simp] theorem modIsl_husk (f : Isl → Isl) : (s.modIsl f).husk = s.husk := rfl

@[simp] theorem modPorts_pending (f : Ports → Ports) : (s.modPorts f).pending = s.pending := rfl
@[simp] theorem modPorts_time (f : Ports → Ports) : (s.modPorts f).time = s.time := rfl
@[simp] theorem modPorts_timeValid (f : Ports → Ports) : (s.modPorts f).timeValid = s.timeValid := rfl
@[simp] theorem modPorts_timeLoaded (f : Ports → Ports) : (s.modPorts f).timeLoaded = s.timeLoaded := rfl
@[simp] theorem modPorts_nextTick (f : Ports → Ports) : (s.modPorts f).nextTick = s.nextTick := rfl
@[simp] theorem modPorts_freeCtr (f : Ports → Ports) : (s.modPorts f).freeCtr = s.freeCtr := rfl
@[simp] theorem modPorts_sys (f : Ports → Ports) : (s.modPorts f).sys = s.sys := rfl
@[simp] theorem modPorts_host (f : Ports → Ports) : (s.modPorts f).host = s.host := rfl
@[simp] theorem modPorts_esc (f : Ports → Ports) : (s.modPorts f).esc = s.esc := rfl
@[simp] theorem modPorts_rings (f : Ports → Ports) : (s.modPorts f).rings = s.rings := rfl
@[simp] theorem modPorts_cmd (f : Ports → Ports) : (s.modPorts f).cmd = s.cmd := rfl
@[simp] theorem modPorts_modes (f : Ports → Ports) : (s.modPorts f).modes = s.modes := rfl
@[simp] theorem modPorts_eng (f : Ports → Ports) : (s.modPorts f).eng = s.eng := rfl
@[simp] theorem modPorts_gens (f : Ports → Ports) : (s.modPorts f).gens = s.gens := rfl
@[simp] theorem modPorts_grid (f : Ports → Ports) : (s.modPorts f).grid = s.grid := rfl
@[simp] theorem modPorts_rt (f : Ports → Ports) : (s.modPorts f).rt = s.rt := rfl
@[simp] theorem modPorts_dcl (f : Ports → Ports) : (s.modPorts f).dcl = s.dcl := rfl
@[simp] theorem modPorts_isl (f : Ports → Ports) : (s.modPorts f).isl = s.isl := rfl
@[simp] theorem modPorts_ports (f : Ports → Ports) : (s.modPorts f).ports = f s.ports := rfl
@[simp] theorem modPorts_pwm (f : Ports → Ports) : (s.modPorts f).pwm = s.pwm := rfl
@[simp] theorem modPorts_sense (f : Ports → Ports) : (s.modPorts f).sense = s.sense := rfl
@[simp] theorem modPorts_prot (f : Ports → Ports) : (s.modPorts f).prot = s.prot := rfl
@[simp] theorem modPorts_recorder (f : Ports → Ports) : (s.modPorts f).recorder = s.recorder := rfl
@[simp] theorem modPorts_safety (f : Ports → Ports) : (s.modPorts f).safety = s.safety := rfl
@[simp] theorem modPorts_net (f : Ports → Ports) : (s.modPorts f).net = s.net := rfl
@[simp] theorem modPorts_cool (f : Ports → Ports) : (s.modPorts f).cool = s.cool := rfl
@[simp] theorem modPorts_clk (f : Ports → Ports) : (s.modPorts f).clk = s.clk := rfl
@[simp] theorem modPorts_mem (f : Ports → Ports) : (s.modPorts f).mem = s.mem := rfl
@[simp] theorem modPorts_husk (f : Ports → Ports) : (s.modPorts f).husk = s.husk := rfl

@[simp] theorem modProt_pending (f : Prot → Prot) : (s.modProt f).pending = s.pending := rfl
@[simp] theorem modProt_time (f : Prot → Prot) : (s.modProt f).time = s.time := rfl
@[simp] theorem modProt_timeValid (f : Prot → Prot) : (s.modProt f).timeValid = s.timeValid := rfl
@[simp] theorem modProt_timeLoaded (f : Prot → Prot) : (s.modProt f).timeLoaded = s.timeLoaded := rfl
@[simp] theorem modProt_nextTick (f : Prot → Prot) : (s.modProt f).nextTick = s.nextTick := rfl
@[simp] theorem modProt_freeCtr (f : Prot → Prot) : (s.modProt f).freeCtr = s.freeCtr := rfl
@[simp] theorem modProt_sys (f : Prot → Prot) : (s.modProt f).sys = s.sys := rfl
@[simp] theorem modProt_host (f : Prot → Prot) : (s.modProt f).host = s.host := rfl
@[simp] theorem modProt_esc (f : Prot → Prot) : (s.modProt f).esc = s.esc := rfl
@[simp] theorem modProt_rings (f : Prot → Prot) : (s.modProt f).rings = s.rings := rfl
@[simp] theorem modProt_cmd (f : Prot → Prot) : (s.modProt f).cmd = s.cmd := rfl
@[simp] theorem modProt_modes (f : Prot → Prot) : (s.modProt f).modes = s.modes := rfl
@[simp] theorem modProt_eng (f : Prot → Prot) : (s.modProt f).eng = s.eng := rfl
@[simp] theorem modProt_gens (f : Prot → Prot) : (s.modProt f).gens = s.gens := rfl
@[simp] theorem modProt_grid (f : Prot → Prot) : (s.modProt f).grid = s.grid := rfl
@[simp] theorem modProt_rt (f : Prot → Prot) : (s.modProt f).rt = s.rt := rfl
@[simp] theorem modProt_dcl (f : Prot → Prot) : (s.modProt f).dcl = s.dcl := rfl
@[simp] theorem modProt_isl (f : Prot → Prot) : (s.modProt f).isl = s.isl := rfl
@[simp] theorem modProt_ports (f : Prot → Prot) : (s.modProt f).ports = s.ports := rfl
@[simp] theorem modProt_pwm (f : Prot → Prot) : (s.modProt f).pwm = s.pwm := rfl
@[simp] theorem modProt_sense (f : Prot → Prot) : (s.modProt f).sense = s.sense := rfl
@[simp] theorem modProt_prot (f : Prot → Prot) : (s.modProt f).prot = f s.prot := rfl
@[simp] theorem modProt_recorder (f : Prot → Prot) : (s.modProt f).recorder = s.recorder := rfl
@[simp] theorem modProt_safety (f : Prot → Prot) : (s.modProt f).safety = s.safety := rfl
@[simp] theorem modProt_net (f : Prot → Prot) : (s.modProt f).net = s.net := rfl
@[simp] theorem modProt_cool (f : Prot → Prot) : (s.modProt f).cool = s.cool := rfl
@[simp] theorem modProt_clk (f : Prot → Prot) : (s.modProt f).clk = s.clk := rfl
@[simp] theorem modProt_mem (f : Prot → Prot) : (s.modProt f).mem = s.mem := rfl
@[simp] theorem modProt_husk (f : Prot → Prot) : (s.modProt f).husk = s.husk := rfl

@[simp] theorem modRec_pending (f : Rec → Rec) : (s.modRec f).pending = s.pending := rfl
@[simp] theorem modRec_time (f : Rec → Rec) : (s.modRec f).time = s.time := rfl
@[simp] theorem modRec_timeValid (f : Rec → Rec) : (s.modRec f).timeValid = s.timeValid := rfl
@[simp] theorem modRec_timeLoaded (f : Rec → Rec) : (s.modRec f).timeLoaded = s.timeLoaded := rfl
@[simp] theorem modRec_nextTick (f : Rec → Rec) : (s.modRec f).nextTick = s.nextTick := rfl
@[simp] theorem modRec_freeCtr (f : Rec → Rec) : (s.modRec f).freeCtr = s.freeCtr := rfl
@[simp] theorem modRec_sys (f : Rec → Rec) : (s.modRec f).sys = s.sys := rfl
@[simp] theorem modRec_host (f : Rec → Rec) : (s.modRec f).host = s.host := rfl
@[simp] theorem modRec_esc (f : Rec → Rec) : (s.modRec f).esc = s.esc := rfl
@[simp] theorem modRec_rings (f : Rec → Rec) : (s.modRec f).rings = s.rings := rfl
@[simp] theorem modRec_cmd (f : Rec → Rec) : (s.modRec f).cmd = s.cmd := rfl
@[simp] theorem modRec_modes (f : Rec → Rec) : (s.modRec f).modes = s.modes := rfl
@[simp] theorem modRec_eng (f : Rec → Rec) : (s.modRec f).eng = s.eng := rfl
@[simp] theorem modRec_gens (f : Rec → Rec) : (s.modRec f).gens = s.gens := rfl
@[simp] theorem modRec_grid (f : Rec → Rec) : (s.modRec f).grid = s.grid := rfl
@[simp] theorem modRec_rt (f : Rec → Rec) : (s.modRec f).rt = s.rt := rfl
@[simp] theorem modRec_dcl (f : Rec → Rec) : (s.modRec f).dcl = s.dcl := rfl
@[simp] theorem modRec_isl (f : Rec → Rec) : (s.modRec f).isl = s.isl := rfl
@[simp] theorem modRec_ports (f : Rec → Rec) : (s.modRec f).ports = s.ports := rfl
@[simp] theorem modRec_pwm (f : Rec → Rec) : (s.modRec f).pwm = s.pwm := rfl
@[simp] theorem modRec_sense (f : Rec → Rec) : (s.modRec f).sense = s.sense := rfl
@[simp] theorem modRec_prot (f : Rec → Rec) : (s.modRec f).prot = s.prot := rfl
@[simp] theorem modRec_recorder (f : Rec → Rec) : (s.modRec f).recorder = f s.recorder := rfl
@[simp] theorem modRec_safety (f : Rec → Rec) : (s.modRec f).safety = s.safety := rfl
@[simp] theorem modRec_net (f : Rec → Rec) : (s.modRec f).net = s.net := rfl
@[simp] theorem modRec_cool (f : Rec → Rec) : (s.modRec f).cool = s.cool := rfl
@[simp] theorem modRec_clk (f : Rec → Rec) : (s.modRec f).clk = s.clk := rfl
@[simp] theorem modRec_mem (f : Rec → Rec) : (s.modRec f).mem = s.mem := rfl
@[simp] theorem modRec_husk (f : Rec → Rec) : (s.modRec f).husk = s.husk := rfl

@[simp] theorem modSafety_pending (f : Safety → Safety) : (s.modSafety f).pending = s.pending := rfl
@[simp] theorem modSafety_time (f : Safety → Safety) : (s.modSafety f).time = s.time := rfl
@[simp] theorem modSafety_timeValid (f : Safety → Safety) : (s.modSafety f).timeValid = s.timeValid := rfl
@[simp] theorem modSafety_timeLoaded (f : Safety → Safety) : (s.modSafety f).timeLoaded = s.timeLoaded := rfl
@[simp] theorem modSafety_nextTick (f : Safety → Safety) : (s.modSafety f).nextTick = s.nextTick := rfl
@[simp] theorem modSafety_freeCtr (f : Safety → Safety) : (s.modSafety f).freeCtr = s.freeCtr := rfl
@[simp] theorem modSafety_sys (f : Safety → Safety) : (s.modSafety f).sys = s.sys := rfl
@[simp] theorem modSafety_host (f : Safety → Safety) : (s.modSafety f).host = s.host := rfl
@[simp] theorem modSafety_esc (f : Safety → Safety) : (s.modSafety f).esc = s.esc := rfl
@[simp] theorem modSafety_rings (f : Safety → Safety) : (s.modSafety f).rings = s.rings := rfl
@[simp] theorem modSafety_cmd (f : Safety → Safety) : (s.modSafety f).cmd = s.cmd := rfl
@[simp] theorem modSafety_modes (f : Safety → Safety) : (s.modSafety f).modes = s.modes := rfl
@[simp] theorem modSafety_eng (f : Safety → Safety) : (s.modSafety f).eng = s.eng := rfl
@[simp] theorem modSafety_gens (f : Safety → Safety) : (s.modSafety f).gens = s.gens := rfl
@[simp] theorem modSafety_grid (f : Safety → Safety) : (s.modSafety f).grid = s.grid := rfl
@[simp] theorem modSafety_rt (f : Safety → Safety) : (s.modSafety f).rt = s.rt := rfl
@[simp] theorem modSafety_dcl (f : Safety → Safety) : (s.modSafety f).dcl = s.dcl := rfl
@[simp] theorem modSafety_isl (f : Safety → Safety) : (s.modSafety f).isl = s.isl := rfl
@[simp] theorem modSafety_ports (f : Safety → Safety) : (s.modSafety f).ports = s.ports := rfl
@[simp] theorem modSafety_pwm (f : Safety → Safety) : (s.modSafety f).pwm = s.pwm := rfl
@[simp] theorem modSafety_sense (f : Safety → Safety) : (s.modSafety f).sense = s.sense := rfl
@[simp] theorem modSafety_prot (f : Safety → Safety) : (s.modSafety f).prot = s.prot := rfl
@[simp] theorem modSafety_recorder (f : Safety → Safety) : (s.modSafety f).recorder = s.recorder := rfl
@[simp] theorem modSafety_safety (f : Safety → Safety) : (s.modSafety f).safety = f s.safety := rfl
@[simp] theorem modSafety_net (f : Safety → Safety) : (s.modSafety f).net = s.net := rfl
@[simp] theorem modSafety_cool (f : Safety → Safety) : (s.modSafety f).cool = s.cool := rfl
@[simp] theorem modSafety_clk (f : Safety → Safety) : (s.modSafety f).clk = s.clk := rfl
@[simp] theorem modSafety_mem (f : Safety → Safety) : (s.modSafety f).mem = s.mem := rfl
@[simp] theorem modSafety_husk (f : Safety → Safety) : (s.modSafety f).husk = s.husk := rfl

@[simp] theorem modSense_pending (f : Sense → Sense) : (s.modSense f).pending = s.pending := rfl
@[simp] theorem modSense_time (f : Sense → Sense) : (s.modSense f).time = s.time := rfl
@[simp] theorem modSense_timeValid (f : Sense → Sense) : (s.modSense f).timeValid = s.timeValid := rfl
@[simp] theorem modSense_timeLoaded (f : Sense → Sense) : (s.modSense f).timeLoaded = s.timeLoaded := rfl
@[simp] theorem modSense_nextTick (f : Sense → Sense) : (s.modSense f).nextTick = s.nextTick := rfl
@[simp] theorem modSense_freeCtr (f : Sense → Sense) : (s.modSense f).freeCtr = s.freeCtr := rfl
@[simp] theorem modSense_sys (f : Sense → Sense) : (s.modSense f).sys = s.sys := rfl
@[simp] theorem modSense_host (f : Sense → Sense) : (s.modSense f).host = s.host := rfl
@[simp] theorem modSense_esc (f : Sense → Sense) : (s.modSense f).esc = s.esc := rfl
@[simp] theorem modSense_rings (f : Sense → Sense) : (s.modSense f).rings = s.rings := rfl
@[simp] theorem modSense_cmd (f : Sense → Sense) : (s.modSense f).cmd = s.cmd := rfl
@[simp] theorem modSense_modes (f : Sense → Sense) : (s.modSense f).modes = s.modes := rfl
@[simp] theorem modSense_eng (f : Sense → Sense) : (s.modSense f).eng = s.eng := rfl
@[simp] theorem modSense_gens (f : Sense → Sense) : (s.modSense f).gens = s.gens := rfl
@[simp] theorem modSense_grid (f : Sense → Sense) : (s.modSense f).grid = s.grid := rfl
@[simp] theorem modSense_rt (f : Sense → Sense) : (s.modSense f).rt = s.rt := rfl
@[simp] theorem modSense_dcl (f : Sense → Sense) : (s.modSense f).dcl = s.dcl := rfl
@[simp] theorem modSense_isl (f : Sense → Sense) : (s.modSense f).isl = s.isl := rfl
@[simp] theorem modSense_ports (f : Sense → Sense) : (s.modSense f).ports = s.ports := rfl
@[simp] theorem modSense_pwm (f : Sense → Sense) : (s.modSense f).pwm = s.pwm := rfl
@[simp] theorem modSense_sense (f : Sense → Sense) : (s.modSense f).sense = f s.sense := rfl
@[simp] theorem modSense_prot (f : Sense → Sense) : (s.modSense f).prot = s.prot := rfl
@[simp] theorem modSense_recorder (f : Sense → Sense) : (s.modSense f).recorder = s.recorder := rfl
@[simp] theorem modSense_safety (f : Sense → Sense) : (s.modSense f).safety = s.safety := rfl
@[simp] theorem modSense_net (f : Sense → Sense) : (s.modSense f).net = s.net := rfl
@[simp] theorem modSense_cool (f : Sense → Sense) : (s.modSense f).cool = s.cool := rfl
@[simp] theorem modSense_clk (f : Sense → Sense) : (s.modSense f).clk = s.clk := rfl
@[simp] theorem modSense_mem (f : Sense → Sense) : (s.modSense f).mem = s.mem := rfl
@[simp] theorem modSense_husk (f : Sense → Sense) : (s.modSense f).husk = s.husk := rfl

@[simp] theorem modNet_pending (f : Net → Net) : (s.modNet f).pending = s.pending := rfl
@[simp] theorem modNet_time (f : Net → Net) : (s.modNet f).time = s.time := rfl
@[simp] theorem modNet_timeValid (f : Net → Net) : (s.modNet f).timeValid = s.timeValid := rfl
@[simp] theorem modNet_timeLoaded (f : Net → Net) : (s.modNet f).timeLoaded = s.timeLoaded := rfl
@[simp] theorem modNet_nextTick (f : Net → Net) : (s.modNet f).nextTick = s.nextTick := rfl
@[simp] theorem modNet_freeCtr (f : Net → Net) : (s.modNet f).freeCtr = s.freeCtr := rfl
@[simp] theorem modNet_sys (f : Net → Net) : (s.modNet f).sys = s.sys := rfl
@[simp] theorem modNet_host (f : Net → Net) : (s.modNet f).host = s.host := rfl
@[simp] theorem modNet_esc (f : Net → Net) : (s.modNet f).esc = s.esc := rfl
@[simp] theorem modNet_rings (f : Net → Net) : (s.modNet f).rings = s.rings := rfl
@[simp] theorem modNet_cmd (f : Net → Net) : (s.modNet f).cmd = s.cmd := rfl
@[simp] theorem modNet_modes (f : Net → Net) : (s.modNet f).modes = s.modes := rfl
@[simp] theorem modNet_eng (f : Net → Net) : (s.modNet f).eng = s.eng := rfl
@[simp] theorem modNet_gens (f : Net → Net) : (s.modNet f).gens = s.gens := rfl
@[simp] theorem modNet_grid (f : Net → Net) : (s.modNet f).grid = s.grid := rfl
@[simp] theorem modNet_rt (f : Net → Net) : (s.modNet f).rt = s.rt := rfl
@[simp] theorem modNet_dcl (f : Net → Net) : (s.modNet f).dcl = s.dcl := rfl
@[simp] theorem modNet_isl (f : Net → Net) : (s.modNet f).isl = s.isl := rfl
@[simp] theorem modNet_ports (f : Net → Net) : (s.modNet f).ports = s.ports := rfl
@[simp] theorem modNet_pwm (f : Net → Net) : (s.modNet f).pwm = s.pwm := rfl
@[simp] theorem modNet_sense (f : Net → Net) : (s.modNet f).sense = s.sense := rfl
@[simp] theorem modNet_prot (f : Net → Net) : (s.modNet f).prot = s.prot := rfl
@[simp] theorem modNet_recorder (f : Net → Net) : (s.modNet f).recorder = s.recorder := rfl
@[simp] theorem modNet_safety (f : Net → Net) : (s.modNet f).safety = s.safety := rfl
@[simp] theorem modNet_net (f : Net → Net) : (s.modNet f).net = f s.net := rfl
@[simp] theorem modNet_cool (f : Net → Net) : (s.modNet f).cool = s.cool := rfl
@[simp] theorem modNet_clk (f : Net → Net) : (s.modNet f).clk = s.clk := rfl
@[simp] theorem modNet_mem (f : Net → Net) : (s.modNet f).mem = s.mem := rfl
@[simp] theorem modNet_husk (f : Net → Net) : (s.modNet f).husk = s.husk := rfl

@[simp] theorem modClk_pending (f : Clk → Clk) : (s.modClk f).pending = s.pending := rfl
@[simp] theorem modClk_time (f : Clk → Clk) : (s.modClk f).time = s.time := rfl
@[simp] theorem modClk_timeValid (f : Clk → Clk) : (s.modClk f).timeValid = s.timeValid := rfl
@[simp] theorem modClk_timeLoaded (f : Clk → Clk) : (s.modClk f).timeLoaded = s.timeLoaded := rfl
@[simp] theorem modClk_nextTick (f : Clk → Clk) : (s.modClk f).nextTick = s.nextTick := rfl
@[simp] theorem modClk_freeCtr (f : Clk → Clk) : (s.modClk f).freeCtr = s.freeCtr := rfl
@[simp] theorem modClk_sys (f : Clk → Clk) : (s.modClk f).sys = s.sys := rfl
@[simp] theorem modClk_host (f : Clk → Clk) : (s.modClk f).host = s.host := rfl
@[simp] theorem modClk_esc (f : Clk → Clk) : (s.modClk f).esc = s.esc := rfl
@[simp] theorem modClk_rings (f : Clk → Clk) : (s.modClk f).rings = s.rings := rfl
@[simp] theorem modClk_cmd (f : Clk → Clk) : (s.modClk f).cmd = s.cmd := rfl
@[simp] theorem modClk_modes (f : Clk → Clk) : (s.modClk f).modes = s.modes := rfl
@[simp] theorem modClk_eng (f : Clk → Clk) : (s.modClk f).eng = s.eng := rfl
@[simp] theorem modClk_gens (f : Clk → Clk) : (s.modClk f).gens = s.gens := rfl
@[simp] theorem modClk_grid (f : Clk → Clk) : (s.modClk f).grid = s.grid := rfl
@[simp] theorem modClk_rt (f : Clk → Clk) : (s.modClk f).rt = s.rt := rfl
@[simp] theorem modClk_dcl (f : Clk → Clk) : (s.modClk f).dcl = s.dcl := rfl
@[simp] theorem modClk_isl (f : Clk → Clk) : (s.modClk f).isl = s.isl := rfl
@[simp] theorem modClk_ports (f : Clk → Clk) : (s.modClk f).ports = s.ports := rfl
@[simp] theorem modClk_pwm (f : Clk → Clk) : (s.modClk f).pwm = s.pwm := rfl
@[simp] theorem modClk_sense (f : Clk → Clk) : (s.modClk f).sense = s.sense := rfl
@[simp] theorem modClk_prot (f : Clk → Clk) : (s.modClk f).prot = s.prot := rfl
@[simp] theorem modClk_recorder (f : Clk → Clk) : (s.modClk f).recorder = s.recorder := rfl
@[simp] theorem modClk_safety (f : Clk → Clk) : (s.modClk f).safety = s.safety := rfl
@[simp] theorem modClk_net (f : Clk → Clk) : (s.modClk f).net = s.net := rfl
@[simp] theorem modClk_cool (f : Clk → Clk) : (s.modClk f).cool = s.cool := rfl
@[simp] theorem modClk_clk (f : Clk → Clk) : (s.modClk f).clk = f s.clk := rfl
@[simp] theorem modClk_mem (f : Clk → Clk) : (s.modClk f).mem = s.mem := rfl
@[simp] theorem modClk_husk (f : Clk → Clk) : (s.modClk f).husk = s.husk := rfl

@[simp] theorem modMem_pending (f : MemSys → MemSys) : (s.modMem f).pending = s.pending := rfl
@[simp] theorem modMem_time (f : MemSys → MemSys) : (s.modMem f).time = s.time := rfl
@[simp] theorem modMem_timeValid (f : MemSys → MemSys) : (s.modMem f).timeValid = s.timeValid := rfl
@[simp] theorem modMem_timeLoaded (f : MemSys → MemSys) : (s.modMem f).timeLoaded = s.timeLoaded := rfl
@[simp] theorem modMem_nextTick (f : MemSys → MemSys) : (s.modMem f).nextTick = s.nextTick := rfl
@[simp] theorem modMem_freeCtr (f : MemSys → MemSys) : (s.modMem f).freeCtr = s.freeCtr := rfl
@[simp] theorem modMem_sys (f : MemSys → MemSys) : (s.modMem f).sys = s.sys := rfl
@[simp] theorem modMem_host (f : MemSys → MemSys) : (s.modMem f).host = s.host := rfl
@[simp] theorem modMem_esc (f : MemSys → MemSys) : (s.modMem f).esc = s.esc := rfl
@[simp] theorem modMem_rings (f : MemSys → MemSys) : (s.modMem f).rings = s.rings := rfl
@[simp] theorem modMem_cmd (f : MemSys → MemSys) : (s.modMem f).cmd = s.cmd := rfl
@[simp] theorem modMem_modes (f : MemSys → MemSys) : (s.modMem f).modes = s.modes := rfl
@[simp] theorem modMem_eng (f : MemSys → MemSys) : (s.modMem f).eng = s.eng := rfl
@[simp] theorem modMem_gens (f : MemSys → MemSys) : (s.modMem f).gens = s.gens := rfl
@[simp] theorem modMem_grid (f : MemSys → MemSys) : (s.modMem f).grid = s.grid := rfl
@[simp] theorem modMem_rt (f : MemSys → MemSys) : (s.modMem f).rt = s.rt := rfl
@[simp] theorem modMem_dcl (f : MemSys → MemSys) : (s.modMem f).dcl = s.dcl := rfl
@[simp] theorem modMem_isl (f : MemSys → MemSys) : (s.modMem f).isl = s.isl := rfl
@[simp] theorem modMem_ports (f : MemSys → MemSys) : (s.modMem f).ports = s.ports := rfl
@[simp] theorem modMem_pwm (f : MemSys → MemSys) : (s.modMem f).pwm = s.pwm := rfl
@[simp] theorem modMem_sense (f : MemSys → MemSys) : (s.modMem f).sense = s.sense := rfl
@[simp] theorem modMem_prot (f : MemSys → MemSys) : (s.modMem f).prot = s.prot := rfl
@[simp] theorem modMem_recorder (f : MemSys → MemSys) : (s.modMem f).recorder = s.recorder := rfl
@[simp] theorem modMem_safety (f : MemSys → MemSys) : (s.modMem f).safety = s.safety := rfl
@[simp] theorem modMem_net (f : MemSys → MemSys) : (s.modMem f).net = s.net := rfl
@[simp] theorem modMem_cool (f : MemSys → MemSys) : (s.modMem f).cool = s.cool := rfl
@[simp] theorem modMem_clk (f : MemSys → MemSys) : (s.modMem f).clk = s.clk := rfl
@[simp] theorem modMem_mem (f : MemSys → MemSys) : (s.modMem f).mem = f s.mem := rfl
@[simp] theorem modMem_husk (f : MemSys → MemSys) : (s.modMem f).husk = s.husk := rfl

@[simp] theorem modHusk_pending (f : Husk → Husk) : (s.modHusk f).pending = s.pending := rfl
@[simp] theorem modHusk_time (f : Husk → Husk) : (s.modHusk f).time = s.time := rfl
@[simp] theorem modHusk_timeValid (f : Husk → Husk) : (s.modHusk f).timeValid = s.timeValid := rfl
@[simp] theorem modHusk_timeLoaded (f : Husk → Husk) : (s.modHusk f).timeLoaded = s.timeLoaded := rfl
@[simp] theorem modHusk_nextTick (f : Husk → Husk) : (s.modHusk f).nextTick = s.nextTick := rfl
@[simp] theorem modHusk_freeCtr (f : Husk → Husk) : (s.modHusk f).freeCtr = s.freeCtr := rfl
@[simp] theorem modHusk_sys (f : Husk → Husk) : (s.modHusk f).sys = s.sys := rfl
@[simp] theorem modHusk_host (f : Husk → Husk) : (s.modHusk f).host = s.host := rfl
@[simp] theorem modHusk_esc (f : Husk → Husk) : (s.modHusk f).esc = s.esc := rfl
@[simp] theorem modHusk_rings (f : Husk → Husk) : (s.modHusk f).rings = s.rings := rfl
@[simp] theorem modHusk_cmd (f : Husk → Husk) : (s.modHusk f).cmd = s.cmd := rfl
@[simp] theorem modHusk_modes (f : Husk → Husk) : (s.modHusk f).modes = s.modes := rfl
@[simp] theorem modHusk_eng (f : Husk → Husk) : (s.modHusk f).eng = s.eng := rfl
@[simp] theorem modHusk_gens (f : Husk → Husk) : (s.modHusk f).gens = s.gens := rfl
@[simp] theorem modHusk_grid (f : Husk → Husk) : (s.modHusk f).grid = s.grid := rfl
@[simp] theorem modHusk_rt (f : Husk → Husk) : (s.modHusk f).rt = s.rt := rfl
@[simp] theorem modHusk_dcl (f : Husk → Husk) : (s.modHusk f).dcl = s.dcl := rfl
@[simp] theorem modHusk_isl (f : Husk → Husk) : (s.modHusk f).isl = s.isl := rfl
@[simp] theorem modHusk_ports (f : Husk → Husk) : (s.modHusk f).ports = s.ports := rfl
@[simp] theorem modHusk_pwm (f : Husk → Husk) : (s.modHusk f).pwm = s.pwm := rfl
@[simp] theorem modHusk_sense (f : Husk → Husk) : (s.modHusk f).sense = s.sense := rfl
@[simp] theorem modHusk_prot (f : Husk → Husk) : (s.modHusk f).prot = s.prot := rfl
@[simp] theorem modHusk_recorder (f : Husk → Husk) : (s.modHusk f).recorder = s.recorder := rfl
@[simp] theorem modHusk_safety (f : Husk → Husk) : (s.modHusk f).safety = s.safety := rfl
@[simp] theorem modHusk_net (f : Husk → Husk) : (s.modHusk f).net = s.net := rfl
@[simp] theorem modHusk_cool (f : Husk → Husk) : (s.modHusk f).cool = s.cool := rfl
@[simp] theorem modHusk_clk (f : Husk → Husk) : (s.modHusk f).clk = s.clk := rfl
@[simp] theorem modHusk_mem (f : Husk → Husk) : (s.modHusk f).mem = s.mem := rfl
@[simp] theorem modHusk_husk (f : Husk → Husk) : (s.modHusk f).husk = f s.husk := rfl

@[simp] theorem modRing_pending (n : Nat) (f : Ring → Ring) : (s.modRing n f).pending = s.pending := rfl
@[simp] theorem modRing_time (n : Nat) (f : Ring → Ring) : (s.modRing n f).time = s.time := rfl
@[simp] theorem modRing_timeValid (n : Nat) (f : Ring → Ring) : (s.modRing n f).timeValid = s.timeValid := rfl
@[simp] theorem modRing_timeLoaded (n : Nat) (f : Ring → Ring) : (s.modRing n f).timeLoaded = s.timeLoaded := rfl
@[simp] theorem modRing_nextTick (n : Nat) (f : Ring → Ring) : (s.modRing n f).nextTick = s.nextTick := rfl
@[simp] theorem modRing_freeCtr (n : Nat) (f : Ring → Ring) : (s.modRing n f).freeCtr = s.freeCtr := rfl
@[simp] theorem modRing_sys (n : Nat) (f : Ring → Ring) : (s.modRing n f).sys = s.sys := rfl
@[simp] theorem modRing_host (n : Nat) (f : Ring → Ring) : (s.modRing n f).host = s.host := rfl
@[simp] theorem modRing_esc (n : Nat) (f : Ring → Ring) : (s.modRing n f).esc = s.esc := rfl
@[simp] theorem modRing_rings (n : Nat) (f : Ring → Ring) : (s.modRing n f).rings = upd s.rings n f := rfl
@[simp] theorem modRing_cmd (n : Nat) (f : Ring → Ring) : (s.modRing n f).cmd = s.cmd := rfl
@[simp] theorem modRing_modes (n : Nat) (f : Ring → Ring) : (s.modRing n f).modes = s.modes := rfl
@[simp] theorem modRing_eng (n : Nat) (f : Ring → Ring) : (s.modRing n f).eng = s.eng := rfl
@[simp] theorem modRing_gens (n : Nat) (f : Ring → Ring) : (s.modRing n f).gens = s.gens := rfl
@[simp] theorem modRing_grid (n : Nat) (f : Ring → Ring) : (s.modRing n f).grid = s.grid := rfl
@[simp] theorem modRing_rt (n : Nat) (f : Ring → Ring) : (s.modRing n f).rt = s.rt := rfl
@[simp] theorem modRing_dcl (n : Nat) (f : Ring → Ring) : (s.modRing n f).dcl = s.dcl := rfl
@[simp] theorem modRing_isl (n : Nat) (f : Ring → Ring) : (s.modRing n f).isl = s.isl := rfl
@[simp] theorem modRing_ports (n : Nat) (f : Ring → Ring) : (s.modRing n f).ports = s.ports := rfl
@[simp] theorem modRing_pwm (n : Nat) (f : Ring → Ring) : (s.modRing n f).pwm = s.pwm := rfl
@[simp] theorem modRing_sense (n : Nat) (f : Ring → Ring) : (s.modRing n f).sense = s.sense := rfl
@[simp] theorem modRing_prot (n : Nat) (f : Ring → Ring) : (s.modRing n f).prot = s.prot := rfl
@[simp] theorem modRing_recorder (n : Nat) (f : Ring → Ring) : (s.modRing n f).recorder = s.recorder := rfl
@[simp] theorem modRing_safety (n : Nat) (f : Ring → Ring) : (s.modRing n f).safety = s.safety := rfl
@[simp] theorem modRing_net (n : Nat) (f : Ring → Ring) : (s.modRing n f).net = s.net := rfl
@[simp] theorem modRing_cool (n : Nat) (f : Ring → Ring) : (s.modRing n f).cool = s.cool := rfl
@[simp] theorem modRing_clk (n : Nat) (f : Ring → Ring) : (s.modRing n f).clk = s.clk := rfl
@[simp] theorem modRing_mem (n : Nat) (f : Ring → Ring) : (s.modRing n f).mem = s.mem := rfl
@[simp] theorem modRing_husk (n : Nat) (f : Ring → Ring) : (s.modRing n f).husk = s.husk := rfl

@[simp] theorem modGen_pending (n : Nat) (f : Gen → Gen) : (s.modGen n f).pending = s.pending := rfl
@[simp] theorem modGen_time (n : Nat) (f : Gen → Gen) : (s.modGen n f).time = s.time := rfl
@[simp] theorem modGen_timeValid (n : Nat) (f : Gen → Gen) : (s.modGen n f).timeValid = s.timeValid := rfl
@[simp] theorem modGen_timeLoaded (n : Nat) (f : Gen → Gen) : (s.modGen n f).timeLoaded = s.timeLoaded := rfl
@[simp] theorem modGen_nextTick (n : Nat) (f : Gen → Gen) : (s.modGen n f).nextTick = s.nextTick := rfl
@[simp] theorem modGen_freeCtr (n : Nat) (f : Gen → Gen) : (s.modGen n f).freeCtr = s.freeCtr := rfl
@[simp] theorem modGen_sys (n : Nat) (f : Gen → Gen) : (s.modGen n f).sys = s.sys := rfl
@[simp] theorem modGen_host (n : Nat) (f : Gen → Gen) : (s.modGen n f).host = s.host := rfl
@[simp] theorem modGen_esc (n : Nat) (f : Gen → Gen) : (s.modGen n f).esc = s.esc := rfl
@[simp] theorem modGen_rings (n : Nat) (f : Gen → Gen) : (s.modGen n f).rings = s.rings := rfl
@[simp] theorem modGen_cmd (n : Nat) (f : Gen → Gen) : (s.modGen n f).cmd = s.cmd := rfl
@[simp] theorem modGen_modes (n : Nat) (f : Gen → Gen) : (s.modGen n f).modes = s.modes := rfl
@[simp] theorem modGen_eng (n : Nat) (f : Gen → Gen) : (s.modGen n f).eng = s.eng := rfl
@[simp] theorem modGen_gens (n : Nat) (f : Gen → Gen) : (s.modGen n f).gens = upd s.gens n f := rfl
@[simp] theorem modGen_grid (n : Nat) (f : Gen → Gen) : (s.modGen n f).grid = s.grid := rfl
@[simp] theorem modGen_rt (n : Nat) (f : Gen → Gen) : (s.modGen n f).rt = s.rt := rfl
@[simp] theorem modGen_dcl (n : Nat) (f : Gen → Gen) : (s.modGen n f).dcl = s.dcl := rfl
@[simp] theorem modGen_isl (n : Nat) (f : Gen → Gen) : (s.modGen n f).isl = s.isl := rfl
@[simp] theorem modGen_ports (n : Nat) (f : Gen → Gen) : (s.modGen n f).ports = s.ports := rfl
@[simp] theorem modGen_pwm (n : Nat) (f : Gen → Gen) : (s.modGen n f).pwm = s.pwm := rfl
@[simp] theorem modGen_sense (n : Nat) (f : Gen → Gen) : (s.modGen n f).sense = s.sense := rfl
@[simp] theorem modGen_prot (n : Nat) (f : Gen → Gen) : (s.modGen n f).prot = s.prot := rfl
@[simp] theorem modGen_recorder (n : Nat) (f : Gen → Gen) : (s.modGen n f).recorder = s.recorder := rfl
@[simp] theorem modGen_safety (n : Nat) (f : Gen → Gen) : (s.modGen n f).safety = s.safety := rfl
@[simp] theorem modGen_net (n : Nat) (f : Gen → Gen) : (s.modGen n f).net = s.net := rfl
@[simp] theorem modGen_cool (n : Nat) (f : Gen → Gen) : (s.modGen n f).cool = s.cool := rfl
@[simp] theorem modGen_clk (n : Nat) (f : Gen → Gen) : (s.modGen n f).clk = s.clk := rfl
@[simp] theorem modGen_mem (n : Nat) (f : Gen → Gen) : (s.modGen n f).mem = s.mem := rfl
@[simp] theorem modGen_husk (n : Nat) (f : Gen → Gen) : (s.modGen n f).husk = s.husk := rfl

@[simp] theorem modChan_pending (n : Nat) (f : Chan → Chan) : (s.modChan n f).pending = s.pending := rfl
@[simp] theorem modChan_time (n : Nat) (f : Chan → Chan) : (s.modChan n f).time = s.time := rfl
@[simp] theorem modChan_timeValid (n : Nat) (f : Chan → Chan) : (s.modChan n f).timeValid = s.timeValid := rfl
@[simp] theorem modChan_timeLoaded (n : Nat) (f : Chan → Chan) : (s.modChan n f).timeLoaded = s.timeLoaded := rfl
@[simp] theorem modChan_nextTick (n : Nat) (f : Chan → Chan) : (s.modChan n f).nextTick = s.nextTick := rfl
@[simp] theorem modChan_freeCtr (n : Nat) (f : Chan → Chan) : (s.modChan n f).freeCtr = s.freeCtr := rfl
@[simp] theorem modChan_sys (n : Nat) (f : Chan → Chan) : (s.modChan n f).sys = s.sys := rfl
@[simp] theorem modChan_host (n : Nat) (f : Chan → Chan) : (s.modChan n f).host = s.host := rfl
@[simp] theorem modChan_esc (n : Nat) (f : Chan → Chan) : (s.modChan n f).esc = s.esc := rfl
@[simp] theorem modChan_rings (n : Nat) (f : Chan → Chan) : (s.modChan n f).rings = s.rings := rfl
@[simp] theorem modChan_cmd (n : Nat) (f : Chan → Chan) : (s.modChan n f).cmd = s.cmd := rfl
@[simp] theorem modChan_modes (n : Nat) (f : Chan → Chan) : (s.modChan n f).modes = s.modes := rfl
@[simp] theorem modChan_eng (n : Nat) (f : Chan → Chan) : (s.modChan n f).eng = { s.eng with chans := upd s.eng.chans n f } := rfl
@[simp] theorem modChan_gens (n : Nat) (f : Chan → Chan) : (s.modChan n f).gens = s.gens := rfl
@[simp] theorem modChan_grid (n : Nat) (f : Chan → Chan) : (s.modChan n f).grid = s.grid := rfl
@[simp] theorem modChan_rt (n : Nat) (f : Chan → Chan) : (s.modChan n f).rt = s.rt := rfl
@[simp] theorem modChan_dcl (n : Nat) (f : Chan → Chan) : (s.modChan n f).dcl = s.dcl := rfl
@[simp] theorem modChan_isl (n : Nat) (f : Chan → Chan) : (s.modChan n f).isl = s.isl := rfl
@[simp] theorem modChan_ports (n : Nat) (f : Chan → Chan) : (s.modChan n f).ports = s.ports := rfl
@[simp] theorem modChan_pwm (n : Nat) (f : Chan → Chan) : (s.modChan n f).pwm = s.pwm := rfl
@[simp] theorem modChan_sense (n : Nat) (f : Chan → Chan) : (s.modChan n f).sense = s.sense := rfl
@[simp] theorem modChan_prot (n : Nat) (f : Chan → Chan) : (s.modChan n f).prot = s.prot := rfl
@[simp] theorem modChan_recorder (n : Nat) (f : Chan → Chan) : (s.modChan n f).recorder = s.recorder := rfl
@[simp] theorem modChan_safety (n : Nat) (f : Chan → Chan) : (s.modChan n f).safety = s.safety := rfl
@[simp] theorem modChan_net (n : Nat) (f : Chan → Chan) : (s.modChan n f).net = s.net := rfl
@[simp] theorem modChan_cool (n : Nat) (f : Chan → Chan) : (s.modChan n f).cool = s.cool := rfl
@[simp] theorem modChan_clk (n : Nat) (f : Chan → Chan) : (s.modChan n f).clk = s.clk := rfl
@[simp] theorem modChan_mem (n : Nat) (f : Chan → Chan) : (s.modChan n f).mem = s.mem := rfl
@[simp] theorem modChan_husk (n : Nat) (f : Chan → Chan) : (s.modChan n f).husk = s.husk := rfl

@[simp] theorem modLeg_pending (n : Nat) (f : Leg → Leg) : (s.modLeg n f).pending = s.pending := rfl
@[simp] theorem modLeg_time (n : Nat) (f : Leg → Leg) : (s.modLeg n f).time = s.time := rfl
@[simp] theorem modLeg_timeValid (n : Nat) (f : Leg → Leg) : (s.modLeg n f).timeValid = s.timeValid := rfl
@[simp] theorem modLeg_timeLoaded (n : Nat) (f : Leg → Leg) : (s.modLeg n f).timeLoaded = s.timeLoaded := rfl
@[simp] theorem modLeg_nextTick (n : Nat) (f : Leg → Leg) : (s.modLeg n f).nextTick = s.nextTick := rfl
@[simp] theorem modLeg_freeCtr (n : Nat) (f : Leg → Leg) : (s.modLeg n f).freeCtr = s.freeCtr := rfl
@[simp] theorem modLeg_sys (n : Nat) (f : Leg → Leg) : (s.modLeg n f).sys = s.sys := rfl
@[simp] theorem modLeg_host (n : Nat) (f : Leg → Leg) : (s.modLeg n f).host = s.host := rfl
@[simp] theorem modLeg_esc (n : Nat) (f : Leg → Leg) : (s.modLeg n f).esc = s.esc := rfl
@[simp] theorem modLeg_rings (n : Nat) (f : Leg → Leg) : (s.modLeg n f).rings = s.rings := rfl
@[simp] theorem modLeg_cmd (n : Nat) (f : Leg → Leg) : (s.modLeg n f).cmd = s.cmd := rfl
@[simp] theorem modLeg_modes (n : Nat) (f : Leg → Leg) : (s.modLeg n f).modes = s.modes := rfl
@[simp] theorem modLeg_eng (n : Nat) (f : Leg → Leg) : (s.modLeg n f).eng = s.eng := rfl
@[simp] theorem modLeg_gens (n : Nat) (f : Leg → Leg) : (s.modLeg n f).gens = s.gens := rfl
@[simp] theorem modLeg_grid (n : Nat) (f : Leg → Leg) : (s.modLeg n f).grid = s.grid := rfl
@[simp] theorem modLeg_rt (n : Nat) (f : Leg → Leg) : (s.modLeg n f).rt = s.rt := rfl
@[simp] theorem modLeg_dcl (n : Nat) (f : Leg → Leg) : (s.modLeg n f).dcl = s.dcl := rfl
@[simp] theorem modLeg_isl (n : Nat) (f : Leg → Leg) : (s.modLeg n f).isl = s.isl := rfl
@[simp] theorem modLeg_ports (n : Nat) (f : Leg → Leg) : (s.modLeg n f).ports = s.ports := rfl
@[simp] theorem modLeg_pwm (n : Nat) (f : Leg → Leg) : (s.modLeg n f).pwm = { s.pwm with legs := upd s.pwm.legs n f } := rfl
@[simp] theorem modLeg_sense (n : Nat) (f : Leg → Leg) : (s.modLeg n f).sense = s.sense := rfl
@[simp] theorem modLeg_prot (n : Nat) (f : Leg → Leg) : (s.modLeg n f).prot = s.prot := rfl
@[simp] theorem modLeg_recorder (n : Nat) (f : Leg → Leg) : (s.modLeg n f).recorder = s.recorder := rfl
@[simp] theorem modLeg_safety (n : Nat) (f : Leg → Leg) : (s.modLeg n f).safety = s.safety := rfl
@[simp] theorem modLeg_net (n : Nat) (f : Leg → Leg) : (s.modLeg n f).net = s.net := rfl
@[simp] theorem modLeg_cool (n : Nat) (f : Leg → Leg) : (s.modLeg n f).cool = s.cool := rfl
@[simp] theorem modLeg_clk (n : Nat) (f : Leg → Leg) : (s.modLeg n f).clk = s.clk := rfl
@[simp] theorem modLeg_mem (n : Nat) (f : Leg → Leg) : (s.modLeg n f).mem = s.mem := rfl
@[simp] theorem modLeg_husk (n : Nat) (f : Leg → Leg) : (s.modLeg n f).husk = s.husk := rfl

@[simp] theorem modTb_pending (n : Nat) (f : Tb → Tb) : (s.modTb n f).pending = s.pending := rfl
@[simp] theorem modTb_time (n : Nat) (f : Tb → Tb) : (s.modTb n f).time = s.time := rfl
@[simp] theorem modTb_timeValid (n : Nat) (f : Tb → Tb) : (s.modTb n f).timeValid = s.timeValid := rfl
@[simp] theorem modTb_timeLoaded (n : Nat) (f : Tb → Tb) : (s.modTb n f).timeLoaded = s.timeLoaded := rfl
@[simp] theorem modTb_nextTick (n : Nat) (f : Tb → Tb) : (s.modTb n f).nextTick = s.nextTick := rfl
@[simp] theorem modTb_freeCtr (n : Nat) (f : Tb → Tb) : (s.modTb n f).freeCtr = s.freeCtr := rfl
@[simp] theorem modTb_sys (n : Nat) (f : Tb → Tb) : (s.modTb n f).sys = s.sys := rfl
@[simp] theorem modTb_host (n : Nat) (f : Tb → Tb) : (s.modTb n f).host = s.host := rfl
@[simp] theorem modTb_esc (n : Nat) (f : Tb → Tb) : (s.modTb n f).esc = s.esc := rfl
@[simp] theorem modTb_rings (n : Nat) (f : Tb → Tb) : (s.modTb n f).rings = s.rings := rfl
@[simp] theorem modTb_cmd (n : Nat) (f : Tb → Tb) : (s.modTb n f).cmd = s.cmd := rfl
@[simp] theorem modTb_modes (n : Nat) (f : Tb → Tb) : (s.modTb n f).modes = s.modes := rfl
@[simp] theorem modTb_eng (n : Nat) (f : Tb → Tb) : (s.modTb n f).eng = s.eng := rfl
@[simp] theorem modTb_gens (n : Nat) (f : Tb → Tb) : (s.modTb n f).gens = s.gens := rfl
@[simp] theorem modTb_grid (n : Nat) (f : Tb → Tb) : (s.modTb n f).grid = s.grid := rfl
@[simp] theorem modTb_rt (n : Nat) (f : Tb → Tb) : (s.modTb n f).rt = s.rt := rfl
@[simp] theorem modTb_dcl (n : Nat) (f : Tb → Tb) : (s.modTb n f).dcl = s.dcl := rfl
@[simp] theorem modTb_isl (n : Nat) (f : Tb → Tb) : (s.modTb n f).isl = s.isl := rfl
@[simp] theorem modTb_ports (n : Nat) (f : Tb → Tb) : (s.modTb n f).ports = s.ports := rfl
@[simp] theorem modTb_pwm (n : Nat) (f : Tb → Tb) : (s.modTb n f).pwm = { s.pwm with tbs := upd s.pwm.tbs n f } := rfl
@[simp] theorem modTb_sense (n : Nat) (f : Tb → Tb) : (s.modTb n f).sense = s.sense := rfl
@[simp] theorem modTb_prot (n : Nat) (f : Tb → Tb) : (s.modTb n f).prot = s.prot := rfl
@[simp] theorem modTb_recorder (n : Nat) (f : Tb → Tb) : (s.modTb n f).recorder = s.recorder := rfl
@[simp] theorem modTb_safety (n : Nat) (f : Tb → Tb) : (s.modTb n f).safety = s.safety := rfl
@[simp] theorem modTb_net (n : Nat) (f : Tb → Tb) : (s.modTb n f).net = s.net := rfl
@[simp] theorem modTb_cool (n : Nat) (f : Tb → Tb) : (s.modTb n f).cool = s.cool := rfl
@[simp] theorem modTb_clk (n : Nat) (f : Tb → Tb) : (s.modTb n f).clk = s.clk := rfl
@[simp] theorem modTb_mem (n : Nat) (f : Tb → Tb) : (s.modTb n f).mem = s.mem := rfl
@[simp] theorem modTb_husk (n : Nat) (f : Tb → Tb) : (s.modTb n f).husk = s.husk := rfl

@[simp] theorem modPGroup_pending (n : Nat) (f : PGroup → PGroup) : (s.modPGroup n f).pending = s.pending := rfl
@[simp] theorem modPGroup_time (n : Nat) (f : PGroup → PGroup) : (s.modPGroup n f).time = s.time := rfl
@[simp] theorem modPGroup_timeValid (n : Nat) (f : PGroup → PGroup) : (s.modPGroup n f).timeValid = s.timeValid := rfl
@[simp] theorem modPGroup_timeLoaded (n : Nat) (f : PGroup → PGroup) : (s.modPGroup n f).timeLoaded = s.timeLoaded := rfl
@[simp] theorem modPGroup_nextTick (n : Nat) (f : PGroup → PGroup) : (s.modPGroup n f).nextTick = s.nextTick := rfl
@[simp] theorem modPGroup_freeCtr (n : Nat) (f : PGroup → PGroup) : (s.modPGroup n f).freeCtr = s.freeCtr := rfl
@[simp] theorem modPGroup_sys (n : Nat) (f : PGroup → PGroup) : (s.modPGroup n f).sys = s.sys := rfl
@[simp] theorem modPGroup_host (n : Nat) (f : PGroup → PGroup) : (s.modPGroup n f).host = s.host := rfl
@[simp] theorem modPGroup_esc (n : Nat) (f : PGroup → PGroup) : (s.modPGroup n f).esc = s.esc := rfl
@[simp] theorem modPGroup_rings (n : Nat) (f : PGroup → PGroup) : (s.modPGroup n f).rings = s.rings := rfl
@[simp] theorem modPGroup_cmd (n : Nat) (f : PGroup → PGroup) : (s.modPGroup n f).cmd = s.cmd := rfl
@[simp] theorem modPGroup_modes (n : Nat) (f : PGroup → PGroup) : (s.modPGroup n f).modes = s.modes := rfl
@[simp] theorem modPGroup_eng (n : Nat) (f : PGroup → PGroup) : (s.modPGroup n f).eng = s.eng := rfl
@[simp] theorem modPGroup_gens (n : Nat) (f : PGroup → PGroup) : (s.modPGroup n f).gens = s.gens := rfl
@[simp] theorem modPGroup_grid (n : Nat) (f : PGroup → PGroup) : (s.modPGroup n f).grid = s.grid := rfl
@[simp] theorem modPGroup_rt (n : Nat) (f : PGroup → PGroup) : (s.modPGroup n f).rt = s.rt := rfl
@[simp] theorem modPGroup_dcl (n : Nat) (f : PGroup → PGroup) : (s.modPGroup n f).dcl = s.dcl := rfl
@[simp] theorem modPGroup_isl (n : Nat) (f : PGroup → PGroup) : (s.modPGroup n f).isl = s.isl := rfl
@[simp] theorem modPGroup_ports (n : Nat) (f : PGroup → PGroup) : (s.modPGroup n f).ports = s.ports := rfl
@[simp] theorem modPGroup_pwm (n : Nat) (f : PGroup → PGroup) : (s.modPGroup n f).pwm = s.pwm := rfl
@[simp] theorem modPGroup_sense (n : Nat) (f : PGroup → PGroup) : (s.modPGroup n f).sense = s.sense := rfl
@[simp] theorem modPGroup_prot (n : Nat) (f : PGroup → PGroup) : (s.modPGroup n f).prot = { s.prot with groups := upd s.prot.groups n f } := rfl
@[simp] theorem modPGroup_recorder (n : Nat) (f : PGroup → PGroup) : (s.modPGroup n f).recorder = s.recorder := rfl
@[simp] theorem modPGroup_safety (n : Nat) (f : PGroup → PGroup) : (s.modPGroup n f).safety = s.safety := rfl
@[simp] theorem modPGroup_net (n : Nat) (f : PGroup → PGroup) : (s.modPGroup n f).net = s.net := rfl
@[simp] theorem modPGroup_cool (n : Nat) (f : PGroup → PGroup) : (s.modPGroup n f).cool = s.cool := rfl
@[simp] theorem modPGroup_clk (n : Nat) (f : PGroup → PGroup) : (s.modPGroup n f).clk = s.clk := rfl
@[simp] theorem modPGroup_mem (n : Nat) (f : PGroup → PGroup) : (s.modPGroup n f).mem = s.mem := rfl
@[simp] theorem modPGroup_husk (n : Nat) (f : PGroup → PGroup) : (s.modPGroup n f).husk = s.husk := rfl

@[simp] theorem modCmp_pending (n : Nat) (f : Cmp → Cmp) : (s.modCmp n f).pending = s.pending := rfl
@[simp] theorem modCmp_time (n : Nat) (f : Cmp → Cmp) : (s.modCmp n f).time = s.time := rfl
@[simp] theorem modCmp_timeValid (n : Nat) (f : Cmp → Cmp) : (s.modCmp n f).timeValid = s.timeValid := rfl
@[simp] theorem modCmp_timeLoaded (n : Nat) (f : Cmp → Cmp) : (s.modCmp n f).timeLoaded = s.timeLoaded := rfl
@[simp] theorem modCmp_nextTick (n : Nat) (f : Cmp → Cmp) : (s.modCmp n f).nextTick = s.nextTick := rfl
@[simp] theorem modCmp_freeCtr (n : Nat) (f : Cmp → Cmp) : (s.modCmp n f).freeCtr = s.freeCtr := rfl
@[simp] theorem modCmp_sys (n : Nat) (f : Cmp → Cmp) : (s.modCmp n f).sys = s.sys := rfl
@[simp] theorem modCmp_host (n : Nat) (f : Cmp → Cmp) : (s.modCmp n f).host = s.host := rfl
@[simp] theorem modCmp_esc (n : Nat) (f : Cmp → Cmp) : (s.modCmp n f).esc = s.esc := rfl
@[simp] theorem modCmp_rings (n : Nat) (f : Cmp → Cmp) : (s.modCmp n f).rings = s.rings := rfl
@[simp] theorem modCmp_cmd (n : Nat) (f : Cmp → Cmp) : (s.modCmp n f).cmd = s.cmd := rfl
@[simp] theorem modCmp_modes (n : Nat) (f : Cmp → Cmp) : (s.modCmp n f).modes = s.modes := rfl
@[simp] theorem modCmp_eng (n : Nat) (f : Cmp → Cmp) : (s.modCmp n f).eng = s.eng := rfl
@[simp] theorem modCmp_gens (n : Nat) (f : Cmp → Cmp) : (s.modCmp n f).gens = s.gens := rfl
@[simp] theorem modCmp_grid (n : Nat) (f : Cmp → Cmp) : (s.modCmp n f).grid = s.grid := rfl
@[simp] theorem modCmp_rt (n : Nat) (f : Cmp → Cmp) : (s.modCmp n f).rt = s.rt := rfl
@[simp] theorem modCmp_dcl (n : Nat) (f : Cmp → Cmp) : (s.modCmp n f).dcl = s.dcl := rfl
@[simp] theorem modCmp_isl (n : Nat) (f : Cmp → Cmp) : (s.modCmp n f).isl = s.isl := rfl
@[simp] theorem modCmp_ports (n : Nat) (f : Cmp → Cmp) : (s.modCmp n f).ports = s.ports := rfl
@[simp] theorem modCmp_pwm (n : Nat) (f : Cmp → Cmp) : (s.modCmp n f).pwm = s.pwm := rfl
@[simp] theorem modCmp_sense (n : Nat) (f : Cmp → Cmp) : (s.modCmp n f).sense = s.sense := rfl
@[simp] theorem modCmp_prot (n : Nat) (f : Cmp → Cmp) : (s.modCmp n f).prot = { s.prot with cmps := upd s.prot.cmps n f } := rfl
@[simp] theorem modCmp_recorder (n : Nat) (f : Cmp → Cmp) : (s.modCmp n f).recorder = s.recorder := rfl
@[simp] theorem modCmp_safety (n : Nat) (f : Cmp → Cmp) : (s.modCmp n f).safety = s.safety := rfl
@[simp] theorem modCmp_net (n : Nat) (f : Cmp → Cmp) : (s.modCmp n f).net = s.net := rfl
@[simp] theorem modCmp_cool (n : Nat) (f : Cmp → Cmp) : (s.modCmp n f).cool = s.cool := rfl
@[simp] theorem modCmp_clk (n : Nat) (f : Cmp → Cmp) : (s.modCmp n f).clk = s.clk := rfl
@[simp] theorem modCmp_mem (n : Nat) (f : Cmp → Cmp) : (s.modCmp n f).mem = s.mem := rfl
@[simp] theorem modCmp_husk (n : Nat) (f : Cmp → Cmp) : (s.modCmp n f).husk = s.husk := rfl

@[simp] theorem modFlt_pending (n : Nat) (f : Flt → Flt) : (s.modFlt n f).pending = s.pending := rfl
@[simp] theorem modFlt_time (n : Nat) (f : Flt → Flt) : (s.modFlt n f).time = s.time := rfl
@[simp] theorem modFlt_timeValid (n : Nat) (f : Flt → Flt) : (s.modFlt n f).timeValid = s.timeValid := rfl
@[simp] theorem modFlt_timeLoaded (n : Nat) (f : Flt → Flt) : (s.modFlt n f).timeLoaded = s.timeLoaded := rfl
@[simp] theorem modFlt_nextTick (n : Nat) (f : Flt → Flt) : (s.modFlt n f).nextTick = s.nextTick := rfl
@[simp] theorem modFlt_freeCtr (n : Nat) (f : Flt → Flt) : (s.modFlt n f).freeCtr = s.freeCtr := rfl
@[simp] theorem modFlt_sys (n : Nat) (f : Flt → Flt) : (s.modFlt n f).sys = s.sys := rfl
@[simp] theorem modFlt_host (n : Nat) (f : Flt → Flt) : (s.modFlt n f).host = s.host := rfl
@[simp] theorem modFlt_esc (n : Nat) (f : Flt → Flt) : (s.modFlt n f).esc = s.esc := rfl
@[simp] theorem modFlt_rings (n : Nat) (f : Flt → Flt) : (s.modFlt n f).rings = s.rings := rfl
@[simp] theorem modFlt_cmd (n : Nat) (f : Flt → Flt) : (s.modFlt n f).cmd = s.cmd := rfl
@[simp] theorem modFlt_modes (n : Nat) (f : Flt → Flt) : (s.modFlt n f).modes = s.modes := rfl
@[simp] theorem modFlt_eng (n : Nat) (f : Flt → Flt) : (s.modFlt n f).eng = s.eng := rfl
@[simp] theorem modFlt_gens (n : Nat) (f : Flt → Flt) : (s.modFlt n f).gens = s.gens := rfl
@[simp] theorem modFlt_grid (n : Nat) (f : Flt → Flt) : (s.modFlt n f).grid = s.grid := rfl
@[simp] theorem modFlt_rt (n : Nat) (f : Flt → Flt) : (s.modFlt n f).rt = s.rt := rfl
@[simp] theorem modFlt_dcl (n : Nat) (f : Flt → Flt) : (s.modFlt n f).dcl = s.dcl := rfl
@[simp] theorem modFlt_isl (n : Nat) (f : Flt → Flt) : (s.modFlt n f).isl = s.isl := rfl
@[simp] theorem modFlt_ports (n : Nat) (f : Flt → Flt) : (s.modFlt n f).ports = s.ports := rfl
@[simp] theorem modFlt_pwm (n : Nat) (f : Flt → Flt) : (s.modFlt n f).pwm = s.pwm := rfl
@[simp] theorem modFlt_sense (n : Nat) (f : Flt → Flt) : (s.modFlt n f).sense = s.sense := rfl
@[simp] theorem modFlt_prot (n : Nat) (f : Flt → Flt) : (s.modFlt n f).prot = { s.prot with flts := upd s.prot.flts n f } := rfl
@[simp] theorem modFlt_recorder (n : Nat) (f : Flt → Flt) : (s.modFlt n f).recorder = s.recorder := rfl
@[simp] theorem modFlt_safety (n : Nat) (f : Flt → Flt) : (s.modFlt n f).safety = s.safety := rfl
@[simp] theorem modFlt_net (n : Nat) (f : Flt → Flt) : (s.modFlt n f).net = s.net := rfl
@[simp] theorem modFlt_cool (n : Nat) (f : Flt → Flt) : (s.modFlt n f).cool = s.cool := rfl
@[simp] theorem modFlt_clk (n : Nat) (f : Flt → Flt) : (s.modFlt n f).clk = s.clk := rfl
@[simp] theorem modFlt_mem (n : Nat) (f : Flt → Flt) : (s.modFlt n f).mem = s.mem := rfl
@[simp] theorem modFlt_husk (n : Nat) (f : Flt → Flt) : (s.modFlt n f).husk = s.husk := rfl

@[simp] theorem modMon_pending (n : Nat) (f : Mon → Mon) : (s.modMon n f).pending = s.pending := rfl
@[simp] theorem modMon_time (n : Nat) (f : Mon → Mon) : (s.modMon n f).time = s.time := rfl
@[simp] theorem modMon_timeValid (n : Nat) (f : Mon → Mon) : (s.modMon n f).timeValid = s.timeValid := rfl
@[simp] theorem modMon_timeLoaded (n : Nat) (f : Mon → Mon) : (s.modMon n f).timeLoaded = s.timeLoaded := rfl
@[simp] theorem modMon_nextTick (n : Nat) (f : Mon → Mon) : (s.modMon n f).nextTick = s.nextTick := rfl
@[simp] theorem modMon_freeCtr (n : Nat) (f : Mon → Mon) : (s.modMon n f).freeCtr = s.freeCtr := rfl
@[simp] theorem modMon_sys (n : Nat) (f : Mon → Mon) : (s.modMon n f).sys = s.sys := rfl
@[simp] theorem modMon_host (n : Nat) (f : Mon → Mon) : (s.modMon n f).host = s.host := rfl
@[simp] theorem modMon_esc (n : Nat) (f : Mon → Mon) : (s.modMon n f).esc = s.esc := rfl
@[simp] theorem modMon_rings (n : Nat) (f : Mon → Mon) : (s.modMon n f).rings = s.rings := rfl
@[simp] theorem modMon_cmd (n : Nat) (f : Mon → Mon) : (s.modMon n f).cmd = s.cmd := rfl
@[simp] theorem modMon_modes (n : Nat) (f : Mon → Mon) : (s.modMon n f).modes = s.modes := rfl
@[simp] theorem modMon_eng (n : Nat) (f : Mon → Mon) : (s.modMon n f).eng = s.eng := rfl
@[simp] theorem modMon_gens (n : Nat) (f : Mon → Mon) : (s.modMon n f).gens = s.gens := rfl
@[simp] theorem modMon_grid (n : Nat) (f : Mon → Mon) : (s.modMon n f).grid = s.grid := rfl
@[simp] theorem modMon_rt (n : Nat) (f : Mon → Mon) : (s.modMon n f).rt = s.rt := rfl
@[simp] theorem modMon_dcl (n : Nat) (f : Mon → Mon) : (s.modMon n f).dcl = s.dcl := rfl
@[simp] theorem modMon_isl (n : Nat) (f : Mon → Mon) : (s.modMon n f).isl = s.isl := rfl
@[simp] theorem modMon_ports (n : Nat) (f : Mon → Mon) : (s.modMon n f).ports = s.ports := rfl
@[simp] theorem modMon_pwm (n : Nat) (f : Mon → Mon) : (s.modMon n f).pwm = s.pwm := rfl
@[simp] theorem modMon_sense (n : Nat) (f : Mon → Mon) : (s.modMon n f).sense = s.sense := rfl
@[simp] theorem modMon_prot (n : Nat) (f : Mon → Mon) : (s.modMon n f).prot = { s.prot with mons := upd s.prot.mons n f } := rfl
@[simp] theorem modMon_recorder (n : Nat) (f : Mon → Mon) : (s.modMon n f).recorder = s.recorder := rfl
@[simp] theorem modMon_safety (n : Nat) (f : Mon → Mon) : (s.modMon n f).safety = s.safety := rfl
@[simp] theorem modMon_net (n : Nat) (f : Mon → Mon) : (s.modMon n f).net = s.net := rfl
@[simp] theorem modMon_cool (n : Nat) (f : Mon → Mon) : (s.modMon n f).cool = s.cool := rfl
@[simp] theorem modMon_clk (n : Nat) (f : Mon → Mon) : (s.modMon n f).clk = s.clk := rfl
@[simp] theorem modMon_mem (n : Nat) (f : Mon → Mon) : (s.modMon n f).mem = s.mem := rfl
@[simp] theorem modMon_husk (n : Nat) (f : Mon → Mon) : (s.modMon n f).husk = s.husk := rfl

@[simp] theorem modAin_pending (n : Nat) (f : Ain → Ain) : (s.modAin n f).pending = s.pending := rfl
@[simp] theorem modAin_time (n : Nat) (f : Ain → Ain) : (s.modAin n f).time = s.time := rfl
@[simp] theorem modAin_timeValid (n : Nat) (f : Ain → Ain) : (s.modAin n f).timeValid = s.timeValid := rfl
@[simp] theorem modAin_timeLoaded (n : Nat) (f : Ain → Ain) : (s.modAin n f).timeLoaded = s.timeLoaded := rfl
@[simp] theorem modAin_nextTick (n : Nat) (f : Ain → Ain) : (s.modAin n f).nextTick = s.nextTick := rfl
@[simp] theorem modAin_freeCtr (n : Nat) (f : Ain → Ain) : (s.modAin n f).freeCtr = s.freeCtr := rfl
@[simp] theorem modAin_sys (n : Nat) (f : Ain → Ain) : (s.modAin n f).sys = s.sys := rfl
@[simp] theorem modAin_host (n : Nat) (f : Ain → Ain) : (s.modAin n f).host = s.host := rfl
@[simp] theorem modAin_esc (n : Nat) (f : Ain → Ain) : (s.modAin n f).esc = s.esc := rfl
@[simp] theorem modAin_rings (n : Nat) (f : Ain → Ain) : (s.modAin n f).rings = s.rings := rfl
@[simp] theorem modAin_cmd (n : Nat) (f : Ain → Ain) : (s.modAin n f).cmd = s.cmd := rfl
@[simp] theorem modAin_modes (n : Nat) (f : Ain → Ain) : (s.modAin n f).modes = s.modes := rfl
@[simp] theorem modAin_eng (n : Nat) (f : Ain → Ain) : (s.modAin n f).eng = s.eng := rfl
@[simp] theorem modAin_gens (n : Nat) (f : Ain → Ain) : (s.modAin n f).gens = s.gens := rfl
@[simp] theorem modAin_grid (n : Nat) (f : Ain → Ain) : (s.modAin n f).grid = s.grid := rfl
@[simp] theorem modAin_rt (n : Nat) (f : Ain → Ain) : (s.modAin n f).rt = s.rt := rfl
@[simp] theorem modAin_dcl (n : Nat) (f : Ain → Ain) : (s.modAin n f).dcl = s.dcl := rfl
@[simp] theorem modAin_isl (n : Nat) (f : Ain → Ain) : (s.modAin n f).isl = s.isl := rfl
@[simp] theorem modAin_ports (n : Nat) (f : Ain → Ain) : (s.modAin n f).ports = s.ports := rfl
@[simp] theorem modAin_pwm (n : Nat) (f : Ain → Ain) : (s.modAin n f).pwm = s.pwm := rfl
@[simp] theorem modAin_sense (n : Nat) (f : Ain → Ain) : (s.modAin n f).sense = { s.sense with ains := upd s.sense.ains n f } := rfl
@[simp] theorem modAin_prot (n : Nat) (f : Ain → Ain) : (s.modAin n f).prot = s.prot := rfl
@[simp] theorem modAin_recorder (n : Nat) (f : Ain → Ain) : (s.modAin n f).recorder = s.recorder := rfl
@[simp] theorem modAin_safety (n : Nat) (f : Ain → Ain) : (s.modAin n f).safety = s.safety := rfl
@[simp] theorem modAin_net (n : Nat) (f : Ain → Ain) : (s.modAin n f).net = s.net := rfl
@[simp] theorem modAin_cool (n : Nat) (f : Ain → Ain) : (s.modAin n f).cool = s.cool := rfl
@[simp] theorem modAin_clk (n : Nat) (f : Ain → Ain) : (s.modAin n f).clk = s.clk := rfl
@[simp] theorem modAin_mem (n : Nat) (f : Ain → Ain) : (s.modAin n f).mem = s.mem := rfl
@[simp] theorem modAin_husk (n : Nat) (f : Ain → Ain) : (s.modAin n f).husk = s.husk := rfl

@[simp] theorem modHk_pending (n : Nat) (f : Hk → Hk) : (s.modHk n f).pending = s.pending := rfl
@[simp] theorem modHk_time (n : Nat) (f : Hk → Hk) : (s.modHk n f).time = s.time := rfl
@[simp] theorem modHk_timeValid (n : Nat) (f : Hk → Hk) : (s.modHk n f).timeValid = s.timeValid := rfl
@[simp] theorem modHk_timeLoaded (n : Nat) (f : Hk → Hk) : (s.modHk n f).timeLoaded = s.timeLoaded := rfl
@[simp] theorem modHk_nextTick (n : Nat) (f : Hk → Hk) : (s.modHk n f).nextTick = s.nextTick := rfl
@[simp] theorem modHk_freeCtr (n : Nat) (f : Hk → Hk) : (s.modHk n f).freeCtr = s.freeCtr := rfl
@[simp] theorem modHk_sys (n : Nat) (f : Hk → Hk) : (s.modHk n f).sys = s.sys := rfl
@[simp] theorem modHk_host (n : Nat) (f : Hk → Hk) : (s.modHk n f).host = s.host := rfl
@[simp] theorem modHk_esc (n : Nat) (f : Hk → Hk) : (s.modHk n f).esc = s.esc := rfl
@[simp] theorem modHk_rings (n : Nat) (f : Hk → Hk) : (s.modHk n f).rings = s.rings := rfl
@[simp] theorem modHk_cmd (n : Nat) (f : Hk → Hk) : (s.modHk n f).cmd = s.cmd := rfl
@[simp] theorem modHk_modes (n : Nat) (f : Hk → Hk) : (s.modHk n f).modes = s.modes := rfl
@[simp] theorem modHk_eng (n : Nat) (f : Hk → Hk) : (s.modHk n f).eng = s.eng := rfl
@[simp] theorem modHk_gens (n : Nat) (f : Hk → Hk) : (s.modHk n f).gens = s.gens := rfl
@[simp] theorem modHk_grid (n : Nat) (f : Hk → Hk) : (s.modHk n f).grid = s.grid := rfl
@[simp] theorem modHk_rt (n : Nat) (f : Hk → Hk) : (s.modHk n f).rt = s.rt := rfl
@[simp] theorem modHk_dcl (n : Nat) (f : Hk → Hk) : (s.modHk n f).dcl = s.dcl := rfl
@[simp] theorem modHk_isl (n : Nat) (f : Hk → Hk) : (s.modHk n f).isl = s.isl := rfl
@[simp] theorem modHk_ports (n : Nat) (f : Hk → Hk) : (s.modHk n f).ports = s.ports := rfl
@[simp] theorem modHk_pwm (n : Nat) (f : Hk → Hk) : (s.modHk n f).pwm = s.pwm := rfl
@[simp] theorem modHk_sense (n : Nat) (f : Hk → Hk) : (s.modHk n f).sense = { s.sense with hks := upd s.sense.hks n f } := rfl
@[simp] theorem modHk_prot (n : Nat) (f : Hk → Hk) : (s.modHk n f).prot = s.prot := rfl
@[simp] theorem modHk_recorder (n : Nat) (f : Hk → Hk) : (s.modHk n f).recorder = s.recorder := rfl
@[simp] theorem modHk_safety (n : Nat) (f : Hk → Hk) : (s.modHk n f).safety = s.safety := rfl
@[simp] theorem modHk_net (n : Nat) (f : Hk → Hk) : (s.modHk n f).net = s.net := rfl
@[simp] theorem modHk_cool (n : Nat) (f : Hk → Hk) : (s.modHk n f).cool = s.cool := rfl
@[simp] theorem modHk_clk (n : Nat) (f : Hk → Hk) : (s.modHk n f).clk = s.clk := rfl
@[simp] theorem modHk_mem (n : Nat) (f : Hk → Hk) : (s.modHk n f).mem = s.mem := rfl
@[simp] theorem modHk_husk (n : Nat) (f : Hk → Hk) : (s.modHk n f).husk = s.husk := rfl

@[simp] theorem modSar_pending (n : Nat) (f : Sar → Sar) : (s.modSar n f).pending = s.pending := rfl
@[simp] theorem modSar_time (n : Nat) (f : Sar → Sar) : (s.modSar n f).time = s.time := rfl
@[simp] theorem modSar_timeValid (n : Nat) (f : Sar → Sar) : (s.modSar n f).timeValid = s.timeValid := rfl
@[simp] theorem modSar_timeLoaded (n : Nat) (f : Sar → Sar) : (s.modSar n f).timeLoaded = s.timeLoaded := rfl
@[simp] theorem modSar_nextTick (n : Nat) (f : Sar → Sar) : (s.modSar n f).nextTick = s.nextTick := rfl
@[simp] theorem modSar_freeCtr (n : Nat) (f : Sar → Sar) : (s.modSar n f).freeCtr = s.freeCtr := rfl
@[simp] theorem modSar_sys (n : Nat) (f : Sar → Sar) : (s.modSar n f).sys = s.sys := rfl
@[simp] theorem modSar_host (n : Nat) (f : Sar → Sar) : (s.modSar n f).host = s.host := rfl
@[simp] theorem modSar_esc (n : Nat) (f : Sar → Sar) : (s.modSar n f).esc = s.esc := rfl
@[simp] theorem modSar_rings (n : Nat) (f : Sar → Sar) : (s.modSar n f).rings = s.rings := rfl
@[simp] theorem modSar_cmd (n : Nat) (f : Sar → Sar) : (s.modSar n f).cmd = s.cmd := rfl
@[simp] theorem modSar_modes (n : Nat) (f : Sar → Sar) : (s.modSar n f).modes = s.modes := rfl
@[simp] theorem modSar_eng (n : Nat) (f : Sar → Sar) : (s.modSar n f).eng = s.eng := rfl
@[simp] theorem modSar_gens (n : Nat) (f : Sar → Sar) : (s.modSar n f).gens = s.gens := rfl
@[simp] theorem modSar_grid (n : Nat) (f : Sar → Sar) : (s.modSar n f).grid = s.grid := rfl
@[simp] theorem modSar_rt (n : Nat) (f : Sar → Sar) : (s.modSar n f).rt = s.rt := rfl
@[simp] theorem modSar_dcl (n : Nat) (f : Sar → Sar) : (s.modSar n f).dcl = s.dcl := rfl
@[simp] theorem modSar_isl (n : Nat) (f : Sar → Sar) : (s.modSar n f).isl = s.isl := rfl
@[simp] theorem modSar_ports (n : Nat) (f : Sar → Sar) : (s.modSar n f).ports = s.ports := rfl
@[simp] theorem modSar_pwm (n : Nat) (f : Sar → Sar) : (s.modSar n f).pwm = s.pwm := rfl
@[simp] theorem modSar_sense (n : Nat) (f : Sar → Sar) : (s.modSar n f).sense = { s.sense with sars := upd s.sense.sars n f } := rfl
@[simp] theorem modSar_prot (n : Nat) (f : Sar → Sar) : (s.modSar n f).prot = s.prot := rfl
@[simp] theorem modSar_recorder (n : Nat) (f : Sar → Sar) : (s.modSar n f).recorder = s.recorder := rfl
@[simp] theorem modSar_safety (n : Nat) (f : Sar → Sar) : (s.modSar n f).safety = s.safety := rfl
@[simp] theorem modSar_net (n : Nat) (f : Sar → Sar) : (s.modSar n f).net = s.net := rfl
@[simp] theorem modSar_cool (n : Nat) (f : Sar → Sar) : (s.modSar n f).cool = s.cool := rfl
@[simp] theorem modSar_clk (n : Nat) (f : Sar → Sar) : (s.modSar n f).clk = s.clk := rfl
@[simp] theorem modSar_mem (n : Nat) (f : Sar → Sar) : (s.modSar n f).mem = s.mem := rfl
@[simp] theorem modSar_husk (n : Nat) (f : Sar → Sar) : (s.modSar n f).husk = s.husk := rfl

@[simp] theorem modKir_pending (n : Nat) (f : Kir → Kir) : (s.modKir n f).pending = s.pending := rfl
@[simp] theorem modKir_time (n : Nat) (f : Kir → Kir) : (s.modKir n f).time = s.time := rfl
@[simp] theorem modKir_timeValid (n : Nat) (f : Kir → Kir) : (s.modKir n f).timeValid = s.timeValid := rfl
@[simp] theorem modKir_timeLoaded (n : Nat) (f : Kir → Kir) : (s.modKir n f).timeLoaded = s.timeLoaded := rfl
@[simp] theorem modKir_nextTick (n : Nat) (f : Kir → Kir) : (s.modKir n f).nextTick = s.nextTick := rfl
@[simp] theorem modKir_freeCtr (n : Nat) (f : Kir → Kir) : (s.modKir n f).freeCtr = s.freeCtr := rfl
@[simp] theorem modKir_sys (n : Nat) (f : Kir → Kir) : (s.modKir n f).sys = s.sys := rfl
@[simp] theorem modKir_host (n : Nat) (f : Kir → Kir) : (s.modKir n f).host = s.host := rfl
@[simp] theorem modKir_esc (n : Nat) (f : Kir → Kir) : (s.modKir n f).esc = s.esc := rfl
@[simp] theorem modKir_rings (n : Nat) (f : Kir → Kir) : (s.modKir n f).rings = s.rings := rfl
@[simp] theorem modKir_cmd (n : Nat) (f : Kir → Kir) : (s.modKir n f).cmd = s.cmd := rfl
@[simp] theorem modKir_modes (n : Nat) (f : Kir → Kir) : (s.modKir n f).modes = s.modes := rfl
@[simp] theorem modKir_eng (n : Nat) (f : Kir → Kir) : (s.modKir n f).eng = s.eng := rfl
@[simp] theorem modKir_gens (n : Nat) (f : Kir → Kir) : (s.modKir n f).gens = s.gens := rfl
@[simp] theorem modKir_grid (n : Nat) (f : Kir → Kir) : (s.modKir n f).grid = s.grid := rfl
@[simp] theorem modKir_rt (n : Nat) (f : Kir → Kir) : (s.modKir n f).rt = s.rt := rfl
@[simp] theorem modKir_dcl (n : Nat) (f : Kir → Kir) : (s.modKir n f).dcl = s.dcl := rfl
@[simp] theorem modKir_isl (n : Nat) (f : Kir → Kir) : (s.modKir n f).isl = s.isl := rfl
@[simp] theorem modKir_ports (n : Nat) (f : Kir → Kir) : (s.modKir n f).ports = s.ports := rfl
@[simp] theorem modKir_pwm (n : Nat) (f : Kir → Kir) : (s.modKir n f).pwm = s.pwm := rfl
@[simp] theorem modKir_sense (n : Nat) (f : Kir → Kir) : (s.modKir n f).sense = { s.sense with kirs := upd s.sense.kirs n f } := rfl
@[simp] theorem modKir_prot (n : Nat) (f : Kir → Kir) : (s.modKir n f).prot = s.prot := rfl
@[simp] theorem modKir_recorder (n : Nat) (f : Kir → Kir) : (s.modKir n f).recorder = s.recorder := rfl
@[simp] theorem modKir_safety (n : Nat) (f : Kir → Kir) : (s.modKir n f).safety = s.safety := rfl
@[simp] theorem modKir_net (n : Nat) (f : Kir → Kir) : (s.modKir n f).net = s.net := rfl
@[simp] theorem modKir_cool (n : Nat) (f : Kir → Kir) : (s.modKir n f).cool = s.cool := rfl
@[simp] theorem modKir_clk (n : Nat) (f : Kir → Kir) : (s.modKir n f).clk = s.clk := rfl
@[simp] theorem modKir_mem (n : Nat) (f : Kir → Kir) : (s.modKir n f).mem = s.mem := rfl
@[simp] theorem modKir_husk (n : Nat) (f : Kir → Kir) : (s.modKir n f).husk = s.husk := rfl

@[simp] theorem modPv_pending (n : Nat) (f : Pv → Pv) : (s.modPv n f).pending = s.pending := rfl
@[simp] theorem modPv_time (n : Nat) (f : Pv → Pv) : (s.modPv n f).time = s.time := rfl
@[simp] theorem modPv_timeValid (n : Nat) (f : Pv → Pv) : (s.modPv n f).timeValid = s.timeValid := rfl
@[simp] theorem modPv_timeLoaded (n : Nat) (f : Pv → Pv) : (s.modPv n f).timeLoaded = s.timeLoaded := rfl
@[simp] theorem modPv_nextTick (n : Nat) (f : Pv → Pv) : (s.modPv n f).nextTick = s.nextTick := rfl
@[simp] theorem modPv_freeCtr (n : Nat) (f : Pv → Pv) : (s.modPv n f).freeCtr = s.freeCtr := rfl
@[simp] theorem modPv_sys (n : Nat) (f : Pv → Pv) : (s.modPv n f).sys = s.sys := rfl
@[simp] theorem modPv_host (n : Nat) (f : Pv → Pv) : (s.modPv n f).host = s.host := rfl
@[simp] theorem modPv_esc (n : Nat) (f : Pv → Pv) : (s.modPv n f).esc = s.esc := rfl
@[simp] theorem modPv_rings (n : Nat) (f : Pv → Pv) : (s.modPv n f).rings = s.rings := rfl
@[simp] theorem modPv_cmd (n : Nat) (f : Pv → Pv) : (s.modPv n f).cmd = s.cmd := rfl
@[simp] theorem modPv_modes (n : Nat) (f : Pv → Pv) : (s.modPv n f).modes = s.modes := rfl
@[simp] theorem modPv_eng (n : Nat) (f : Pv → Pv) : (s.modPv n f).eng = s.eng := rfl
@[simp] theorem modPv_gens (n : Nat) (f : Pv → Pv) : (s.modPv n f).gens = s.gens := rfl
@[simp] theorem modPv_grid (n : Nat) (f : Pv → Pv) : (s.modPv n f).grid = s.grid := rfl
@[simp] theorem modPv_rt (n : Nat) (f : Pv → Pv) : (s.modPv n f).rt = s.rt := rfl
@[simp] theorem modPv_dcl (n : Nat) (f : Pv → Pv) : (s.modPv n f).dcl = s.dcl := rfl
@[simp] theorem modPv_isl (n : Nat) (f : Pv → Pv) : (s.modPv n f).isl = s.isl := rfl
@[simp] theorem modPv_ports (n : Nat) (f : Pv → Pv) : (s.modPv n f).ports = { s.ports with pv := upd s.ports.pv n f } := rfl
@[simp] theorem modPv_pwm (n : Nat) (f : Pv → Pv) : (s.modPv n f).pwm = s.pwm := rfl
@[simp] theorem modPv_sense (n : Nat) (f : Pv → Pv) : (s.modPv n f).sense = s.sense := rfl
@[simp] theorem modPv_prot (n : Nat) (f : Pv → Pv) : (s.modPv n f).prot = s.prot := rfl
@[simp] theorem modPv_recorder (n : Nat) (f : Pv → Pv) : (s.modPv n f).recorder = s.recorder := rfl
@[simp] theorem modPv_safety (n : Nat) (f : Pv → Pv) : (s.modPv n f).safety = s.safety := rfl
@[simp] theorem modPv_net (n : Nat) (f : Pv → Pv) : (s.modPv n f).net = s.net := rfl
@[simp] theorem modPv_cool (n : Nat) (f : Pv → Pv) : (s.modPv n f).cool = s.cool := rfl
@[simp] theorem modPv_clk (n : Nat) (f : Pv → Pv) : (s.modPv n f).clk = s.clk := rfl
@[simp] theorem modPv_mem (n : Nat) (f : Pv → Pv) : (s.modPv n f).mem = s.mem := rfl
@[simp] theorem modPv_husk (n : Nat) (f : Pv → Pv) : (s.modPv n f).husk = s.husk := rfl

@[simp] theorem modBat_pending (n : Nat) (f : Bat → Bat) : (s.modBat n f).pending = s.pending := rfl
@[simp] theorem modBat_time (n : Nat) (f : Bat → Bat) : (s.modBat n f).time = s.time := rfl
@[simp] theorem modBat_timeValid (n : Nat) (f : Bat → Bat) : (s.modBat n f).timeValid = s.timeValid := rfl
@[simp] theorem modBat_timeLoaded (n : Nat) (f : Bat → Bat) : (s.modBat n f).timeLoaded = s.timeLoaded := rfl
@[simp] theorem modBat_nextTick (n : Nat) (f : Bat → Bat) : (s.modBat n f).nextTick = s.nextTick := rfl
@[simp] theorem modBat_freeCtr (n : Nat) (f : Bat → Bat) : (s.modBat n f).freeCtr = s.freeCtr := rfl
@[simp] theorem modBat_sys (n : Nat) (f : Bat → Bat) : (s.modBat n f).sys = s.sys := rfl
@[simp] theorem modBat_host (n : Nat) (f : Bat → Bat) : (s.modBat n f).host = s.host := rfl
@[simp] theorem modBat_esc (n : Nat) (f : Bat → Bat) : (s.modBat n f).esc = s.esc := rfl
@[simp] theorem modBat_rings (n : Nat) (f : Bat → Bat) : (s.modBat n f).rings = s.rings := rfl
@[simp] theorem modBat_cmd (n : Nat) (f : Bat → Bat) : (s.modBat n f).cmd = s.cmd := rfl
@[simp] theorem modBat_modes (n : Nat) (f : Bat → Bat) : (s.modBat n f).modes = s.modes := rfl
@[simp] theorem modBat_eng (n : Nat) (f : Bat → Bat) : (s.modBat n f).eng = s.eng := rfl
@[simp] theorem modBat_gens (n : Nat) (f : Bat → Bat) : (s.modBat n f).gens = s.gens := rfl
@[simp] theorem modBat_grid (n : Nat) (f : Bat → Bat) : (s.modBat n f).grid = s.grid := rfl
@[simp] theorem modBat_rt (n : Nat) (f : Bat → Bat) : (s.modBat n f).rt = s.rt := rfl
@[simp] theorem modBat_dcl (n : Nat) (f : Bat → Bat) : (s.modBat n f).dcl = s.dcl := rfl
@[simp] theorem modBat_isl (n : Nat) (f : Bat → Bat) : (s.modBat n f).isl = s.isl := rfl
@[simp] theorem modBat_ports (n : Nat) (f : Bat → Bat) : (s.modBat n f).ports = { s.ports with bat := upd s.ports.bat n f } := rfl
@[simp] theorem modBat_pwm (n : Nat) (f : Bat → Bat) : (s.modBat n f).pwm = s.pwm := rfl
@[simp] theorem modBat_sense (n : Nat) (f : Bat → Bat) : (s.modBat n f).sense = s.sense := rfl
@[simp] theorem modBat_prot (n : Nat) (f : Bat → Bat) : (s.modBat n f).prot = s.prot := rfl
@[simp] theorem modBat_recorder (n : Nat) (f : Bat → Bat) : (s.modBat n f).recorder = s.recorder := rfl
@[simp] theorem modBat_safety (n : Nat) (f : Bat → Bat) : (s.modBat n f).safety = s.safety := rfl
@[simp] theorem modBat_net (n : Nat) (f : Bat → Bat) : (s.modBat n f).net = s.net := rfl
@[simp] theorem modBat_cool (n : Nat) (f : Bat → Bat) : (s.modBat n f).cool = s.cool := rfl
@[simp] theorem modBat_clk (n : Nat) (f : Bat → Bat) : (s.modBat n f).clk = s.clk := rfl
@[simp] theorem modBat_mem (n : Nat) (f : Bat → Bat) : (s.modBat n f).mem = s.mem := rfl
@[simp] theorem modBat_husk (n : Nat) (f : Bat → Bat) : (s.modBat n f).husk = s.husk := rfl

@[simp] theorem modBms_pending (n : Nat) (f : Bms → Bms) : (s.modBms n f).pending = s.pending := rfl
@[simp] theorem modBms_time (n : Nat) (f : Bms → Bms) : (s.modBms n f).time = s.time := rfl
@[simp] theorem modBms_timeValid (n : Nat) (f : Bms → Bms) : (s.modBms n f).timeValid = s.timeValid := rfl
@[simp] theorem modBms_timeLoaded (n : Nat) (f : Bms → Bms) : (s.modBms n f).timeLoaded = s.timeLoaded := rfl
@[simp] theorem modBms_nextTick (n : Nat) (f : Bms → Bms) : (s.modBms n f).nextTick = s.nextTick := rfl
@[simp] theorem modBms_freeCtr (n : Nat) (f : Bms → Bms) : (s.modBms n f).freeCtr = s.freeCtr := rfl
@[simp] theorem modBms_sys (n : Nat) (f : Bms → Bms) : (s.modBms n f).sys = s.sys := rfl
@[simp] theorem modBms_host (n : Nat) (f : Bms → Bms) : (s.modBms n f).host = s.host := rfl
@[simp] theorem modBms_esc (n : Nat) (f : Bms → Bms) : (s.modBms n f).esc = s.esc := rfl
@[simp] theorem modBms_rings (n : Nat) (f : Bms → Bms) : (s.modBms n f).rings = s.rings := rfl
@[simp] theorem modBms_cmd (n : Nat) (f : Bms → Bms) : (s.modBms n f).cmd = s.cmd := rfl
@[simp] theorem modBms_modes (n : Nat) (f : Bms → Bms) : (s.modBms n f).modes = s.modes := rfl
@[simp] theorem modBms_eng (n : Nat) (f : Bms → Bms) : (s.modBms n f).eng = s.eng := rfl
@[simp] theorem modBms_gens (n : Nat) (f : Bms → Bms) : (s.modBms n f).gens = s.gens := rfl
@[simp] theorem modBms_grid (n : Nat) (f : Bms → Bms) : (s.modBms n f).grid = s.grid := rfl
@[simp] theorem modBms_rt (n : Nat) (f : Bms → Bms) : (s.modBms n f).rt = s.rt := rfl
@[simp] theorem modBms_dcl (n : Nat) (f : Bms → Bms) : (s.modBms n f).dcl = s.dcl := rfl
@[simp] theorem modBms_isl (n : Nat) (f : Bms → Bms) : (s.modBms n f).isl = s.isl := rfl
@[simp] theorem modBms_ports (n : Nat) (f : Bms → Bms) : (s.modBms n f).ports = { s.ports with bms := upd s.ports.bms n f } := rfl
@[simp] theorem modBms_pwm (n : Nat) (f : Bms → Bms) : (s.modBms n f).pwm = s.pwm := rfl
@[simp] theorem modBms_sense (n : Nat) (f : Bms → Bms) : (s.modBms n f).sense = s.sense := rfl
@[simp] theorem modBms_prot (n : Nat) (f : Bms → Bms) : (s.modBms n f).prot = s.prot := rfl
@[simp] theorem modBms_recorder (n : Nat) (f : Bms → Bms) : (s.modBms n f).recorder = s.recorder := rfl
@[simp] theorem modBms_safety (n : Nat) (f : Bms → Bms) : (s.modBms n f).safety = s.safety := rfl
@[simp] theorem modBms_net (n : Nat) (f : Bms → Bms) : (s.modBms n f).net = s.net := rfl
@[simp] theorem modBms_cool (n : Nat) (f : Bms → Bms) : (s.modBms n f).cool = s.cool := rfl
@[simp] theorem modBms_clk (n : Nat) (f : Bms → Bms) : (s.modBms n f).clk = s.clk := rfl
@[simp] theorem modBms_mem (n : Nat) (f : Bms → Bms) : (s.modBms n f).mem = s.mem := rfl
@[simp] theorem modBms_husk (n : Nat) (f : Bms → Bms) : (s.modBms n f).husk = s.husk := rfl

@[simp] theorem modDrive_pending (n : Nat) (f : Drive → Drive) : (s.modDrive n f).pending = s.pending := rfl
@[simp] theorem modDrive_time (n : Nat) (f : Drive → Drive) : (s.modDrive n f).time = s.time := rfl
@[simp] theorem modDrive_timeValid (n : Nat) (f : Drive → Drive) : (s.modDrive n f).timeValid = s.timeValid := rfl
@[simp] theorem modDrive_timeLoaded (n : Nat) (f : Drive → Drive) : (s.modDrive n f).timeLoaded = s.timeLoaded := rfl
@[simp] theorem modDrive_nextTick (n : Nat) (f : Drive → Drive) : (s.modDrive n f).nextTick = s.nextTick := rfl
@[simp] theorem modDrive_freeCtr (n : Nat) (f : Drive → Drive) : (s.modDrive n f).freeCtr = s.freeCtr := rfl
@[simp] theorem modDrive_sys (n : Nat) (f : Drive → Drive) : (s.modDrive n f).sys = s.sys := rfl
@[simp] theorem modDrive_host (n : Nat) (f : Drive → Drive) : (s.modDrive n f).host = s.host := rfl
@[simp] theorem modDrive_esc (n : Nat) (f : Drive → Drive) : (s.modDrive n f).esc = s.esc := rfl
@[simp] theorem modDrive_rings (n : Nat) (f : Drive → Drive) : (s.modDrive n f).rings = s.rings := rfl
@[simp] theorem modDrive_cmd (n : Nat) (f : Drive → Drive) : (s.modDrive n f).cmd = s.cmd := rfl
@[simp] theorem modDrive_modes (n : Nat) (f : Drive → Drive) : (s.modDrive n f).modes = s.modes := rfl
@[simp] theorem modDrive_eng (n : Nat) (f : Drive → Drive) : (s.modDrive n f).eng = s.eng := rfl
@[simp] theorem modDrive_gens (n : Nat) (f : Drive → Drive) : (s.modDrive n f).gens = s.gens := rfl
@[simp] theorem modDrive_grid (n : Nat) (f : Drive → Drive) : (s.modDrive n f).grid = s.grid := rfl
@[simp] theorem modDrive_rt (n : Nat) (f : Drive → Drive) : (s.modDrive n f).rt = s.rt := rfl
@[simp] theorem modDrive_dcl (n : Nat) (f : Drive → Drive) : (s.modDrive n f).dcl = s.dcl := rfl
@[simp] theorem modDrive_isl (n : Nat) (f : Drive → Drive) : (s.modDrive n f).isl = s.isl := rfl
@[simp] theorem modDrive_ports (n : Nat) (f : Drive → Drive) : (s.modDrive n f).ports = s.ports := rfl
@[simp] theorem modDrive_pwm (n : Nat) (f : Drive → Drive) : (s.modDrive n f).pwm = s.pwm := rfl
@[simp] theorem modDrive_sense (n : Nat) (f : Drive → Drive) : (s.modDrive n f).sense = s.sense := rfl
@[simp] theorem modDrive_prot (n : Nat) (f : Drive → Drive) : (s.modDrive n f).prot = s.prot := rfl
@[simp] theorem modDrive_recorder (n : Nat) (f : Drive → Drive) : (s.modDrive n f).recorder = s.recorder := rfl
@[simp] theorem modDrive_safety (n : Nat) (f : Drive → Drive) : (s.modDrive n f).safety = s.safety := rfl
@[simp] theorem modDrive_net (n : Nat) (f : Drive → Drive) : (s.modDrive n f).net = s.net := rfl
@[simp] theorem modDrive_cool (n : Nat) (f : Drive → Drive) : (s.modDrive n f).cool = { s.cool with drives := upd s.cool.drives n f } := rfl
@[simp] theorem modDrive_clk (n : Nat) (f : Drive → Drive) : (s.modDrive n f).clk = s.clk := rfl
@[simp] theorem modDrive_mem (n : Nat) (f : Drive → Drive) : (s.modDrive n f).mem = s.mem := rfl
@[simp] theorem modDrive_husk (n : Nat) (f : Drive → Drive) : (s.modDrive n f).husk = s.husk := rfl

@[simp] theorem modLane_pending (n : Nat) (f : Lane → Lane) : (s.modLane n f).pending = s.pending := rfl
@[simp] theorem modLane_time (n : Nat) (f : Lane → Lane) : (s.modLane n f).time = s.time := rfl
@[simp] theorem modLane_timeValid (n : Nat) (f : Lane → Lane) : (s.modLane n f).timeValid = s.timeValid := rfl
@[simp] theorem modLane_timeLoaded (n : Nat) (f : Lane → Lane) : (s.modLane n f).timeLoaded = s.timeLoaded := rfl
@[simp] theorem modLane_nextTick (n : Nat) (f : Lane → Lane) : (s.modLane n f).nextTick = s.nextTick := rfl
@[simp] theorem modLane_freeCtr (n : Nat) (f : Lane → Lane) : (s.modLane n f).freeCtr = s.freeCtr := rfl
@[simp] theorem modLane_sys (n : Nat) (f : Lane → Lane) : (s.modLane n f).sys = s.sys := rfl
@[simp] theorem modLane_host (n : Nat) (f : Lane → Lane) : (s.modLane n f).host = s.host := rfl
@[simp] theorem modLane_esc (n : Nat) (f : Lane → Lane) : (s.modLane n f).esc = s.esc := rfl
@[simp] theorem modLane_rings (n : Nat) (f : Lane → Lane) : (s.modLane n f).rings = s.rings := rfl
@[simp] theorem modLane_cmd (n : Nat) (f : Lane → Lane) : (s.modLane n f).cmd = s.cmd := rfl
@[simp] theorem modLane_modes (n : Nat) (f : Lane → Lane) : (s.modLane n f).modes = s.modes := rfl
@[simp] theorem modLane_eng (n : Nat) (f : Lane → Lane) : (s.modLane n f).eng = s.eng := rfl
@[simp] theorem modLane_gens (n : Nat) (f : Lane → Lane) : (s.modLane n f).gens = s.gens := rfl
@[simp] theorem modLane_grid (n : Nat) (f : Lane → Lane) : (s.modLane n f).grid = s.grid := rfl
@[simp] theorem modLane_rt (n : Nat) (f : Lane → Lane) : (s.modLane n f).rt = s.rt := rfl
@[simp] theorem modLane_dcl (n : Nat) (f : Lane → Lane) : (s.modLane n f).dcl = s.dcl := rfl
@[simp] theorem modLane_isl (n : Nat) (f : Lane → Lane) : (s.modLane n f).isl = s.isl := rfl
@[simp] theorem modLane_ports (n : Nat) (f : Lane → Lane) : (s.modLane n f).ports = s.ports := rfl
@[simp] theorem modLane_pwm (n : Nat) (f : Lane → Lane) : (s.modLane n f).pwm = s.pwm := rfl
@[simp] theorem modLane_sense (n : Nat) (f : Lane → Lane) : (s.modLane n f).sense = s.sense := rfl
@[simp] theorem modLane_prot (n : Nat) (f : Lane → Lane) : (s.modLane n f).prot = s.prot := rfl
@[simp] theorem modLane_recorder (n : Nat) (f : Lane → Lane) : (s.modLane n f).recorder = { s.recorder with lanes := upd s.recorder.lanes n f } := rfl
@[simp] theorem modLane_safety (n : Nat) (f : Lane → Lane) : (s.modLane n f).safety = s.safety := rfl
@[simp] theorem modLane_net (n : Nat) (f : Lane → Lane) : (s.modLane n f).net = s.net := rfl
@[simp] theorem modLane_cool (n : Nat) (f : Lane → Lane) : (s.modLane n f).cool = s.cool := rfl
@[simp] theorem modLane_clk (n : Nat) (f : Lane → Lane) : (s.modLane n f).clk = s.clk := rfl
@[simp] theorem modLane_mem (n : Nat) (f : Lane → Lane) : (s.modLane n f).mem = s.mem := rfl
@[simp] theorem modLane_husk (n : Nat) (f : Lane → Lane) : (s.modLane n f).husk = s.husk := rfl

@[simp] theorem modTrig_pending (n : Nat) (f : Trig → Trig) : (s.modTrig n f).pending = s.pending := rfl
@[simp] theorem modTrig_time (n : Nat) (f : Trig → Trig) : (s.modTrig n f).time = s.time := rfl
@[simp] theorem modTrig_timeValid (n : Nat) (f : Trig → Trig) : (s.modTrig n f).timeValid = s.timeValid := rfl
@[simp] theorem modTrig_timeLoaded (n : Nat) (f : Trig → Trig) : (s.modTrig n f).timeLoaded = s.timeLoaded := rfl
@[simp] theorem modTrig_nextTick (n : Nat) (f : Trig → Trig) : (s.modTrig n f).nextTick = s.nextTick := rfl
@[simp] theorem modTrig_freeCtr (n : Nat) (f : Trig → Trig) : (s.modTrig n f).freeCtr = s.freeCtr := rfl
@[simp] theorem modTrig_sys (n : Nat) (f : Trig → Trig) : (s.modTrig n f).sys = s.sys := rfl
@[simp] theorem modTrig_host (n : Nat) (f : Trig → Trig) : (s.modTrig n f).host = s.host := rfl
@[simp] theorem modTrig_esc (n : Nat) (f : Trig → Trig) : (s.modTrig n f).esc = s.esc := rfl
@[simp] theorem modTrig_rings (n : Nat) (f : Trig → Trig) : (s.modTrig n f).rings = s.rings := rfl
@[simp] theorem modTrig_cmd (n : Nat) (f : Trig → Trig) : (s.modTrig n f).cmd = s.cmd := rfl
@[simp] theorem modTrig_modes (n : Nat) (f : Trig → Trig) : (s.modTrig n f).modes = s.modes := rfl
@[simp] theorem modTrig_eng (n : Nat) (f : Trig → Trig) : (s.modTrig n f).eng = s.eng := rfl
@[simp] theorem modTrig_gens (n : Nat) (f : Trig → Trig) : (s.modTrig n f).gens = s.gens := rfl
@[simp] theorem modTrig_grid (n : Nat) (f : Trig → Trig) : (s.modTrig n f).grid = s.grid := rfl
@[simp] theorem modTrig_rt (n : Nat) (f : Trig → Trig) : (s.modTrig n f).rt = s.rt := rfl
@[simp] theorem modTrig_dcl (n : Nat) (f : Trig → Trig) : (s.modTrig n f).dcl = s.dcl := rfl
@[simp] theorem modTrig_isl (n : Nat) (f : Trig → Trig) : (s.modTrig n f).isl = s.isl := rfl
@[simp] theorem modTrig_ports (n : Nat) (f : Trig → Trig) : (s.modTrig n f).ports = s.ports := rfl
@[simp] theorem modTrig_pwm (n : Nat) (f : Trig → Trig) : (s.modTrig n f).pwm = s.pwm := rfl
@[simp] theorem modTrig_sense (n : Nat) (f : Trig → Trig) : (s.modTrig n f).sense = s.sense := rfl
@[simp] theorem modTrig_prot (n : Nat) (f : Trig → Trig) : (s.modTrig n f).prot = s.prot := rfl
@[simp] theorem modTrig_recorder (n : Nat) (f : Trig → Trig) : (s.modTrig n f).recorder = { s.recorder with trigs := upd s.recorder.trigs n f } := rfl
@[simp] theorem modTrig_safety (n : Nat) (f : Trig → Trig) : (s.modTrig n f).safety = s.safety := rfl
@[simp] theorem modTrig_net (n : Nat) (f : Trig → Trig) : (s.modTrig n f).net = s.net := rfl
@[simp] theorem modTrig_cool (n : Nat) (f : Trig → Trig) : (s.modTrig n f).cool = s.cool := rfl
@[simp] theorem modTrig_clk (n : Nat) (f : Trig → Trig) : (s.modTrig n f).clk = s.clk := rfl
@[simp] theorem modTrig_mem (n : Nat) (f : Trig → Trig) : (s.modTrig n f).mem = s.mem := rfl
@[simp] theorem modTrig_husk (n : Nat) (f : Trig → Trig) : (s.modTrig n f).husk = s.husk := rfl

@[simp] theorem modSf_pending (n : Nat) (f : Sf → Sf) : (s.modSf n f).pending = s.pending := rfl
@[simp] theorem modSf_time (n : Nat) (f : Sf → Sf) : (s.modSf n f).time = s.time := rfl
@[simp] theorem modSf_timeValid (n : Nat) (f : Sf → Sf) : (s.modSf n f).timeValid = s.timeValid := rfl
@[simp] theorem modSf_timeLoaded (n : Nat) (f : Sf → Sf) : (s.modSf n f).timeLoaded = s.timeLoaded := rfl
@[simp] theorem modSf_nextTick (n : Nat) (f : Sf → Sf) : (s.modSf n f).nextTick = s.nextTick := rfl
@[simp] theorem modSf_freeCtr (n : Nat) (f : Sf → Sf) : (s.modSf n f).freeCtr = s.freeCtr := rfl
@[simp] theorem modSf_sys (n : Nat) (f : Sf → Sf) : (s.modSf n f).sys = s.sys := rfl
@[simp] theorem modSf_host (n : Nat) (f : Sf → Sf) : (s.modSf n f).host = s.host := rfl
@[simp] theorem modSf_esc (n : Nat) (f : Sf → Sf) : (s.modSf n f).esc = s.esc := rfl
@[simp] theorem modSf_rings (n : Nat) (f : Sf → Sf) : (s.modSf n f).rings = s.rings := rfl
@[simp] theorem modSf_cmd (n : Nat) (f : Sf → Sf) : (s.modSf n f).cmd = s.cmd := rfl
@[simp] theorem modSf_modes (n : Nat) (f : Sf → Sf) : (s.modSf n f).modes = s.modes := rfl
@[simp] theorem modSf_eng (n : Nat) (f : Sf → Sf) : (s.modSf n f).eng = s.eng := rfl
@[simp] theorem modSf_gens (n : Nat) (f : Sf → Sf) : (s.modSf n f).gens = s.gens := rfl
@[simp] theorem modSf_grid (n : Nat) (f : Sf → Sf) : (s.modSf n f).grid = s.grid := rfl
@[simp] theorem modSf_rt (n : Nat) (f : Sf → Sf) : (s.modSf n f).rt = s.rt := rfl
@[simp] theorem modSf_dcl (n : Nat) (f : Sf → Sf) : (s.modSf n f).dcl = s.dcl := rfl
@[simp] theorem modSf_isl (n : Nat) (f : Sf → Sf) : (s.modSf n f).isl = s.isl := rfl
@[simp] theorem modSf_ports (n : Nat) (f : Sf → Sf) : (s.modSf n f).ports = s.ports := rfl
@[simp] theorem modSf_pwm (n : Nat) (f : Sf → Sf) : (s.modSf n f).pwm = s.pwm := rfl
@[simp] theorem modSf_sense (n : Nat) (f : Sf → Sf) : (s.modSf n f).sense = s.sense := rfl
@[simp] theorem modSf_prot (n : Nat) (f : Sf → Sf) : (s.modSf n f).prot = s.prot := rfl
@[simp] theorem modSf_recorder (n : Nat) (f : Sf → Sf) : (s.modSf n f).recorder = s.recorder := rfl
@[simp] theorem modSf_safety (n : Nat) (f : Sf → Sf) : (s.modSf n f).safety = { s.safety with fns := upd s.safety.fns n f } := rfl
@[simp] theorem modSf_net (n : Nat) (f : Sf → Sf) : (s.modSf n f).net = s.net := rfl
@[simp] theorem modSf_cool (n : Nat) (f : Sf → Sf) : (s.modSf n f).cool = s.cool := rfl
@[simp] theorem modSf_clk (n : Nat) (f : Sf → Sf) : (s.modSf n f).clk = s.clk := rfl
@[simp] theorem modSf_mem (n : Nat) (f : Sf → Sf) : (s.modSf n f).mem = s.mem := rfl
@[simp] theorem modSf_husk (n : Nat) (f : Sf → Sf) : (s.modSf n f).husk = s.husk := rfl

@[simp] theorem modOut_pending (n : Nat) (f : SOut → SOut) : (s.modOut n f).pending = s.pending := rfl
@[simp] theorem modOut_time (n : Nat) (f : SOut → SOut) : (s.modOut n f).time = s.time := rfl
@[simp] theorem modOut_timeValid (n : Nat) (f : SOut → SOut) : (s.modOut n f).timeValid = s.timeValid := rfl
@[simp] theorem modOut_timeLoaded (n : Nat) (f : SOut → SOut) : (s.modOut n f).timeLoaded = s.timeLoaded := rfl
@[simp] theorem modOut_nextTick (n : Nat) (f : SOut → SOut) : (s.modOut n f).nextTick = s.nextTick := rfl
@[simp] theorem modOut_freeCtr (n : Nat) (f : SOut → SOut) : (s.modOut n f).freeCtr = s.freeCtr := rfl
@[simp] theorem modOut_sys (n : Nat) (f : SOut → SOut) : (s.modOut n f).sys = s.sys := rfl
@[simp] theorem modOut_host (n : Nat) (f : SOut → SOut) : (s.modOut n f).host = s.host := rfl
@[simp] theorem modOut_esc (n : Nat) (f : SOut → SOut) : (s.modOut n f).esc = s.esc := rfl
@[simp] theorem modOut_rings (n : Nat) (f : SOut → SOut) : (s.modOut n f).rings = s.rings := rfl
@[simp] theorem modOut_cmd (n : Nat) (f : SOut → SOut) : (s.modOut n f).cmd = s.cmd := rfl
@[simp] theorem modOut_modes (n : Nat) (f : SOut → SOut) : (s.modOut n f).modes = s.modes := rfl
@[simp] theorem modOut_eng (n : Nat) (f : SOut → SOut) : (s.modOut n f).eng = s.eng := rfl
@[simp] theorem modOut_gens (n : Nat) (f : SOut → SOut) : (s.modOut n f).gens = s.gens := rfl
@[simp] theorem modOut_grid (n : Nat) (f : SOut → SOut) : (s.modOut n f).grid = s.grid := rfl
@[simp] theorem modOut_rt (n : Nat) (f : SOut → SOut) : (s.modOut n f).rt = s.rt := rfl
@[simp] theorem modOut_dcl (n : Nat) (f : SOut → SOut) : (s.modOut n f).dcl = s.dcl := rfl
@[simp] theorem modOut_isl (n : Nat) (f : SOut → SOut) : (s.modOut n f).isl = s.isl := rfl
@[simp] theorem modOut_ports (n : Nat) (f : SOut → SOut) : (s.modOut n f).ports = s.ports := rfl
@[simp] theorem modOut_pwm (n : Nat) (f : SOut → SOut) : (s.modOut n f).pwm = s.pwm := rfl
@[simp] theorem modOut_sense (n : Nat) (f : SOut → SOut) : (s.modOut n f).sense = s.sense := rfl
@[simp] theorem modOut_prot (n : Nat) (f : SOut → SOut) : (s.modOut n f).prot = s.prot := rfl
@[simp] theorem modOut_recorder (n : Nat) (f : SOut → SOut) : (s.modOut n f).recorder = s.recorder := rfl
@[simp] theorem modOut_safety (n : Nat) (f : SOut → SOut) : (s.modOut n f).safety = { s.safety with outs := upd s.safety.outs n f } := rfl
@[simp] theorem modOut_net (n : Nat) (f : SOut → SOut) : (s.modOut n f).net = s.net := rfl
@[simp] theorem modOut_cool (n : Nat) (f : SOut → SOut) : (s.modOut n f).cool = s.cool := rfl
@[simp] theorem modOut_clk (n : Nat) (f : SOut → SOut) : (s.modOut n f).clk = s.clk := rfl
@[simp] theorem modOut_mem (n : Nat) (f : SOut → SOut) : (s.modOut n f).mem = s.mem := rfl
@[simp] theorem modOut_husk (n : Nat) (f : SOut → SOut) : (s.modOut n f).husk = s.husk := rfl

@[simp] theorem modPair_pending (n : Nat) (f : Pair → Pair) : (s.modPair n f).pending = s.pending := rfl
@[simp] theorem modPair_time (n : Nat) (f : Pair → Pair) : (s.modPair n f).time = s.time := rfl
@[simp] theorem modPair_timeValid (n : Nat) (f : Pair → Pair) : (s.modPair n f).timeValid = s.timeValid := rfl
@[simp] theorem modPair_timeLoaded (n : Nat) (f : Pair → Pair) : (s.modPair n f).timeLoaded = s.timeLoaded := rfl
@[simp] theorem modPair_nextTick (n : Nat) (f : Pair → Pair) : (s.modPair n f).nextTick = s.nextTick := rfl
@[simp] theorem modPair_freeCtr (n : Nat) (f : Pair → Pair) : (s.modPair n f).freeCtr = s.freeCtr := rfl
@[simp] theorem modPair_sys (n : Nat) (f : Pair → Pair) : (s.modPair n f).sys = s.sys := rfl
@[simp] theorem modPair_host (n : Nat) (f : Pair → Pair) : (s.modPair n f).host = s.host := rfl
@[simp] theorem modPair_esc (n : Nat) (f : Pair → Pair) : (s.modPair n f).esc = s.esc := rfl
@[simp] theorem modPair_rings (n : Nat) (f : Pair → Pair) : (s.modPair n f).rings = s.rings := rfl
@[simp] theorem modPair_cmd (n : Nat) (f : Pair → Pair) : (s.modPair n f).cmd = s.cmd := rfl
@[simp] theorem modPair_modes (n : Nat) (f : Pair → Pair) : (s.modPair n f).modes = s.modes := rfl
@[simp] theorem modPair_eng (n : Nat) (f : Pair → Pair) : (s.modPair n f).eng = s.eng := rfl
@[simp] theorem modPair_gens (n : Nat) (f : Pair → Pair) : (s.modPair n f).gens = s.gens := rfl
@[simp] theorem modPair_grid (n : Nat) (f : Pair → Pair) : (s.modPair n f).grid = s.grid := rfl
@[simp] theorem modPair_rt (n : Nat) (f : Pair → Pair) : (s.modPair n f).rt = s.rt := rfl
@[simp] theorem modPair_dcl (n : Nat) (f : Pair → Pair) : (s.modPair n f).dcl = s.dcl := rfl
@[simp] theorem modPair_isl (n : Nat) (f : Pair → Pair) : (s.modPair n f).isl = s.isl := rfl
@[simp] theorem modPair_ports (n : Nat) (f : Pair → Pair) : (s.modPair n f).ports = s.ports := rfl
@[simp] theorem modPair_pwm (n : Nat) (f : Pair → Pair) : (s.modPair n f).pwm = s.pwm := rfl
@[simp] theorem modPair_sense (n : Nat) (f : Pair → Pair) : (s.modPair n f).sense = s.sense := rfl
@[simp] theorem modPair_prot (n : Nat) (f : Pair → Pair) : (s.modPair n f).prot = s.prot := rfl
@[simp] theorem modPair_recorder (n : Nat) (f : Pair → Pair) : (s.modPair n f).recorder = s.recorder := rfl
@[simp] theorem modPair_safety (n : Nat) (f : Pair → Pair) : (s.modPair n f).safety = { s.safety with pairs := upd s.safety.pairs n f } := rfl
@[simp] theorem modPair_net (n : Nat) (f : Pair → Pair) : (s.modPair n f).net = s.net := rfl
@[simp] theorem modPair_cool (n : Nat) (f : Pair → Pair) : (s.modPair n f).cool = s.cool := rfl
@[simp] theorem modPair_clk (n : Nat) (f : Pair → Pair) : (s.modPair n f).clk = s.clk := rfl
@[simp] theorem modPair_mem (n : Nat) (f : Pair → Pair) : (s.modPair n f).mem = s.mem := rfl
@[simp] theorem modPair_husk (n : Nat) (f : Pair → Pair) : (s.modPair n f).husk = s.husk := rfl

@[simp] theorem modConn_pending (n : Nat) (f : VConn → VConn) : (s.modConn n f).pending = s.pending := rfl
@[simp] theorem modConn_time (n : Nat) (f : VConn → VConn) : (s.modConn n f).time = s.time := rfl
@[simp] theorem modConn_timeValid (n : Nat) (f : VConn → VConn) : (s.modConn n f).timeValid = s.timeValid := rfl
@[simp] theorem modConn_timeLoaded (n : Nat) (f : VConn → VConn) : (s.modConn n f).timeLoaded = s.timeLoaded := rfl
@[simp] theorem modConn_nextTick (n : Nat) (f : VConn → VConn) : (s.modConn n f).nextTick = s.nextTick := rfl
@[simp] theorem modConn_freeCtr (n : Nat) (f : VConn → VConn) : (s.modConn n f).freeCtr = s.freeCtr := rfl
@[simp] theorem modConn_sys (n : Nat) (f : VConn → VConn) : (s.modConn n f).sys = s.sys := rfl
@[simp] theorem modConn_host (n : Nat) (f : VConn → VConn) : (s.modConn n f).host = s.host := rfl
@[simp] theorem modConn_esc (n : Nat) (f : VConn → VConn) : (s.modConn n f).esc = s.esc := rfl
@[simp] theorem modConn_rings (n : Nat) (f : VConn → VConn) : (s.modConn n f).rings = s.rings := rfl
@[simp] theorem modConn_cmd (n : Nat) (f : VConn → VConn) : (s.modConn n f).cmd = s.cmd := rfl
@[simp] theorem modConn_modes (n : Nat) (f : VConn → VConn) : (s.modConn n f).modes = s.modes := rfl
@[simp] theorem modConn_eng (n : Nat) (f : VConn → VConn) : (s.modConn n f).eng = s.eng := rfl
@[simp] theorem modConn_gens (n : Nat) (f : VConn → VConn) : (s.modConn n f).gens = s.gens := rfl
@[simp] theorem modConn_grid (n : Nat) (f : VConn → VConn) : (s.modConn n f).grid = s.grid := rfl
@[simp] theorem modConn_rt (n : Nat) (f : VConn → VConn) : (s.modConn n f).rt = s.rt := rfl
@[simp] theorem modConn_dcl (n : Nat) (f : VConn → VConn) : (s.modConn n f).dcl = s.dcl := rfl
@[simp] theorem modConn_isl (n : Nat) (f : VConn → VConn) : (s.modConn n f).isl = s.isl := rfl
@[simp] theorem modConn_ports (n : Nat) (f : VConn → VConn) : (s.modConn n f).ports = s.ports := rfl
@[simp] theorem modConn_pwm (n : Nat) (f : VConn → VConn) : (s.modConn n f).pwm = s.pwm := rfl
@[simp] theorem modConn_sense (n : Nat) (f : VConn → VConn) : (s.modConn n f).sense = s.sense := rfl
@[simp] theorem modConn_prot (n : Nat) (f : VConn → VConn) : (s.modConn n f).prot = s.prot := rfl
@[simp] theorem modConn_recorder (n : Nat) (f : VConn → VConn) : (s.modConn n f).recorder = s.recorder := rfl
@[simp] theorem modConn_safety (n : Nat) (f : VConn → VConn) : (s.modConn n f).safety = { s.safety with conns := upd s.safety.conns n f } := rfl
@[simp] theorem modConn_net (n : Nat) (f : VConn → VConn) : (s.modConn n f).net = s.net := rfl
@[simp] theorem modConn_cool (n : Nat) (f : VConn → VConn) : (s.modConn n f).cool = s.cool := rfl
@[simp] theorem modConn_clk (n : Nat) (f : VConn → VConn) : (s.modConn n f).clk = s.clk := rfl
@[simp] theorem modConn_mem (n : Nat) (f : VConn → VConn) : (s.modConn n f).mem = s.mem := rfl
@[simp] theorem modConn_husk (n : Nat) (f : VConn → VConn) : (s.modConn n f).husk = s.husk := rfl

@[simp] theorem modLoop_pending (n : Nat) (f : Loop → Loop) : (s.modLoop n f).pending = s.pending := rfl
@[simp] theorem modLoop_time (n : Nat) (f : Loop → Loop) : (s.modLoop n f).time = s.time := rfl
@[simp] theorem modLoop_timeValid (n : Nat) (f : Loop → Loop) : (s.modLoop n f).timeValid = s.timeValid := rfl
@[simp] theorem modLoop_timeLoaded (n : Nat) (f : Loop → Loop) : (s.modLoop n f).timeLoaded = s.timeLoaded := rfl
@[simp] theorem modLoop_nextTick (n : Nat) (f : Loop → Loop) : (s.modLoop n f).nextTick = s.nextTick := rfl
@[simp] theorem modLoop_freeCtr (n : Nat) (f : Loop → Loop) : (s.modLoop n f).freeCtr = s.freeCtr := rfl
@[simp] theorem modLoop_sys (n : Nat) (f : Loop → Loop) : (s.modLoop n f).sys = s.sys := rfl
@[simp] theorem modLoop_host (n : Nat) (f : Loop → Loop) : (s.modLoop n f).host = s.host := rfl
@[simp] theorem modLoop_esc (n : Nat) (f : Loop → Loop) : (s.modLoop n f).esc = s.esc := rfl
@[simp] theorem modLoop_rings (n : Nat) (f : Loop → Loop) : (s.modLoop n f).rings = s.rings := rfl
@[simp] theorem modLoop_cmd (n : Nat) (f : Loop → Loop) : (s.modLoop n f).cmd = s.cmd := rfl
@[simp] theorem modLoop_modes (n : Nat) (f : Loop → Loop) : (s.modLoop n f).modes = s.modes := rfl
@[simp] theorem modLoop_eng (n : Nat) (f : Loop → Loop) : (s.modLoop n f).eng = s.eng := rfl
@[simp] theorem modLoop_gens (n : Nat) (f : Loop → Loop) : (s.modLoop n f).gens = s.gens := rfl
@[simp] theorem modLoop_grid (n : Nat) (f : Loop → Loop) : (s.modLoop n f).grid = s.grid := rfl
@[simp] theorem modLoop_rt (n : Nat) (f : Loop → Loop) : (s.modLoop n f).rt = s.rt := rfl
@[simp] theorem modLoop_dcl (n : Nat) (f : Loop → Loop) : (s.modLoop n f).dcl = s.dcl := rfl
@[simp] theorem modLoop_isl (n : Nat) (f : Loop → Loop) : (s.modLoop n f).isl = s.isl := rfl
@[simp] theorem modLoop_ports (n : Nat) (f : Loop → Loop) : (s.modLoop n f).ports = s.ports := rfl
@[simp] theorem modLoop_pwm (n : Nat) (f : Loop → Loop) : (s.modLoop n f).pwm = s.pwm := rfl
@[simp] theorem modLoop_sense (n : Nat) (f : Loop → Loop) : (s.modLoop n f).sense = s.sense := rfl
@[simp] theorem modLoop_prot (n : Nat) (f : Loop → Loop) : (s.modLoop n f).prot = s.prot := rfl
@[simp] theorem modLoop_recorder (n : Nat) (f : Loop → Loop) : (s.modLoop n f).recorder = s.recorder := rfl
@[simp] theorem modLoop_safety (n : Nat) (f : Loop → Loop) : (s.modLoop n f).safety = s.safety := rfl
@[simp] theorem modLoop_net (n : Nat) (f : Loop → Loop) : (s.modLoop n f).net = s.net := rfl
@[simp] theorem modLoop_cool (n : Nat) (f : Loop → Loop) : (s.modLoop n f).cool = s.cool := rfl
@[simp] theorem modLoop_clk (n : Nat) (f : Loop → Loop) : (s.modLoop n f).clk = { s.clk with loops := upd s.clk.loops n f } := rfl
@[simp] theorem modLoop_mem (n : Nat) (f : Loop → Loop) : (s.modLoop n f).mem = s.mem := rfl
@[simp] theorem modLoop_husk (n : Nat) (f : Loop → Loop) : (s.modLoop n f).husk = s.husk := rfl

@[simp] theorem modTrk_pending (f : Tracker → Tracker) : (s.modTrk f).pending = s.pending := rfl
@[simp] theorem modTrk_time (f : Tracker → Tracker) : (s.modTrk f).time = s.time := rfl
@[simp] theorem modTrk_timeValid (f : Tracker → Tracker) : (s.modTrk f).timeValid = s.timeValid := rfl
@[simp] theorem modTrk_timeLoaded (f : Tracker → Tracker) : (s.modTrk f).timeLoaded = s.timeLoaded := rfl
@[simp] theorem modTrk_nextTick (f : Tracker → Tracker) : (s.modTrk f).nextTick = s.nextTick := rfl
@[simp] theorem modTrk_freeCtr (f : Tracker → Tracker) : (s.modTrk f).freeCtr = s.freeCtr := rfl
@[simp] theorem modTrk_sys (f : Tracker → Tracker) : (s.modTrk f).sys = s.sys := rfl
@[simp] theorem modTrk_host (f : Tracker → Tracker) : (s.modTrk f).host = s.host := rfl
@[simp] theorem modTrk_esc (f : Tracker → Tracker) : (s.modTrk f).esc = s.esc := rfl
@[simp] theorem modTrk_rings (f : Tracker → Tracker) : (s.modTrk f).rings = s.rings := rfl
@[simp] theorem modTrk_cmd (f : Tracker → Tracker) : (s.modTrk f).cmd = s.cmd := rfl
@[simp] theorem modTrk_modes (f : Tracker → Tracker) : (s.modTrk f).modes = s.modes := rfl
@[simp] theorem modTrk_eng (f : Tracker → Tracker) : (s.modTrk f).eng = s.eng := rfl
@[simp] theorem modTrk_gens (f : Tracker → Tracker) : (s.modTrk f).gens = s.gens := rfl
@[simp] theorem modTrk_grid (f : Tracker → Tracker) : (s.modTrk f).grid = { s.grid with trk := f s.grid.trk } := rfl
@[simp] theorem modTrk_rt (f : Tracker → Tracker) : (s.modTrk f).rt = s.rt := rfl
@[simp] theorem modTrk_dcl (f : Tracker → Tracker) : (s.modTrk f).dcl = s.dcl := rfl
@[simp] theorem modTrk_isl (f : Tracker → Tracker) : (s.modTrk f).isl = s.isl := rfl
@[simp] theorem modTrk_ports (f : Tracker → Tracker) : (s.modTrk f).ports = s.ports := rfl
@[simp] theorem modTrk_pwm (f : Tracker → Tracker) : (s.modTrk f).pwm = s.pwm := rfl
@[simp] theorem modTrk_sense (f : Tracker → Tracker) : (s.modTrk f).sense = s.sense := rfl
@[simp] theorem modTrk_prot (f : Tracker → Tracker) : (s.modTrk f).prot = s.prot := rfl
@[simp] theorem modTrk_recorder (f : Tracker → Tracker) : (s.modTrk f).recorder = s.recorder := rfl
@[simp] theorem modTrk_safety (f : Tracker → Tracker) : (s.modTrk f).safety = s.safety := rfl
@[simp] theorem modTrk_net (f : Tracker → Tracker) : (s.modTrk f).net = s.net := rfl
@[simp] theorem modTrk_cool (f : Tracker → Tracker) : (s.modTrk f).cool = s.cool := rfl
@[simp] theorem modTrk_clk (f : Tracker → Tracker) : (s.modTrk f).clk = s.clk := rfl
@[simp] theorem modTrk_mem (f : Tracker → Tracker) : (s.modTrk f).mem = s.mem := rfl
@[simp] theorem modTrk_husk (f : Tracker → Tracker) : (s.modTrk f).husk = s.husk := rfl

@[simp] theorem drawn_pending (n : Nat) : (s.drawn n).pending = s.pending := rfl
@[simp] theorem drawn_time (n : Nat) : (s.drawn n).time = s.time := rfl
@[simp] theorem drawn_timeValid (n : Nat) : (s.drawn n).timeValid = s.timeValid := rfl
@[simp] theorem drawn_timeLoaded (n : Nat) : (s.drawn n).timeLoaded = s.timeLoaded := rfl
@[simp] theorem drawn_nextTick (n : Nat) : (s.drawn n).nextTick = s.nextTick := rfl
@[simp] theorem drawn_freeCtr (n : Nat) : (s.drawn n).freeCtr = s.freeCtr + n := rfl
@[simp] theorem drawn_sys (n : Nat) : (s.drawn n).sys = s.sys := rfl
@[simp] theorem drawn_host (n : Nat) : (s.drawn n).host = s.host := rfl
@[simp] theorem drawn_esc (n : Nat) : (s.drawn n).esc = s.esc := rfl
@[simp] theorem drawn_rings (n : Nat) : (s.drawn n).rings = s.rings := rfl
@[simp] theorem drawn_cmd (n : Nat) : (s.drawn n).cmd = s.cmd := rfl
@[simp] theorem drawn_modes (n : Nat) : (s.drawn n).modes = s.modes := rfl
@[simp] theorem drawn_eng (n : Nat) : (s.drawn n).eng = s.eng := rfl
@[simp] theorem drawn_gens (n : Nat) : (s.drawn n).gens = s.gens := rfl
@[simp] theorem drawn_grid (n : Nat) : (s.drawn n).grid = s.grid := rfl
@[simp] theorem drawn_rt (n : Nat) : (s.drawn n).rt = s.rt := rfl
@[simp] theorem drawn_dcl (n : Nat) : (s.drawn n).dcl = s.dcl := rfl
@[simp] theorem drawn_isl (n : Nat) : (s.drawn n).isl = s.isl := rfl
@[simp] theorem drawn_ports (n : Nat) : (s.drawn n).ports = s.ports := rfl
@[simp] theorem drawn_pwm (n : Nat) : (s.drawn n).pwm = s.pwm := rfl
@[simp] theorem drawn_sense (n : Nat) : (s.drawn n).sense = s.sense := rfl
@[simp] theorem drawn_prot (n : Nat) : (s.drawn n).prot = s.prot := rfl
@[simp] theorem drawn_recorder (n : Nat) : (s.drawn n).recorder = s.recorder := rfl
@[simp] theorem drawn_safety (n : Nat) : (s.drawn n).safety = s.safety := rfl
@[simp] theorem drawn_net (n : Nat) : (s.drawn n).net = s.net := rfl
@[simp] theorem drawn_cool (n : Nat) : (s.drawn n).cool = s.cool := rfl
@[simp] theorem drawn_clk (n : Nat) : (s.drawn n).clk = s.clk := rfl
@[simp] theorem drawn_mem (n : Nat) : (s.drawn n).mem = s.mem := rfl
@[simp] theorem drawn_husk (n : Nat) : (s.drawn n).husk = s.husk := rfl

@[simp] theorem dirty_pending : (s.dirty).pending = s.pending := rfl
@[simp] theorem dirty_time : (s.dirty).time = s.time := rfl
@[simp] theorem dirty_timeValid : (s.dirty).timeValid = s.timeValid := rfl
@[simp] theorem dirty_timeLoaded : (s.dirty).timeLoaded = s.timeLoaded := rfl
@[simp] theorem dirty_nextTick : (s.dirty).nextTick = s.nextTick := rfl
@[simp] theorem dirty_freeCtr : (s.dirty).freeCtr = s.freeCtr := rfl
@[simp] theorem dirty_sys : (s.dirty).sys = s.sys := rfl
@[simp] theorem dirty_host : (s.dirty).host = s.host := rfl
@[simp] theorem dirty_esc : (s.dirty).esc = s.esc := rfl
@[simp] theorem dirty_rings : (s.dirty).rings = s.rings := rfl
@[simp] theorem dirty_cmd : (s.dirty).cmd = s.cmd := rfl
@[simp] theorem dirty_modes : (s.dirty).modes = s.modes := rfl
@[simp] theorem dirty_eng : (s.dirty).eng = s.eng := rfl
@[simp] theorem dirty_gens : (s.dirty).gens = s.gens := rfl
@[simp] theorem dirty_grid : (s.dirty).grid = s.grid := rfl
@[simp] theorem dirty_rt : (s.dirty).rt = s.rt := rfl
@[simp] theorem dirty_dcl : (s.dirty).dcl = s.dcl := rfl
@[simp] theorem dirty_isl : (s.dirty).isl = s.isl := rfl
@[simp] theorem dirty_ports : (s.dirty).ports = s.ports := rfl
@[simp] theorem dirty_pwm : (s.dirty).pwm = s.pwm := rfl
@[simp] theorem dirty_sense : (s.dirty).sense = s.sense := rfl
@[simp] theorem dirty_prot : (s.dirty).prot = s.prot := rfl
@[simp] theorem dirty_recorder : (s.dirty).recorder = s.recorder := rfl
@[simp] theorem dirty_safety : (s.dirty).safety = s.safety := rfl
@[simp] theorem dirty_net : (s.dirty).net = s.net := rfl
@[simp] theorem dirty_cool : (s.dirty).cool = s.cool := rfl
@[simp] theorem dirty_clk : (s.dirty).clk = s.clk := rfl
@[simp] theorem dirty_mem : (s.dirty).mem = { s.mem with blockDirty := true } := rfl
@[simp] theorem dirty_husk : (s.dirty).husk = s.husk := rfl

@[simp] theorem count_pending (i : Nat) : (s.count i).pending = s.pending := rfl
@[simp] theorem count_time (i : Nat) : (s.count i).time = s.time := rfl
@[simp] theorem count_timeValid (i : Nat) : (s.count i).timeValid = s.timeValid := rfl
@[simp] theorem count_timeLoaded (i : Nat) : (s.count i).timeLoaded = s.timeLoaded := rfl
@[simp] theorem count_nextTick (i : Nat) : (s.count i).nextTick = s.nextTick := rfl
@[simp] theorem count_freeCtr (i : Nat) : (s.count i).freeCtr = s.freeCtr := rfl
@[simp] theorem count_sys (i : Nat) : (s.count i).sys = s.sys := rfl
@[simp] theorem count_host (i : Nat) : (s.count i).host = s.host := rfl
@[simp] theorem count_esc (i : Nat) : (s.count i).esc = s.esc := rfl
@[simp] theorem count_rings (i : Nat) : (s.count i).rings = s.rings := rfl
@[simp] theorem count_cmd (i : Nat) : (s.count i).cmd = s.cmd := rfl
@[simp] theorem count_modes (i : Nat) : (s.count i).modes = s.modes := rfl
@[simp] theorem count_eng (i : Nat) : (s.count i).eng = s.eng := rfl
@[simp] theorem count_gens (i : Nat) : (s.count i).gens = s.gens := rfl
@[simp] theorem count_grid (i : Nat) : (s.count i).grid = s.grid := rfl
@[simp] theorem count_rt (i : Nat) : (s.count i).rt = s.rt := rfl
@[simp] theorem count_dcl (i : Nat) : (s.count i).dcl = s.dcl := rfl
@[simp] theorem count_isl (i : Nat) : (s.count i).isl = s.isl := rfl
@[simp] theorem count_ports (i : Nat) : (s.count i).ports = s.ports := rfl
@[simp] theorem count_pwm (i : Nat) : (s.count i).pwm = s.pwm := rfl
@[simp] theorem count_sense (i : Nat) : (s.count i).sense = s.sense := rfl
@[simp] theorem count_prot (i : Nat) : (s.count i).prot = s.prot := rfl
@[simp] theorem count_recorder (i : Nat) : (s.count i).recorder = s.recorder := rfl
@[simp] theorem count_safety (i : Nat) : (s.count i).safety = s.safety := rfl
@[simp] theorem count_net (i : Nat) : (s.count i).net = s.net := rfl
@[simp] theorem count_cool (i : Nat) : (s.count i).cool = s.cool := rfl
@[simp] theorem count_clk (i : Nat) : (s.count i).clk = s.clk := rfl
@[simp] theorem count_mem (i : Nat) : (s.count i).mem = { s.mem with health := bumpCounter i 1 s.mem.health } := rfl
@[simp] theorem count_husk (i : Nat) : (s.count i).husk = s.husk := rfl

@[simp] theorem commitHealth_pending : (s.commitHealth).pending = s.pending := rfl
@[simp] theorem commitHealth_time : (s.commitHealth).time = s.time := rfl
@[simp] theorem commitHealth_timeValid : (s.commitHealth).timeValid = s.timeValid := rfl
@[simp] theorem commitHealth_timeLoaded : (s.commitHealth).timeLoaded = s.timeLoaded := rfl
@[simp] theorem commitHealth_nextTick : (s.commitHealth).nextTick = s.nextTick := rfl
@[simp] theorem commitHealth_freeCtr : (s.commitHealth).freeCtr = s.freeCtr := rfl
@[simp] theorem commitHealth_sys : (s.commitHealth).sys = s.sys := rfl
@[simp] theorem commitHealth_host : (s.commitHealth).host = s.host := rfl
@[simp] theorem commitHealth_esc : (s.commitHealth).esc = s.esc := rfl
@[simp] theorem commitHealth_rings : (s.commitHealth).rings = s.rings := rfl
@[simp] theorem commitHealth_cmd : (s.commitHealth).cmd = s.cmd := rfl
@[simp] theorem commitHealth_modes : (s.commitHealth).modes = s.modes := rfl
@[simp] theorem commitHealth_eng : (s.commitHealth).eng = s.eng := rfl
@[simp] theorem commitHealth_gens : (s.commitHealth).gens = s.gens := rfl
@[simp] theorem commitHealth_grid : (s.commitHealth).grid = s.grid := rfl
@[simp] theorem commitHealth_rt : (s.commitHealth).rt = s.rt := rfl
@[simp] theorem commitHealth_dcl : (s.commitHealth).dcl = s.dcl := rfl
@[simp] theorem commitHealth_isl : (s.commitHealth).isl = s.isl := rfl
@[simp] theorem commitHealth_ports : (s.commitHealth).ports = s.ports := rfl
@[simp] theorem commitHealth_pwm : (s.commitHealth).pwm = s.pwm := rfl
@[simp] theorem commitHealth_sense : (s.commitHealth).sense = s.sense := rfl
@[simp] theorem commitHealth_prot : (s.commitHealth).prot = s.prot := rfl
@[simp] theorem commitHealth_recorder : (s.commitHealth).recorder = s.recorder := rfl
@[simp] theorem commitHealth_safety : (s.commitHealth).safety = s.safety := rfl
@[simp] theorem commitHealth_net : (s.commitHealth).net = s.net := rfl
@[simp] theorem commitHealth_cool : (s.commitHealth).cool = { s.cool with drives := s.cool.drives.map fun d => { d with kept := d.record } } := rfl
@[simp] theorem commitHealth_clk : (s.commitHealth).clk = s.clk := rfl
@[simp] theorem commitHealth_mem : (s.commitHealth).mem = { s.mem with healthStored := s.mem.health } := rfl
@[simp] theorem commitHealth_husk : (s.commitHealth).husk = s.husk := rfl

@[simp] theorem setInt_pending (i : Nat) : (s.setInt i).pending = s.pending := rfl
@[simp] theorem setInt_time (i : Nat) : (s.setInt i).time = s.time := rfl
@[simp] theorem setInt_timeValid (i : Nat) : (s.setInt i).timeValid = s.timeValid := rfl
@[simp] theorem setInt_timeLoaded (i : Nat) : (s.setInt i).timeLoaded = s.timeLoaded := rfl
@[simp] theorem setInt_nextTick (i : Nat) : (s.setInt i).nextTick = s.nextTick := rfl
@[simp] theorem setInt_freeCtr (i : Nat) : (s.setInt i).freeCtr = s.freeCtr := rfl
@[simp] theorem setInt_sys (i : Nat) : (s.setInt i).sys = s.sys := rfl
@[simp] theorem setInt_host (i : Nat) : (s.setInt i).host = { s.host with intStatus := s.host.intStatus ||| BitVec.ofNat 32 (2 ^ i) } := rfl
@[simp] theorem setInt_esc (i : Nat) : (s.setInt i).esc = s.esc := rfl
@[simp] theorem setInt_rings (i : Nat) : (s.setInt i).rings = s.rings := rfl
@[simp] theorem setInt_cmd (i : Nat) : (s.setInt i).cmd = s.cmd := rfl
@[simp] theorem setInt_modes (i : Nat) : (s.setInt i).modes = s.modes := rfl
@[simp] theorem setInt_eng (i : Nat) : (s.setInt i).eng = s.eng := rfl
@[simp] theorem setInt_gens (i : Nat) : (s.setInt i).gens = s.gens := rfl
@[simp] theorem setInt_grid (i : Nat) : (s.setInt i).grid = s.grid := rfl
@[simp] theorem setInt_rt (i : Nat) : (s.setInt i).rt = s.rt := rfl
@[simp] theorem setInt_dcl (i : Nat) : (s.setInt i).dcl = s.dcl := rfl
@[simp] theorem setInt_isl (i : Nat) : (s.setInt i).isl = s.isl := rfl
@[simp] theorem setInt_ports (i : Nat) : (s.setInt i).ports = s.ports := rfl
@[simp] theorem setInt_pwm (i : Nat) : (s.setInt i).pwm = s.pwm := rfl
@[simp] theorem setInt_sense (i : Nat) : (s.setInt i).sense = s.sense := rfl
@[simp] theorem setInt_prot (i : Nat) : (s.setInt i).prot = s.prot := rfl
@[simp] theorem setInt_recorder (i : Nat) : (s.setInt i).recorder = s.recorder := rfl
@[simp] theorem setInt_safety (i : Nat) : (s.setInt i).safety = s.safety := rfl
@[simp] theorem setInt_net (i : Nat) : (s.setInt i).net = s.net := rfl
@[simp] theorem setInt_cool (i : Nat) : (s.setInt i).cool = s.cool := rfl
@[simp] theorem setInt_clk (i : Nat) : (s.setInt i).clk = s.clk := rfl
@[simp] theorem setInt_mem (i : Nat) : (s.setInt i).mem = s.mem := rfl
@[simp] theorem setInt_husk (i : Nat) : (s.setInt i).husk = s.husk := rfl

end Sys2Proof.Machine.State
end

