-- ==== Sys2Proof/Laws/Frames.lean ====
section
/-! SUPPORT. What each shared operation can change: an event posted, a record delivered, a reply sent, a packet taken, legs and safety outputs
ordered. One lemma says it for each, and the parts of State left alone follow. -/

namespace Sys2Proof.Machine

/-- A relation that every step of a fold keeps holds between its ends. -/
theorem foldl_rel {α : Type} {R : State → State → Prop} (r : ∀ s, R s s) (tr : ∀ {s t u}, R s t → R t u → R s u)
    {f : State → α → State} (h : ∀ s x, R s (f s x)) (l : List α) (s : State) : R s (l.foldl f s) := by
  induction l generalizing s with
  | nil => exact r s
  | cons x l ih => exact tr (h s x) (ih (f s x))

/-- t is s but for what posting an event touches: rings, INT_STATUS and the UART line, the sealed log and the recorder. -/
def PostOnly (s t : State) : Prop := ∃ (r' : List Ring) (i' : BitVec 32) (o' : List Byte) (e' : Nat) (h' : Husk) (c' : Rec), t = { s with rings := r', host := { s.host with intStatus := i', uartOut := o', uartEnd := e' }, husk := h', recorder := c' }

theorem PostOnly.refl (s : State) : PostOnly s s := ⟨s.rings, s.host.intStatus, s.host.uartOut, s.host.uartEnd, s.husk, s.recorder, rfl⟩
theorem PostOnly.trans {s t u : State} (h : PostOnly s t) (k : PostOnly t u) : PostOnly s u := by
  obtain ⟨a0, a1, a2, a3, a4, a5, rfl⟩ := h
  obtain ⟨b0, b1, b2, b3, b4, b5, rfl⟩ := k
  exact ⟨b0, b1, b2, b3, b4, b5, rfl⟩

theorem setInt_postOnly (i : Nat) (s : State) : PostOnly s (s.setInt i) := ⟨_, _, _, _, _, _, rfl⟩
theorem modRing_postOnly (n : Nat) (f : Ring → Ring) (s : State) : PostOnly s (s.modRing n f) := ⟨_, _, _, _, _, _, rfl⟩
theorem setRingInt_postOnly (n : Nat) (s : State) : PostOnly s (s.setRingInt n) := by
  unfold State.setRingInt; split
  · exact setInt_postOnly _ s
  · exact .refl s
theorem uartSend_postOnly (b : List Byte) (s : State) : PostOnly s (uartSend b s) := ⟨_, _, _, _, _, _, rfl⟩
theorem deliver_postOnly (n : Nat) (b : List Byte) (s : State) : PostOnly s (s.deliver n b) := by
  unfold State.deliver; dsimp only; split
  · exact (modRing_postOnly _ _ s).trans (setRingInt_postOnly _ _)
  · exact modRing_postOnly _ _ s
theorem postRing_postOnly (t : Nat) (e : Ev) (n : Nat) (s : State) : PostOnly s (postRing t e n s) := by
  unfold postRing; dsimp only; split
  · split
    · exact ((modRing_postOnly _ _ s).trans (setRingInt_postOnly _ _)).trans (uartSend_postOnly _ _)
    · split
      · exact modRing_postOnly _ _ s
      · exact (modRing_postOnly _ _ s).trans (setRingInt_postOnly _ _)
  · exact .refl s
theorem postRings_postOnly (t : Nat) (e : Ev) (s : State) : PostOnly s (postRings t e s) :=
  foldl_rel PostOnly.refl PostOnly.trans (fun s k => postRing_postOnly t e (16 + k) s) _ s
theorem sealEvent_postOnly (t : Nat) (e : Ev) (s : State) : PostOnly s (sealEvent t e s) := by
  unfold sealEvent; split
  · exact ⟨_, _, _, _, _, _, rfl⟩
  · exact .refl s
theorem markEvent_postOnly (t : Nat) (e : Ev) (s : State) : PostOnly s (markEvent t e s) := by
  unfold markEvent; split
  · exact ⟨_, _, _, _, _, _, rfl⟩
  · exact .refl s
theorem postBase_postOnly (t : Nat) (e : Ev) (s : State) : PostOnly s (postBase t e s) :=
  ((postRings_postOnly _ e s).trans (sealEvent_postOnly _ e _)).trans (markEvent_postOnly _ e _)
theorem recOwnTriggers_postOnly (t : Nat) (s : State) : PostOnly s (recOwnTriggers t s) :=
  foldl_rel PostOnly.refl PostOnly.trans (fun s k => by
    dsimp only; split
    · exact ⟨_, _, _, _, _, _, rfl⟩
    · exact .refl s) _ s
theorem recFire_postOnly (u : Nat) (st : Int) (s : State) : PostOnly s (recFire u st s) := by
  unfold recFire; dsimp only; split
  · exact PostOnly.trans ⟨_, _, _, _, _, _, rfl⟩ ((postBase_postOnly _ _ _).trans (recOwnTriggers_postOnly _ _))
  · split
    · exact ⟨_, _, _, _, _, _, rfl⟩
    · split <;> exact ⟨_, _, _, _, _, _, rfl⟩
theorem recEventTriggers_postOnly (t : Nat) (e : Ev) (s : State) : PostOnly s (recEventTriggers t e s) := by
  unfold recEventTriggers; split
  · exact .refl s
  · exact foldl_rel PostOnly.refl PostOnly.trans (fun s k => by
      dsimp only; split
      · split
        · exact recFire_postOnly _ _ s
        · exact ⟨_, _, _, _, _, _, rfl⟩
      · exact .refl s) _ s

/-- Posting an event changes rings, INT_STATUS, the sealed log and the recorder, and nothing else. -/
theorem post_postOnly (t : Nat) (e : Ev) (s : State) : PostOnly s (s.post t e) :=
  (postBase_postOnly t e s).trans (recEventTriggers_postOnly _ e _)

theorem postAll_postOnly (t : Nat) (es : List Ev) (s : State) : PostOnly s (s.postAll t es) :=
  foldl_rel PostOnly.refl PostOnly.trans (fun s e => post_postOnly t e s) es s

@[simp] theorem post_pending (t : Nat) (e : Ev) (s : State) : (s.post t e).pending = s.pending := by
  obtain ⟨_, _, _, _, _, _, h⟩ := post_postOnly t e s
  rw [h]
@[simp] theorem post_time (t : Nat) (e : Ev) (s : State) : (s.post t e).time = s.time := by
  obtain ⟨_, _, _, _, _, _, h⟩ := post_postOnly t e s
  rw [h]
@[simp] theorem post_timeValid (t : Nat) (e : Ev) (s : State) : (s.post t e).timeValid = s.timeValid := by
  obtain ⟨_, _, _, _, _, _, h⟩ := post_postOnly t e s
  rw [h]
@[simp] theorem post_timeLoaded (t : Nat) (e : Ev) (s : State) : (s.post t e).timeLoaded = s.timeLoaded := by
  obtain ⟨_, _, _, _, _, _, h⟩ := post_postOnly t e s
  rw [h]
@[simp] theorem post_nextTick (t : Nat) (e : Ev) (s : State) : (s.post t e).nextTick = s.nextTick := by
  obtain ⟨_, _, _, _, _, _, h⟩ := post_postOnly t e s
  rw [h]
@[simp] theorem post_freeCtr (t : Nat) (e : Ev) (s : State) : (s.post t e).freeCtr = s.freeCtr := by
  obtain ⟨_, _, _, _, _, _, h⟩ := post_postOnly t e s
  rw [h]
@[simp] theorem post_sys (t : Nat) (e : Ev) (s : State) : (s.post t e).sys = s.sys := by
  obtain ⟨_, _, _, _, _, _, h⟩ := post_postOnly t e s
  rw [h]
@[simp] theorem post_esc (t : Nat) (e : Ev) (s : State) : (s.post t e).esc = s.esc := by
  obtain ⟨_, _, _, _, _, _, h⟩ := post_postOnly t e s
  rw [h]
@[simp] theorem post_cmd (t : Nat) (e : Ev) (s : State) : (s.post t e).cmd = s.cmd := by
  obtain ⟨_, _, _, _, _, _, h⟩ := post_postOnly t e s
  rw [h]
@[simp] theorem post_modes (t : Nat) (e : Ev) (s : State) : (s.post t e).modes = s.modes := by
  obtain ⟨_, _, _, _, _, _, h⟩ := post_postOnly t e s
  rw [h]
@[simp] theorem post_eng (t : Nat) (e : Ev) (s : State) : (s.post t e).eng = s.eng := by
  obtain ⟨_, _, _, _, _, _, h⟩ := post_postOnly t e s
  rw [h]
@[simp] theorem post_gens (t : Nat) (e : Ev) (s : State) : (s.post t e).gens = s.gens := by
  obtain ⟨_, _, _, _, _, _, h⟩ := post_postOnly t e s
  rw [h]
@[simp] theorem post_grid (t : Nat) (e : Ev) (s : State) : (s.post t e).grid = s.grid := by
  obtain ⟨_, _, _, _, _, _, h⟩ := post_postOnly t e s
  rw [h]
@[simp] theorem post_rt (t : Nat) (e : Ev) (s : State) : (s.post t e).rt = s.rt := by
  obtain ⟨_, _, _, _, _, _, h⟩ := post_postOnly t e s
  rw [h]
@[simp] theorem post_dcl (t : Nat) (e : Ev) (s : State) : (s.post t e).dcl = s.dcl := by
  obtain ⟨_, _, _, _, _, _, h⟩ := post_postOnly t e s
  rw [h]
@[simp] theorem post_isl (t : Nat) (e : Ev) (s : State) : (s.post t e).isl = s.isl := by
  obtain ⟨_, _, _, _, _, _, h⟩ := post_postOnly t e s
  rw [h]
@[simp] theorem post_ports (t : Nat) (e : Ev) (s : State) : (s.post t e).ports = s.ports := by
  obtain ⟨_, _, _, _, _, _, h⟩ := post_postOnly t e s
  rw [h]
@[simp] theorem post_pwm (t : Nat) (e : Ev) (s : State) : (s.post t e).pwm = s.pwm := by
  obtain ⟨_, _, _, _, _, _, h⟩ := post_postOnly t e s
  rw [h]
@[simp] theorem post_sense (t : Nat) (e : Ev) (s : State) : (s.post t e).sense = s.sense := by
  obtain ⟨_, _, _, _, _, _, h⟩ := post_postOnly t e s
  rw [h]
@[simp] theorem post_prot (t : Nat) (e : Ev) (s : State) : (s.post t e).prot = s.prot := by
  obtain ⟨_, _, _, _, _, _, h⟩ := post_postOnly t e s
  rw [h]
@[simp] theorem post_safety (t : Nat) (e : Ev) (s : State) : (s.post t e).safety = s.safety := by
  obtain ⟨_, _, _, _, _, _, h⟩ := post_postOnly t e s
  rw [h]
@[simp] theorem post_net (t : Nat) (e : Ev) (s : State) : (s.post t e).net = s.net := by
  obtain ⟨_, _, _, _, _, _, h⟩ := post_postOnly t e s
  rw [h]
@[simp] theorem post_cool (t : Nat) (e : Ev) (s : State) : (s.post t e).cool = s.cool := by
  obtain ⟨_, _, _, _, _, _, h⟩ := post_postOnly t e s
  rw [h]
@[simp] theorem post_clk (t : Nat) (e : Ev) (s : State) : (s.post t e).clk = s.clk := by
  obtain ⟨_, _, _, _, _, _, h⟩ := post_postOnly t e s
  rw [h]
@[simp] theorem post_mem (t : Nat) (e : Ev) (s : State) : (s.post t e).mem = s.mem := by
  obtain ⟨_, _, _, _, _, _, h⟩ := post_postOnly t e s
  rw [h]
@[simp] theorem deliver_pending (n : Nat) (b : List Byte) (s : State) : (s.deliver n b).pending = s.pending := by
  obtain ⟨_, _, _, _, _, _, h⟩ := deliver_postOnly n b s
  rw [h]
@[simp] theorem deliver_time (n : Nat) (b : List Byte) (s : State) : (s.deliver n b).time = s.time := by
  obtain ⟨_, _, _, _, _, _, h⟩ := deliver_postOnly n b s
  rw [h]
@[simp] theorem deliver_timeValid (n : Nat) (b : List Byte) (s : State) : (s.deliver n b).timeValid = s.timeValid := by
  obtain ⟨_, _, _, _, _, _, h⟩ := deliver_postOnly n b s
  rw [h]
@[simp] theorem deliver_timeLoaded (n : Nat) (b : List Byte) (s : State) : (s.deliver n b).timeLoaded = s.timeLoaded := by
  obtain ⟨_, _, _, _, _, _, h⟩ := deliver_postOnly n b s
  rw [h]
@[simp] theorem deliver_nextTick (n : Nat) (b : List Byte) (s : State) : (s.deliver n b).nextTick = s.nextTick := by
  obtain ⟨_, _, _, _, _, _, h⟩ := deliver_postOnly n b s
  rw [h]
@[simp] theorem deliver_freeCtr (n : Nat) (b : List Byte) (s : State) : (s.deliver n b).freeCtr = s.freeCtr := by
  obtain ⟨_, _, _, _, _, _, h⟩ := deliver_postOnly n b s
  rw [h]
@[simp] theorem deliver_sys (n : Nat) (b : List Byte) (s : State) : (s.deliver n b).sys = s.sys := by
  obtain ⟨_, _, _, _, _, _, h⟩ := deliver_postOnly n b s
  rw [h]
@[simp] theorem deliver_esc (n : Nat) (b : List Byte) (s : State) : (s.deliver n b).esc = s.esc := by
  obtain ⟨_, _, _, _, _, _, h⟩ := deliver_postOnly n b s
  rw [h]
@[simp] theorem deliver_cmd (n : Nat) (b : List Byte) (s : State) : (s.deliver n b).cmd = s.cmd := by
  obtain ⟨_, _, _, _, _, _, h⟩ := deliver_postOnly n b s
  rw [h]
@[simp] theorem deliver_modes (n : Nat) (b : List Byte) (s : State) : (s.deliver n b).modes = s.modes := by
  obtain ⟨_, _, _, _, _, _, h⟩ := deliver_postOnly n b s
  rw [h]
@[simp] theorem deliver_eng (n : Nat) (b : List Byte) (s : State) : (s.deliver n b).eng = s.eng := by
  obtain ⟨_, _, _, _, _, _, h⟩ := deliver_postOnly n b s
  rw [h]
@[simp] theorem deliver_gens (n : Nat) (b : List Byte) (s : State) : (s.deliver n b).gens = s.gens := by
  obtain ⟨_, _, _, _, _, _, h⟩ := deliver_postOnly n b s
  rw [h]
@[simp] theorem deliver_grid (n : Nat) (b : List Byte) (s : State) : (s.deliver n b).grid = s.grid := by
  obtain ⟨_, _, _, _, _, _, h⟩ := deliver_postOnly n b s
  rw [h]
@[simp] theorem deliver_rt (n : Nat) (b : List Byte) (s : State) : (s.deliver n b).rt = s.rt := by
  obtain ⟨_, _, _, _, _, _, h⟩ := deliver_postOnly n b s
  rw [h]
@[simp] theorem deliver_dcl (n : Nat) (b : List Byte) (s : State) : (s.deliver n b).dcl = s.dcl := by
  obtain ⟨_, _, _, _, _, _, h⟩ := deliver_postOnly n b s
  rw [h]
@[simp] theorem deliver_isl (n : Nat) (b : List Byte) (s : State) : (s.deliver n b).isl = s.isl := by
  obtain ⟨_, _, _, _, _, _, h⟩ := deliver_postOnly n b s
  rw [h]
@[simp] theorem deliver_ports (n : Nat) (b : List Byte) (s : State) : (s.deliver n b).ports = s.ports := by
  obtain ⟨_, _, _, _, _, _, h⟩ := deliver_postOnly n b s
  rw [h]
@[simp] theorem deliver_pwm (n : Nat) (b : List Byte) (s : State) : (s.deliver n b).pwm = s.pwm := by
  obtain ⟨_, _, _, _, _, _, h⟩ := deliver_postOnly n b s
  rw [h]
@[simp] theorem deliver_sense (n : Nat) (b : List Byte) (s : State) : (s.deliver n b).sense = s.sense := by
  obtain ⟨_, _, _, _, _, _, h⟩ := deliver_postOnly n b s
  rw [h]
@[simp] theorem deliver_prot (n : Nat) (b : List Byte) (s : State) : (s.deliver n b).prot = s.prot := by
  obtain ⟨_, _, _, _, _, _, h⟩ := deliver_postOnly n b s
  rw [h]
@[simp] theorem deliver_safety (n : Nat) (b : List Byte) (s : State) : (s.deliver n b).safety = s.safety := by
  obtain ⟨_, _, _, _, _, _, h⟩ := deliver_postOnly n b s
  rw [h]
@[simp] theorem deliver_net (n : Nat) (b : List Byte) (s : State) : (s.deliver n b).net = s.net := by
  obtain ⟨_, _, _, _, _, _, h⟩ := deliver_postOnly n b s
  rw [h]
@[simp] theorem deliver_cool (n : Nat) (b : List Byte) (s : State) : (s.deliver n b).cool = s.cool := by
  obtain ⟨_, _, _, _, _, _, h⟩ := deliver_postOnly n b s
  rw [h]
@[simp] theorem deliver_clk (n : Nat) (b : List Byte) (s : State) : (s.deliver n b).clk = s.clk := by
  obtain ⟨_, _, _, _, _, _, h⟩ := deliver_postOnly n b s
  rw [h]
@[simp] theorem deliver_mem (n : Nat) (b : List Byte) (s : State) : (s.deliver n b).mem = s.mem := by
  obtain ⟨_, _, _, _, _, _, h⟩ := deliver_postOnly n b s
  rw [h]

/-- Device time is all that a command's time changes. -/
theorem advance_eq (t : Nat) (s : State) : s.advance t = { s with time := max s.time t } := rfl

@[simp] theorem advance_pending (t : Nat) (s : State) : (s.advance t).pending = s.pending := rfl
@[simp] theorem advance_timeValid (t : Nat) (s : State) : (s.advance t).timeValid = s.timeValid := rfl
@[simp] theorem advance_timeLoaded (t : Nat) (s : State) : (s.advance t).timeLoaded = s.timeLoaded := rfl
@[simp] theorem advance_nextTick (t : Nat) (s : State) : (s.advance t).nextTick = s.nextTick := rfl
@[simp] theorem advance_freeCtr (t : Nat) (s : State) : (s.advance t).freeCtr = s.freeCtr := rfl
@[simp] theorem advance_sys (t : Nat) (s : State) : (s.advance t).sys = s.sys := rfl
@[simp] theorem advance_host (t : Nat) (s : State) : (s.advance t).host = s.host := rfl
@[simp] theorem advance_esc (t : Nat) (s : State) : (s.advance t).esc = s.esc := rfl
@[simp] theorem advance_rings (t : Nat) (s : State) : (s.advance t).rings = s.rings := rfl
@[simp] theorem advance_cmd (t : Nat) (s : State) : (s.advance t).cmd = s.cmd := rfl
@[simp] theorem advance_modes (t : Nat) (s : State) : (s.advance t).modes = s.modes := rfl
@[simp] theorem advance_eng (t : Nat) (s : State) : (s.advance t).eng = s.eng := rfl
@[simp] theorem advance_gens (t : Nat) (s : State) : (s.advance t).gens = s.gens := rfl
@[simp] theorem advance_grid (t : Nat) (s : State) : (s.advance t).grid = s.grid := rfl
@[simp] theorem advance_rt (t : Nat) (s : State) : (s.advance t).rt = s.rt := rfl
@[simp] theorem advance_dcl (t : Nat) (s : State) : (s.advance t).dcl = s.dcl := rfl
@[simp] theorem advance_isl (t : Nat) (s : State) : (s.advance t).isl = s.isl := rfl
@[simp] theorem advance_ports (t : Nat) (s : State) : (s.advance t).ports = s.ports := rfl
@[simp] theorem advance_pwm (t : Nat) (s : State) : (s.advance t).pwm = s.pwm := rfl
@[simp] theorem advance_sense (t : Nat) (s : State) : (s.advance t).sense = s.sense := rfl
@[simp] theorem advance_prot (t : Nat) (s : State) : (s.advance t).prot = s.prot := rfl
@[simp] theorem advance_recorder (t : Nat) (s : State) : (s.advance t).recorder = s.recorder := rfl
@[simp] theorem advance_safety (t : Nat) (s : State) : (s.advance t).safety = s.safety := rfl
@[simp] theorem advance_net (t : Nat) (s : State) : (s.advance t).net = s.net := rfl
@[simp] theorem advance_cool (t : Nat) (s : State) : (s.advance t).cool = s.cool := rfl
@[simp] theorem advance_clk (t : Nat) (s : State) : (s.advance t).clk = s.clk := rfl
@[simp] theorem advance_mem (t : Nat) (s : State) : (s.advance t).mem = s.mem := rfl
@[simp] theorem advance_husk (t : Nat) (s : State) : (s.advance t).husk = s.husk := rfl

/-- t is s but for what answering a command touches: rings, INT_STATUS and the UART line, the escape port, the command processor, Benmor sending. -/
def ReplyOnly (s t : State) : Prop := ∃ (rings' : List Ring) (host' : HostIf) (esc' : Escape) (cmd' : Cmd) (net' : Net), t = { s with rings := rings', host := host', esc := esc', cmd := cmd', net := net' }

theorem ReplyOnly.refl (s : State) : ReplyOnly s s := ⟨s.rings, s.host, s.esc, s.cmd, s.net, rfl⟩
theorem ReplyOnly.trans {s t u : State} (h : ReplyOnly s t) (k : ReplyOnly t u) : ReplyOnly s u := by
  obtain ⟨a0, a1, a2, a3, a4, rfl⟩ := h
  obtain ⟨b0, b1, b2, b3, b4, rfl⟩ := k
  exact ⟨b0, b1, b2, b3, b4, rfl⟩

theorem modRing_replyOnly (n : Nat) (f : Ring → Ring) (s : State) : ReplyOnly s (s.modRing n f) := ⟨_, _, _, _, _, rfl⟩
theorem modCmd_replyOnly (f : Cmd → Cmd) (s : State) : ReplyOnly s (s.modCmd f) := ⟨_, _, _, _, _, rfl⟩
theorem modHost_replyOnly (f : HostIf → HostIf) (s : State) : ReplyOnly s (s.modHost f) := ⟨_, _, _, _, _, rfl⟩
theorem setInt_replyOnly (i : Nat) (s : State) : ReplyOnly s (s.setInt i) := ⟨_, _, _, _, _, rfl⟩
theorem setRingInt_replyOnly (n : Nat) (s : State) : ReplyOnly s (s.setRingInt n) := by
  unfold State.setRingInt; split
  · exact setInt_replyOnly _ s
  · exact .refl s

/-- A datagram sent or held changes the network group and ring 38 alone. -/
theorem benSend_replyOnly (b d : Nat) (p : List Byte) (s : State) : ReplyOnly s (benSend b d p s) := by
  unfold benSend; split
  · dsimp only; split
    · exact .refl s
    · split
      · exact modRing_replyOnly _ _ s
      · split
        · exact ⟨_, _, _, _, _, rfl⟩
        · split
          · exact ⟨_, _, _, _, _, rfl⟩
          · exact modRing_replyOnly _ _ s
  · exact .refl s

theorem replyOn_replyOnly (n : Nat) (b : List Byte) (s : State) : ReplyOnly s (replyOn n b s) := by
  unfold replyOn; dsimp only; split
  · exact ((modRing_replyOnly _ _ s).trans (setRingInt_replyOnly _ _)).trans ⟨_, _, _, _, _, rfl⟩
  · split
    · exact modCmd_replyOnly _ s
    · exact (modRing_replyOnly _ _ s).trans (setRingInt_replyOnly _ _)

/-- A reply changes what answering touches, and nothing else. -/
theorem sendReply_replyOnly (src : Source) (b : List Byte) (s : State) : ReplyOnly s (sendReply src b s) := by
  unfold sendReply; split
  · exact replyOn_replyOnly _ b s
  · exact replyOn_replyOnly _ b s
  · exact benSend_replyOnly _ _ b s
  · exact ⟨_, _, _, _, _, rfl⟩

@[simp] theorem sendReply_pending (src : Source) (b : List Byte) (s : State) : (sendReply src b s).pending = s.pending := by
  obtain ⟨_, _, _, _, _, h⟩ := sendReply_replyOnly src b s
  rw [h]
@[simp] theorem sendReply_time (src : Source) (b : List Byte) (s : State) : (sendReply src b s).time = s.time := by
  obtain ⟨_, _, _, _, _, h⟩ := sendReply_replyOnly src b s
  rw [h]
@[simp] theorem sendReply_timeValid (src : Source) (b : List Byte) (s : State) : (sendReply src b s).timeValid = s.timeValid := by
  obtain ⟨_, _, _, _, _, h⟩ := sendReply_replyOnly src b s
  rw [h]
@[simp] theorem sendReply_timeLoaded (src : Source) (b : List Byte) (s : State) : (sendReply src b s).timeLoaded = s.timeLoaded := by
  obtain ⟨_, _, _, _, _, h⟩ := sendReply_replyOnly src b s
  rw [h]
@[simp] theorem sendReply_nextTick (src : Source) (b : List Byte) (s : State) : (sendReply src b s).nextTick = s.nextTick := by
  obtain ⟨_, _, _, _, _, h⟩ := sendReply_replyOnly src b s
  rw [h]
@[simp] theorem sendReply_freeCtr (src : Source) (b : List Byte) (s : State) : (sendReply src b s).freeCtr = s.freeCtr := by
  obtain ⟨_, _, _, _, _, h⟩ := sendReply_replyOnly src b s
  rw [h]
@[simp] theorem sendReply_sys (src : Source) (b : List Byte) (s : State) : (sendReply src b s).sys = s.sys := by
  obtain ⟨_, _, _, _, _, h⟩ := sendReply_replyOnly src b s
  rw [h]
@[simp] theorem sendReply_modes (src : Source) (b : List Byte) (s : State) : (sendReply src b s).modes = s.modes := by
  obtain ⟨_, _, _, _, _, h⟩ := sendReply_replyOnly src b s
  rw [h]
@[simp] theorem sendReply_eng (src : Source) (b : List Byte) (s : State) : (sendReply src b s).eng = s.eng := by
  obtain ⟨_, _, _, _, _, h⟩ := sendReply_replyOnly src b s
  rw [h]
@[simp] theorem sendReply_gens (src : Source) (b : List Byte) (s : State) : (sendReply src b s).gens = s.gens := by
  obtain ⟨_, _, _, _, _, h⟩ := sendReply_replyOnly src b s
  rw [h]
@[simp] theorem sendReply_grid (src : Source) (b : List Byte) (s : State) : (sendReply src b s).grid = s.grid := by
  obtain ⟨_, _, _, _, _, h⟩ := sendReply_replyOnly src b s
  rw [h]
@[simp] theorem sendReply_rt (src : Source) (b : List Byte) (s : State) : (sendReply src b s).rt = s.rt := by
  obtain ⟨_, _, _, _, _, h⟩ := sendReply_replyOnly src b s
  rw [h]
@[simp] theorem sendReply_dcl (src : Source) (b : List Byte) (s : State) : (sendReply src b s).dcl = s.dcl := by
  obtain ⟨_, _, _, _, _, h⟩ := sendReply_replyOnly src b s
  rw [h]
@[simp] theorem sendReply_isl (src : Source) (b : List Byte) (s : State) : (sendReply src b s).isl = s.isl := by
  obtain ⟨_, _, _, _, _, h⟩ := sendReply_replyOnly src b s
  rw [h]
@[simp] theorem sendReply_ports (src : Source) (b : List Byte) (s : State) : (sendReply src b s).ports = s.ports := by
  obtain ⟨_, _, _, _, _, h⟩ := sendReply_replyOnly src b s
  rw [h]
@[simp] theorem sendReply_pwm (src : Source) (b : List Byte) (s : State) : (sendReply src b s).pwm = s.pwm := by
  obtain ⟨_, _, _, _, _, h⟩ := sendReply_replyOnly src b s
  rw [h]
@[simp] theorem sendReply_sense (src : Source) (b : List Byte) (s : State) : (sendReply src b s).sense = s.sense := by
  obtain ⟨_, _, _, _, _, h⟩ := sendReply_replyOnly src b s
  rw [h]
@[simp] theorem sendReply_prot (src : Source) (b : List Byte) (s : State) : (sendReply src b s).prot = s.prot := by
  obtain ⟨_, _, _, _, _, h⟩ := sendReply_replyOnly src b s
  rw [h]
@[simp] theorem sendReply_recorder (src : Source) (b : List Byte) (s : State) : (sendReply src b s).recorder = s.recorder := by
  obtain ⟨_, _, _, _, _, h⟩ := sendReply_replyOnly src b s
  rw [h]
@[simp] theorem sendReply_safety (src : Source) (b : List Byte) (s : State) : (sendReply src b s).safety = s.safety := by
  obtain ⟨_, _, _, _, _, h⟩ := sendReply_replyOnly src b s
  rw [h]
@[simp] theorem sendReply_cool (src : Source) (b : List Byte) (s : State) : (sendReply src b s).cool = s.cool := by
  obtain ⟨_, _, _, _, _, h⟩ := sendReply_replyOnly src b s
  rw [h]
@[simp] theorem sendReply_clk (src : Source) (b : List Byte) (s : State) : (sendReply src b s).clk = s.clk := by
  obtain ⟨_, _, _, _, _, h⟩ := sendReply_replyOnly src b s
  rw [h]
@[simp] theorem sendReply_mem (src : Source) (b : List Byte) (s : State) : (sendReply src b s).mem = s.mem := by
  obtain ⟨_, _, _, _, _, h⟩ := sendReply_replyOnly src b s
  rw [h]
@[simp] theorem sendReply_husk (src : Source) (b : List Byte) (s : State) : (sendReply src b s).husk = s.husk := by
  obtain ⟨_, _, _, _, _, h⟩ := sendReply_replyOnly src b s
  rw [h]
@[simp] theorem benSend_pending (b d : Nat) (p : List Byte) (s : State) : (benSend b d p s).pending = s.pending := by
  obtain ⟨_, _, _, _, _, h⟩ := benSend_replyOnly b d p s
  rw [h]
@[simp] theorem benSend_time (b d : Nat) (p : List Byte) (s : State) : (benSend b d p s).time = s.time := by
  obtain ⟨_, _, _, _, _, h⟩ := benSend_replyOnly b d p s
  rw [h]
@[simp] theorem benSend_timeValid (b d : Nat) (p : List Byte) (s : State) : (benSend b d p s).timeValid = s.timeValid := by
  obtain ⟨_, _, _, _, _, h⟩ := benSend_replyOnly b d p s
  rw [h]
@[simp] theorem benSend_timeLoaded (b d : Nat) (p : List Byte) (s : State) : (benSend b d p s).timeLoaded = s.timeLoaded := by
  obtain ⟨_, _, _, _, _, h⟩ := benSend_replyOnly b d p s
  rw [h]
@[simp] theorem benSend_nextTick (b d : Nat) (p : List Byte) (s : State) : (benSend b d p s).nextTick = s.nextTick := by
  obtain ⟨_, _, _, _, _, h⟩ := benSend_replyOnly b d p s
  rw [h]
@[simp] theorem benSend_freeCtr (b d : Nat) (p : List Byte) (s : State) : (benSend b d p s).freeCtr = s.freeCtr := by
  obtain ⟨_, _, _, _, _, h⟩ := benSend_replyOnly b d p s
  rw [h]
@[simp] theorem benSend_sys (b d : Nat) (p : List Byte) (s : State) : (benSend b d p s).sys = s.sys := by
  obtain ⟨_, _, _, _, _, h⟩ := benSend_replyOnly b d p s
  rw [h]
@[simp] theorem benSend_modes (b d : Nat) (p : List Byte) (s : State) : (benSend b d p s).modes = s.modes := by
  obtain ⟨_, _, _, _, _, h⟩ := benSend_replyOnly b d p s
  rw [h]
@[simp] theorem benSend_eng (b d : Nat) (p : List Byte) (s : State) : (benSend b d p s).eng = s.eng := by
  obtain ⟨_, _, _, _, _, h⟩ := benSend_replyOnly b d p s
  rw [h]
@[simp] theorem benSend_gens (b d : Nat) (p : List Byte) (s : State) : (benSend b d p s).gens = s.gens := by
  obtain ⟨_, _, _, _, _, h⟩ := benSend_replyOnly b d p s
  rw [h]
@[simp] theorem benSend_grid (b d : Nat) (p : List Byte) (s : State) : (benSend b d p s).grid = s.grid := by
  obtain ⟨_, _, _, _, _, h⟩ := benSend_replyOnly b d p s
  rw [h]
@[simp] theorem benSend_rt (b d : Nat) (p : List Byte) (s : State) : (benSend b d p s).rt = s.rt := by
  obtain ⟨_, _, _, _, _, h⟩ := benSend_replyOnly b d p s
  rw [h]
@[simp] theorem benSend_dcl (b d : Nat) (p : List Byte) (s : State) : (benSend b d p s).dcl = s.dcl := by
  obtain ⟨_, _, _, _, _, h⟩ := benSend_replyOnly b d p s
  rw [h]
@[simp] theorem benSend_isl (b d : Nat) (p : List Byte) (s : State) : (benSend b d p s).isl = s.isl := by
  obtain ⟨_, _, _, _, _, h⟩ := benSend_replyOnly b d p s
  rw [h]
@[simp] theorem benSend_ports (b d : Nat) (p : List Byte) (s : State) : (benSend b d p s).ports = s.ports := by
  obtain ⟨_, _, _, _, _, h⟩ := benSend_replyOnly b d p s
  rw [h]
@[simp] theorem benSend_pwm (b d : Nat) (p : List Byte) (s : State) : (benSend b d p s).pwm = s.pwm := by
  obtain ⟨_, _, _, _, _, h⟩ := benSend_replyOnly b d p s
  rw [h]
@[simp] theorem benSend_sense (b d : Nat) (p : List Byte) (s : State) : (benSend b d p s).sense = s.sense := by
  obtain ⟨_, _, _, _, _, h⟩ := benSend_replyOnly b d p s
  rw [h]
@[simp] theorem benSend_prot (b d : Nat) (p : List Byte) (s : State) : (benSend b d p s).prot = s.prot := by
  obtain ⟨_, _, _, _, _, h⟩ := benSend_replyOnly b d p s
  rw [h]
@[simp] theorem benSend_recorder (b d : Nat) (p : List Byte) (s : State) : (benSend b d p s).recorder = s.recorder := by
  obtain ⟨_, _, _, _, _, h⟩ := benSend_replyOnly b d p s
  rw [h]
@[simp] theorem benSend_safety (b d : Nat) (p : List Byte) (s : State) : (benSend b d p s).safety = s.safety := by
  obtain ⟨_, _, _, _, _, h⟩ := benSend_replyOnly b d p s
  rw [h]
@[simp] theorem benSend_cool (b d : Nat) (p : List Byte) (s : State) : (benSend b d p s).cool = s.cool := by
  obtain ⟨_, _, _, _, _, h⟩ := benSend_replyOnly b d p s
  rw [h]
@[simp] theorem benSend_clk (b d : Nat) (p : List Byte) (s : State) : (benSend b d p s).clk = s.clk := by
  obtain ⟨_, _, _, _, _, h⟩ := benSend_replyOnly b d p s
  rw [h]
@[simp] theorem benSend_mem (b d : Nat) (p : List Byte) (s : State) : (benSend b d p s).mem = s.mem := by
  obtain ⟨_, _, _, _, _, h⟩ := benSend_replyOnly b d p s
  rw [h]
@[simp] theorem benSend_husk (b d : Nat) (p : List Byte) (s : State) : (benSend b d p s).husk = s.husk := by
  obtain ⟨_, _, _, _, _, h⟩ := benSend_replyOnly b d p s
  rw [h]

/-- Bytes stored change memory alone. -/
theorem store_eq (a : Nat) (v : List Byte) (s : State) : ∃ m : Mem × Mem, s.store a v = { s with mem := { s.mem with sram := m.1, mram := m.2 } } := by
  unfold State.store; split
  · exact ⟨(s.mem.sram, _), rfl⟩
  · exact ⟨(_, s.mem.mram), rfl⟩

/-- t is s but for what taking a packet touches: what posting an event touches, and memory. -/
def TakeOnly (s t : State) : Prop := ∃ (r' : List Ring) (i' : BitVec 32) (o' : List Byte) (e' : Nat) (h' : Husk) (c' : Rec) (m' : Mem × Mem), t = { s with rings := r', host := { s.host with intStatus := i', uartOut := o', uartEnd := e' }, husk := h', recorder := c', mem := { s.mem with sram := m'.1, mram := m'.2 } }

theorem TakeOnly.refl (s : State) : TakeOnly s s := ⟨s.rings, s.host.intStatus, s.host.uartOut, s.host.uartEnd, s.husk, s.recorder, (s.mem.sram, s.mem.mram), rfl⟩
theorem TakeOnly.trans {s t u : State} (h : TakeOnly s t) (k : TakeOnly t u) : TakeOnly s u := by
  obtain ⟨a0, a1, a2, a3, a4, a5, a6, rfl⟩ := h
  obtain ⟨b0, b1, b2, b3, b4, b5, b6, rfl⟩ := k
  exact ⟨b0, b1, b2, b3, b4, b5, b6, rfl⟩

theorem PostOnly.take {s t : State} (h : PostOnly s t) : TakeOnly s t := by
  obtain ⟨_, _, _, _, _, _, rfl⟩ := h
  exact ⟨_, _, _, _, _, _, (_, _), rfl⟩

theorem store_takeOnly (a : Nat) (v : List Byte) (s : State) : TakeOnly s (s.store a v) := by
  obtain ⟨m, h⟩ := store_eq a v s
  exact ⟨_, _, _, _, _, _, m, h⟩

theorem useDescriptor_takeOnly (t n : Nat) (s : State) (i : Nat) : TakeOnly s (useDescriptor t n s i) := by
  unfold useDescriptor; dsimp only; split
  · exact (modRing_postOnly _ _ s).take
  · split
    · exact store_takeOnly _ _ s
    · exact (store_takeOnly _ _ s).trans ((setInt_postOnly _ _).trans (post_postOnly _ _ _)).take

theorem passOver_takeOnly (t n k : Nat) (s : State) : TakeOnly s (passOver t n k s) := by
  induction k generalizing s with
  | zero => exact .refl s
  | succ k ih =>
    unfold passOver; dsimp only; split
    · exact ((useDescriptor_takeOnly _ _ s _).trans (modRing_postOnly _ _ _).take).trans (ih _)
    · exact .refl s

/-- Looking at the head of a ring changes what taking a packet changes. -/
theorem passHeads_takeOnly (t n : Nat) (s : State) : TakeOnly s (passHeads t n s) := by
  unfold passHeads; split
  · exact passOver_takeOnly _ _ _ s
  · exact .refl s

/-- Taking a packet changes ring indexes, the flags bytes of its ring's descriptors, and what RING_ERROR touches. -/
theorem takePacket_takeOnly (p : Packet) (s : State) : TakeOnly s (takePacket p s) := by
  unfold takePacket
  cases p.src with
  | hostRing n => exact ((foldl_rel TakeOnly.refl TakeOnly.trans (useDescriptor_takeOnly p.t n) _ s).trans (modRing_postOnly _ _ _).take).trans (passHeads_takeOnly _ _ _)
  | appRing k => exact ((foldl_rel TakeOnly.refl TakeOnly.trans (useDescriptor_takeOnly p.t (48 + k)) _ s).trans (modRing_postOnly _ _ _).take).trans (passHeads_takeOnly _ _ _)
  | net a =>
    dsimp only; split
    · exact .refl s
    · exact (modRing_postOnly _ _ s).take
  | escape => exact .refl s

/-- A packet arrives: the present instant, and its ring's head looked at. -/
theorem arrived_takeOnly (p : Packet) (s : State) : TakeOnly (s.advance p.t) (arrived p s) := by
  unfold arrived; split
  · exact passHeads_takeOnly _ _ _
  · exact passHeads_takeOnly _ _ _
  · exact .refl _

/-- The first accepted command frees UART0, and the events that waited leave. -/
theorem firstAccepted_eq (s : State) : ∃ (f : Bool) (r : List Ring) (o : List Byte) (e : Nat),
    firstAccepted s = { s with cmd := { s.cmd with first := f }, rings := r, host := { s.host with uartOut := o, uartEnd := e } } := by
  have fold : ∀ (l : List (List Byte)) (u : State), ∃ (o : List Byte) (e : Nat),
      l.foldl (fun s b => uartSend b s) u = { u with host := { u.host with uartOut := o, uartEnd := e } } := by
    intro l
    induction l with
    | nil => exact fun u => ⟨u.host.uartOut, u.host.uartEnd, rfl⟩
    | cons b l ih =>
      intro u
      obtain ⟨o, e, h⟩ := ih (uartSend b u)
      exact ⟨o, e, by rw [List.foldl_cons, h]; rfl⟩
  unfold firstAccepted; dsimp only; split
  · exact ⟨s.cmd.first, s.rings, s.host.uartOut, s.host.uartEnd, rfl⟩
  · split
    · obtain ⟨o, e, h⟩ := fold (s.ring 16).recs ((s.modCmd fun c => { c with first := true }).modRing 16 fun r => { r with hostIndex := r.devIndex, recs := [] })
      exact ⟨true, _, o, e, h⟩
    · exact ⟨true, s.rings, s.host.uartOut, s.host.uartEnd, rfl⟩

@[simp] theorem passHeads_pending (t n : Nat) (s : State) : (passHeads t n s).pending = s.pending := by
  obtain ⟨_, _, _, _, _, _, _, h⟩ := passHeads_takeOnly t n s
  rw [h]
@[simp] theorem passHeads_time (t n : Nat) (s : State) : (passHeads t n s).time = s.time := by
  obtain ⟨_, _, _, _, _, _, _, h⟩ := passHeads_takeOnly t n s
  rw [h]
@[simp] theorem passHeads_timeValid (t n : Nat) (s : State) : (passHeads t n s).timeValid = s.timeValid := by
  obtain ⟨_, _, _, _, _, _, _, h⟩ := passHeads_takeOnly t n s
  rw [h]
@[simp] theorem passHeads_timeLoaded (t n : Nat) (s : State) : (passHeads t n s).timeLoaded = s.timeLoaded := by
  obtain ⟨_, _, _, _, _, _, _, h⟩ := passHeads_takeOnly t n s
  rw [h]
@[simp] theorem passHeads_nextTick (t n : Nat) (s : State) : (passHeads t n s).nextTick = s.nextTick := by
  obtain ⟨_, _, _, _, _, _, _, h⟩ := passHeads_takeOnly t n s
  rw [h]
@[simp] theorem passHeads_freeCtr (t n : Nat) (s : State) : (passHeads t n s).freeCtr = s.freeCtr := by
  obtain ⟨_, _, _, _, _, _, _, h⟩ := passHeads_takeOnly t n s
  rw [h]
@[simp] theorem passHeads_sys (t n : Nat) (s : State) : (passHeads t n s).sys = s.sys := by
  obtain ⟨_, _, _, _, _, _, _, h⟩ := passHeads_takeOnly t n s
  rw [h]
@[simp] theorem passHeads_esc (t n : Nat) (s : State) : (passHeads t n s).esc = s.esc := by
  obtain ⟨_, _, _, _, _, _, _, h⟩ := passHeads_takeOnly t n s
  rw [h]
@[simp] theorem passHeads_cmd (t n : Nat) (s : State) : (passHeads t n s).cmd = s.cmd := by
  obtain ⟨_, _, _, _, _, _, _, h⟩ := passHeads_takeOnly t n s
  rw [h]
@[simp] theorem passHeads_modes (t n : Nat) (s : State) : (passHeads t n s).modes = s.modes := by
  obtain ⟨_, _, _, _, _, _, _, h⟩ := passHeads_takeOnly t n s
  rw [h]
@[simp] theorem passHeads_eng (t n : Nat) (s : State) : (passHeads t n s).eng = s.eng := by
  obtain ⟨_, _, _, _, _, _, _, h⟩ := passHeads_takeOnly t n s
  rw [h]
@[simp] theorem passHeads_gens (t n : Nat) (s : State) : (passHeads t n s).gens = s.gens := by
  obtain ⟨_, _, _, _, _, _, _, h⟩ := passHeads_takeOnly t n s
  rw [h]
@[simp] theorem passHeads_grid (t n : Nat) (s : State) : (passHeads t n s).grid = s.grid := by
  obtain ⟨_, _, _, _, _, _, _, h⟩ := passHeads_takeOnly t n s
  rw [h]
@[simp] theorem passHeads_rt (t n : Nat) (s : State) : (passHeads t n s).rt = s.rt := by
  obtain ⟨_, _, _, _, _, _, _, h⟩ := passHeads_takeOnly t n s
  rw [h]
@[simp] theorem passHeads_dcl (t n : Nat) (s : State) : (passHeads t n s).dcl = s.dcl := by
  obtain ⟨_, _, _, _, _, _, _, h⟩ := passHeads_takeOnly t n s
  rw [h]
@[simp] theorem passHeads_isl (t n : Nat) (s : State) : (passHeads t n s).isl = s.isl := by
  obtain ⟨_, _, _, _, _, _, _, h⟩ := passHeads_takeOnly t n s
  rw [h]
@[simp] theorem passHeads_ports (t n : Nat) (s : State) : (passHeads t n s).ports = s.ports := by
  obtain ⟨_, _, _, _, _, _, _, h⟩ := passHeads_takeOnly t n s
  rw [h]
@[simp] theorem passHeads_pwm (t n : Nat) (s : State) : (passHeads t n s).pwm = s.pwm := by
  obtain ⟨_, _, _, _, _, _, _, h⟩ := passHeads_takeOnly t n s
  rw [h]
@[simp] theorem passHeads_sense (t n : Nat) (s : State) : (passHeads t n s).sense = s.sense := by
  obtain ⟨_, _, _, _, _, _, _, h⟩ := passHeads_takeOnly t n s
  rw [h]
@[simp] theorem passHeads_prot (t n : Nat) (s : State) : (passHeads t n s).prot = s.prot := by
  obtain ⟨_, _, _, _, _, _, _, h⟩ := passHeads_takeOnly t n s
  rw [h]
@[simp] theorem passHeads_safety (t n : Nat) (s : State) : (passHeads t n s).safety = s.safety := by
  obtain ⟨_, _, _, _, _, _, _, h⟩ := passHeads_takeOnly t n s
  rw [h]
@[simp] theorem passHeads_net (t n : Nat) (s : State) : (passHeads t n s).net = s.net := by
  obtain ⟨_, _, _, _, _, _, _, h⟩ := passHeads_takeOnly t n s
  rw [h]
@[simp] theorem passHeads_cool (t n : Nat) (s : State) : (passHeads t n s).cool = s.cool := by
  obtain ⟨_, _, _, _, _, _, _, h⟩ := passHeads_takeOnly t n s
  rw [h]
@[simp] theorem passHeads_clk (t n : Nat) (s : State) : (passHeads t n s).clk = s.clk := by
  obtain ⟨_, _, _, _, _, _, _, h⟩ := passHeads_takeOnly t n s
  rw [h]
@[simp] theorem takePacket_pending (p : Packet) (s : State) : (takePacket p s).pending = s.pending := by
  obtain ⟨_, _, _, _, _, _, _, h⟩ := takePacket_takeOnly p s
  rw [h]
@[simp] theorem takePacket_time (p : Packet) (s : State) : (takePacket p s).time = s.time := by
  obtain ⟨_, _, _, _, _, _, _, h⟩ := takePacket_takeOnly p s
  rw [h]
@[simp] theorem takePacket_timeValid (p : Packet) (s : State) : (takePacket p s).timeValid = s.timeValid := by
  obtain ⟨_, _, _, _, _, _, _, h⟩ := takePacket_takeOnly p s
  rw [h]
@[simp] theorem takePacket_timeLoaded (p : Packet) (s : State) : (takePacket p s).timeLoaded = s.timeLoaded := by
  obtain ⟨_, _, _, _, _, _, _, h⟩ := takePacket_takeOnly p s
  rw [h]
@[simp] theorem takePacket_nextTick (p : Packet) (s : State) : (takePacket p s).nextTick = s.nextTick := by
  obtain ⟨_, _, _, _, _, _, _, h⟩ := takePacket_takeOnly p s
  rw [h]
@[simp] theorem takePacket_freeCtr (p : Packet) (s : State) : (takePacket p s).freeCtr = s.freeCtr := by
  obtain ⟨_, _, _, _, _, _, _, h⟩ := takePacket_takeOnly p s
  rw [h]
@[simp] theorem takePacket_sys (p : Packet) (s : State) : (takePacket p s).sys = s.sys := by
  obtain ⟨_, _, _, _, _, _, _, h⟩ := takePacket_takeOnly p s
  rw [h]
@[simp] theorem takePacket_esc (p : Packet) (s : State) : (takePacket p s).esc = s.esc := by
  obtain ⟨_, _, _, _, _, _, _, h⟩ := takePacket_takeOnly p s
  rw [h]
@[simp] theorem takePacket_cmd (p : Packet) (s : State) : (takePacket p s).cmd = s.cmd := by
  obtain ⟨_, _, _, _, _, _, _, h⟩ := takePacket_takeOnly p s
  rw [h]
@[simp] theorem takePacket_modes (p : Packet) (s : State) : (takePacket p s).modes = s.modes := by
  obtain ⟨_, _, _, _, _, _, _, h⟩ := takePacket_takeOnly p s
  rw [h]
@[simp] theorem takePacket_eng (p : Packet) (s : State) : (takePacket p s).eng = s.eng := by
  obtain ⟨_, _, _, _, _, _, _, h⟩ := takePacket_takeOnly p s
  rw [h]
@[simp] theorem takePacket_gens (p : Packet) (s : State) : (takePacket p s).gens = s.gens := by
  obtain ⟨_, _, _, _, _, _, _, h⟩ := takePacket_takeOnly p s
  rw [h]
@[simp] theorem takePacket_grid (p : Packet) (s : State) : (takePacket p s).grid = s.grid := by
  obtain ⟨_, _, _, _, _, _, _, h⟩ := takePacket_takeOnly p s
  rw [h]
@[simp] theorem takePacket_rt (p : Packet) (s : State) : (takePacket p s).rt = s.rt := by
  obtain ⟨_, _, _, _, _, _, _, h⟩ := takePacket_takeOnly p s
  rw [h]
@[simp] theorem takePacket_dcl (p : Packet) (s : State) : (takePacket p s).dcl = s.dcl := by
  obtain ⟨_, _, _, _, _, _, _, h⟩ := takePacket_takeOnly p s
  rw [h]
@[simp] theorem takePacket_isl (p : Packet) (s : State) : (takePacket p s).isl = s.isl := by
  obtain ⟨_, _, _, _, _, _, _, h⟩ := takePacket_takeOnly p s
  rw [h]
@[simp] theorem takePacket_ports (p : Packet) (s : State) : (takePacket p s).ports = s.ports := by
  obtain ⟨_, _, _, _, _, _, _, h⟩ := takePacket_takeOnly p s
  rw [h]
@[simp] theorem takePacket_pwm (p : Packet) (s : State) : (takePacket p s).pwm = s.pwm := by
  obtain ⟨_, _, _, _, _, _, _, h⟩ := takePacket_takeOnly p s
  rw [h]
@[simp] theorem takePacket_sense (p : Packet) (s : State) : (takePacket p s).sense = s.sense := by
  obtain ⟨_, _, _, _, _, _, _, h⟩ := takePacket_takeOnly p s
  rw [h]
@[simp] theorem takePacket_prot (p : Packet) (s : State) : (takePacket p s).prot = s.prot := by
  obtain ⟨_, _, _, _, _, _, _, h⟩ := takePacket_takeOnly p s
  rw [h]
@[simp] theorem takePacket_safety (p : Packet) (s : State) : (takePacket p s).safety = s.safety := by
  obtain ⟨_, _, _, _, _, _, _, h⟩ := takePacket_takeOnly p s
  rw [h]
@[simp] theorem takePacket_net (p : Packet) (s : State) : (takePacket p s).net = s.net := by
  obtain ⟨_, _, _, _, _, _, _, h⟩ := takePacket_takeOnly p s
  rw [h]
@[simp] theorem takePacket_cool (p : Packet) (s : State) : (takePacket p s).cool = s.cool := by
  obtain ⟨_, _, _, _, _, _, _, h⟩ := takePacket_takeOnly p s
  rw [h]
@[simp] theorem takePacket_clk (p : Packet) (s : State) : (takePacket p s).clk = s.clk := by
  obtain ⟨_, _, _, _, _, _, _, h⟩ := takePacket_takeOnly p s
  rw [h]
@[simp] theorem arrived_pending (p : Packet) (s : State) : (arrived p s).pending = s.pending := by
  obtain ⟨_, _, _, _, _, _, _, h⟩ := arrived_takeOnly p s
  rw [h]; rfl
@[simp] theorem firstAccepted_pending (s : State) : (firstAccepted s).pending = s.pending := by
  obtain ⟨_, _, _, _, h⟩ := firstAccepted_eq s
  rw [h]
@[simp] theorem touchSession_pending (p : Packet) (s : State) : (touchSession p s).pending = s.pending := rfl
@[simp] theorem firstAccepted_time (s : State) : (firstAccepted s).time = s.time := by
  obtain ⟨_, _, _, _, h⟩ := firstAccepted_eq s
  rw [h]
@[simp] theorem touchSession_time (p : Packet) (s : State) : (touchSession p s).time = s.time := rfl
@[simp] theorem arrived_timeValid (p : Packet) (s : State) : (arrived p s).timeValid = s.timeValid := by
  obtain ⟨_, _, _, _, _, _, _, h⟩ := arrived_takeOnly p s
  rw [h]; rfl
@[simp] theorem firstAccepted_timeValid (s : State) : (firstAccepted s).timeValid = s.timeValid := by
  obtain ⟨_, _, _, _, h⟩ := firstAccepted_eq s
  rw [h]
@[simp] theorem touchSession_timeValid (p : Packet) (s : State) : (touchSession p s).timeValid = s.timeValid := rfl
@[simp] theorem arrived_timeLoaded (p : Packet) (s : State) : (arrived p s).timeLoaded = s.timeLoaded := by
  obtain ⟨_, _, _, _, _, _, _, h⟩ := arrived_takeOnly p s
  rw [h]; rfl
@[simp] theorem firstAccepted_timeLoaded (s : State) : (firstAccepted s).timeLoaded = s.timeLoaded := by
  obtain ⟨_, _, _, _, h⟩ := firstAccepted_eq s
  rw [h]
@[simp] theorem touchSession_timeLoaded (p : Packet) (s : State) : (touchSession p s).timeLoaded = s.timeLoaded := rfl
@[simp] theorem arrived_nextTick (p : Packet) (s : State) : (arrived p s).nextTick = s.nextTick := by
  obtain ⟨_, _, _, _, _, _, _, h⟩ := arrived_takeOnly p s
  rw [h]; rfl
@[simp] theorem firstAccepted_nextTick (s : State) : (firstAccepted s).nextTick = s.nextTick := by
  obtain ⟨_, _, _, _, h⟩ := firstAccepted_eq s
  rw [h]
@[simp] theorem touchSession_nextTick (p : Packet) (s : State) : (touchSession p s).nextTick = s.nextTick := rfl
@[simp] theorem arrived_freeCtr (p : Packet) (s : State) : (arrived p s).freeCtr = s.freeCtr := by
  obtain ⟨_, _, _, _, _, _, _, h⟩ := arrived_takeOnly p s
  rw [h]; rfl
@[simp] theorem firstAccepted_freeCtr (s : State) : (firstAccepted s).freeCtr = s.freeCtr := by
  obtain ⟨_, _, _, _, h⟩ := firstAccepted_eq s
  rw [h]
@[simp] theorem touchSession_freeCtr (p : Packet) (s : State) : (touchSession p s).freeCtr = s.freeCtr := rfl
@[simp] theorem arrived_sys (p : Packet) (s : State) : (arrived p s).sys = s.sys := by
  obtain ⟨_, _, _, _, _, _, _, h⟩ := arrived_takeOnly p s
  rw [h]; rfl
@[simp] theorem firstAccepted_sys (s : State) : (firstAccepted s).sys = s.sys := by
  obtain ⟨_, _, _, _, h⟩ := firstAccepted_eq s
  rw [h]
@[simp] theorem touchSession_sys (p : Packet) (s : State) : (touchSession p s).sys = s.sys := rfl
@[simp] theorem touchSession_host (p : Packet) (s : State) : (touchSession p s).host = s.host := rfl
@[simp] theorem arrived_esc (p : Packet) (s : State) : (arrived p s).esc = s.esc := by
  obtain ⟨_, _, _, _, _, _, _, h⟩ := arrived_takeOnly p s
  rw [h]; rfl
@[simp] theorem firstAccepted_esc (s : State) : (firstAccepted s).esc = s.esc := by
  obtain ⟨_, _, _, _, h⟩ := firstAccepted_eq s
  rw [h]
@[simp] theorem touchSession_esc (p : Packet) (s : State) : (touchSession p s).esc = s.esc := rfl
@[simp] theorem touchSession_rings (p : Packet) (s : State) : (touchSession p s).rings = s.rings := rfl
@[simp] theorem arrived_cmd (p : Packet) (s : State) : (arrived p s).cmd = s.cmd := by
  obtain ⟨_, _, _, _, _, _, _, h⟩ := arrived_takeOnly p s
  rw [h]; rfl
@[simp] theorem arrived_modes (p : Packet) (s : State) : (arrived p s).modes = s.modes := by
  obtain ⟨_, _, _, _, _, _, _, h⟩ := arrived_takeOnly p s
  rw [h]; rfl
@[simp] theorem firstAccepted_modes (s : State) : (firstAccepted s).modes = s.modes := by
  obtain ⟨_, _, _, _, h⟩ := firstAccepted_eq s
  rw [h]
@[simp] theorem touchSession_modes (p : Packet) (s : State) : (touchSession p s).modes = s.modes := rfl
@[simp] theorem arrived_eng (p : Packet) (s : State) : (arrived p s).eng = s.eng := by
  obtain ⟨_, _, _, _, _, _, _, h⟩ := arrived_takeOnly p s
  rw [h]; rfl
@[simp] theorem firstAccepted_eng (s : State) : (firstAccepted s).eng = s.eng := by
  obtain ⟨_, _, _, _, h⟩ := firstAccepted_eq s
  rw [h]
@[simp] theorem touchSession_eng (p : Packet) (s : State) : (touchSession p s).eng = s.eng := rfl
@[simp] theorem arrived_gens (p : Packet) (s : State) : (arrived p s).gens = s.gens := by
  obtain ⟨_, _, _, _, _, _, _, h⟩ := arrived_takeOnly p s
  rw [h]; rfl
@[simp] theorem firstAccepted_gens (s : State) : (firstAccepted s).gens = s.gens := by
  obtain ⟨_, _, _, _, h⟩ := firstAccepted_eq s
  rw [h]
@[simp] theorem touchSession_gens (p : Packet) (s : State) : (touchSession p s).gens = s.gens := rfl
@[simp] theorem arrived_grid (p : Packet) (s : State) : (arrived p s).grid = s.grid := by
  obtain ⟨_, _, _, _, _, _, _, h⟩ := arrived_takeOnly p s
  rw [h]; rfl
@[simp] theorem firstAccepted_grid (s : State) : (firstAccepted s).grid = s.grid := by
  obtain ⟨_, _, _, _, h⟩ := firstAccepted_eq s
  rw [h]
@[simp] theorem touchSession_grid (p : Packet) (s : State) : (touchSession p s).grid = s.grid := rfl
@[simp] theorem arrived_rt (p : Packet) (s : State) : (arrived p s).rt = s.rt := by
  obtain ⟨_, _, _, _, _, _, _, h⟩ := arrived_takeOnly p s
  rw [h]; rfl
@[simp] theorem firstAccepted_rt (s : State) : (firstAccepted s).rt = s.rt := by
  obtain ⟨_, _, _, _, h⟩ := firstAccepted_eq s
  rw [h]
@[simp] theorem touchSession_rt (p : Packet) (s : State) : (touchSession p s).rt = s.rt := rfl
@[simp] theorem arrived_dcl (p : Packet) (s : State) : (arrived p s).dcl = s.dcl := by
  obtain ⟨_, _, _, _, _, _, _, h⟩ := arrived_takeOnly p s
  rw [h]; rfl
@[simp] theorem firstAccepted_dcl (s : State) : (firstAccepted s).dcl = s.dcl := by
  obtain ⟨_, _, _, _, h⟩ := firstAccepted_eq s
  rw [h]
@[simp] theorem touchSession_dcl (p : Packet) (s : State) : (touchSession p s).dcl = s.dcl := rfl
@[simp] theorem arrived_isl (p : Packet) (s : State) : (arrived p s).isl = s.isl := by
  obtain ⟨_, _, _, _, _, _, _, h⟩ := arrived_takeOnly p s
  rw [h]; rfl
@[simp] theorem firstAccepted_isl (s : State) : (firstAccepted s).isl = s.isl := by
  obtain ⟨_, _, _, _, h⟩ := firstAccepted_eq s
  rw [h]
@[simp] theorem touchSession_isl (p : Packet) (s : State) : (touchSession p s).isl = s.isl := rfl
@[simp] theorem arrived_ports (p : Packet) (s : State) : (arrived p s).ports = s.ports := by
  obtain ⟨_, _, _, _, _, _, _, h⟩ := arrived_takeOnly p s
  rw [h]; rfl
@[simp] theorem firstAccepted_ports (s : State) : (firstAccepted s).ports = s.ports := by
  obtain ⟨_, _, _, _, h⟩ := firstAccepted_eq s
  rw [h]
@[simp] theorem touchSession_ports (p : Packet) (s : State) : (touchSession p s).ports = s.ports := rfl
@[simp] theorem arrived_pwm (p : Packet) (s : State) : (arrived p s).pwm = s.pwm := by
  obtain ⟨_, _, _, _, _, _, _, h⟩ := arrived_takeOnly p s
  rw [h]; rfl
@[simp] theorem firstAccepted_pwm (s : State) : (firstAccepted s).pwm = s.pwm := by
  obtain ⟨_, _, _, _, h⟩ := firstAccepted_eq s
  rw [h]
@[simp] theorem touchSession_pwm (p : Packet) (s : State) : (touchSession p s).pwm = s.pwm := rfl
@[simp] theorem arrived_sense (p : Packet) (s : State) : (arrived p s).sense = s.sense := by
  obtain ⟨_, _, _, _, _, _, _, h⟩ := arrived_takeOnly p s
  rw [h]; rfl
@[simp] theorem firstAccepted_sense (s : State) : (firstAccepted s).sense = s.sense := by
  obtain ⟨_, _, _, _, h⟩ := firstAccepted_eq s
  rw [h]
@[simp] theorem touchSession_sense (p : Packet) (s : State) : (touchSession p s).sense = s.sense := rfl
@[simp] theorem arrived_prot (p : Packet) (s : State) : (arrived p s).prot = s.prot := by
  obtain ⟨_, _, _, _, _, _, _, h⟩ := arrived_takeOnly p s
  rw [h]; rfl
@[simp] theorem firstAccepted_prot (s : State) : (firstAccepted s).prot = s.prot := by
  obtain ⟨_, _, _, _, h⟩ := firstAccepted_eq s
  rw [h]
@[simp] theorem touchSession_prot (p : Packet) (s : State) : (touchSession p s).prot = s.prot := rfl
@[simp] theorem firstAccepted_recorder (s : State) : (firstAccepted s).recorder = s.recorder := by
  obtain ⟨_, _, _, _, h⟩ := firstAccepted_eq s
  rw [h]
@[simp] theorem touchSession_recorder (p : Packet) (s : State) : (touchSession p s).recorder = s.recorder := rfl
@[simp] theorem arrived_safety (p : Packet) (s : State) : (arrived p s).safety = s.safety := by
  obtain ⟨_, _, _, _, _, _, _, h⟩ := arrived_takeOnly p s
  rw [h]; rfl
@[simp] theorem firstAccepted_safety (s : State) : (firstAccepted s).safety = s.safety := by
  obtain ⟨_, _, _, _, h⟩ := firstAccepted_eq s
  rw [h]
@[simp] theorem touchSession_safety (p : Packet) (s : State) : (touchSession p s).safety = s.safety := rfl
@[simp] theorem arrived_net (p : Packet) (s : State) : (arrived p s).net = s.net := by
  obtain ⟨_, _, _, _, _, _, _, h⟩ := arrived_takeOnly p s
  rw [h]; rfl
@[simp] theorem firstAccepted_net (s : State) : (firstAccepted s).net = s.net := by
  obtain ⟨_, _, _, _, h⟩ := firstAccepted_eq s
  rw [h]
@[simp] theorem touchSession_net (p : Packet) (s : State) : (touchSession p s).net = s.net := rfl
@[simp] theorem arrived_cool (p : Packet) (s : State) : (arrived p s).cool = s.cool := by
  obtain ⟨_, _, _, _, _, _, _, h⟩ := arrived_takeOnly p s
  rw [h]; rfl
@[simp] theorem firstAccepted_cool (s : State) : (firstAccepted s).cool = s.cool := by
  obtain ⟨_, _, _, _, h⟩ := firstAccepted_eq s
  rw [h]
@[simp] theorem touchSession_cool (p : Packet) (s : State) : (touchSession p s).cool = s.cool := rfl
@[simp] theorem arrived_clk (p : Packet) (s : State) : (arrived p s).clk = s.clk := by
  obtain ⟨_, _, _, _, _, _, _, h⟩ := arrived_takeOnly p s
  rw [h]; rfl
@[simp] theorem firstAccepted_clk (s : State) : (firstAccepted s).clk = s.clk := by
  obtain ⟨_, _, _, _, h⟩ := firstAccepted_eq s
  rw [h]
@[simp] theorem touchSession_clk (p : Packet) (s : State) : (touchSession p s).clk = s.clk := rfl
@[simp] theorem firstAccepted_mem (s : State) : (firstAccepted s).mem = s.mem := by
  obtain ⟨_, _, _, _, h⟩ := firstAccepted_eq s
  rw [h]
@[simp] theorem touchSession_mem (p : Packet) (s : State) : (touchSession p s).mem = s.mem := rfl
@[simp] theorem firstAccepted_husk (s : State) : (firstAccepted s).husk = s.husk := by
  obtain ⟨_, _, _, _, h⟩ := firstAccepted_eq s
  rw [h]
@[simp] theorem touchSession_husk (p : Packet) (s : State) : (touchSession p s).husk = s.husk := rfl

end Sys2Proof.Machine
end

