-- ==== Sys2Proof/Laws/Memory.lean ====
section
/-! SUPPORT. Memory: the canonical form and what every operation does to it, reads after writes; lengths of byte strings. -/

namespace Sys2Proof.Machine

/-- The canonical form said at once: addresses strictly rising, no byte 0. -/
theorem Mem.wf_iff (m : Mem) : Mem.wf m = true ↔ m.Pairwise (fun c d => c.1 < d.1) ∧ ∀ c ∈ m, c.2 ≠ 0 := by
  induction m with
  | nil => simp [Mem.wf]
  | cons c r ih =>
    obtain ⟨a, v⟩ := c
    cases r with
    | nil => simp [Mem.wf]
    | cons d q =>
      simp only [Mem.wf, Bool.and_eq_true, bne_iff_ne, decide_eq_true_eq] at ih ⊢
      constructor
      · rintro ⟨⟨hv, hd⟩, hr⟩
        have ⟨hp, hz⟩ := ih.1 hr
        refine ⟨List.pairwise_cons.2 ⟨?_, hp⟩, ?_⟩
        · intro e he
          rcases List.mem_cons.1 he with rfl | he
          · exact hd
          · exact Nat.lt_trans hd ((List.pairwise_cons.1 hp).1 e he)
        · intro e he
          rcases List.mem_cons.1 he with rfl | he
          · exact hv
          · exact hz e he
      · rintro ⟨hp, hz⟩
        have hc := List.pairwise_cons.1 hp
        exact ⟨⟨hz _ (List.mem_cons_self ..), hc.1 _ (List.mem_cons_self ..)⟩,
          ih.2 ⟨hc.2, fun e he => hz e (List.mem_cons_of_mem _ he)⟩⟩

/-- An entry after a write is the entry written or one that stood before at another address, in a canonical list. -/
theorem Mem.mem_write {m : Mem} {a : Nat} {v : Byte} {c : Host.Cell} (h : c ∈ Mem.write m a v) : (c = (a, v) ∧ v ≠ 0) ∨ c ∈ m := by
  induction m with
  | nil => simp only [Mem.write] at h; split at h <;> simp_all
  | cons d r ih =>
    obtain ⟨b, w⟩ := d
    simp only [Mem.write] at h
    split at h
    · split at h
      · exact .inr h
      · rcases List.mem_cons.1 h with h | h
        · exact .inl ⟨h, ‹_›⟩
        · exact .inr h
    · split at h
      · split at h
        · exact .inr (List.mem_cons_of_mem _ h)
        · rcases List.mem_cons.1 h with h | h
          · exact .inl ⟨h, ‹_›⟩
          · exact .inr (List.mem_cons_of_mem _ h)
      · rcases List.mem_cons.1 h with h | h
        · exact .inr (h ▸ List.mem_cons_self ..)
        · exact (ih h).imp id (List.mem_cons_of_mem _)

/-- A write keeps the canonical form. -/
theorem Mem.wf_write {m : Mem} (h : Mem.wf m = true) (a : Nat) (v : Byte) : Mem.wf (Mem.write m a v) = true := by
  rw [Mem.wf_iff] at h ⊢
  obtain ⟨hp, hz⟩ := h
  refine ⟨?_, fun c hc => ?_⟩
  · induction m with
    | nil => simp only [Mem.write]; split <;> simp
    | cons d r ih =>
      obtain ⟨b, w⟩ := d
      have hc := List.pairwise_cons.1 hp
      simp only [Mem.write]
      split
      · split
        · exact hp
        · refine List.pairwise_cons.2 ⟨fun e he => ?_, hp⟩
          rcases List.mem_cons.1 he with rfl | he
          · assumption
          · exact Nat.lt_trans ‹_› (hc.1 e he)
      · split
        · subst_vars
          split
          · exact hc.2
          · exact List.pairwise_cons.2 ⟨hc.1, hc.2⟩
        · refine List.pairwise_cons.2 ⟨fun e he => ?_, ih hc.2 fun c hm => hz c (List.mem_cons_of_mem _ hm)⟩
          rcases Mem.mem_write he with ⟨rfl, -⟩ | he
          · show b < a
            omega
          · exact hc.1 e he
  · rcases Mem.mem_write hc with ⟨rfl, h⟩ | h
    · exact h
    · exact hz c h

/-- Writing several bytes keeps the canonical form. -/
theorem Mem.wf_writeN {m : Mem} (h : Mem.wf m = true) (a : Nat) (v : List Byte) : Mem.wf (Mem.writeN m a v) = true := by
  induction v generalizing m a with
  | nil => exact h
  | cons x r ih => exact ih (Mem.wf_write h a x) (a + 1)

/-- Any part of a canonical list is canonical: a wipe or an erase. -/
theorem Mem.wf_filter {m : Mem} (h : Mem.wf m = true) (f : Host.Cell → Bool) : Mem.wf (m.filter f) = true := by
  rw [Mem.wf_iff] at h ⊢
  exact ⟨h.1.filter f, fun c hc => h.2 c (List.mem_filter.1 hc).1⟩

theorem Mem.wf_clear {m : Mem} (h : Mem.wf m = true) (a n : Nat) : Mem.wf (Mem.clear m a n) = true := Mem.wf_filter h _

/-- A byte below every listed address reads 0. -/
theorem Mem.read_below {m : Mem} {a : Nat} (h : ∀ c ∈ m, a < c.1) : Mem.read m a = 0 := by
  induction m with
  | nil => rfl
  | cons d r ih =>
    obtain ⟨b, w⟩ := d
    have hb := h (b, w) (List.mem_cons_self ..)
    simp only [Mem.read]
    rw [if_neg (by simp at hb; omega)]
    exact ih fun c hc => h c (List.mem_cons_of_mem _ hc)

/-- A read after a write to the same place gives the byte written. -/
theorem Mem.read_write_same {m : Mem} (h : Mem.wf m = true) (a : Nat) (v : Byte) : Mem.read (Mem.write m a v) a = v := by
  rw [Mem.wf_iff] at h
  obtain ⟨hp, hz⟩ := h
  induction m with
  | nil => simp only [Mem.write]; split <;> simp_all [Mem.read]
  | cons d r ih =>
    obtain ⟨b, w⟩ := d
    have hc := List.pairwise_cons.1 hp
    simp only [Mem.write]
    split
    · split
      · subst_vars
        refine Mem.read_below fun c hm => ?_
        rcases List.mem_cons.1 hm with rfl | hm
        · assumption
        · exact Nat.lt_trans ‹_› (hc.1 c hm)
      · simp [Mem.read]
    · split
      · subst_vars
        split
        · subst_vars; exact Mem.read_below fun c hm => hc.1 c hm
        · simp [Mem.read]
      · simp only [Mem.read]
        rw [if_neg (by omega)]
        exact ih hc.2 fun c hm => hz c (List.mem_cons_of_mem _ hm)

/-- A write leaves every other byte alone. -/
theorem Mem.read_write_other (m : Mem) {a b : Nat} (v : Byte) (h : b ≠ a) : Mem.read (Mem.write m a v) b = Mem.read m b := by
  induction m with
  | nil => simp only [Mem.write]; split <;> simp [Mem.read]; omega
  | cons d r ih =>
    obtain ⟨c, w⟩ := d
    simp only [Mem.write]
    split
    · split
      · rfl
      · simp [Mem.read]; omega
    · split
      · subst_vars
        split <;> simp only [Mem.read]
        · rw [if_neg (by omega)]
        · rw [if_neg (by omega), if_neg (by omega)]
      · simp only [Mem.read, ih]

/-- A write of several bytes leaves every byte outside them alone. -/
theorem Mem.read_writeN_other (m : Mem) (a : Nat) (v : List Byte) {b : Nat} (h : b < a ∨ a + v.length ≤ b) :
    Mem.read (Mem.writeN m a v) b = Mem.read m b := by
  induction v generalizing m a with
  | nil => rfl
  | cons x r ih =>
    simp only [List.length_cons] at h
    simp only [Mem.writeN]
    rw [ih (Mem.write m a x) (a + 1) (by omega), Mem.read_write_other m x (by omega)]

/-! ### Byte strings -/

@[simp] theorem zeros_length (n : Nat) : (zeros n).length = n := by simp [zeros]

@[simp] theorem slice_length (bs : List Byte) (i n : Nat) : (slice bs i n).length = n := by
  simp only [slice, List.length_append, List.length_take, List.length_drop, List.length_replicate]; omega

@[simp] theorem fit_length (n : Nat) (bs : List Byte) : (fit n bs).length = n := slice_length bs 0 n

@[simp] theorem le_length (n v : Nat) : (le n v).length = n := by
  induction n generalizing v with
  | zero => rfl
  | succ n ih => simp [le, ih]

@[simp] theorem leI_length (n : Nat) (v : Int) : (leI n v).length = n := le_length n _

end Sys2Proof.Machine
end

