-- ==== Sys2Proof/Laws/Command.lean ====
section
/-! SUPPORT. What a command packet does: one lemma for the outcomes of runCommand, one for an accepted packet, one for what answering
touches. A proof about an opcode cites them and looks at the opcode's own effect alone. -/

namespace Sys2Proof.Machine

/-- Answering touches only what `answered` lists: the relation holds of a state and itself. -/
theorem answered_self (s : State) : AnsweredFrom s s := rfl

/-- Two answers in turn are one. -/
theorem AnsweredFrom.trans {s t u : State} (h : AnsweredFrom s t) (k : AnsweredFrom t u) : AnsweredFrom s u := by
  unfold AnsweredFrom at *
  rw [k, h]
  rfl

theorem modCmd_answered (f : Cmd → Cmd) (s : State) : AnsweredFrom s (s.modCmd f) := rfl
theorem modRing_answered (n : Nat) (f : Ring → Ring) (s : State) : AnsweredFrom s (s.modRing n f) := rfl
theorem setInt_answered (i : Nat) (s : State) : AnsweredFrom s (s.setInt i) := rfl
theorem setRingInt_answered (n : Nat) (s : State) : AnsweredFrom s (s.setRingInt n) := by
  unfold State.setRingInt; split <;> rfl
theorem dirty_answered (s : State) : AnsweredFrom s s.dirty := rfl
theorem advance_answered (t : Nat) (s : State) : AnsweredFrom s (s.advance t) := rfl
theorem touchSession_answered (p : Packet) (s : State) : AnsweredFrom s (touchSession p s) := rfl

theorem benSend_answered (b d : Nat) (p : List Byte) (s : State) : AnsweredFrom s (benSend b d p s) := by
  unfold benSend; split
  · dsimp only; split
    · rfl
    · split
      · rfl
      · split
        · rfl
        · split <;> rfl
  · rfl

theorem replyOn_answered (n : Nat) (b : List Byte) (s : State) : AnsweredFrom s (replyOn n b s) := by
  unfold replyOn; dsimp only; split
  · unfold State.setRingInt; split <;> rfl
  · split
    · rfl
    · exact (modRing_answered _ _ s).trans (setRingInt_answered _ _)

/-- A reply sent is part of answering. -/
theorem sendReply_answered (src : Source) (b : List Byte) (s : State) : AnsweredFrom s (sendReply src b s) := by
  unfold sendReply; split
  · exact replyOn_answered _ b s
  · exact replyOn_answered _ b s
  · exact benSend_answered _ _ b s
  · rfl

theorem firstAccepted_answered (s : State) : AnsweredFrom s (firstAccepted s) := by
  obtain ⟨_, _, _, _, h⟩ := firstAccepted_eq s
  rw [h]
  rfl

/-- Answering touches no more than looking at a ring and answering do. -/
theorem AnsweredFrom.passed {s t : State} (h : AnsweredFrom s t) : PassedFrom s t := by
  unfold AnsweredFrom at h
  unfold PassedFrom
  rw [h]
  rfl

theorem PassedFrom.trans {s t u : State} (h : PassedFrom s t) (k : PassedFrom t u) : PassedFrom s u := by
  unfold PassedFrom at *
  rw [k, h]
  rfl

/-- What taking a packet touches is part of it. -/
theorem TakeOnly.passed {s t : State} (h : TakeOnly s t) : PassedFrom s t := by
  obtain ⟨_, _, _, _, _, _, _, rfl⟩ := h
  rfl

theorem arrived_passed (p : Packet) (s : State) : PassedFrom s (arrived p s) :=
  (advance_answered p.t s).passed.trans (arrived_takeOnly p s).passed

theorem seen_passed (p : Packet) (s : State) : PassedFrom s (seen p s) := (arrived_passed p s).trans (takePacket_takeOnly p _).passed

/-- The state that an effect starts from differs from the one before the command by its ring and by answering alone. -/
theorem begun_passed (p : Packet) (s : State) : PassedFrom s (begun p s) :=
  (seen_passed p s).trans ((touchSession_answered p _).trans (firstAccepted_answered _)).passed

/-- The first exposed descriptor of a ring is the one at its head (R74). -/
theorem head_exposed {r : Ring} (h : r.devIndex ≠ r.hostIndex) (k : Nat) : r.devIndex ∈ exposedFrom r (k + 1) r.devIndex := by
  simp [exposedFrom, h]

/-- With no descriptor to pass over at its head, a ring stays as it is (R75). -/
theorem passOver_inOrder {s : State} {n : Nat} (h : (s.ring n).devIndex ≠ (s.ring n).hostIndex → s.rejects n (s.ring n).devIndex = false)
    (t k : Nat) : passOver t n k s = s := by
  cases k with
  | zero => rfl
  | succ k => unfold passOver; exact if_neg fun ⟨a, b⟩ => by simp [h a] at b

theorem passHeads_inOrder {s : State} {n : Nat} (h : (s.ring n).devIndex ≠ (s.ring n).hostIndex → s.rejects n (s.ring n).devIndex = false)
    (t : Nat) : passHeads t n s = s := by
  unfold passHeads; split
  · exact passOver_inOrder h _ _
  · rfl

/-- With no descriptor to pass over, a packet arrives at its time and nothing else happens. -/
theorem arrived_inOrder {p : Packet} {s : State} (h : InOrder p s) : arrived p s = s.advance p.t := by
  unfold arrived; split <;> rename_i e
  · exact passHeads_inOrder (s := s.advance p.t) (fun a => h _ (by rw [e]; rfl) _ (head_exposed a _)) _
  · exact passHeads_inOrder (s := s.advance p.t) (fun a => h _ (by rw [e]; rfl) _ (head_exposed a _)) _
  · rfl

theorem noted_answered (c : CmdSpec) (p : Packet) (s : State) : AnsweredFrom s (c.noted p s) := by
  unfold CmdSpec.noted; split <;> rfl

theorem whenReady_answered (f : State → State) (h : ∀ s, AnsweredFrom s (f s)) (s : State) : AnsweredFrom s (whenReady f s) := by
  unfold whenReady; split
  · exact h s
  · rfl

theorem finishReply_answered (c : CmdSpec) (p : Packet) (e : Effect) (s : State) (h : e.keep = none) :
    AnsweredFrom s (finishReply c p e s) := by
  unfold finishReply; dsimp only; rw [h]; dsimp only; split
  · rfl
  · exact sendReply_answered _ _ s

/-- The three things a command packet can do: stop at a source that does not exist, be answered, or stay with its source. -/
theorem runCommand_cases (c : CmdSpec) (p : Packet) (s : State) :
    (sourceOk p.src = false ∧ runCommand c p s = .fault .noSuchUnit) ∨
    (Taken (packetBytes c.opcode p) p s ∧ runCommand c p s = .next (c.process p (seen p s))) ∨
    (sourceOk p.src = true ∧ takes (packetBytes c.opcode p) p (arrived p s) = false ∧ runCommand c p s = .next (arrived p s)) := by
  unfold runCommand
  cases hs : sourceOk p.src with
  | false => exact .inl ⟨rfl, by simp⟩
  | true =>
    cases ht : takes (packetBytes c.opcode p) p (arrived p s) with
    | true => exact .inr (.inl ⟨⟨hs, ht⟩, by simp [ht, seen]⟩)
    | false => exact .inr (.inr ⟨rfl, rfl, by simp [ht]⟩)

/-- An accepted packet: its effect from the state its packet was taken in, noted, counted and answered. -/
theorem runCommand_accepts {c : CmdSpec} {p : Packet} {s : State} (h : Accepts c p s) :
    runCommand c p s = .next (finishReply c p (c.run p (begun p s)) (whenReady countAccepted (c.noted p (c.run p (begun p s)).st))) := by
  obtain ⟨⟨hs, ht⟩, hf, hd, hh⟩ := h
  unfold runCommand
  simp only [hs, ht, Bool.not_true, Bool.false_eq_true, ↓reduceIte]
  show Host.Outcome.next (c.process p (seen p s)) = _
  unfold CmdSpec.process
  rw [hf]
  dsimp only
  unfold CmdSpec.accept
  simp only [hd, hh, Bool.false_eq_true, ↓reduceIte, begun]

/-- An accepted packet answered at once: a state that differs from its effect's by answering alone. -/
theorem accepted_answered {c : CmdSpec} {p : Packet} {s : State} (h : Accepts c p s) (k : (c.run p (begun p s)).keep = none) :
    ∃ t, runCommand c p s = .next t ∧ AnsweredFrom (c.run p (begun p s)).st t :=
  ⟨_, runCommand_accepts h,
    ((noted_answered c p _).trans (whenReady_answered _ (fun s => modCmd_answered _ s) _)).trans (finishReply_answered c p _ _ k)⟩

/-- An updated element, as a constant of what stood there. -/
theorem upd_eq {α : Type} (l : List α) (i : Nat) (f : α → α) (d : α) : upd l i f = upd l i fun _ => f (l.getD i d) := by
  unfold upd
  apply List.ext_getElem?
  intro j
  simp only [List.getElem?_modify]
  by_cases h : i = j
  · subst h
    simp only [List.getD_eq_getElem?_getD]
    cases l[i]? <;> simp
  · simp [h]

/-- What an opcode's effect gives, its packets lead to. -/
theorem effects_of_run {c : CmdSpec} {p : Packet} {s : State} {i : Instr} (hi : exec i s = runCommand c p s) {st : Status} {data : List Byte}
    {u : State} (h : c.run p (begun p s) = { st := u, data := data, status := st }) : Effects i c p s st data u := by
  intro a
  rw [hi, runCommand_accepts a, h]
  rfl

/-- The same for an opcode whose reply is kept. -/
theorem effectsLater_of_run {c : CmdSpec} {p : Packet} {s : State} {i : Instr} (hi : exec i s = runCommand c p s) {st : Status}
    {data : List Byte} {keep : DurReply → State → State} {u : State}
    (h : c.run p (begun p s) = { st := u, data := data, status := st, keep := some keep }) : EffectsLater i c p s st data keep u := by
  intro a
  rw [hi, runCommand_accepts a, h]
  rfl

/-- Every row that is a packet runs as one. -/
theorem exec_packetOf {i : Instr} {c : CmdSpec} {p : Packet} (s : State) (h : packetOf i = some (c, p)) : exec i s = runCommand c p s := by
  cases i <;> first
    | (simp only [packetOf, Option.some.injEq, Prod.mk.injEq] at h; obtain ⟨rfl, rfl⟩ := h; rfl)
    | cases h

end Sys2Proof.Machine
end

