-- ==== Sys2Proof/Laws/PerInstr.lean ====
section
/-! SUPPORT. Per-instruction families. WellFormedSource: a well-formed command packet comes from a source that exists (R59, R72), so that no
well-formed packet stops; a row that is no packet has nothing to show. -/

namespace Sys2Proof.Laws.WellFormedSource

open Sys2Proof Sys2Proof.Machine

/-- A packet in order comes from a source that exists. -/
theorem source_of_ok {p : Packet} (h : p.ok = true) : sourceOk p.src = true := by
  unfold Packet.ok at h
  cases hs : p.src <;> simp_all [Source.ok, sourceOk]

/-- A well-formed row that is a packet comes from a source that exists. -/
def Statement (i : Instr) : Prop := i.wellFormed = true → ∀ c p, packetOf i = some (c, p) → sourceOk p.src = true

theorem sysInfo (p : Packet) : Statement (.sysInfo p) := fun h _ _ e => by cases e; exact source_of_ok h
theorem sysStatus (p : Packet) : Statement (.sysStatus p) := fun h _ _ e => by cases e; exact source_of_ok h
theorem sysReset (p : Packet) : Statement (.sysReset p) := fun h _ _ e => by cases e; exact source_of_ok h
theorem sysUnfreeze (p : Packet) : Statement (.sysUnfreeze p) := fun h _ _ e => by cases e; exact source_of_ok h
theorem sysMode (p : Packet) : Statement (.sysMode p) := fun h _ _ e => by cases e; exact source_of_ok h
theorem ringConfig (p : Packet) : Statement (.ringConfig p) := fun h _ _ e => by cases e; exact source_of_ok h
theorem sessionOpen (p : Packet) : Statement (.sessionOpen p) := fun h _ _ e => by cases e; exact source_of_ok h
theorem sessionClose (p : Packet) : Statement (.sessionClose p) := fun h _ _ e => by cases e; exact source_of_ok h
theorem sheafEntryWrite (p : Packet) : Statement (.sheafEntryWrite p) := fun h _ _ e => by cases e; exact source_of_ok h
theorem sheafEntryRead (p : Packet) : Statement (.sheafEntryRead p) := fun h _ _ e => by cases e; exact source_of_ok h
theorem sheafEnable (p : Packet) : Statement (.sheafEnable p) := fun h _ _ e => by cases e; exact source_of_ok h
theorem sheafCoefStage (p : Packet) : Statement (.sheafCoefStage p) := fun h _ _ e => by cases e; exact source_of_ok h
theorem sheafCoefLive (p : Packet) : Statement (.sheafCoefLive p) := fun h _ _ e => by cases e; exact source_of_ok h
theorem sheafHitchArm (p : Packet) : Statement (.sheafHitchArm p) := fun h _ _ e => by cases e; exact source_of_ok h
theorem sheafHitchCancel (p : Packet) : Statement (.sheafHitchCancel p) := fun h _ _ e => by cases e; exact source_of_ok h
theorem sheafLimitsSet (p : Packet) : Statement (.sheafLimitsSet p) := fun h _ _ e => by cases e; exact source_of_ok h
theorem sheafMapSet (p : Packet) : Statement (.sheafMapSet p) := fun h _ _ e => by cases e; exact source_of_ok h
theorem sheafStateSet (p : Packet) : Statement (.sheafStateSet p) := fun h _ _ e => by cases e; exact source_of_ok h
theorem sheafStats (p : Packet) : Statement (.sheafStats p) := fun h _ _ e => by cases e; exact source_of_ok h
theorem sheafTemplateWrite (p : Packet) : Statement (.sheafTemplateWrite p) := fun h _ _ e => by cases e; exact source_of_ok h
theorem sheafInvalidate (p : Packet) : Statement (.sheafInvalidate p) := fun h _ _ e => by cases e; exact source_of_ok h
theorem sheafCommit (p : Packet) : Statement (.sheafCommit p) := fun h _ _ e => by cases e; exact source_of_ok h
theorem engineRateSet (p : Packet) : Statement (.engineRateSet p) := fun h _ _ e => by cases e; exact source_of_ok h
theorem engineStatus (p : Packet) : Statement (.engineStatus p) := fun h _ _ e => by cases e; exact source_of_ok h
theorem profileConfig (p : Packet) : Statement (.profileConfig p) := fun h _ _ e => by cases e; exact source_of_ok h
theorem profileTarget (p : Packet) : Statement (.profileTarget p) := fun h _ _ e => by cases e; exact source_of_ok h
theorem profileHold (p : Packet) : Statement (.profileHold p) := fun h _ _ e => by cases e; exact source_of_ok h
theorem profileRead (p : Packet) : Statement (.profileRead p) := fun h _ _ e => by cases e; exact source_of_ok h
theorem gridConfig (p : Packet) : Statement (.gridConfig p) := fun h _ _ e => by cases e; exact source_of_ok h
theorem gridTrackerConfig (p : Packet) : Statement (.gridTrackerConfig p) := fun h _ _ e => by cases e; exact source_of_ok h
theorem gridStatus (p : Packet) : Statement (.gridStatus p) := fun h _ _ e => by cases e; exact source_of_ok h
theorem gridFunction (p : Packet) : Statement (.gridFunction p) := fun h _ _ e => by cases e; exact source_of_ok h
theorem gridSetpoint (p : Packet) : Statement (.gridSetpoint p) := fun h _ _ e => by cases e; exact source_of_ok h
theorem gridVsmConfig (p : Packet) : Statement (.gridVsmConfig p) := fun h _ _ e => by cases e; exact source_of_ok h
theorem gridLimits (p : Packet) : Statement (.gridLimits p) := fun h _ _ e => by cases e; exact source_of_ok h
theorem rtProfile (p : Packet) : Statement (.rtProfile p) := fun h _ _ e => by cases e; exact source_of_ok h
theorem rtRegionSet (p : Packet) : Statement (.rtRegionSet p) := fun h _ _ e => by cases e; exact source_of_ok h
theorem rtTripSet (p : Packet) : Statement (.rtTripSet p) := fun h _ _ e => by cases e; exact source_of_ok h
theorem rtSupport (p : Packet) : Statement (.rtSupport p) := fun h _ _ e => by cases e; exact source_of_ok h
theorem rtService (p : Packet) : Statement (.rtService p) := fun h _ _ e => by cases e; exact source_of_ok h
theorem rtDclinkConfig (p : Packet) : Statement (.rtDclinkConfig p) := fun h _ _ e => by cases e; exact source_of_ok h
theorem rtDclinkClear (p : Packet) : Statement (.rtDclinkClear p) := fun h _ _ e => by cases e; exact source_of_ok h
theorem rtStatus (p : Packet) : Statement (.rtStatus p) := fun h _ _ e => by cases e; exact source_of_ok h
theorem islAwnConfig (p : Packet) : Statement (.islAwnConfig p) := fun h _ _ e => by cases e; exact source_of_ok h
theorem islPassiveSet (p : Packet) : Statement (.islPassiveSet p) := fun h _ _ e => by cases e; exact source_of_ok h
theorem islPeerSet (p : Packet) : Statement (.islPeerSet p) := fun h _ _ e => by cases e; exact source_of_ok h
theorem islStatus (p : Packet) : Statement (.islStatus p) := fun h _ _ e => by cases e; exact source_of_ok h
theorem islPccMap (p : Packet) : Statement (.islPccMap p) := fun h _ _ e => by cases e; exact source_of_ok h
theorem islBaselineReset (p : Packet) : Statement (.islBaselineReset p) := fun h _ _ e => by cases e; exact source_of_ok h
theorem portPvConfig (p : Packet) : Statement (.portPvConfig p) := fun h _ _ e => by cases e; exact source_of_ok h
theorem portBatConfig (p : Packet) : Statement (.portBatConfig p) := fun h _ _ e => by cases e; exact source_of_ok h
theorem portChopperConfig (p : Packet) : Statement (.portChopperConfig p) := fun h _ _ e => by cases e; exact source_of_ok h
theorem portShareConfig (p : Packet) : Statement (.portShareConfig p) := fun h _ _ e => by cases e; exact source_of_ok h
theorem portMpptConfig (p : Packet) : Statement (.portMpptConfig p) := fun h _ _ e => by cases e; exact source_of_ok h
theorem portBmsConfig (p : Packet) : Statement (.portBmsConfig p) := fun h _ _ e => by cases e; exact source_of_ok h
theorem portEnable (p : Packet) : Statement (.portEnable p) := fun h _ _ e => by cases e; exact source_of_ok h
theorem portBatSet (p : Packet) : Statement (.portBatSet p) := fun h _ _ e => by cases e; exact source_of_ok h
theorem portSweep (p : Packet) : Statement (.portSweep p) := fun h _ _ e => by cases e; exact source_of_ok h
theorem portStatus (p : Packet) : Statement (.portStatus p) := fun h _ _ e => by cases e; exact source_of_ok h
theorem portBmsStatus (p : Packet) : Statement (.portBmsStatus p) := fun h _ _ e => by cases e; exact source_of_ok h
theorem portMapRead (p : Packet) : Statement (.portMapRead p) := fun h _ _ e => by cases e; exact source_of_ok h
theorem pwmTimebaseConfig (p : Packet) : Statement (.pwmTimebaseConfig p) := fun h _ _ e => by cases e; exact source_of_ok h
theorem pwmLegConfig (p : Packet) : Statement (.pwmLegConfig p) := fun h _ _ e => by cases e; exact source_of_ok h
theorem pwmDutySet (p : Packet) : Statement (.pwmDutySet p) := fun h _ _ e => by cases e; exact source_of_ok h
theorem pwmLegTest (p : Packet) : Statement (.pwmLegTest p) := fun h _ _ e => by cases e; exact source_of_ok h
theorem pwmStatus (p : Packet) : Statement (.pwmStatus p) := fun h _ _ e => by cases e; exact source_of_ok h
theorem senseAinConfig (p : Packet) : Statement (.senseAinConfig p) := fun h _ _ e => by cases e; exact source_of_ok h
theorem senseDecimConfig (p : Packet) : Statement (.senseDecimConfig p) := fun h _ _ e => by cases e; exact source_of_ok h
theorem senseKirchhoffSet (p : Packet) : Statement (.senseKirchhoffSet p) := fun h _ _ e => by cases e; exact source_of_ok h
theorem senseCheckConfig (p : Packet) : Statement (.senseCheckConfig p) := fun h _ _ e => by cases e; exact source_of_ok h
theorem senseHkConfig (p : Packet) : Statement (.senseHkConfig p) := fun h _ _ e => by cases e; exact source_of_ok h
theorem senseHkRead (p : Packet) : Statement (.senseHkRead p) := fun h _ _ e => by cases e; exact source_of_ok h
theorem sensePathTest (p : Packet) : Statement (.sensePathTest p) := fun h _ _ e => by cases e; exact source_of_ok h
theorem senseStatus (p : Packet) : Statement (.senseStatus p) := fun h _ _ e => by cases e; exact source_of_ok h
theorem protGroupConfig (p : Packet) : Statement (.protGroupConfig p) := fun h _ _ e => by cases e; exact source_of_ok h
theorem protFltConfig (p : Packet) : Statement (.protFltConfig p) := fun h _ _ e => by cases e; exact source_of_ok h
theorem protCmpConfig (p : Packet) : Statement (.protCmpConfig p) := fun h _ _ e => by cases e; exact source_of_ok h
theorem protMonConfig (p : Packet) : Statement (.protMonConfig p) := fun h _ _ e => by cases e; exact source_of_ok h
theorem protRelease (p : Packet) : Statement (.protRelease p) := fun h _ _ e => by cases e; exact source_of_ok h
theorem protTrip (p : Packet) : Statement (.protTrip p) := fun h _ _ e => by cases e; exact source_of_ok h
theorem protCmpTest (p : Packet) : Statement (.protCmpTest p) := fun h _ _ e => by cases e; exact source_of_ok h
theorem protStatus (p : Packet) : Statement (.protStatus p) := fun h _ _ e => by cases e; exact source_of_ok h
theorem recLaneConfig (p : Packet) : Statement (.recLaneConfig p) := fun h _ _ e => by cases e; exact source_of_ok h
theorem recTriggerConfig (p : Packet) : Statement (.recTriggerConfig p) := fun h _ _ e => by cases e; exact source_of_ok h
theorem recCaptureConfig (p : Packet) : Statement (.recCaptureConfig p) := fun h _ _ e => by cases e; exact source_of_ok h
theorem recArm (p : Packet) : Statement (.recArm p) := fun h _ _ e => by cases e; exact source_of_ok h
theorem recTrigger (p : Packet) : Statement (.recTrigger p) := fun h _ _ e => by cases e; exact source_of_ok h
theorem recRead (p : Packet) : Statement (.recRead p) := fun h _ _ e => by cases e; exact source_of_ok h
theorem recDelete (p : Packet) : Statement (.recDelete p) := fun h _ _ e => by cases e; exact source_of_ok h
theorem recCommit (p : Packet) : Statement (.recCommit p) := fun h _ _ e => by cases e; exact source_of_ok h
theorem recMapConfig (p : Packet) : Statement (.recMapConfig p) := fun h _ _ e => by cases e; exact source_of_ok h
theorem recStatClear (p : Packet) : Statement (.recStatClear p) := fun h _ _ e => by cases e; exact source_of_ok h
theorem recSkewCal (p : Packet) : Statement (.recSkewCal p) := fun h _ _ e => by cases e; exact source_of_ok h
theorem recStatus (p : Packet) : Statement (.recStatus p) := fun h _ _ e => by cases e; exact source_of_ok h
theorem safetyStatus (p : Packet) : Statement (.safetyStatus p) := fun h _ _ e => by cases e; exact source_of_ok h
theorem safetyUnlock (p : Packet) : Statement (.safetyUnlock p) := fun h _ _ e => by cases e; exact source_of_ok h
theorem safetyLock (p : Packet) : Statement (.safetyLock p) := fun h _ _ e => by cases e; exact source_of_ok h
theorem safetyStage (p : Packet) : Statement (.safetyStage p) := fun h _ _ e => by cases e; exact source_of_ok h
theorem safetyCommit (p : Packet) : Statement (.safetyCommit p) := fun h _ _ e => by cases e; exact source_of_ok h
theorem safetyRead (p : Packet) : Statement (.safetyRead p) := fun h _ _ e => by cases e; exact source_of_ok h
theorem safetyPassword (p : Packet) : Statement (.safetyPassword p) := fun h _ _ e => by cases e; exact source_of_ok h
theorem safetyAck (p : Packet) : Statement (.safetyAck p) := fun h _ _ e => by cases e; exact source_of_ok h
theorem safetyOutputReq (p : Packet) : Statement (.safetyOutputReq p) := fun h _ _ e => by cases e; exact source_of_ok h
theorem safetyOutputTest (p : Packet) : Statement (.safetyOutputTest p) := fun h _ _ e => by cases e; exact source_of_ok h
theorem safetyLogRead (p : Packet) : Statement (.safetyLogRead p) := fun h _ _ e => by cases e; exact source_of_ok h
theorem netPortConfig (p : Packet) : Statement (.netPortConfig p) := fun h _ _ e => by cases e; exact source_of_ok h
theorem netIpConfig (p : Packet) : Statement (.netIpConfig p) := fun h _ _ e => by cases e; exact source_of_ok h
theorem netNeighbourSet (p : Packet) : Statement (.netNeighbourSet p) := fun h _ _ e => by cases e; exact source_of_ok h
theorem netPtpOffset (p : Packet) : Statement (.netPtpOffset p) := fun h _ _ e => by cases e; exact source_of_ok h
theorem netCanConfig (p : Packet) : Statement (.netCanConfig p) := fun h _ _ e => by cases e; exact source_of_ok h
theorem netUartConfig (p : Packet) : Statement (.netUartConfig p) := fun h _ _ e => by cases e; exact source_of_ok h
theorem netFleetConfig (p : Packet) : Statement (.netFleetConfig p) := fun h _ _ e => by cases e; exact source_of_ok h
theorem netFleetKey (p : Packet) : Statement (.netFleetKey p) := fun h _ _ e => by cases e; exact source_of_ok h
theorem netDispatchAuth (p : Packet) : Statement (.netDispatchAuth p) := fun h _ _ e => by cases e; exact source_of_ok h
theorem netVrelBind (p : Packet) : Statement (.netVrelBind p) := fun h _ _ e => by cases e; exact source_of_ok h
theorem netPeerRead (p : Packet) : Statement (.netPeerRead p) := fun h _ _ e => by cases e; exact source_of_ok h
theorem netStatus (p : Packet) : Statement (.netStatus p) := fun h _ _ e => by cases e; exact source_of_ok h
theorem coolConfig (p : Packet) : Statement (.coolConfig p) := fun h _ _ e => by cases e; exact source_of_ok h
theorem coolRun (p : Packet) : Statement (.coolRun p) := fun h _ _ e => by cases e; exact source_of_ok h
theorem coolStatus (p : Packet) : Statement (.coolStatus p) := fun h _ _ e => by cases e; exact source_of_ok h
theorem coolHealth (p : Packet) : Statement (.coolHealth p) := fun h _ _ e => by cases e; exact source_of_ok h
theorem clkRefConfig (p : Packet) : Statement (.clkRefConfig p) := fun h _ _ e => by cases e; exact source_of_ok h
theorem clkStatus (p : Packet) : Statement (.clkStatus p) := fun h _ _ e => by cases e; exact source_of_ok h
theorem clkSwap (p : Packet) : Statement (.clkSwap p) := fun h _ _ e => by cases e; exact source_of_ok h
theorem memStatus (p : Packet) : Statement (.memStatus p) := fun h _ _ e => by cases e; exact source_of_ok h
theorem memImageLoad (p : Packet) : Statement (.memImageLoad p) := fun h _ _ e => by cases e; exact source_of_ok h
theorem memDataWrite (p : Packet) : Statement (.memDataWrite p) := fun h _ _ e => by cases e; exact source_of_ok h
theorem memDataRead (p : Packet) : Statement (.memDataRead p) := fun h _ _ e => by cases e; exact source_of_ok h
theorem memKeyInstall (p : Packet) : Statement (.memKeyInstall p) := fun h _ _ e => by cases e; exact source_of_ok h
theorem memSerialSet (p : Packet) : Statement (.memSerialSet p) := fun h _ _ e => by cases e; exact source_of_ok h
theorem memLcChallenge (p : Packet) : Statement (.memLcChallenge p) := fun h _ _ e => by cases e; exact source_of_ok h
theorem memLcTransition (p : Packet) : Statement (.memLcTransition p) := fun h _ _ e => by cases e; exact source_of_ok h
theorem memSplice (p : Packet) : Statement (.memSplice p) := fun h _ _ e => by cases e; exact source_of_ok h
theorem memHealthRead (p : Packet) : Statement (.memHealthRead p) := fun h _ _ e => by cases e; exact source_of_ok h
theorem huskConfig (p : Packet) : Statement (.huskConfig p) := fun h _ _ e => by cases e; exact source_of_ok h
theorem huskStatus (p : Packet) : Statement (.huskStatus p) := fun h _ _ e => by cases e; exact source_of_ok h
theorem huskTimeSet (p : Packet) : Statement (.huskTimeSet p) := fun h _ _ e => by cases e; exact source_of_ok h
theorem huskLogRead (p : Packet) : Statement (.huskLogRead p) := fun h _ _ e => by cases e; exact source_of_ok h
theorem doorbellWrite (t m n v : Nat) : Statement (.doorbellWrite t m n v) := fun _ _ _ e => nomatch e
theorem intStatusWrite (t m : Nat) (v : Word) : Statement (.intStatusWrite t m v) := fun _ _ _ e => nomatch e
theorem timeLoRead (t m : Nat) : Statement (.timeLoRead t m) := fun _ _ _ e => nomatch e
theorem registerWrite (t m addr : Nat) (v : Word) : Statement (.registerWrite t m addr v) := fun _ _ _ e => nomatch e
theorem hspiWrite (t addr : Nat) (data : List Byte) : Statement (.hspiWrite t addr data) := fun _ _ _ e => nomatch e
theorem hspiQuadWrite (t addr : Nat) (data : List Byte) : Statement (.hspiQuadWrite t addr data) := fun _ _ _ e => nomatch e
theorem hspiRead (t addr n : Nat) : Statement (.hspiRead t addr n) := fun _ _ _ e => nomatch e
theorem hspiQuadRead (t addr n : Nat) : Statement (.hspiQuadRead t addr n) := fun _ _ _ e => nomatch e
theorem escapeWrite (t : Nat) (frame : List Byte) : Statement (.escapeWrite t frame) := fun _ _ _ e => nomatch e
theorem escapeRead (t n : Nat) : Statement (.escapeRead t n) := fun _ _ _ e => nomatch e
theorem unknownInstruction (t : Nat) (b : Byte) : Statement (.unknownInstruction t b) := fun _ _ _ e => nomatch e
theorem hostUartPacket (t : Nat) (frame : List Byte) : Statement (.hostUartPacket t frame) := fun _ _ _ e => nomatch e
theorem heldReply (t n : Nat) : Statement (.heldReply t n) := fun _ _ _ e => nomatch e
theorem firewallViolation (t m addr : Nat) (write : Bool) (cores : List Nat) : Statement (.firewallViolation t m addr write cores) := fun _ _ _ e => nomatch e
theorem frozenD10Restart (t : Nat) : Statement (.frozenD10Restart t) := fun _ _ _ e => nomatch e
theorem powerOnReset (t : Nat) (o : RailsObs) : Statement (.powerOnReset t o) := fun _ _ _ e => nomatch e
theorem supplyReset (t rail uv held low : Nat) (v : Stores) : Statement (.supplyReset t rail uv held low v) := fun _ _ _ e => nomatch e
theorem vddHvNotGood (o : RailAt) : Statement (.vddHvNotGood o) := fun _ _ _ e => nomatch e
theorem vddHvGood (o : RailAt) : Statement (.vddHvGood o) := fun _ _ _ e => nomatch e
theorem resetHoldEnd (t : Nat) : Statement (.resetHoldEnd t) := fun _ _ _ e => nomatch e
theorem sramWipeComplete (t : Nat) : Statement (.sramWipeComplete t) := fun _ _ _ e => nomatch e
theorem imageVerifyComplete (t kind slot verdict version security : Nat) : Statement (.imageVerifyComplete t kind slot verdict version security) := fun _ _ _ e => nomatch e
theorem pllLockTimeout (t : Nat) : Statement (.pllLockTimeout t) := fun _ _ _ e => nomatch e
theorem converterCalibrationComplete (t : Nat) : Statement (.converterCalibrationComplete t) := fun _ _ _ e => nomatch e
theorem sheafImageLoad (t sheaf block : Nat) : Statement (.sheafImageLoad t sheaf block) := fun _ _ _ e => nomatch e
theorem startUpTestsComplete (t : Nat) (convs sars cells : List Nat) (outs : List (Nat × Nat)) : Statement (.startUpTestsComplete t convs sars cells outs) := fun _ _ _ e => nomatch e
theorem ready (t : Nat) : Statement (.ready t) := fun _ _ _ e => nomatch e
theorem startModeAttempt (t : Nat) : Statement (.startModeAttempt t) := fun _ _ _ e => nomatch e
theorem buttonReset (t : Nat) : Statement (.buttonReset t) := fun _ _ _ e => nomatch e
theorem resetButtonStuck (t : Nat) : Statement (.resetButtonStuck t) := fun _ _ _ e => nomatch e
theorem resetButtonFreed (t : Nat) : Statement (.resetButtonFreed t) := fun _ _ _ e => nomatch e
theorem resetBtnReady (t : Nat) : Statement (.resetBtnReady t) := fun _ _ _ e => nomatch e
theorem heartbeatLost (t : Nat) : Statement (.heartbeatLost t) := fun _ _ _ e => nomatch e
theorem supervisorFault (t : Nat) : Statement (.supervisorFault t) := fun _ _ _ e => nomatch e
theorem unrecoverableFault (t unit : Nat) : Statement (.unrecoverableFault t unit) := fun _ _ _ e => nomatch e
theorem domainFault (t d : Nat) : Statement (.domainFault t d) := fun _ _ _ e => nomatch e
theorem domainRestarted (t d : Nat) : Statement (.domainRestarted t d) := fun _ _ _ e => nomatch e
theorem safeStopRampEnd (t : Nat) : Statement (.safeStopRampEnd t) := fun _ _ _ e => nomatch e
theorem modeEntered (t : Nat) : Statement (.modeEntered t) := fun _ _ _ e => nomatch e
theorem modeAborted (t : Nat) : Statement (.modeAborted t) := fun _ _ _ e => nomatch e
theorem resynchronisationComplete (t : Nat) : Statement (.resynchronisationComplete t) := fun _ _ _ e => nomatch e
theorem safetyTick (t : Nat) (o : GridObs) (btnLow : Bool) : Statement (.safetyTick t o btnLow) := fun _ _ _ e => nomatch e
theorem baseTick (t : Nat) (o : TrackObs) : Statement (.baseTick t o) := fun _ _ _ e => nomatch e
theorem passVote (t subject unit : Nat) (claims : List CoreClaim) (late : List Nat) (clocks : Nat) : Statement (.passVote t subject unit claims late clocks) := fun _ _ _ e => nomatch e
theorem voteLate (t core : Nat) (r : LateVote) : Statement (.voteLate t core r) := fun _ _ _ e => nomatch e
theorem sampleTimeout (t ain out : Nat) : Statement (.sampleTimeout t ain out) := fun _ _ _ e => nomatch e
theorem channelFault (t ch : Nat) : Statement (.channelFault t ch) := fun _ _ _ e => nomatch e
theorem rateOverrun (t g : Nat) : Statement (.rateOverrun t g) := fun _ _ _ e => nomatch e
theorem coreDomainOff (t core : Nat) : Statement (.coreDomainOff t core) := fun _ _ _ e => nomatch e
theorem coreSpliceTransfer (t : Nat) (differed : List (Nat × Nat)) : Statement (.coreSpliceTransfer t differed) := fun _ _ _ e => nomatch e
theorem hitchSwapped (t g : Nat) : Statement (.hitchSwapped t g) := fun _ _ _ e => nomatch e
theorem trackerLocked (t : Nat) : Statement (.trackerLocked t) := fun _ _ _ e => nomatch e
theorem trackerAcquiring (t : Nat) : Statement (.trackerAcquiring t) := fun _ _ _ e => nomatch e
theorem reacqClear (t : Nat) : Statement (.reacqClear t) := fun _ _ _ e => nomatch e
theorem linkDelivery (t : Nat) : Statement (.linkDelivery t) := fun _ _ _ e => nomatch e
theorem classReturn (t : Nat) : Statement (.classReturn t) := fun _ _ _ e => nomatch e
theorem rtTrip (t : Nat) : Statement (.rtTrip t) := fun _ _ _ e => nomatch e
theorem rtRestart (t : Nat) : Statement (.rtRestart t) := fun _ _ _ e => nomatch e
theorem restartTimeout (t : Nat) : Statement (.restartTimeout t) := fun _ _ _ e => nomatch e
theorem enterServiceComplete (t : Nat) : Statement (.enterServiceComplete t) := fun _ _ _ e => nomatch e
theorem dclChopperFault (t : Nat) : Statement (.dclChopperFault t) := fun _ _ _ e => nomatch e
theorem dclRelease (t : Nat) : Statement (.dclRelease t) := fun _ _ _ e => nomatch e
theorem dclUndervoltage (t : Nat) : Statement (.dclUndervoltage t) := fun _ _ _ e => nomatch e
theorem awnChip (t : Nat) : Statement (.awnChip t) := fun _ _ _ e => nomatch e
theorem awnEvaluation (t : Nat) (angle : Int) : Statement (.awnEvaluation t angle) := fun _ _ _ e => nomatch e
theorem awnEpoch (t : Nat) : Statement (.awnEpoch t) := fun _ _ _ e => nomatch e
theorem islDetected (t : Nat) : Statement (.islDetected t) := fun _ _ _ e => nomatch e
theorem peerPcc (t m : Nat) : Statement (.peerPcc t m) := fun _ _ _ e => nomatch e
theorem autoScanDwell (t m : Nat) : Statement (.autoScanDwell t m) := fun _ _ _ e => nomatch e
theorem rocofTrip (t : Nat) : Statement (.rocofTrip t) := fun _ _ _ e => nomatch e
theorem pvPortStart (t p : Nat) : Statement (.pvPortStart t p) := fun _ _ _ e => nomatch e
theorem localTracker (t p : Nat) (slope v w : BitVec 32) : Statement (.localTracker t p slope v w) := fun _ _ _ e => nomatch e
theorem mapHalving (t p : Nat) : Statement (.mapHalving t p) := fun _ _ _ e => nomatch e
theorem globalSearch (t : Nat) (mean : List Nat) : Statement (.globalSearch t mean) := fun _ _ _ e => nomatch e
theorem pvSweep (t p mean deficit : Nat) : Statement (.pvSweep t p mean deficit) := fun _ _ _ e => nomatch e
theorem pvReferencePost (t : Nat) : Statement (.pvReferencePost t) := fun _ _ _ e => nomatch e
theorem curtailmentUpdate (t : Nat) : Statement (.curtailmentUpdate t) := fun _ _ _ e => nomatch e
theorem bmsNodeReport (t bus ident : Nat) (data : List Byte) : Statement (.bmsNodeReport t bus ident data) := fun _ _ _ e => nomatch e
theorem bmsNodeStale (t n : Nat) : Statement (.bmsNodeStale t n) := fun _ _ _ e => nomatch e
theorem bmsNodeDeparted (t n : Nat) : Statement (.bmsNodeDeparted t n) := fun _ _ _ e => nomatch e
theorem bmsStatusSend (t bus : Nat) : Statement (.bmsStatusSend t bus) := fun _ _ _ e => nomatch e
theorem loadEvent (t leg : Nat) (peak : Bool) : Statement (.loadEvent t leg peak) := fun _ _ _ e => nomatch e
theorem bootPrecharge (t leg : Nat) : Statement (.bootPrecharge t leg) := fun _ _ _ e => nomatch e
theorem legTestEnd (t leg : Nat) : Statement (.legTestEnd t leg) := fun _ _ _ e => nomatch e
theorem pipelineSample (t a : Nat) (code : Int) (o : FrontObs) : Statement (.pipelineSample t a code o) := fun _ _ _ e => nomatch e
theorem senseSuspect (t check unit : Nat) : Statement (.senseSuspect t check unit) := fun _ _ _ e => nomatch e
theorem senseVerdict (t a b d : Nat) : Statement (.senseVerdict t a b d) := fun _ _ _ e => nomatch e
theorem converterPowerOff (t c : Nat) : Statement (.converterPowerOff t c) := fun _ _ _ e => nomatch e
theorem checkSuspensionEnd (t check unit : Nat) : Statement (.checkSuspensionEnd t check unit) := fun _ _ _ e => nomatch e
theorem shadowVisit (t : Nat) (offset gain : Int) : Statement (.shadowVisit t offset gain) := fun _ _ _ e => nomatch e
theorem sarStart (t u : Nat) (reqs : List (Nat × Nat)) : Statement (.sarStart t u reqs) := fun _ _ _ e => nomatch e
theorem sarResult (t u code : Nat) : Statement (.sarResult t u code) := fun _ _ _ e => nomatch e
theorem testDacStep (t : Nat) : Statement (.testDacStep t) := fun _ _ _ e => nomatch e
theorem sensePath (t : Nat) (diffs : List Int) : Statement (.sensePath t diffs) := fun _ _ _ e => nomatch e
theorem calibrationCorrection (t : Nat) (gains : List Int) : Statement (.calibrationCorrection t gains) := fun _ _ _ e => nomatch e
theorem fltAsserted (t n : Nat) : Statement (.fltAsserted t n) := fun _ _ _ e => nomatch e
theorem fltReady (t n : Nat) : Statement (.fltReady t n) := fun _ _ _ e => nomatch e
theorem comparatorAsserted (t n : Nat) : Statement (.comparatorAsserted t n) := fun _ _ _ e => nomatch e
theorem hardCellAsserted (t n : Nat) : Statement (.hardCellAsserted t n) := fun _ _ _ e => nomatch e
theorem monitorActs (t n : Nat) : Statement (.monitorActs t n) := fun _ _ _ e => nomatch e
theorem softStep (t g : Nat) : Statement (.softStep t g) := fun _ _ _ e => nomatch e
theorem innerStep (t g : Nat) : Statement (.innerStep t g) := fun _ _ _ e => nomatch e
theorem protRetry (t g : Nat) : Statement (.protRetry t g) := fun _ _ _ e => nomatch e
theorem triesClear (t g : Nat) : Statement (.triesClear t g) := fun _ _ _ e => nomatch e
theorem partnerSuspect (t n : Nat) : Statement (.partnerSuspect t n) := fun _ _ _ e => nomatch e
theorem cmpSelfTestStep (t : Nat) (cellBad standBad : Bool) : Statement (.cmpSelfTestStep t cellBad standBad) := fun _ _ _ e => nomatch e
theorem cellPowerOff (t k : Nat) : Statement (.cellPowerOff t k) := fun _ _ _ e => nomatch e
theorem cmpTestComplete (t : Nat) (codes : List (Nat × Nat × Nat)) : Statement (.cmpTestComplete t codes) := fun _ _ _ e => nomatch e
theorem recTimeTrigger (t k : Nat) : Statement (.recTimeTrigger t k) := fun _ _ _ e => nomatch e
theorem recComplete (t : Nat) : Statement (.recComplete t) := fun _ _ _ e => nomatch e
theorem persistenceHalving (t m : Nat) : Statement (.persistenceHalving t m) := fun _ _ _ e => nomatch e
theorem readoutRecord (t n : Nat) : Statement (.readoutRecord t n) := fun _ _ _ e => nomatch e
theorem skewCalComplete (t : Nat) : Statement (.skewCalComplete t) := fun _ _ _ e => nomatch e
theorem safetyInputSample (t levels : Nat) : Statement (.safetyInputSample t levels) := fun _ _ _ e => nomatch e
theorem testPulse (t src : Nat) : Statement (.testPulse t src) := fun _ _ _ e => nomatch e
theorem discrepancyFault (t k : Nat) : Statement (.discrepancyFault t k) := fun _ _ _ e => nomatch e
theorem outputReadback (t x pinMv hvMv uA : Nat) : Statement (.outputReadback t x pinMv hvMv uA) := fun _ _ _ e => nomatch e
theorem outputFault (t x : Nat) : Statement (.outputFault t x) := fun _ _ _ e => nomatch e
theorem lightTestStep (t x pinMv hvMv uA : Nat) : Statement (.lightTestStep t x pinMv hvMv uA) := fun _ _ _ e => nomatch e
theorem feedbackTimeout (t x : Nat) : Statement (.feedbackTimeout t x) := fun _ _ _ e => nomatch e
theorem outputTest (t : Nat) : Statement (.outputTest t) := fun _ _ _ e => nomatch e
theorem darkTestStep (t x pinMv hvMv uA : Nat) : Statement (.darkTestStep t x pinMv hvMv uA) := fun _ _ _ e => nomatch e
theorem vrelPdu (t : Nat) (ip : List Byte) (port : Nat) (pdu : List Byte) : Statement (.vrelPdu t ip port pdu) := fun _ _ _ e => nomatch e
theorem vrelTimeout (t c : Nat) : Statement (.vrelTimeout t c) := fun _ _ _ e => nomatch e
theorem vrelProduce (t c : Nat) : Statement (.vrelProduce t c) := fun _ _ _ e => nomatch e
theorem safetySessionTimeout (t : Nat) : Statement (.safetySessionTimeout t) := fun _ _ _ e => nomatch e
theorem ethernetFrame (t port : Nat) (frame : List Byte) (beyond : Bool) : Statement (.ethernetFrame t port frame beyond) := fun _ _ _ e => nomatch e
theorem announce (t src counter : Nat) (payload : List Byte) : Statement (.announce t src counter payload) := fun _ _ _ e => nomatch e
theorem dispatch (t src : Nat) (payload : List Byte) : Statement (.dispatch t src payload) := fun _ _ _ e => nomatch e
theorem command (t src : Nat) (pkt : List Byte) : Statement (.command t src pkt) := fun _ _ _ e => nomatch e
theorem canFrame (t c ident : Nat) (fd ext brs remote : Bool) (data : List Byte) : Statement (.canFrame t c ident fd ext brs remote data) := fun _ _ _ e => nomatch e
theorem uartReceive (t : Nat) (data : List Byte) : Statement (.uartReceive t data) := fun _ _ _ e => nomatch e
theorem frameTransmit (t n : Nat) : Statement (.frameTransmit t n) := fun _ _ _ e => nomatch e
theorem netLink (t port : Nat) (isUp : Bool) : Statement (.netLink t port isUp) := fun _ _ _ e => nomatch e
theorem ptpTimeout (t : Nat) : Statement (.ptpTimeout t) := fun _ _ _ e => nomatch e
theorem announceSend (t : Nat) : Statement (.announceSend t) := fun _ _ _ e => nomatch e
theorem peerAgedOut (t addr : Nat) : Statement (.peerAgedOut t addr) := fun _ _ _ e => nomatch e
theorem dispatchExpiry (t : Nat) : Statement (.dispatchExpiry t) := fun _ _ _ e => nomatch e
theorem canBusOff (t c : Nat) : Statement (.canBusOff t c) := fun _ _ _ e => nomatch e
theorem canBusRecovered (t c : Nat) : Statement (.canBusRecovered t c) := fun _ _ _ e => nomatch e
theorem networkSessionTimeout (t addr : Nat) : Statement (.networkSessionTimeout t addr) := fun _ _ _ e => nomatch e
theorem coolPrechargeEnd (t d : Nat) : Statement (.coolPrechargeEnd t d) := fun _ _ _ e => nomatch e
theorem alignEnd (t d : Nat) : Statement (.alignEnd t d) := fun _ _ _ e => nomatch e
theorem commutation (t d : Nat) : Statement (.commutation t d) := fun _ _ _ e => nomatch e
theorem backEmfCrossing (t d : Nat) : Statement (.backEmfCrossing t d) := fun _ _ _ e => nomatch e
theorem crossingMiss (t d : Nat) : Statement (.crossingMiss t d) := fun _ _ _ e => nomatch e
theorem coastTimeout (t d : Nat) : Statement (.coastTimeout t d) := fun _ _ _ e => nomatch e
theorem coolPwmPeriod (t d iU iV iW mean : Nat) : Statement (.coolPwmPeriod t d iU iV iW mean) := fun _ _ _ e => nomatch e
theorem coolOvercurrent (t d : Nat) : Statement (.coolOvercurrent t d) := fun _ _ _ e => nomatch e
theorem bootstrapLockout (t d phase : Nat) : Statement (.bootstrapLockout t d phase) := fun _ _ _ e => nomatch e
theorem coolHourly (t d : Nat) (up : Bool) : Statement (.coolHourly t d up) := fun _ _ _ e => nomatch e
theorem lockWindow (t l : Nat) (diff : Int) (roKhz : Nat) : Statement (.lockWindow t l diff roKhz) := fun _ _ _ e => nomatch e
theorem clkSwitch (t : Nat) (err0 err1 : Int) : Statement (.clkSwitch t err0 err1) := fun _ _ _ e => nomatch e
theorem relockTimeout (t l : Nat) : Statement (.relockTimeout t l) := fun _ _ _ e => nomatch e
theorem xrefAbsent (t : Nat) : Statement (.xrefAbsent t) := fun _ _ _ e => nomatch e
theorem xrefPresent (t : Nat) : Statement (.xrefPresent t) := fun _ _ _ e => nomatch e
theorem missingEdge (t k : Nat) : Statement (.missingEdge t k) := fun _ _ _ e => nomatch e
theorem clkRegion (t : Nat) (ctl iface : List Int) : Statement (.clkRegion t ctl iface) := fun _ _ _ e => nomatch e
theorem scrub (t : Nat) (hits : List Nat) : Statement (.scrub t hits) := fun _ _ _ e => nomatch e
theorem sramDoubleBitError (t addr : Nat) : Statement (.sramDoubleBitError t addr) := fun _ _ _ e => nomatch e
theorem mramVerifyFailure (t kind addr image : Nat) : Statement (.mramVerifyFailure t kind addr image) := fun _ _ _ e => nomatch e
theorem copyPointerSwitch (t image : Nat) : Statement (.copyPointerSwitch t image) := fun _ _ _ e => nomatch e
theorem blockImageCommit (t : Nat) : Statement (.blockImageCommit t) := fun _ _ _ e => nomatch e
theorem healthCommit (t : Nat) : Statement (.healthCommit t) := fun _ _ _ e => nomatch e
theorem lcEraseComplete (t : Nat) : Statement (.lcEraseComplete t) := fun _ _ _ e => nomatch e
theorem vlsThreshold (t vqs vls : Nat) : Statement (.vlsThreshold t vqs vls) := fun _ _ _ e => nomatch e
theorem huskTimeLost (o : StoresAt) : Statement (.huskTimeLost o) := fun _ _ _ e => nomatch e
theorem d0Reset (o : StoresAt) : Statement (.d0Reset o) := fun _ _ _ e => nomatch e
theorem huskTeg (t : Nat) (on : Bool) (voc : Nat) : Statement (.huskTeg t on voc) := fun _ _ _ e => nomatch e
theorem tegMeasure (t voc uw : Nat) : Statement (.tegMeasure t voc uw) := fun _ _ _ e => nomatch e
theorem rtcWrite (o : RtcAt) : Statement (.rtcWrite o) := fun _ _ _ e => nomatch e
theorem burstComplete (t : Nat) : Statement (.burstComplete t) := fun _ _ _ e => nomatch e
theorem sealedBlockWrite (t : Nat) : Statement (.sealedBlockWrite t) := fun _ _ _ e => nomatch e
theorem unknownOpcodePacket (src : Source) (t : Nat) (bytes : List Byte) (valid : Nat) : Statement (.unknownOpcodePacket src t bytes valid) := fun _ _ _ e => nomatch e
theorem safetyOutputOvercurrent (t x : Nat) : Statement (.safetyOutputOvercurrent t x) := fun _ _ _ e => nomatch e
theorem comparatorReleased (t n : Nat) : Statement (.comparatorReleased t n) := fun _ _ _ e => nomatch e
theorem jtagInstruction (t kind : Nat) (pins : List (Nat × Bool)) : Statement (.jtagInstruction t kind pins) := fun _ _ _ e => nomatch e
theorem vddIoGood (o : RailAt) : Statement (.vddIoGood o) := fun _ _ _ e => nomatch e
theorem d0PowerOn (t vqs vls : Nat) : Statement (.d0PowerOn t vqs vls) := fun _ _ _ e => nomatch e
theorem sramCorrection (t addr : Nat) : Statement (.sramCorrection t addr) := fun _ _ _ e => nomatch e

end Sys2Proof.Laws.WellFormedSource
end

