-- ==== Sys2Proof/Tests/Slice0.lean ====
section
/-! SUPPORT. Small tests on one step or one definition: worked examples of the spec, ill-formed terms refused, and for every statement with
hypotheses states and operands that meet them, clause by clause. -/

namespace Sys2Proof.Tests

open Sys2Proof.Machine

set_option Elab.async false

/-! ### Small states -/

/-- Host ring 0's first descriptor: a buffer of 4,096 bytes in the ring's region that holds a whole packet (R73). -/
def desc0 : Mem := Mem.writeN [] 0x20400000 (le 4 0x20402000 ++ le 2 4096 ++ le 2 4092 ++ zeros 4 ++ [4] ++ zeros 3)

/-- A device that is ready, in safe stop, with a session of the host, a descriptor exposed on host ring 0 and every rail good. -/
def s0 : State := { State.reset with
  sys := { State.reset.sys with
    ready := true, domains := List.replicate 12 2, railCore := true, railAn := true, railIo := true, railHv := true, boot := .ready }
  cmd := { State.reset.cmd with sessions := [{ src := .host, value := 1, lastUsed := 0 }] }
  modes := { State.reset.modes with mode := 1 }
  rings := State.reset.rings.set 0 { State.reset.ring 0 with hostIndex := 1 }
  mem := { State.reset.mem with lc := 2, sram := desc0 } }

/-- A packet of host ring 0 with session 1 at time 0. -/
def pk (b : List Byte) : Packet := { src := .hostRing 0, t := 0, tag := 7, flags := 0, session := 1, payload := b }

/-- s in another mode. -/
def inMode (m : Nat) (s : State) : State := { s with modes := { s.modes with mode := m } }

/-- s with timebase 0 counting up with N = 5,000, which makes 20 kHz (R314), and its ticks as base ticks of rate group 0 (R155). -/
def rated (s : State) : State :=
  let tb : TbCfg := { mode := 0, enable := true, n := 5000, master := 255, ratio := 1, offset := 0 }
  { s with
    pwm := { s.pwm with tbs := s.pwm.tbs.set 0 { cfg := tb, pend := false, inForce := tb, zero := some 0, pendAt := 0 } }
    eng := { s.eng with
      hasRate := true, rate := { tb := 0, event := 0, groups := [1, 0, 0, 0, 0, 0, 0, 0] }
      groups := s.eng.groups.set 0 { RateGrp.reset with mult := 1 } } }

/-- s with generator 0 enabled. -/
def generated (s : State) : State := { s with gens := s.gens.set 0 { Gen.reset with enable := true, powerSp := true } }

/-- A three-phase grid stage of two levels on legs 0 to 2 (R215). -/
def gridCfg0 : GridCfg :=
  { wiring := 3, kind := 1, levels := 2, neutral := false, group := 0, legs := [0, 1, 2], frontG := [0, 1, 2], frontL := [], decim := 0
    fNom60 := false, curChan := 0, vNom := 0x43660000, sRated := 0x461C4000, iRated := 0x41800000, frontFs := 0x43C80000, linkBase := 0
    measLink := 8 }

/-- s with that grid stage. -/
def gridded (s : State) : State := { s with grid := { s.grid with cfg := some gridCfg0 } }

/-- A PV port on leg 4 (R307) in state st. -/
def pv0 (st : Nat) : Pv := { Pv.reset with
  state := st
  cfg := some { legs := [4], vKind := 1, vIn := 3, iIn := 4, decim := 0, vFs := 1000, iFs := 100, iScMax := 50, vMin := 100, vMax := 800, pRated := 60 } }

/-- s with PV port 0 in state st. -/
def solar (st : Nat) (s : State) : State := { s with ports := { s.ports with pv := s.ports.pv.set 0 (pv0 st) } }

/-- s with leg 0 configured on timebase 0, in state st. -/
def legged (st : Nat) (s : State) : State :=
  { s with pwm := { s.pwm with legs := s.pwm.legs.set 0 { Leg.reset with hasCfg := true, loads := 1, cmp := 255, role := 1, state := st } } }

/-- A complete capture, number 5. -/
def cap0 : Capture :=
  { id := 5, tTrig := 0, tEnd := 0, unit := 0, info := zeros 192, blocks := [], marks := [], marksLost := 0, trigMarks := [], lostBefore := 0, overflow := false
    trunc := false, complete := true, unread := true, committing := false, protect := false, bytes := 0 }

/-- s with the safety session unlocked and a password set. -/
def unlocked (s : State) : State :=
  { s with safety := { s.safety with unlocked := some 1, staging := some s.safety.active, log := { s.safety.log with password := some (zeros 16, zeros 48) } } }

/-- A configured drive in state st (R495). -/
def drive0 (st : Nat) : Drive := { Drive.reset with
  state := st
  cfg := some { required := false, startReady := false, dutyMode := true, poles := 4, tEdge := 0, fPwm := 160, tDead := 10, iAlign := 1, tAlign := 10
                ramp := 10, handover := 100, maxSpeed := 200, iLim := 1, iOc := 2, accel := 0, restartMax := 10, advance := 0, tRefresh := 20 } }

/-- s with channel 3 enabled in rate group 0 and hitch group 5 (R114). -/
def hitched (s : State) : State :=
  let s := rated s
  { s with eng := { s.eng with run := Mem.writeN s.eng.run 0xC00 (le 4 0x80500000) } }

/-- A pass of channel 0 in group 0, due at 0. -/
def pass0 : PassRec := { PassRec.reset with ch := 0, group := 0, atT := 0 }

/-- A splice that takes core D in for core A. -/
def splice0 : CoreSplice := { incoming := 3, retired := 0, since := 0, moved := false, exports := [], mismatch := [], toJoin := [], joined := [], units := [], unitMiss := [] }

/-- A grid stage whose current channel has an awn slot, with the tracker locked. -/
def awned : State :=
  let s := gridded s0
  { s with
    eng := { s.eng with run := Mem.writeN s.eng.run 0x40 (le 4 0x70000000) }
    grid := { s.grid with trk := { s.grid.trk with state := 2 } }, rt := { s.rt with cls := 0 } }

/-- Observations of nothing at all. -/
def rail0 : RailObs := { uv := 0, held := 0, low := 0 }
def track0 : TrackObs := { theta := 0, thetaM := 0, f := 0, vd := 0, vq := 0, nd := 0, nq := 0, v0 := 0, thetaL := 0, vdL := 0 }
def grid0 : GridObs :=
  { f := 500000, rocof := 0, theta := 0, thetaM := 0, vPlus := 0, vMinus := 0, vZero := 0, rms := [], mags := [], magsL := [], fL := 500000 }

/-- CAN bus 0 in the BMS role. -/
def bmsBus : State := { s0 with net := { s0.net with cans := s0.net.cans.set 0 { CanCtl.reset with role := 1 } } }

/-- A running confirmation of AIN 3. -/
def confirm0 : Confirm := { ains := [3], check := 1, group := 255, since := 0, spare := some 25, wasShadow := false, all := [3], shadow := none }

/-- A path test of AIN 0. -/
def path0 : PathEntry := { kind := 1, input := 0, l1 := 0, l2 := 4095, settle := 10, expect := 100, tol := 50 }

/-- s with leg 0 in protection group 0. -/
def grouped (s : State) : State := { s with prot := { s.prot with groups := s.prot.groups.set 0 { s.pgroup 0 with legs := [0] } } }

/-- The safety image with pair 0 an emergency stop of 2 ticks and output 0 with feedback pair 1. -/
def image0 : List Byte := ((SafetyImage.delivered.set 65 1).set 68 2).set 34 1

/-- Pair 0 in use with d ticks of disagreement and fault f. -/
def paired (d f : Nat) : State := { s0 with safety := { s0.safety with
  active := image0, pairs := s0.safety.pairs.set 0 { s0.pair 0 with disagree := d, fault := f } } }

/-- Output 0 with feedback, in state st. -/
def fedBack (st : Nat) : State := { s0 with safety := { s0.safety with
  active := image0, outs := s0.safety.outs.set 0 { SOut.reset with state := st } } }

/-- A recorded transition from Manufacture to Provisioned. -/
def lcPend0 : LcPend := { lcFrom := 1, lcTo := 2, recorded := true }

/-- The chip of 500 µs that starts at i * 500 µs: the injected code alternates, and voltage and current follow it in every phase. -/
def chip0 (i : Nat) : AwnChip :=
  let c : Int := if i % 2 = 0 then 1 else -1
  { start := i * 500000, j := i, c := c, acc := List.replicate 3 (c * 3000, 0, 1) ++ List.replicate 3 (c * 3000000, 0, 1) }

/-- An armed detector that has injected for 200 such chips. -/
def awnReady : State :=
  let s := inMode 4 awned
  { s with
    eng := { s.eng with run := Mem.writeN s.eng.run 8 (le 4 0x42C80000) }
    isl := { s.isl with
      cfg := { s.isl.cfg with enable := true, level := 20, consist := 25 }, state := 2, epochAt := some 0, injFrom := 0, spanAt := none
      chips := ((List.range 200).map chip0).reverse } }

/-- Connection 0 enabled, without an ID or signature, and bound to port 0 of address 0; PDUs of it without data. -/
def connImage : List Byte := (SafetyImage.delivered.set 137 1).set 138 16
def connected : State := { s0 with
  safety := { s0.safety with active := connImage }
  net := { s0.net with binds := s0.net.binds.set 0 { Bind.reset with bound := true, port := 0 } } }
def pduOf (seq : Nat) (fl : Byte) : List Byte :=
  let h := zeros 4 ++ le 2 seq ++ [fl, 0]
  h ++ le 4 (scrc (zeros 4 ++ connSig connImage 0 ++ h.drop 4))

/-! ### Worked examples and tables of the spec -/

/-- The nine ASCII bytes of R60 and R442. -/
def ascii9 : List Byte := [0x31, 0x32, 0x33, 0x34, 0x35, 0x36, 0x37, 0x38, 0x39]

/-- R60: CRC-32C of "123456789". -/
theorem test_crc32c : crc32c ascii9 = 0xE3069283 := by decide +kernel
/-- R442: SCRC of "123456789". -/
theorem test_scrc : scrc ascii9 = 0x1697D06A := by decide +kernel
/-- The example of spec/00_scope.md: 0x00_2B85_1EB8 is 0.34 less 0.32 of the last place, which is Q15 11,141. -/
theorem test_a40_to_q15 : a40ToQ15 730144440 = 11141 := by decide
/-- The example of spec/05_sheaf_table.md: word 6 of channel 40 is PI on two lanes, V6 from V5, E 2, coefficients broadcast. -/
theorem test_cpw_fields : Cpw.ofWord 0x44D9400002000000 =
    { op := 0x11, n := 1, bc := true, d := 6, a := 5, b := 0, c := 0, s := 0, l := 0, e := 2, x := 0, imm := 0 } := by decide

/-- What word 6 of that example reads: Kp 0x5CCD, Ki 0x08BF, limit 0 at ±0.5, and an error of 1,311 in input slot 0. -/
def env6 : PassEnv :=
  { coef := fun k => if k = 0 then 0x5CCD else if k = 1 then 0x08BF else 0
    lo := fun _ => -0x4000
    hi := fun _ => 0x4000
    read := fun i => (if i = 0 then 1311 else 0, none, 0, false)
    words := List.replicate 12 0
    mode := 3
    dth := 0 }

/-- The same example: PI answers 3,802, and the integrator grows by 1,311 × 2,239 / 2^30 in Q31. -/
theorem test_pi_pass :
    ((runPass env6 [0x01 * 2 ^ 58 + 2 ^ 55 + 5 * 2 ^ 50, 0x44D9400002000000]).vl 6 0).v = 3802 ∧
      (runPass env6 [0x01 * 2 ^ 58 + 2 ^ 55 + 5 * 2 ^ 50, 0x44D9400002000000]).sets = [(0, 1311 * 2239 * 2), (1, 0)] := by
  decide +kernel

/-- The example of spec/11_pwm.md: duty 19,661 on the rising half: PWML20 falls at 9.999875 µs, PWMH20 rises 500 ns later. -/
theorem test_leg_edges :
    (({ Leg.reset with hasCfg := true, loads := 3, role := 2, dtH := 4000, dtL := 4000, minPulse := 2400, ideal := some false, onT := -4000, onPut := true } : Leg).placeParts
      false 200000 (onParts false 2 3 false 200000 19661)).edges = [(79999, false, false), (83999, true, true)] := by decide +kernel
/-- The same example: duty 19,005 on the falling half ends 115,997 steps after the peak. -/
theorem test_falling_half : onParts false 2 3 true 200000 19005 = [(0, 115997)] := by decide
/-- R497: the divider of 19.2, 25, 26 and 50 MHz. -/
theorem test_divider : divider 25000000 = 240 * 2 ^ 24 ∧ divider 19200000 = 312 * 2 ^ 24 + 0x800000 ∧
    divider 26000000 = 230 * 2 ^ 24 + 0xC4EC4F ∧ divider 50000000 = 120 * 2 ^ 24 := by decide
/-- The example of spec/19_memory_lifecycle_spares.md: 0x2030_A200 lies in bank 12, row 324. -/
theorem test_bank_row : bankOf 0x2030A200 = 12 ∧ rowOf 0x2030A200 = 324 := by decide
/-- The example of spec/20_husk.md: E_commit of 40 lines is 43 µJ; 1 F at 5.0 V holds 6.4 J above 3 V. -/
theorem test_husk_energy : eCommit10 40 = 430 ∧ ({ Husk.reset with cLs := 100, vls := 5000 } : Husk).els250 = 250 * 6400000 := by decide
/-- R446: an image loosens nothing against itself. -/
theorem test_tightening_self : tightening SafetyImage.delivered SafetyImage.delivered = true := by decide +kernel
/-- Memory: a read after a write gives the byte written; writing 0 takes the entry away. -/
theorem test_mem_write : Mem.write (Mem.write [] 5 1) 3 2 = [(3, 2), (5, 1)] ∧ Mem.write [(5, 1)] 5 0 = [] := by decide
/-- An empty queue idles; a queued command leaves the queue. -/
theorem test_step_idle : step s0 = .next s0 := rfl
theorem test_step_takes : step { State.reset with pending := [.timeLoRead 0 0] } = exec (.timeLoRead 0 0) State.reset := rfl

/-! ### Well-formedness -/

/-- Terms of a source, a unit or an address that does not exist, or of a payload beyond 4,076 bytes, are refused. -/

theorem test_ill_formed_1 :
    ([.sysInfo { pk [] with src := .hostRing 8 }, 
      .sysInfo { pk [] with src := .appRing 4 }, 
      .sysInfo { pk [] with src := .net 0x40000 }, 
      .sysInfo (pk (List.replicate 4077 0)), 
      .doorbellWrite 0 0 64 0, 
      .heldReply 0 64, 
      .firewallViolation 0 7 0 false [], 
      .supplyReset 0 3 0 0 0 ⟨0, 0⟩, 
      .imageVerifyComplete 0 2 0 0 0 0, 
      .imageVerifyComplete 0 0 2 0 0 0, 
      .unrecoverableFault 0 4, 
      .passVote 0 1 32 [] [] 0, 
      .voteLate 0 4 ⟨[], 0⟩, 
      .sampleTimeout 0 24 0, 
      .channelFault 0 256, 
      .rateOverrun 0 8, 
      .coreDomainOff 0 4, 
      .hitchSwapped 0 16, 
      .peerPcc 0 64, 
      .autoScanDwell 0 64] : List Instr).all (fun i => !i.wellFormed) = true := by decide +kernel

theorem test_ill_formed_2 :
    ([.pvPortStart 0 16, 
      .localTracker 0 16 0 0 0, 
      .mapHalving 0 16, 
      .pvSweep 0 16 0 0, 
      .bmsNodeReport 0 2 0 [], 
      .bmsNodeStale 0 64, 
      .bmsNodeDeparted 0 64, 
      .bmsStatusSend 0 2, 
      .loadEvent 0 48 false, 
      .bootPrecharge 0 48, 
      .legTestEnd 0 48, 
      .pipelineSample 0 24 0 ⟨none, 0⟩, 
      .senseSuspect 0 3 8, 
      .senseSuspect 0 2 24, 
      .converterPowerOff 0 26, 
      .checkSuspensionEnd 0 3 8, 
      .checkSuspensionEnd 0 2 24, 
      .sarStart 0 6 [], 
      .sarResult 0 6 0, 
      .fltAsserted 0 48] : List Instr).all (fun i => !i.wellFormed) = true := by decide +kernel

theorem test_ill_formed_3 :
    ([.fltReady 0 48, 
      .comparatorAsserted 0 52, 
      .hardCellAsserted 0 52, 
      .monitorActs 0 32, 
      .softStep 0 8, 
      .innerStep 0 8, 
      .protRetry 0 8, 
      .triesClear 0 8, 
      .partnerSuspect 0 32, 
      .cellPowerOff 0 52, 
      .recTimeTrigger 0 4, 
      .persistenceHalving 0 2, 
      .readoutRecord 0 32, 
      .readoutRecord 0 23, 
      .testPulse 0 2, 
      .discrepancyFault 0 8, 
      .outputReadback 0 4 0 0 0, 
      .outputFault 0 4, 
      .lightTestStep 0 4 0 0 0, 
      .feedbackTimeout 0 4] : List Instr).all (fun i => !i.wellFormed) = true := by decide +kernel

theorem test_ill_formed_4 :
    ([.darkTestStep 0 4 0 0 0, 
      .vrelTimeout 0 4, 
      .vrelProduce 0 4, 
      .ethernetFrame 0 2 [] false, 
      .announce 0 262144 0 [], 
      .dispatch 0 262144 [], 
      .command 0 262144 [], 
      .canFrame 0 2 0 false false false false [], 
      .frameTransmit 0 64, 
      .netLink 0 2 false, 
      .canBusOff 0 2, 
      .canBusRecovered 0 2, 
      .coolPrechargeEnd 0 2, 
      .alignEnd 0 2, 
      .commutation 0 2, 
      .backEmfCrossing 0 2, 
      .crossingMiss 0 2, 
      .coastTimeout 0 2, 
      .coolPwmPeriod 0 2 0 0 0 0, 
      .coolOvercurrent 0 2] : List Instr).all (fun i => !i.wellFormed) = true := by decide +kernel

theorem test_ill_formed_5 :
    ([.bootstrapLockout 0 2 0, 
      .coolHourly 0 2 false, 
      .lockWindow 0 2 0 0, 
      .relockTimeout 0 2, 
      .missingEdge 0 12, 
      .scrub 0 [0x20000000, 0x20600000], 
      .sramDoubleBitError 0 0x1FFFFFFF, 
      .sramDoubleBitError 0 0x20600000, 
      .mramVerifyFailure 0 0 285212672 0, 
      .mramVerifyFailure 0 3 0x10000000 0, 
      .mramVerifyFailure 0 0 268435455 0, 
      .copyPointerSwitch 0 5, 
      .unknownOpcodePacket (.hostRing 8) 0 [] 0, 
      .safetyOutputOvercurrent 0 4, 
      .comparatorReleased 0 52, 
      .jtagInstruction 0 6 [], 
      .sramCorrection 0 0x1FFFFFFF, 
      .sramCorrection 0 0x20600000] : List Instr).all (fun i => !i.wellFormed) = true := by decide +kernel

/-- The last unit of each kind is accepted. -/

theorem test_well_formed_1 :
    ([.sysInfo { pk [] with src := .hostRing 7 }, 
      .sysInfo { pk [] with src := .appRing 3 }, 
      .sysInfo { pk [] with src := .net 0x3FFFF }, 
      .sysInfo (pk (List.replicate 4076 0)), 
      .doorbellWrite 0 0 63 0, 
      .heldReply 0 63, 
      .firewallViolation 0 6 0 false [], 
      .supplyReset 0 2 0 0 0 ⟨0, 0⟩, 
      .imageVerifyComplete 0 1 1 0 0 0, 
      .unrecoverableFault 0 3, 
      .passVote 0 1 31 [] [] 0, 
      .voteLate 0 3 ⟨[], 0⟩, 
      .sampleTimeout 0 23 0, 
      .channelFault 0 255, 
      .rateOverrun 0 7, 
      .coreDomainOff 0 3, 
      .hitchSwapped 0 15, 
      .peerPcc 0 63, 
      .autoScanDwell 0 63, 
      .pvPortStart 0 15] : List Instr).all (fun i => i.wellFormed) = true := by decide +kernel

theorem test_well_formed_2 :
    ([.localTracker 0 15 0 0 0, 
      .mapHalving 0 15, 
      .pvSweep 0 15 0 0, 
      .bmsNodeReport 0 1 0 [], 
      .bmsNodeStale 0 63, 
      .bmsNodeDeparted 0 63, 
      .bmsStatusSend 0 1, 
      .loadEvent 0 47 false, 
      .bootPrecharge 0 47, 
      .legTestEnd 0 47, 
      .pipelineSample 0 23 0 ⟨none, 0⟩, 
      .senseSuspect 0 3 7, 
      .senseSuspect 0 2 23, 
      .converterPowerOff 0 25, 
      .checkSuspensionEnd 0 3 7, 
      .checkSuspensionEnd 0 2 23, 
      .sarStart 0 5 [], 
      .sarResult 0 5 0, 
      .fltAsserted 0 47, 
      .fltReady 0 47] : List Instr).all (fun i => i.wellFormed) = true := by decide +kernel

theorem test_well_formed_3 :
    ([.comparatorAsserted 0 51, 
      .hardCellAsserted 0 51, 
      .monitorActs 0 31, 
      .softStep 0 7, 
      .innerStep 0 7, 
      .protRetry 0 7, 
      .triesClear 0 7, 
      .partnerSuspect 0 31, 
      .cellPowerOff 0 51, 
      .recTimeTrigger 0 3, 
      .persistenceHalving 0 1, 
      .readoutRecord 0 31, 
      .testPulse 0 1, 
      .discrepancyFault 0 7, 
      .outputReadback 0 3 0 0 0, 
      .outputFault 0 3, 
      .lightTestStep 0 3 0 0 0, 
      .feedbackTimeout 0 3, 
      .darkTestStep 0 3 0 0 0, 
      .vrelTimeout 0 3] : List Instr).all (fun i => i.wellFormed) = true := by decide +kernel

theorem test_well_formed_4 :
    ([.vrelProduce 0 3, 
      .ethernetFrame 0 1 [] false, 
      .announce 0 262143 0 [], 
      .dispatch 0 262143 [], 
      .command 0 262143 [], 
      .canFrame 0 1 0 false false false false [], 
      .frameTransmit 0 63, 
      .netLink 0 1 false, 
      .canBusOff 0 1, 
      .canBusRecovered 0 1, 
      .coolPrechargeEnd 0 1, 
      .alignEnd 0 1, 
      .commutation 0 1, 
      .backEmfCrossing 0 1, 
      .crossingMiss 0 1, 
      .coastTimeout 0 1, 
      .coolPwmPeriod 0 1 0 0 0 0, 
      .coolOvercurrent 0 1, 
      .bootstrapLockout 0 1 0, 
      .coolHourly 0 1 false] : List Instr).all (fun i => i.wellFormed) = true := by decide +kernel

theorem test_well_formed_5 :
    ([.lockWindow 0 1 0 0, 
      .relockTimeout 0 1, 
      .missingEdge 0 11, 
      .scrub 0 [0x20000000, 0x205FFFFF], 
      .sramDoubleBitError 0 0x20000000, 
      .sramDoubleBitError 0 0x205FFFFF, 
      .mramVerifyFailure 0 2 285212671 0, 
      .copyPointerSwitch 0 4, 
      .unknownOpcodePacket .escape 0 [] 0, 
      .safetyOutputOvercurrent 0 3, 
      .comparatorReleased 0 51, 
      .jtagInstruction 0 5 [], 
      .sramCorrection 0 0x20000000, 
      .sramCorrection 0 0x205FFFFF] : List Instr).all (fun i => i.wellFormed) = true := by decide +kernel

/-! ### What every packet has in common -/

/-- SYS_RESET with a payload of the wrong length. -/
def pLong : Packet := pk [1, 2, 3]
/-- A grid set-point as a dry run, deferred to a hitch group, from a ring and on the escape port. -/
def pDry : Packet := { pk (le 4 0xBF800000 ++ le 4 0x3F800000 ++ le 4 0x3F800000 ++ zeros 4) with flags := 2 }
def pHitch : Packet := { pk (le 4 0xBF800000 ++ le 4 0x3F800000 ++ le 4 0x3F800000 ++ zeros 4) with flags := 0x2C }
def pEsc : Packet := { pk [] with src := .escape }
/-- The escape port with a reply nobody has read; reply ring 8 with a held reply. -/
def escFull : State := { s0 with esc := { s0.esc with on := true, replyReady := true } }
def pApp : Packet := { pk [] with src := .appRing 0 }
def appOff : State := { s0 with sys := { s0.sys with domains := s0.sys.domains.set 10 3 } }
def ringHeld : State := { s0 with cmd := { s0.cmd with held := [{ ring := 8, bytes := [] }] } }
/-- A packet of four payload bytes with a wrong CRC. -/
def badCrc : List Byte := le 2 0x0002 ++ le 2 7 ++ le 2 4 ++ [0, 1] ++ le 4 1 ++ zeros 4 ++ zeros 4

theorem witness_MissingSourceStops_1 :
    packetOf (.sysInfo { pk [] with src := .hostRing 8 }) = some (specSysInfo, { pk [] with src := .hostRing 8 }) ∧
      (({ pk [] with src := .hostRing 8 } : Packet).src = .hostRing 8 ∧ 8 ≤ 8) := ⟨rfl, by decide⟩
theorem witness_MissingSourceStops_2 :
    packetOf (.sysInfo { pk [] with src := .appRing 4 }) = some (specSysInfo, { pk [] with src := .appRing 4 }) ∧
      (({ pk [] with src := .appRing 4 } : Packet).src = .appRing 4 ∧ 4 ≤ 4) := ⟨rfl, by decide⟩
theorem witness_RejectedPacketChangesNothing :
    packetOf (.sysReset pLong) = some (specSysReset, pLong) ∧ (∀ q, Instr.sysReset pLong ≠ .memLcTransition q) ∧ Taken (packetBytes specSysReset.opcode pLong) pLong s0 ∧ specSysReset.fails pLong (seen pLong s0) = some (.eLength, 4) ∧
      s0.sys.ready = true ∧ pLong.dry = false := ⟨rfl, nofun, by decide⟩
theorem witness_DryRunChangesNothing :
    packetOf (.gridSetpoint pDry) = some (specGridSetpoint, pDry) ∧ Taken (packetBytes specGridSetpoint.opcode pDry) pDry (gridded s0) ∧
      specGridSetpoint.fails pDry (seen pDry (gridded s0)) = none ∧ pDry.dry = true := ⟨rfl, by decide⟩
theorem witness_DeferredPacketWaits :
    packetOf (.gridSetpoint pHitch) = some (specGridSetpoint, pHitch) ∧ Taken (packetBytes specGridSetpoint.opcode pHitch) pHitch (hitched (gridded s0)) ∧
      specGridSetpoint.fails pHitch (seen pHitch (hitched (gridded s0))) = none ∧ pHitch.dry = false ∧ pHitch.hitch = true :=
  ⟨rfl, by decide +kernel⟩
theorem witness_UntakenPacketsStay_1 :
    packetOf (.sysInfo (pk [])) = some (specSysInfo, pk []) ∧ sourceOk (pk []).src = true ∧ ringOf (pk []).src = some 0 ∧
      State.reset.sys.ready = false ∧ ({ s0 with rings := State.reset.rings } : State).ring 0 = State.reset.ring 0 ∧
      (State.reset.ring 0).devIndex = (State.reset.ring 0).hostIndex ∧ ∃ h ∈ ringHeld.cmd.held, some h.ring = replyRing (pk []).src := ⟨rfl, by decide⟩
theorem witness_UntakenPacketsStay_2 :
    packetOf (.sysInfo pApp) = some (specSysInfo, pApp) ∧ sourceOk pApp.src = true ∧ ringOf pApp.src = some 48 ∧ 48 ≤ 48 ∧
      appOff.sys.domains.getD 10 0 ≠ 2 := ⟨rfl, by decide⟩
theorem witness_UntakenPacketsStay_3 :
    packetOf (.sysInfo pEsc) = some (specSysInfo, pEsc) ∧ pEsc.src = .escape ∧ State.reset.esc.on = false ∧ s0.esc.busy = false ∧
      escFull.esc.replyReady = true ∧ escFull.esc.frame ≠ packetBytes specSysInfo.opcode pEsc := ⟨rfl, by decide⟩
theorem witness_TakingAPacketStoresOneByte : InOrder (pk []) s0 ∧ 0 ∉ takeAddrs (pk []) s0 ∧ takeAddrs (pk []) s0 ≠ [] ∧ 0 ∉ ringFlags (pk []) s0 := by
  decide +kernel
theorem witness_AnsweringTouchesOnlyTheReply : InOrder (pk []) s0 ∧ s0.sys.ready = true := by decide +kernel
theorem witness_ReplyFraming : 0x7FFF < 2 ^ 15 ∧ 0xFFFF < 2 ^ 16 ∧ 0xFF < 2 ^ 8 ∧ (zeros 4).length < 2 ^ 16 := by decide
theorem witness_CrcFailureEchoesOpcodeAndTag :
    let p := rawPacket (.hostRing 0) 0 badCrc
    Taken badCrc p s0 ∧ u16 badCrc 4 ≤ 4076 ∧ badCrc.length = u16 badCrc 4 + 16 ∧
      crc32c (badCrc.take (12 + u16 badCrc 4)) ≠ u32 badCrc (12 + u16 badCrc 4) := by decide +kernel
theorem witness_WellFormedCommandsComplete : (Instr.sysInfo (pk [])).wellFormed = true := by decide
theorem witness_reset_mem : MemCanonical State.reset ∧ (step State.reset = .next State.reset) := ⟨by decide, rfl⟩
theorem witness_reset_lc : LifeCycleLegal State.reset := by decide
theorem witness_reset_sessions : SessionsLegal State.reset := by decide
theorem witness_session_open : SessionsLegal s0 ∧ s0.cmd.sessions ≠ [] := by decide

/-! ### Every packet is accepted somewhere -/

theorem accepts_System_1 :
    Accepts specSysInfo (pk ([])) (s0) ∧
    Accepts specSysStatus (pk ([])) (s0) ∧
    Accepts specSessionOpen (pk ([])) (s0) ∧
    Accepts specSessionClose (pk ([])) (s0) ∧
    Accepts specSysReset (pk (le 4 0x01025A5A)) (s0) ∧
    Accepts specSysUnfreeze (pk ([2, 0, 0, 0])) ({ s0 with host := { s0.host with frozen := 4 } }) ∧
    Accepts specSysMode (pk ([2, 0, 0, 0] ++ zeros 4)) (s0) ∧
    Accepts specRingConfig (pk ([8, 4, 0, 1] ++ le 4 0x20400000 ++ zeros 8)) (s0) := by decide +kernel

theorem accepts_Sheaf_1 :
    Accepts specSheafEntryWrite (pk (zeros 900)) (s0) ∧
    Accepts specSheafEntryRead (pk (zeros 4)) (s0) := by decide +kernel

theorem accepts_Sheaf_2 :
    Accepts specSheafEnable (pk (zeros 4)) (s0) ∧
    Accepts specSheafStats (pk (zeros 4)) (s0) := by decide +kernel

theorem accepts_Sheaf_3 :
    Accepts specSheafCommit (pk ([])) (s0) ∧
    Accepts specSheafCoefStage (pk ([0, 0, 0, 1] ++ le 2 0x1234)) (s0) := by decide +kernel

theorem accepts_Sheaf_4 :
    Accepts specSheafCoefLive (pk ([0, 0, 0, 0] ++ le 2 0x1234)) ({ s0 with eng := { s0.eng with run := Mem.writeN s0.eng.run 0 (le 4 0x40000000) } }) ∧
    Accepts specSheafHitchArm (pk ([5, 0, 0, 0] ++ zeros 8 ++ le 4 (crc32c (zeros 128)))) (hitched s0) := by decide +kernel

theorem accepts_Sheaf_5 :
    Accepts specSheafHitchCancel (pk ([3, 0, 0, 0])) ({ s0 with eng := { s0.eng with hitch := s0.eng.hitch.set 3 { armed := true, request := 0, boundary := 1000 } } }) ∧
    Accepts specSheafLimitsSet (pk ([0, 0, 0, 1] ++ le 2 0x8000 ++ le 2 0x7FFF)) (s0) := by decide +kernel

theorem accepts_Sheaf_6 :
    Accepts specSheafMapSet (pk ([0, 0, 0, 0, 1, 0, 0, 0] ++ zeros 4)) (s0) ∧
    Accepts specSheafStateSet (pk ([0, 0, 11, 1] ++ leI 8 (-1))) (s0) := by decide +kernel

theorem accepts_Sheaf_7 :
    Accepts specSheafTemplateWrite (pk ([0, 1, 0, 0] ++ zeros 8)) (s0) ∧
    Accepts specSheafInvalidate (pk ([0, 0, 1, 0, 0, 0, 0, 0])) (s0) := by decide +kernel

theorem accepts_Engine_1 :
    Accepts specEngineStatus (pk ([])) (s0) ∧
    Accepts specProfileRead (pk (zeros 2)) (s0) ∧
    Accepts specEngineRateSet (pk ([0, 0, 0, 0] ++ le 4 1 ++ zeros 28)) (rated s0) ∧
    Accepts specProfileConfig (pk ([0, 0, 1, 0] ++ le 4 0x3F800000 ++ le 4 0x3F800000 ++ le 4 0x3F800000 ++ le 4 0 ++ le 2 1 ++ le 2 0)) (rated s0) ∧
    Accepts specProfileTarget (pk ([0, 0] ++ le 2 0x4000)) (generated s0) ∧
    Accepts specProfileHold (pk ([0, 1])) (generated s0) := by decide +kernel

theorem accepts_Grid_1 :
    Accepts specGridStatus (pk ([])) (s0) ∧
    Accepts specGridFunction (pk (zeros 40)) (s0) ∧
    Accepts specGridConfig (pk ([3, 0x21, 0, 0] ++ [0, 1, 2] ++ List.replicate 13 0xFF ++ [0, 1, 2, 255] ++ List.replicate 4 0xFF ++ [0, 0, 0, 0] ++ le 4 0x43660000 ++ le 4 0x461C4000 ++ le 4 0x41800000 ++ le 4 0x43C80000 ++ [0, 8, 0, 0])) (rated s0) ∧
    Accepts specGridTrackerConfig (pk (le 2 20 ++ le 2 0 ++ [10, 20, 10, 0])) (gridded s0) ∧
    Accepts specGridSetpoint (pk (le 4 0xBF800000 ++ le 4 0x3F800000 ++ le 4 0x3F800000 ++ zeros 4)) (s0) ∧
    Accepts specGridVsmConfig (pk (le 4 0x40000000 ++ le 4 0x3D4CCCCD ++ le 4 0 ++ le 4 0 ++ le 4 0x3F800000 ++ le 4 0x41200000 ++ le 4 0x3F800000 ++ le 4 0x3F800000 ++ zeros 4)) (s0) ∧
    Accepts specGridLimits (pk (le 4 0x41800000 ++ [1, 0, 0, 0] ++ le 4 0 ++ le 4 0 ++ le 4 0x461C4000)) (gridded s0) := by decide +kernel

theorem accepts_RideThrough_1 :
    Accepts specRtDclinkClear (pk ([])) (s0) ∧
    Accepts specRtStatus (pk ([])) (s0) ∧
    Accepts specRtProfile (pk ([4, 0, 0, 0])) (s0) ∧
    Accepts specRtRegionSet (pk (le 2 880 ++ le 2 650 ++ le 2 300 ++ le 2 1100 ++ le 2 1200 ++ le 2 0x155)) (s0) ∧
    Accepts specRtTripSet (pk ([0, 1] ++ le 2 1200 ++ le 4 160)) (s0) ∧
    Accepts specRtSupport (pk ([1, 3, 0, 0] ++ le 2 1000 ++ le 2 100 ++ le 4 0x3F800000 ++ le 2 200 ++ le 2 0)) (s0) ∧
    Accepts specRtService (pk (le 2 917 ++ le 2 1050 ++ leI 2 (-500) ++ le 2 100 ++ le 2 300 ++ le 2 300 ++ zeros 4)) (s0) ∧
    Accepts specRtDclinkConfig (pk ([5, 0, 255, 0] ++ le 2 300 ++ le 2 700 ++ le 2 800 ++ le 2 900 ++ le 2 1000 ++ le 2 100 ++ le 2 10 ++ le 2 328)) (s0) := by decide +kernel

theorem accepts_Islanding_1 :
    Accepts specIslStatus (pk ([])) (s0) ∧
    Accepts specIslPccMap (pk ([])) (s0) ∧
    Accepts specIslAwnConfig (pk ([1, 3, 20, 25] ++ zeros 4 ++ le 2 200 ++ le 2 150 ++ [0, 1, 2, 0] ++ zeros 8)) (gridded s0) ∧
    Accepts specIslPassiveSet (pk ([0, 1] ++ le 2 2000 ++ le 2 100 ++ zeros 2 ++ le 4 10)) (s0) ∧
    Accepts specIslPeerSet (pk ([63, 1, 0, 0] ++ le 4 5)) (s0) ∧
    Accepts specIslBaselineReset (pk ([])) ({ s0 with isl := { s0.isl with state := 2 } }) := by decide +kernel

theorem accepts_Ports_1 :
    Accepts specPortChopperConfig (pk (zeros 4)) (s0) ∧
    Accepts specPortBatSet (pk (zeros 8)) (s0) ∧
    Accepts specPortStatus (pk ([])) (s0) ∧
    Accepts specPortBmsStatus (pk ([])) (s0) ∧
    Accepts specPortMapRead (pk (zeros 2)) (s0) ∧
    Accepts specPortPvConfig (pk ([0, 1, 4, 255, 255, 255, 1, 3, 4, 0] ++ le 2 1000 ++ le 2 100 ++ le 2 50 ++ le 2 100 ++ le 2 150 ++ le 2 60 ++ le 2 0)) (s0) ∧
    Accepts specPortBatConfig (pk ([3, 0, 4, 5, 6, 7, 1, 3] ++ le 2 100 ++ [0, 0] ++ le 2 50 ++ le 2 60)) (generated s0) ∧
    Accepts specPortShareConfig (pk ([20, 0] ++ le 2 700 ++ [10, 1] ++ le 2 0)) ({ s0 with dcl := { s0.dcl with uv := 300, ov1 := 800 } }) ∧
    Accepts specPortMpptConfig (pk ([255, 0] ++ le 2 60 ++ le 2 100 ++ [2, 5] ++ le 2 10 ++ le 2 10 ++ le 2 1 ++ le 2 0)) (s0) ∧
    Accepts specPortBmsConfig (pk ([63, 255] ++ le 2 100 ++ le 2 200 ++ le 2 1000)) (s0) := by decide +kernel

theorem accepts_Ports_2 :
    Accepts specPortEnable (pk ([0, 0, 1, 0])) (solar 0 s0) ∧
    Accepts specPortSweep (pk ([0, 0, 0, 0])) (solar 2 s0) := by decide +kernel

theorem accepts_Pwm_1 :
    Accepts specPwmStatus (pk ([])) (s0) ∧
    Accepts specPwmTimebaseConfig (pk ([0, 4, 0, 0] ++ le 4 5000 ++ [255, 1, 0, 0] ++ le 4 0)) (s0) ∧
    Accepts specPwmLegConfig (pk ([0, 0, 4, 255] ++ le 2 800 ++ le 2 800 ++ le 2 0 ++ le 2 0 ++ le 2 0 ++ zeros 6 ++ zeros 4)) (rated s0) ∧
    Accepts specPwmDutySet (pk ([0, 3] ++ le 2 0x4000 ++ le 2 0 ++ zeros 2)) (legged 0 s0) ∧
    Accepts specPwmLegTest (pk ([0, 1] ++ le 2 0x4000 ++ le 4 1000)) (inMode 2 (legged 0 s0)) := by decide +kernel

theorem accepts_Sensing_1 :
    Accepts specSenseStatus (pk ([])) (s0) ∧
    Accepts specSenseAinConfig (pk ([0, 1] ++ leI 2 (-8192) ++ leI 2 8191 ++ le 2 0 ++ le 4 0x43C80000 ++ le 2 1 ++ le 2 0)) (s0) ∧
    Accepts specSenseDecimConfig (pk ([0, 0, 1, 255] ++ le 2 2 ++ le 2 0)) (s0) ∧
    Accepts specSenseKirchhoffSet (pk ([0, 1, 2, 1, 0, 1, 255, 255] ++ le 2 100 ++ le 2 0)) ({ s0 with sense := { s0.sense with ains := (s0.sense.ains.set 0 { Ain.reset with enable := true }).set 1 { Ain.reset with enable := true } } }) ∧
    Accepts specSenseCheckConfig (pk (le 2 4 ++ le 2 4 ++ le 2 10 ++ [1, 0])) (s0) ∧
    Accepts specSenseHkConfig (pk ([0, 1, 0, 0] ++ zeros 8 ++ le 2 0 ++ le 2 0 ++ le 2 4095 ++ le 2 1 ++ le 4 0x43C80000)) (s0) ∧
    Accepts specSenseHkRead (pk ([9, 255, 255, 255, 255, 255, 255, 255])) ({ s0 with sense := { s0.sense with hks := s0.sense.hks.set 9 { Hk.reset with enable := true } } }) ∧
    Accepts specSensePathTest (pk ([0, 0, 0, 0] ++ [1, 23] ++ le 2 0 ++ le 2 4095 ++ le 2 10 ++ le 2 1 ++ [50, 0])) (s0) := by decide +kernel

theorem accepts_Protection_1 :
    Accepts specProtRelease (pk (zeros 4)) (s0) ∧
    Accepts specProtTrip (pk (zeros 4)) (s0) ∧
    Accepts specProtStatus (pk ([])) (s0) ∧
    Accepts specProtGroupConfig (pk ([7, 1] ++ le 6 5 ++ le 2 10 ++ le 2 0 ++ [15, 0] ++ le 2 1 ++ le 2 1 ++ le 2 0)) (s0) ∧
    Accepts specProtFltConfig (pk ([47, 0, 1, 200, 255, 0, 0, 0])) (s0) ∧
    Accepts specProtCmpConfig (pk ([51, 33, 0, 0] ++ le 2 100 ++ [0, 1, 255, 0] ++ le 2 1000 ++ [255, 0] ++ le 2 0 ++ zeros 4)) (s0) ∧
    Accepts specProtMonConfig (pk ([0, 1, 0, 0] ++ leI 2 (-100) ++ leI 2 (-50) ++ leI 2 50 ++ leI 2 100 ++ [1, 7, 255, 0])) (s0) ∧
    Accepts specProtCmpTest (pk ([1, 0, 0, 0, 3])) ({ s0 with prot := { s0.prot with cmps := s0.prot.cmps.set 3 { Cmp.reset with cell := some 3 } } }) := by decide +kernel

theorem accepts_Recorder_1 :
    Accepts specRecLaneConfig (pk (zeros 12)) (s0) ∧
    Accepts specRecMapConfig (pk (zeros 12)) (s0) ∧
    Accepts specRecStatClear (pk (zeros 4)) (s0) ∧
    Accepts specRecStatus (pk ([])) (s0) ∧
    Accepts specRecTriggerConfig (pk ([0, 4, 0, 0] ++ zeros 4 ++ le 2 1 ++ zeros 14)) (s0) ∧
    Accepts specRecCaptureConfig (pk ([1, 24, 0, 0] ++ le 4 0 ++ le 4 1 ++ le 4 10 ++ zeros 8)) (s0) ∧
    Accepts specRecArm (pk ([1, 0, 0, 0])) ({ s0 with recorder := { s0.recorder with lanes := s0.recorder.lanes.set 0 { Lane.reset with cap := true } } }) ∧
    Accepts specRecTrigger (pk ([])) ({ s0 with recorder := { s0.recorder with state := 1 } }) ∧
    Accepts specRecRead (pk (le 2 5 ++ [0, 0, 24, 0, 0, 0])) ({ s0 with recorder := { s0.recorder with done := [cap0] } }) ∧
    Accepts specRecDelete (pk (le 2 5 ++ [0, 0])) ({ s0 with recorder := { s0.recorder with done := [cap0] } }) := by decide +kernel

theorem accepts_Recorder_2 :
    Accepts specRecCommit (pk (le 2 5 ++ [1, 0])) ({ s0 with recorder := { s0.recorder with done := [cap0] } }) ∧
    Accepts specRecSkewCal (pk ([0, 1] ++ le 2 0 ++ le 2 1000 ++ le 2 0 ++ zeros 16)) (s0) := by decide +kernel

theorem accepts_Safety_1 :
    Accepts specSafetyStatus (pk ([])) (s0) ∧
    Accepts specSafetyRead (pk (zeros 4)) (s0) ∧
    Accepts specSafetyAck (pk (zeros 4)) (s0) ∧
    Accepts specSafetyOutputReq (pk (zeros 4)) (s0) ∧
    Accepts specSafetyOutputTest (pk (zeros 4)) (s0) ∧
    Accepts specSafetyUnlock (pk ([10, 0, 0, 0] ++ List.replicate 10 0x41 ++ zeros 54)) (s0) ∧
    Accepts specSafetyLock (pk ([])) (unlocked s0) ∧
    Accepts specSafetyStage (pk ([4, 0, 0, 0] ++ le 2 100 ++ le 2 1000 ++ le 2 3600 ++ le 2 0)) (unlocked s0) ∧
    Accepts specSafetyCommit (pk (le 4 (scrc s0.safety.active))) (unlocked s0) ∧
    Accepts specSafetyPassword (pk ([0, 10, 0, 0] ++ zeros 64 ++ List.replicate 10 0x7E ++ zeros 54)) (s0) := by decide +kernel

theorem accepts_Safety_2 :
    Accepts specSafetyLogRead (pk (le 4 0 ++ le 2 1 ++ le 2 0)) ({ s0 with safety := { s0.safety with log := { s0.safety.log with next := 1, entries := [zeros 128] } } }) := by decide +kernel

theorem accepts_Network_1 :
    Accepts specNetPortConfig (pk (zeros 16)) (s0) ∧
    Accepts specNetIpConfig (pk (zeros 40)) (s0) ∧
    Accepts specNetNeighbourSet (pk (zeros 24)) (s0) ∧
    Accepts specNetPtpOffset (pk (zeros 16)) (s0) ∧
    Accepts specNetFleetKey (pk (zeros 32)) (s0) ∧
    Accepts specNetDispatchAuth (pk (zeros 12)) (s0) ∧
    Accepts specNetVrelBind (pk (zeros 24)) (s0) ∧
    Accepts specNetStatus (pk ([])) (s0) ∧
    Accepts specNetCanConfig (pk ([1, 2, 0, 0] ++ le 4 500000 ++ le 4 2000000)) (s0) ∧
    Accepts specNetUartConfig (pk (le 4 115200 ++ [2, 0, 0, 0])) (s0) := by decide +kernel

theorem accepts_Network_2 :
    Accepts specNetFleetConfig (pk (le 4 1 ++ le 3 5 ++ [60] ++ zeros 20 ++ List.replicate 24 0xFF ++ zeros 12)) (s0) ∧
    Accepts specNetPeerRead (pk (le 2 4095 ++ [32, 0])) (s0) := by decide +kernel

theorem accepts_Cooling_1 :
    Accepts specCoolStatus (pk ([])) (s0) ∧
    Accepts specCoolHealth (pk (zeros 4)) (s0) ∧
    Accepts specClkStatus (pk ([])) (s0) ∧
    Accepts specCoolConfig (pk ([1, 0, 4, 25] ++ le 2 160 ++ le 2 10 ++ le 2 1 ++ le 2 10 ++ le 2 10 ++ le 2 100 ++ le 2 200 ++ le 2 1 ++ le 2 2 ++ le 2 10 ++ [0, 0] ++ le 2 20 ++ zeros 4)) (s0) ∧
    Accepts specCoolRun (pk ([0, 1] ++ le 2 32767 ++ zeros 4)) ({ s0 with cool := { s0.cool with drives := s0.cool.drives.set 0 (drive0 0) } }) ∧
    Accepts specClkRefConfig (pk (le 4 26000000 ++ zeros 4)) (s0) ∧
    Accepts specClkSwap (pk ([])) ({ s0 with clk := { s0.clk with main := 0, loops := List.replicate 2 { Loop.reset with state := 1 } } }) := by decide +kernel

theorem accepts_Memory_1 :
    Accepts specMemStatus (pk ([])) (s0) ∧
    Accepts specMemLcChallenge (pk ([])) (s0) ∧
    Accepts specHuskStatus (pk ([])) (s0) ∧
    Accepts specHuskLogRead (pk (zeros 8)) (s0) ∧
    Accepts specMemImageLoad (pk ([1, 1, 0, 0] ++ le 4 0 ++ le 4 0xFFFFFFFF)) (s0) ∧
    Accepts specMemDataWrite (pk (le 4 0 ++ le 2 4 ++ zeros 2 ++ le 4 7)) (s0) ∧
    Accepts specMemDataRead (pk (le 4 0 ++ le 2 4 ++ zeros 2)) (s0) ∧
    Accepts specMemSerialSet (pk (le 8 99)) ({ s0 with mem := { s0.mem with lc := 1 } }) ∧
    Accepts specMemLcTransition (pk ([1] ++ zeros 99)) ({ s0 with mem := { s0.mem with lc := 0 } }) ∧
    Accepts specMemSplice (pk ([1, 0, 0, 0])) (s0) := by decide +kernel

theorem accepts_Memory_2 :
    Accepts specMemHealthRead (pk (le 2 4033 ++ le 2 63)) (s0) ∧
    Accepts specHuskConfig (pk ([1, 0] ++ le 2 220 ++ le 2 360 ++ le 2 0 ++ zeros 8)) (s0) ∧
    Accepts specHuskTimeSet (pk (le 8 1000)) (s0) ∧
    Accepts specMemKeyInstall (pk ([4] ++ (le 48 0xAA87CA22BE8B05378EB1C71EF320AD746E1D3B628BA79B9859F741E082542A385502F25DBF55296C3A545E3872760AB7).reverse ++
    (le 48 0x3617DE4A96262C6F5D9E98BF9292DC29F8F41DBD289A147CE9DA3113B5F0B8C00A60B1CE1D7E819D7A431D7C90EA0E5F).reverse ++ zeros 3)) (s0) := by decide +kernel

/-! ### Clauses about packets: their further hypotheses -/

def p_sysReset_1 : Packet := pk (le 4 0x01025A5A)
def s_sysReset_1 : State := s0
def p_sysUnfreeze_1 : Packet := pk ([3, 0, 0, 0])
def s_sysUnfreeze_1 : State := { s0 with host := { s0.host with frozen := 8 } }
def p_sessionOpen_1 : Packet := pk ([])
def s_sessionOpen_1 : State := s0
def p_sessionClose_1 : Packet := pk ([])
def s_sessionClose_1 : State := s0
def p_sysMode_1 : Packet := pk ([1, 0, 0, 0] ++ zeros 4)
def s_sysMode_1 : State := s0
def p_sysMode_2 : Packet := pk ([2, 0, 0, 0] ++ zeros 4)
def s_sysMode_2 : State := s0
theorem witness_SystemPackets_1 :
    (Accepts specSysReset p_sysReset_1 s_sysReset_1 ∧ (begun p_sysReset_1 s_sysReset_1).legsOff = true ∧ (begun p_sysReset_1 s_sysReset_1).modes.ramping = false) ∧
    (Accepts specSysUnfreeze p_sysUnfreeze_1 s_sysUnfreeze_1 ∧ u8 p_sysUnfreeze_1.payload 0 ≠ 2) ∧
    (Accepts specSessionOpen p_sessionOpen_1 s_sessionOpen_1 ∧ (pk []).src.sid = some .host) ∧
    (Accepts specSessionClose p_sessionClose_1 s_sessionClose_1 ∧ (begun p_sessionClose_1 s_sessionClose_1).safety.unlocked = none) ∧
    (Accepts specSysMode p_sysMode_1 s_sysMode_1 ∧ u8 p_sysMode_1.payload 2 ≠ 1 ∧ (begun p_sysMode_1 s_sysMode_1).modes.mode = u8 p_sysMode_1.payload 0 ∧ (begun p_sysMode_1 s_sysMode_1).modes.trans = none) ∧
    (Accepts specSysMode p_sysMode_2 s_sysMode_2 ∧ u8 p_sysMode_2.payload 2 ≠ 1 ∧ ((begun p_sysMode_2 s_sysMode_2).modes.mode ≠ u8 p_sysMode_2.payload 0 ∨ (begun p_sysMode_2 s_sysMode_2).modes.trans ≠ none)) := by decide +kernel

def p_sysMode_3 : Packet := pk ([1, 0, 1, 0] ++ zeros 4)
def s_sysMode_3 : State := s0
def p_sysMode_4 : Packet := pk ([2, 0, 1, 0] ++ zeros 4)
def s_sysMode_4 : State := s0
def p_sysMode_5 : Packet := { pk ([1, 0, 1, 0] ++ zeros 4) with flags := 1 }
def s_sysMode_5 : State := s0
def p_sysMode_6 : Packet := { pk ([2, 0, 1, 0] ++ zeros 4) with flags := 1 }
def s_sysMode_6 : State := s0
theorem witness_SystemPackets_2 :
    (Accepts specSysMode p_sysMode_3 s_sysMode_3 ∧ u8 p_sysMode_3.payload 2 = 1 ∧ p_sysMode_3.ack = false ∧ (begun p_sysMode_3 s_sysMode_3).modes.mode = u8 p_sysMode_3.payload 0 ∧ (begun p_sysMode_3 s_sysMode_3).modes.trans = none) ∧
    (Accepts specSysMode p_sysMode_4 s_sysMode_4 ∧ u8 p_sysMode_4.payload 2 = 1 ∧ p_sysMode_4.ack = false ∧ ((begun p_sysMode_4 s_sysMode_4).modes.mode ≠ u8 p_sysMode_4.payload 0 ∨ (begun p_sysMode_4 s_sysMode_4).modes.trans ≠ none)) ∧
    (Accepts specSysMode p_sysMode_5 s_sysMode_5 ∧ u8 p_sysMode_5.payload 2 = 1 ∧ p_sysMode_5.ack = true ∧ (begun p_sysMode_5 s_sysMode_5).modes.mode = u8 p_sysMode_5.payload 0 ∧ (begun p_sysMode_5 s_sysMode_5).modes.trans = none) ∧
    (Accepts specSysMode p_sysMode_6 s_sysMode_6 ∧ u8 p_sysMode_6.payload 2 = 1 ∧ p_sysMode_6.ack = true ∧ ((begun p_sysMode_6 s_sysMode_6).modes.mode ≠ u8 p_sysMode_6.payload 0 ∨ (begun p_sysMode_6 s_sysMode_6).modes.trans ≠ none)) := by decide +kernel

def p_sheafEntryWrite_1 : Packet := pk (zeros 900)
def s_sheafEntryWrite_1 : State := s0
theorem witness_SheafPackets_1 :
    (Accepts specSheafEntryWrite p_sheafEntryWrite_1 s_sheafEntryWrite_1 ∧ (begun p_sheafEntryWrite_1 s_sheafEntryWrite_1).live (u16 p_sheafEntryWrite_1.payload 0) = false) := by decide +kernel

def p_sheafEntryWrite_2 : Packet := pk ([3, 0, 0, 0] ++ zeros 896)
def s_sheafEntryWrite_2 : State := hitched s0
theorem witness_SheafPackets_2 :
    (Accepts specSheafEntryWrite p_sheafEntryWrite_2 s_sheafEntryWrite_2 ∧ (begun p_sheafEntryWrite_2 s_sheafEntryWrite_2).live (u16 p_sheafEntryWrite_2.payload 0) = true) := by decide +kernel

def p_sheafCoefStage_1 : Packet := pk ([0, 0, 0, 1] ++ le 2 0x1234)
def s_sheafCoefStage_1 : State := s0
theorem witness_SheafPackets_3 :
    (Accepts specSheafCoefStage p_sheafCoefStage_1 s_sheafCoefStage_1 ∧ (begun p_sheafCoefStage_1 s_sheafCoefStage_1).live (u16 p_sheafCoefStage_1.payload 0) = false) := by decide +kernel

def p_sheafCoefStage_2 : Packet := pk ([3, 0, 0, 1] ++ le 2 0x1234)
def s_sheafCoefStage_2 : State := hitched s0
theorem witness_SheafPackets_4 :
    (Accepts specSheafCoefStage p_sheafCoefStage_2 s_sheafCoefStage_2 ∧ (begun p_sheafCoefStage_2 s_sheafCoefStage_2).live (u16 p_sheafCoefStage_2.payload 0) = true) := by decide +kernel

def p_sheafCoefLive_1 : Packet := pk ([0, 0, 0, 0] ++ le 2 0x1234)
def s_sheafCoefLive_1 : State := { s0 with eng := { s0.eng with run := Mem.writeN s0.eng.run 0 (le 4 0x40000000) } }
theorem witness_SheafPackets_5 :
    (Accepts specSheafCoefLive p_sheafCoefLive_1 s_sheafCoefLive_1 ∧ (begun p_sheafCoefLive_1 s_sheafCoefLive_1).live (u16 p_sheafCoefLive_1.payload 0) = false) := by decide +kernel

def p_sheafCoefLive_2 : Packet := pk ([3, 0, 0, 0] ++ le 2 0x1234)
def s_sheafCoefLive_2 : State := { rated s0 with eng := { (rated s0).eng with run := Mem.writeN [] 0xC00 (le 4 0xC0500000) } }
theorem witness_SheafPackets_6 :
    (Accepts specSheafCoefLive p_sheafCoefLive_2 s_sheafCoefLive_2 ∧ (begun p_sheafCoefLive_2 s_sheafCoefLive_2).live (u16 p_sheafCoefLive_2.payload 0) = true) := by decide +kernel

def p_sheafLimitsSet_1 : Packet := pk ([0, 0, 0, 1] ++ le 2 0x8000 ++ le 2 0x7FFF)
def s_sheafLimitsSet_1 : State := s0
theorem witness_SheafPackets_7 :
    (Accepts specSheafLimitsSet p_sheafLimitsSet_1 s_sheafLimitsSet_1 ∧ (begun p_sheafLimitsSet_1 s_sheafLimitsSet_1).live (u16 p_sheafLimitsSet_1.payload 0) = false) := by decide +kernel

def p_sheafLimitsSet_2 : Packet := pk ([3, 0, 0, 1] ++ le 2 0x8000 ++ le 2 0x7FFF)
def s_sheafLimitsSet_2 : State := hitched s0
theorem witness_SheafPackets_8 :
    (Accepts specSheafLimitsSet p_sheafLimitsSet_2 s_sheafLimitsSet_2 ∧ (begun p_sheafLimitsSet_2 s_sheafLimitsSet_2).live (u16 p_sheafLimitsSet_2.payload 0) = true) := by decide +kernel

def p_sheafMapSet_1 : Packet := pk ([0, 0, 0, 0, 1, 0, 0, 0] ++ zeros 4)
def s_sheafMapSet_1 : State := s0
theorem witness_SheafPackets_9 :
    (Accepts specSheafMapSet p_sheafMapSet_1 s_sheafMapSet_1 ∧ (begun p_sheafMapSet_1 s_sheafMapSet_1).live (u16 p_sheafMapSet_1.payload 0) = false) := by decide +kernel

def p_sheafMapSet_2 : Packet := pk ([9, 0, 0, 0, 1, 0, 0, 0] ++ zeros 4)
def s_sheafMapSet_2 : State := { rated s0 with eng := { (rated s0).eng with run := Mem.writeN (Mem.writeN (Mem.writeN [] 0x2401 [1]) 0x2408 (le 4 0x3F800000)) 0x2403 [0x80] } }
theorem witness_SheafPackets_10 :
    (Accepts specSheafMapSet p_sheafMapSet_2 s_sheafMapSet_2 ∧ (begun p_sheafMapSet_2 s_sheafMapSet_2).live (u16 p_sheafMapSet_2.payload 0) = true) := by decide +kernel

def p_sheafEnable_1 : Packet := pk ([9, 0, 1, 0])
def s_sheafEnable_1 : State := { rated s0 with eng := { (rated s0).eng with run := Mem.writeN (Mem.writeN (Mem.writeN [] 0x2401 [1]) 0x2408 (le 4 0x3F800000)) 0x2403 [0] } }
theorem witness_SheafPackets_11 :
    (Accepts specSheafEnable p_sheafEnable_1 s_sheafEnable_1 ∧ bit (u8 p_sheafEnable_1.payload 2) 0 = true ∧ (begun p_sheafEnable_1 s_sheafEnable_1).live (u16 p_sheafEnable_1.payload 0) = false) := by decide +kernel

def p_sheafEnable_2 : Packet := pk ([9, 0, 1, 0])
def s_sheafEnable_2 : State := { rated s0 with eng := { (rated s0).eng with run := Mem.writeN (Mem.writeN (Mem.writeN [] 0x2401 [1]) 0x2408 (le 4 0x3F800000)) 0x2403 [0x80] } }
theorem witness_SheafPackets_12 :
    (Accepts specSheafEnable p_sheafEnable_2 s_sheafEnable_2 ∧ bit (u8 p_sheafEnable_2.payload 2) 0 = true ∧ (begun p_sheafEnable_2 s_sheafEnable_2).live (u16 p_sheafEnable_2.payload 0) = true) := by decide +kernel

def p_sheafEnable_3 : Packet := pk ([3, 0, 0, 0])
def s_sheafEnable_3 : State := hitched s0
theorem witness_SheafPackets_13 :
    (Accepts specSheafEnable p_sheafEnable_3 s_sheafEnable_3 ∧ bit (u8 p_sheafEnable_3.payload 2) 0 = false ∧ (begun p_sheafEnable_3 s_sheafEnable_3).enabled (u16 p_sheafEnable_3.payload 0) = true ∧ ((disableChan 3 ((begun p_sheafEnable_3 s_sheafEnable_3).modChan 3 fun c => { c with pendStart := false, pendRun := false })).chan 3).pendStop = false) := by decide +kernel

def p_sheafEnable_4 : Packet := pk ([3, 0, 0, 0])
def s_sheafEnable_4 : State := { hitched s0 with eng := { (hitched s0).eng with due := [{ pass0 with ch := 3 }], chans := s0.eng.chans.set 3 { Chan.reset with running := true } } }
theorem witness_SheafPackets_14 :
    (Accepts specSheafEnable p_sheafEnable_4 s_sheafEnable_4 ∧ bit (u8 p_sheafEnable_4.payload 2) 0 = false ∧ (begun p_sheafEnable_4 s_sheafEnable_4).enabled (u16 p_sheafEnable_4.payload 0) = true ∧ ((disableChan 3 ((begun p_sheafEnable_4 s_sheafEnable_4).modChan 3 fun c => { c with pendStart := false, pendRun := false })).chan 3).pendStop = true) := by decide +kernel

def p_sheafEnable_5 : Packet := pk (zeros 4)
def s_sheafEnable_5 : State := s0
theorem witness_SheafPackets_15 :
    (Accepts specSheafEnable p_sheafEnable_5 s_sheafEnable_5 ∧ bit (u8 p_sheafEnable_5.payload 2) 0 = false ∧ (begun p_sheafEnable_5 s_sheafEnable_5).enabled (u16 p_sheafEnable_5.payload 0) = false) := by decide +kernel

def p_sheafStateSet_1 : Packet := pk ([0, 0, 11, 1] ++ leI 8 (-1))
def s_sheafStateSet_1 : State := s0
theorem witness_SheafPackets_16 :
    (Accepts specSheafStateSet p_sheafStateSet_1 s_sheafStateSet_1 ∧ (begun p_sheafStateSet_1 s_sheafStateSet_1).live (u16 p_sheafStateSet_1.payload 0) = false) := by decide +kernel

def p_sheafStateSet_2 : Packet := pk ([3, 0, 11, 1] ++ leI 8 (-1))
def s_sheafStateSet_2 : State := hitched s0
theorem witness_SheafPackets_17 :
    (Accepts specSheafStateSet p_sheafStateSet_2 s_sheafStateSet_2 ∧ (begun p_sheafStateSet_2 s_sheafStateSet_2).live (u16 p_sheafStateSet_2.payload 0) = true) := by decide +kernel

def p_sheafInvalidate_1 : Packet := pk ([0, 0, 1, 0, 0, 0, 0, 0])
def s_sheafInvalidate_1 : State := s0
theorem witness_SheafPackets_18 :
    (Accepts specSheafInvalidate p_sheafInvalidate_1 s_sheafInvalidate_1 ∧ slowest (begun p_sheafInvalidate_1 s_sheafInvalidate_1) ((List.range (u16 p_sheafInvalidate_1.payload 2)).map fun i => u16 p_sheafInvalidate_1.payload 0 + i) = none) := by decide +kernel

def p_sheafInvalidate_2 : Packet := pk ([3, 0, 1, 0, 0, 0, 0, 0])
def s_sheafInvalidate_2 : State := hitched s0
theorem witness_SheafPackets_19 :
    (Accepts specSheafInvalidate p_sheafInvalidate_2 s_sheafInvalidate_2 ∧ slowest (begun p_sheafInvalidate_2 s_sheafInvalidate_2) ((List.range (u16 p_sheafInvalidate_2.payload 2)).map fun i => u16 p_sheafInvalidate_2.payload 0 + i) = some 3) := by decide +kernel

def p_profileTarget_1 : Packet := pk ([0, 0] ++ le 2 0x4000)
def s_profileTarget_1 : State := generated s0
def p_profileTarget_2 : Packet := pk ([0, 0] ++ le 2 0x4000)
def s_profileTarget_2 : State := { s0 with gens := s0.gens.set 0 { Gen.reset with enable := true, held := true } }
def p_profileHold_1 : Packet := pk ([0, 1])
def s_profileHold_1 : State := generated s0
def p_profileHold_2 : Packet := pk ([0, 1])
def s_profileHold_2 : State := { s0 with gens := s0.gens.set 0 { Gen.reset with enable := true, held := true } }
def p_profileHold_3 : Packet := pk ([0, 0])
def s_profileHold_3 : State := generated s0
def p_profileHold_4 : Packet := pk ([0, 0])
def s_profileHold_4 : State := { s0 with gens := s0.gens.set 0 { Gen.reset with enable := true, held := true, pendTarget := some 5 } }
theorem witness_EnginePackets_1 :
    (Accepts specProfileTarget p_profileTarget_1 s_profileTarget_1 ∧ ((begun p_profileTarget_1 s_profileTarget_1).gen (u8 p_profileTarget_1.payload 0)).held = false) ∧
    (Accepts specProfileTarget p_profileTarget_2 s_profileTarget_2 ∧ ((begun p_profileTarget_2 s_profileTarget_2).gen (u8 p_profileTarget_2.payload 0)).held = true) ∧
    (Accepts specProfileHold p_profileHold_1 s_profileHold_1 ∧ bit (u8 p_profileHold_1.payload 1) 0 = true ∧ ((begun p_profileHold_1 s_profileHold_1).gen (u8 p_profileHold_1.payload 0)).held = false) ∧
    (Accepts specProfileHold p_profileHold_2 s_profileHold_2 ∧ bit (u8 p_profileHold_2.payload 1) 0 = true ∧ ((begun p_profileHold_2 s_profileHold_2).gen (u8 p_profileHold_2.payload 0)).held = true) ∧
    (Accepts specProfileHold p_profileHold_3 s_profileHold_3 ∧ bit (u8 p_profileHold_3.payload 1) 0 = false ∧ ((begun p_profileHold_3 s_profileHold_3).gen (u8 p_profileHold_3.payload 0)).pendTarget = none) ∧
    (Accepts specProfileHold p_profileHold_4 s_profileHold_4 ∧ bit (u8 p_profileHold_4.payload 1) 0 = false ∧ ((begun p_profileHold_4 s_profileHold_4).gen (u8 p_profileHold_4.payload 0)).pendTarget = some 5) := by decide +kernel

def p_islPassiveSet_1 : Packet := pk ([0, 1] ++ le 2 2000 ++ le 2 100 ++ zeros 2 ++ le 4 10)
def s_islPassiveSet_1 : State := s0
def p_islPassiveSet_2 : Packet := pk ([1, 1] ++ le 2 50 ++ le 2 0 ++ zeros 2 ++ le 4 1)
def s_islPassiveSet_2 : State := s0
def p_islPeerSet_1 : Packet := pk ([63, 1, 0, 0] ++ le 4 5)
def s_islPeerSet_1 : State := s0
def p_islPeerSet_2 : Packet := pk ([63, 1, 0, 0] ++ le 4 5)
def s_islPeerSet_2 : State := { s0 with isl := { s0.isl with corr := s0.isl.corr.set 63 { Corr.reset with inMap := true } } }
theorem witness_IslandingPackets_1 :
    (Accepts specIslPassiveSet p_islPassiveSet_1 s_islPassiveSet_1 ∧ u8 p_islPassiveSet_1.payload 0 = 0) ∧
    (Accepts specIslPassiveSet p_islPassiveSet_2 s_islPassiveSet_2 ∧ u8 p_islPassiveSet_2.payload 0 ≠ 0) ∧
    (Accepts specIslPeerSet p_islPeerSet_1 s_islPeerSet_1 ∧ ((begun p_islPeerSet_1 s_islPeerSet_1).isl.corr.getD (u8 p_islPeerSet_1.payload 0) Corr.reset).inMap = false) ∧
    (Accepts specIslPeerSet p_islPeerSet_2 s_islPeerSet_2 ∧ ((begun p_islPeerSet_2 s_islPeerSet_2).isl.corr.getD (u8 p_islPeerSet_2.payload 0) Corr.reset).inMap = true) := by decide +kernel

def p_portMpptConfig_1 : Packet := pk ([15, 0] ++ le 2 60 ++ le 2 100 ++ [2, 5] ++ le 2 10 ++ le 2 10 ++ le 2 1 ++ le 2 0)
def s_portMpptConfig_1 : State := s0
def p_portMpptConfig_2 : Packet := pk ([255, 0] ++ le 2 60 ++ le 2 100 ++ [2, 5] ++ le 2 10 ++ le 2 10 ++ le 2 1 ++ le 2 0)
def s_portMpptConfig_2 : State := s0
def p_portEnable_1 : Packet := pk ([1, 0, 0, 0])
def s_portEnable_1 : State := { s0 with ports := { s0.ports with bat := s0.ports.bat.set 0 { Bat.reset with enable := true, cfg := some { legs := [4, 5, 6, 7], vKind := 1, vIn := 3, pFs := 100, gen := 0, vMin := 50, vMax := 60 } } } }
def p_portEnable_2 : Packet := pk ([1, 0, 1, 0])
def s_portEnable_2 : State := { s0 with ports := { s0.ports with bat := s0.ports.bat.set 0 { Bat.reset with enable := false, cfg := some { legs := [4, 5, 6, 7], vKind := 1, vIn := 3, pFs := 100, gen := 0, vMin := 50, vMax := 60 } } } }
def p_portEnable_3 : Packet := pk ([0, 0, 0, 0])
def s_portEnable_3 : State := solar 2 s0
def p_portEnable_4 : Packet := pk ([0, 0, 1, 0])
def s_portEnable_4 : State := solar 0 s0
theorem witness_PortsPackets_1 :
    (Accepts specPortMpptConfig p_portMpptConfig_1 s_portMpptConfig_1 ∧ u8 p_portMpptConfig_1.payload 0 < 16) ∧
    (Accepts specPortMpptConfig p_portMpptConfig_2 s_portMpptConfig_2 ∧ u8 p_portMpptConfig_2.payload 0 = 255) ∧
    (Accepts specPortEnable p_portEnable_1 s_portEnable_1 ∧ u8 p_portEnable_1.payload 0 = 1 ∧ bit (u8 p_portEnable_1.payload 2) 0 = false) ∧
    (Accepts specPortEnable p_portEnable_2 s_portEnable_2 ∧ u8 p_portEnable_2.payload 0 = 1 ∧ bit (u8 p_portEnable_2.payload 2) 0 = true) ∧
    (Accepts specPortEnable p_portEnable_3 s_portEnable_3 ∧ u8 p_portEnable_3.payload 0 = 0 ∧ bit (u8 p_portEnable_3.payload 2) 0 = false) ∧
    (Accepts specPortEnable p_portEnable_4 s_portEnable_4 ∧ u8 p_portEnable_4.payload 0 = 0 ∧ bit (u8 p_portEnable_4.payload 2) 0 = true ∧ ((begun p_portEnable_4 s_portEnable_4).pv (u8 p_portEnable_4.payload 1)).state = 0) := by decide +kernel

def p_portEnable_5 : Packet := pk ([0, 0, 1, 0])
def s_portEnable_5 : State := solar 2 s0
def p_portBatSet_1 : Packet := pk ([255, 0, 0, 0] ++ zeros 4)
def s_portBatSet_1 : State := s0
def p_portBatSet_2 : Packet := pk (zeros 8)
def s_portBatSet_2 : State := s0
def p_portSweep_1 : Packet := pk ([0, 0, 0, 0])
def s_portSweep_1 : State := solar 2 s0
theorem witness_PortsPackets_2 :
    (Accepts specPortEnable p_portEnable_5 s_portEnable_5 ∧ u8 p_portEnable_5.payload 0 = 0 ∧ bit (u8 p_portEnable_5.payload 2) 0 = true ∧ ((begun p_portEnable_5 s_portEnable_5).pv (u8 p_portEnable_5.payload 1)).state ≠ 0) ∧
    (Accepts specPortBatSet p_portBatSet_1 s_portBatSet_1 ∧ u8 p_portBatSet_1.payload 0 = 255) ∧
    (Accepts specPortBatSet p_portBatSet_2 s_portBatSet_2 ∧ u8 p_portBatSet_2.payload 0 ≠ 255) ∧
    (Accepts specPortSweep p_portSweep_1 s_portSweep_1 ∧ ((begun p_portSweep_1 s_portSweep_1).pv (u8 p_portSweep_1.payload 0)).cfg = (pv0 2).cfg) := by decide +kernel

def p_pwmTimebaseConfig_1 : Packet := pk ([0, 4, 0, 0] ++ le 4 5000 ++ [255, 1, 0, 0] ++ le 4 0)
def s_pwmTimebaseConfig_1 : State := s0
def p_pwmTimebaseConfig_2 : Packet := pk ([0, 4, 0, 0] ++ le 4 5000 ++ [255, 1, 0, 0] ++ le 4 0)
def s_pwmTimebaseConfig_2 : State := rated s0
def p_pwmLegTest_1 : Packet := pk ([0, 1] ++ le 2 0x4000 ++ le 4 1000)
def s_pwmLegTest_1 : State := inMode 2 (legged 0 s0)
def p_pwmLegTest_2 : Packet := pk ([0, 0] ++ le 2 0x4000 ++ le 4 1000)
def s_pwmLegTest_2 : State := inMode 2 (legged 0 s0)
theorem witness_PwmPackets_1 :
    (Accepts specPwmTimebaseConfig p_pwmTimebaseConfig_1 s_pwmTimebaseConfig_1 ∧ (((begun p_pwmTimebaseConfig_1 s_pwmTimebaseConfig_1).modTb 0 fun x => { x with cfg := tbCfgOf p_pwmTimebaseConfig_1.payload, pend := true }).tb 0).inForce.enable = false ∧ (tbCfgOf p_pwmTimebaseConfig_1.payload).master = 255) ∧
    (Accepts specPwmTimebaseConfig p_pwmTimebaseConfig_2 s_pwmTimebaseConfig_2 ∧ ((begun p_pwmTimebaseConfig_2 s_pwmTimebaseConfig_2).tb 0).inForce.enable = true) ∧
    (Accepts specPwmLegTest p_pwmLegTest_1 s_pwmLegTest_1 ∧ bit (u8 p_pwmLegTest_1.payload 1) 0 = true) ∧
    (Accepts specPwmLegTest p_pwmLegTest_2 s_pwmLegTest_2 ∧ bit (u8 p_pwmLegTest_2.payload 1) 0 = false) := by decide +kernel

def p_senseHkRead_1 : Packet := pk (List.replicate 8 255)
def s_senseHkRead_1 : State := { s0 with sense := { s0.sense with hks := s0.sense.hks.set 9 { Hk.reset with enable := true } } }
def p_senseHkRead_2 : Packet := pk ([9, 255, 255, 255, 255, 255, 255, 255])
def s_senseHkRead_2 : State := { s0 with sense := { s0.sense with hks := s0.sense.hks.set 9 { Hk.reset with enable := true } } }
def p_sensePathTest_1 : Packet := pk ([0, 0, 0, 0] ++ [1, 23] ++ le 2 0 ++ le 2 4095 ++ le 2 10 ++ le 2 1 ++ [50, 0])
def s_sensePathTest_1 : State := s0
def p_sensePathTest_2 : Packet := pk ([1, 0, 0, 0] ++ [1, 23] ++ le 2 0 ++ le 2 4095 ++ le 2 10 ++ le 2 1 ++ [50, 0])
def s_sensePathTest_2 : State := s0
theorem witness_SensingPackets_1 :
    (Accepts specSenseHkRead p_senseHkRead_1 s_senseHkRead_1 ∧ (((List.range 8).map fun i => u8 p_senseHkRead_1.payload i).filter fun n => n != 255).eraseDups = []) ∧
    (Accepts specSenseHkRead p_senseHkRead_2 s_senseHkRead_2 ∧ (((List.range 8).map fun i => u8 p_senseHkRead_2.payload i).filter fun n => n != 255).eraseDups ≠ []) ∧
    (Accepts specSensePathTest p_sensePathTest_1 s_sensePathTest_1 ∧ bit (u8 p_sensePathTest_1.payload 0) 0 = false) ∧
    (Accepts specSensePathTest p_sensePathTest_2 s_sensePathTest_2 ∧ bit (u8 p_sensePathTest_2.payload 0) 0 = true) := by decide +kernel

def p_protCmpConfig_1 : Packet := pk ([51, 32, 0, 0] ++ le 2 100 ++ [0, 1, 255, 0] ++ le 2 1000 ++ [255, 0] ++ le 2 0 ++ zeros 4)
def s_protCmpConfig_1 : State := s0
def p_protCmpConfig_2 : Packet := pk ([51, 33, 0, 0] ++ le 2 100 ++ [0, 1, 255, 0] ++ le 2 1000 ++ [255, 0] ++ le 2 0 ++ zeros 4)
def s_protCmpConfig_2 : State := s0
def p_protCmpConfig_3 : Packet := pk ([51, 33, 0, 0] ++ le 2 100 ++ [0, 1, 255, 0] ++ le 2 1000 ++ [255, 0] ++ le 2 0 ++ zeros 4)
def s_protCmpConfig_3 : State := { s0 with prot := { s0.prot with cmps := s0.prot.cmps.set 51 { cmpCfgOf ([51, 33, 0, 0] ++ le 2 100 ++ [0, 1, 255, 0] ++ le 2 1000 ++ [255, 0] ++ le 2 0 ++ zeros 4) Cmp.reset with cell := some 9 } } }
def p_protMonConfig_2 : Packet := pk ([0, 1, 0, 0] ++ leI 2 (-100) ++ leI 2 (-50) ++ leI 2 50 ++ leI 2 100 ++ [1, 7, 255, 0])
def s_protMonConfig_2 : State := { s0 with prot := { s0.prot with mons := s0.prot.mons.set 0 (monCfgOf ([0, 1, 0, 0] ++ leI 2 (-100) ++ leI 2 (-50) ++ leI 2 50 ++ leI 2 100 ++ [1, 7, 255, 0]) Mon.reset) } }
def p_protMonConfig_1 : Packet := pk ([0, 1, 0, 0] ++ leI 2 (-100) ++ leI 2 (-50) ++ leI 2 50 ++ leI 2 100 ++ [1, 7, 255, 0])
def s_protMonConfig_1 : State := s0
def p_protTrip_1 : Packet := pk (zeros 4)
def s_protTrip_1 : State := s0
theorem witness_ProtectionPackets_1 :
    (Accepts specProtCmpConfig p_protCmpConfig_1 s_protCmpConfig_1 ∧ (cmpCfgOf p_protCmpConfig_1.payload ((begun p_protCmpConfig_1 s_protCmpConfig_1).cmp (u8 p_protCmpConfig_1.payload 0))).input = 0) ∧
    (Accepts specProtCmpConfig p_protCmpConfig_2 s_protCmpConfig_2 ∧ (cmpCfgOf p_protCmpConfig_2.payload ((begun p_protCmpConfig_2 s_protCmpConfig_2).cmp (u8 p_protCmpConfig_2.payload 0))).input ≠ 0 ∧ (((begun p_protCmpConfig_2 s_protCmpConfig_2).cmp (u8 p_protCmpConfig_2.payload 0)).cell.isSome && ((begun p_protCmpConfig_2 s_protCmpConfig_2).cmp (u8 p_protCmpConfig_2.payload 0)).sameBut (cmpCfgOf p_protCmpConfig_2.payload ((begun p_protCmpConfig_2 s_protCmpConfig_2).cmp (u8 p_protCmpConfig_2.payload 0)))) = false) ∧
    (Accepts specProtCmpConfig p_protCmpConfig_3 s_protCmpConfig_3 ∧ (cmpCfgOf p_protCmpConfig_3.payload ((begun p_protCmpConfig_3 s_protCmpConfig_3).cmp (u8 p_protCmpConfig_3.payload 0))).input ≠ 0 ∧ (((begun p_protCmpConfig_3 s_protCmpConfig_3).cmp (u8 p_protCmpConfig_3.payload 0)).cell.isSome && ((begun p_protCmpConfig_3 s_protCmpConfig_3).cmp (u8 p_protCmpConfig_3.payload 0)).sameBut (cmpCfgOf p_protCmpConfig_3.payload ((begun p_protCmpConfig_3 s_protCmpConfig_3).cmp (u8 p_protCmpConfig_3.payload 0)))) = true) ∧
    (Accepts specProtMonConfig p_protMonConfig_2 s_protMonConfig_2 ∧ (((begun p_protMonConfig_2 s_protMonConfig_2).mon (u8 p_protMonConfig_2.payload 0)).hasCfg && ((begun p_protMonConfig_2 s_protMonConfig_2).mon (u8 p_protMonConfig_2.payload 0)).sameBut (monCfgOf p_protMonConfig_2.payload ((begun p_protMonConfig_2 s_protMonConfig_2).mon (u8 p_protMonConfig_2.payload 0)))) = true) ∧
    (Accepts specProtMonConfig p_protMonConfig_1 s_protMonConfig_1 ∧ (((begun p_protMonConfig_1 s_protMonConfig_1).mon (u8 p_protMonConfig_1.payload 0)).hasCfg && ((begun p_protMonConfig_1 s_protMonConfig_1).mon (u8 p_protMonConfig_1.payload 0)).sameBut (monCfgOf p_protMonConfig_1.payload ((begun p_protMonConfig_1 s_protMonConfig_1).mon (u8 p_protMonConfig_1.payload 0)))) = false) ∧
    (Accepts specProtTrip p_protTrip_1 s_protTrip_1 ∧ u8 p_protTrip_1.payload 0 ≠ 255) := by decide +kernel

def p_protTrip_2 : Packet := pk ([255, 0, 0, 0])
def s_protTrip_2 : State := s0
theorem witness_ProtectionPackets_2 :
    (Accepts specProtTrip p_protTrip_2 s_protTrip_2 ∧ u8 p_protTrip_2.payload 0 = 255) := by decide +kernel

def p_recArm_1 : Packet := pk ([1, 0, 0, 0])
def s_recArm_1 : State := { s0 with recorder := { s0.recorder with lanes := s0.recorder.lanes.set 0 { Lane.reset with cap := true } } }
def p_recArm_2 : Packet := pk ([1, 0, 0, 0])
def s_recArm_2 : State := { s0 with recorder := { s0.recorder with state := 1, lanes := s0.recorder.lanes.set 0 { Lane.reset with cap := true } } }
def p_recArm_3 : Packet := pk ([0, 0, 0, 0])
def s_recArm_3 : State := { s0 with recorder := { s0.recorder with lanes := s0.recorder.lanes.set 0 { Lane.reset with cap := true } } }
def p_recDelete_1 : Packet := pk (le 2 5 ++ [0, 0])
def s_recDelete_1 : State := { s0 with recorder := { s0.recorder with done := [cap0] } }
def p_recDelete_2 : Packet := pk (le 2 5 ++ [1, 0])
def s_recDelete_2 : State := { s0 with recorder := { s0.recorder with mram := [cap0] } }
def p_recDelete_3 : Packet := { pk (le 2 5 ++ [1, 0]) with flags := 1 }
def s_recDelete_3 : State := { s0 with recorder := { s0.recorder with mram := [cap0] } }
theorem witness_RecorderPackets_1 :
    (Accepts specRecArm p_recArm_1 s_recArm_1 ∧ u8 p_recArm_1.payload 0 = 1 ∧ (begun p_recArm_1 s_recArm_1).recBusy = false) ∧
    (Accepts specRecArm p_recArm_2 s_recArm_2 ∧ u8 p_recArm_2.payload 0 = 1 ∧ (begun p_recArm_2 s_recArm_2).recBusy = true) ∧
    (Accepts specRecArm p_recArm_3 s_recArm_3 ∧ u8 p_recArm_3.payload 0 ≠ 1) ∧
    (Accepts specRecDelete p_recDelete_1 s_recDelete_1 ∧ u8 p_recDelete_1.payload 2 ≠ 1) ∧
    (Accepts specRecDelete p_recDelete_2 s_recDelete_2 ∧ u8 p_recDelete_2.payload 2 = 1 ∧ p_recDelete_2.ack = false) ∧
    (Accepts specRecDelete p_recDelete_3 s_recDelete_3 ∧ u8 p_recDelete_3.payload 2 = 1 ∧ p_recDelete_3.ack = true) := by decide +kernel

def p_recCommit_1 : Packet := pk (le 2 5 ++ [1, 0])
def s_recCommit_1 : State := { s0 with recorder := { s0.recorder with done := [cap0] } }
def p_recCommit_2 : Packet := { pk (le 2 5 ++ [1, 0]) with flags := 1 }
def s_recCommit_2 : State := { s0 with recorder := { s0.recorder with done := [cap0] } }
def p_recStatClear_1 : Packet := pk (zeros 4)
def s_recStatClear_1 : State := s0
def p_recStatClear_2 : Packet := pk ([2, 0, 0, 0])
def s_recStatClear_2 : State := s0
theorem witness_RecorderPackets_2 :
    (Accepts specRecCommit p_recCommit_1 s_recCommit_1 ∧ (begun p_recCommit_1 s_recCommit_1).capture false (u16 p_recCommit_1.payload 0) = some cap0 ∧ p_recCommit_1.ack = false) ∧
    (Accepts specRecCommit p_recCommit_2 s_recCommit_2 ∧ (begun p_recCommit_2 s_recCommit_2).capture false (u16 p_recCommit_2.payload 0) = some cap0 ∧ p_recCommit_2.ack = true) ∧
    (Accepts specRecStatClear p_recStatClear_1 s_recStatClear_1 ∧ bit (u8 p_recStatClear_1.payload 0) 1 = false) ∧
    (Accepts specRecStatClear p_recStatClear_2 s_recStatClear_2 ∧ bit (u8 p_recStatClear_2.payload 0) 1 = true) := by decide +kernel

def p_safetyPassword_1 : Packet := pk ([0, 10, 0, 0] ++ zeros 64 ++ List.replicate 10 0x7E ++ zeros 54)
def s_safetyPassword_1 : State := s0
def p_safetyPassword_2 : Packet := pk ([0, 10, 0, 0] ++ zeros 64 ++ List.replicate 10 0x7E ++ zeros 54)
def s_safetyPassword_2 : State := { s0 with safety := { s0.safety with log := { s0.safety.log with lockUntil := 1 } } }
def p_safetyPassword_3 : Packet := pk ([10, 10, 0, 0] ++ List.replicate 10 0x41 ++ zeros 54 ++ List.replicate 10 0x7E ++ zeros 54)
def s_safetyPassword_3 : State := s0
def p_safetyUnlock_1 : Packet := pk ([10, 0, 0, 0] ++ List.replicate 10 0x41 ++ zeros 54)
def s_safetyUnlock_1 : State := s0
def p_safetyOutputTest_1 : Packet := pk (zeros 4)
def s_safetyOutputTest_1 : State := s0
def p_safetyOutputTest_2 : Packet := pk ([1, 0, 0, 0])
def s_safetyOutputTest_2 : State := { s0 with safety := { s0.safety with active := SafetyImage.delivered.set 33 0 } }
theorem witness_SafetyPackets_1 :
    (Accepts specSafetyPassword p_safetyPassword_1 s_safetyPassword_1 ∧ u8 p_safetyPassword_1.payload 0 = 0 ∧ (begun p_safetyPassword_1 s_safetyPassword_1).safety.log.lockUntil ≤ 0) ∧
    (Accepts specSafetyPassword p_safetyPassword_2 s_safetyPassword_2 ∧ u8 p_safetyPassword_2.payload 0 = 0 ∧ 0 < (begun p_safetyPassword_2 s_safetyPassword_2).safety.log.lockUntil) ∧
    (Accepts specSafetyPassword p_safetyPassword_3 s_safetyPassword_3 ∧ u8 p_safetyPassword_3.payload 0 ≠ 0 ∧ checkPassword 0 (slice p_safetyPassword_3.payload 4 (u8 p_safetyPassword_3.payload 0)) (touched p_safetyPassword_3 (begun p_safetyPassword_3 s_safetyPassword_3)) = 3 ∧ 3 ≠ 0) ∧
    (Accepts specSafetyUnlock p_safetyUnlock_1 s_safetyUnlock_1 ∧ checkPassword 0 (slice p_safetyUnlock_1.payload 4 (u8 p_safetyUnlock_1.payload 0)) (touched p_safetyUnlock_1 (begun p_safetyUnlock_1 s_safetyUnlock_1)) = 3 ∧ 3 ≠ 0) ∧
    (Accepts specSafetyOutputTest p_safetyOutputTest_1 s_safetyOutputTest_1 ∧ u8 p_safetyOutputTest_1.payload 0 = 0) ∧
    (Accepts specSafetyOutputTest p_safetyOutputTest_2 s_safetyOutputTest_2 ∧ u8 p_safetyOutputTest_2.payload 0 ≠ 0) := by decide +kernel

def p_coolRun_1 : Packet := pk ([0, 1] ++ le 2 32767 ++ zeros 4)
def s_coolRun_1 : State := { s0 with cool := { s0.cool with drives := s0.cool.drives.set 0 (drive0 0) } }
theorem witness_CoolingPackets_1 :
    (Accepts specCoolRun p_coolRun_1 s_coolRun_1 ∧ bit (u8 p_coolRun_1.payload 1) 0 = true ∧ bit (u8 p_coolRun_1.payload 1) 1 = false ∧ ((begun p_coolRun_1 s_coolRun_1).drive (u8 p_coolRun_1.payload 0)).state = 0 ∧ u8 p_coolRun_1.payload 0 < (begun p_coolRun_1 s_coolRun_1).cool.drives.length) := by decide +kernel

def p_memSplice_1 : Packet := pk ([1, 0, 0, 0])
def s_memSplice_1 : State := s0
def p_memSplice_2 : Packet := { pk ([7, 0, 0, 0]) with flags := 1 }
def s_memSplice_2 : State := s0
def p_memSplice_3 : Packet := { pk ([1, 0, 0, 0]) with flags := 1 }
def s_memSplice_3 : State := s0
def p_memImageLoad_1 : Packet := pk ([1, 1, 0, 0] ++ le 4 0 ++ le 4 0xFFFFFFFF)
def s_memImageLoad_1 : State := s0
def p_memImageLoad_2 : Packet := { pk ([1, 1, 0, 0] ++ le 4 0 ++ le 4 0xFFFFFFFF) with flags := 1 }
def s_memImageLoad_2 : State := s0
def p_memDataWrite_1 : Packet := pk (le 4 0 ++ le 2 4 ++ zeros 2 ++ le 4 7)
def s_memDataWrite_1 : State := s0
theorem witness_MemoryPackets_1 :
    (Accepts specMemSplice p_memSplice_1 s_memSplice_1 ∧ p_memSplice_1.ack = false) ∧
    (Accepts specMemSplice p_memSplice_2 s_memSplice_2 ∧ u8 p_memSplice_2.payload 0 ≠ 1 ∧ p_memSplice_2.ack = true) ∧
    (Accepts specMemSplice p_memSplice_3 s_memSplice_3 ∧ u8 p_memSplice_3.payload 0 = 1 ∧ p_memSplice_3.ack = true) ∧
    (Accepts specMemImageLoad p_memImageLoad_1 s_memImageLoad_1 ∧ bit (u8 p_memImageLoad_1.payload 2) 0 = false ∧ p_memImageLoad_1.ack = false) ∧
    (Accepts specMemImageLoad p_memImageLoad_2 s_memImageLoad_2 ∧ bit (u8 p_memImageLoad_2.payload 2) 0 = false ∧ p_memImageLoad_2.ack = true) ∧
    (Accepts specMemDataWrite p_memDataWrite_1 s_memDataWrite_1 ∧ p_memDataWrite_1.ack = false) := by decide +kernel

def p_memDataWrite_2 : Packet := { pk (le 4 0 ++ le 2 4 ++ zeros 2 ++ le 4 7) with flags := 1 }
def s_memDataWrite_2 : State := s0
theorem witness_MemoryPackets_2 :
    (Accepts specMemDataWrite p_memDataWrite_2 s_memDataWrite_2 ∧ p_memDataWrite_2.ack = true) := by decide +kernel

/-- The safety session's password is ten times "A", whatever the hash. -/
def pwState : State := { unlocked s0 with safety := { (unlocked s0).safety with log := { s0.safety.log with
  password := some (zeros 16, Config.pbkdf2 (zeros 16) (List.replicate 10 0x41)) } } }
def pUnlock : Packet := pk ([10, 0, 0, 0] ++ List.replicate 10 0x41 ++ zeros 54)
def pPassword : Packet := pk ([10, 10, 0, 0] ++ List.replicate 10 0x41 ++ zeros 54 ++ List.replicate 10 0x7E ++ zeros 54)
theorem password_matches (s : State) (pw : List Byte) (h : s.safety.log.password = some (zeros 16, Config.pbkdf2 (zeros 16) pw))
    (h' : s.safety.log.lockUntil = 0) : checkPassword 0 pw s = 0 := by simp [checkPassword, h, h']
theorem witness_SafetyPackets_match :
    (Accepts specSafetyUnlock pUnlock pwState ∧
      checkPassword 0 (slice pUnlock.payload 4 (u8 pUnlock.payload 0)) (touched pUnlock (begun pUnlock pwState)) = 0) ∧
    (Accepts specSafetyPassword pPassword pwState ∧ u8 pPassword.payload 0 ≠ 0 ∧
      checkPassword 0 (slice pPassword.payload 4 (u8 pPassword.payload 0)) (touched pPassword (begun pPassword pwState)) = 0) :=
  ⟨⟨by decide +kernel, password_matches _ _ rfl rfl⟩, by decide +kernel, by decide, password_matches _ _ rfl rfl⟩

/-! ### Clauses about happenings -/

def wRegisterAndFirewallAccesses_1 : State := State.advance 0 ({ s0 with rings := s0.rings.set 8 { s0.ring 8 with configured := true, k := 4, devIndex := 3, recs := [[], [], []] } })
def wRegisterAndFirewallAccesses_2 : State := State.advance 0 ({ s0 with rings := s0.rings.set 0 { s0.ring 0 with k := 4 } })
def wRegisterAndFirewallAccesses_3 : State := State.advance 0 ({ s0 with host := { s0.host with frozen := 32 } })
def wRegisterAndFirewallAccesses_4 : State := State.advance 0 (s0)
def wRegisterAndFirewallAccesses_5 : State := State.advance 0 (s0)
def wRegisterAndFirewallAccesses_6 : State := State.advance 0 (s0)
theorem witness_RegisterAndFirewallAccesses_1 :
    (8 ≤ 8 ∧ 8 < 16 ∧ wRegisterAndFirewallAccesses_1.isFrozen 5 = false ∧ 3 < 4096 ∧ (wRegisterAndFirewallAccesses_1.ring 8).configured = true ∧ 3 < (wRegisterAndFirewallAccesses_1.ring 8).size ∧ (3 + (wRegisterAndFirewallAccesses_1.ring 8).size - (wRegisterAndFirewallAccesses_1.ring 8).hostIndex) % (wRegisterAndFirewallAccesses_1.ring 8).size ≤ ((wRegisterAndFirewallAccesses_1.ring 8).devIndex + (wRegisterAndFirewallAccesses_1.ring 8).size - (wRegisterAndFirewallAccesses_1.ring 8).hostIndex) % (wRegisterAndFirewallAccesses_1.ring 8).size) ∧
    (wRegisterAndFirewallAccesses_2.isFrozen 5 = false ∧ 4095 < 4096 ∧ (wRegisterAndFirewallAccesses_2.ring 0).size ≤ 4095 ∧ (wRegisterAndFirewallAccesses_2.ring 0).size ≤ 16) ∧
    (63 < 64 ∧ wRegisterAndFirewallAccesses_3.isFrozen 5 = true) ∧
    (wRegisterAndFirewallAccesses_4.isFrozen 5 = false ∧ (0x0FFFFFFF : Word).toNat < 2 ^ 28) ∧
    (wRegisterAndFirewallAccesses_5.isFrozen 4 = false ∧ 2 ^ 28 ≤ (0x10000000 : Word).toNat) ∧
    (wRegisterAndFirewallAccesses_6.isFrozen 0 = false) := by decide +kernel

def wRegisterAndFirewallAccesses_7 : State := State.advance 0 (s0)
def wRegisterAndFirewallAccesses_8 : State := State.advance 0 (s0)
def wRegisterAndFirewallAccesses_9 : State := State.advance 0 (s0)
def wRegisterAndFirewallAccesses_10 : State := State.advance 0 (s0)
def wRegisterAndFirewallAccesses_11 : State := State.advance 0 (s0)
def wRegisterAndFirewallAccesses_12 : State := State.advance 60000000000 ({ s0 with host := { s0.host with frozen := 16, appFrozenAt := 0 } })
theorem witness_RegisterAndFirewallAccesses_2 :
    (wRegisterAndFirewallAccesses_7.isFrozen 2 = false ∧ wRegisterAndFirewallAccesses_7.isFrozen 6 = false ∧ 0x104 ≤ 0x104 ∧ 0xFFFF < 0x10000) ∧
    (wRegisterAndFirewallAccesses_8.isFrozen 5 = false ∧ wRegisterAndFirewallAccesses_8.mayReach 5 true 0x10000000 = false) ∧
    (wRegisterAndFirewallAccesses_9.isFrozen 1 = false ∧ allowedAt wRegisterAndFirewallAccesses_9.mem.lc 1 true 0x10000000 = false ∧ ((List.range 4).all fun c => wRegisterAndFirewallAccesses_9.eng.cores.getD c 0 != 1 || [0, 1, 2].contains c) = true) ∧
    (wRegisterAndFirewallAccesses_10.isFrozen 1 = false ∧ allowedAt wRegisterAndFirewallAccesses_10.mem.lc 1 true 0x10000000 = false ∧ ((List.range 4).all fun k => wRegisterAndFirewallAccesses_10.eng.cores.getD k 0 != 1 || [2].contains k) = false) ∧
    (wRegisterAndFirewallAccesses_11.mayReach 5 false 0x20400000 = true) ∧
    (wRegisterAndFirewallAccesses_12.isFrozen 4 = true ∧ wRegisterAndFirewallAccesses_12.host.appFrozenAt + 60000000000 ≤ 60000000000) := by decide +kernel

def wRegisterAndFirewallAccesses_13 : State := State.advance 0 ({ s0 with host := { s0.host with frozen := 16, appFreezes := [0, 0, 0] } })
theorem witness_RegisterAndFirewallAccesses_3 :
    (wRegisterAndFirewallAccesses_13.isFrozen 4 = true ∧ 3 ≤ wRegisterAndFirewallAccesses_13.host.appFreezes.length) := by decide +kernel

def wPortAccesses_1 : State := State.advance 0 (s0)
def wPortAccesses_2 : State := State.advance 0 (s0)
def wPortAccesses_3 : State := State.advance 0 ({ s0 with esc := { s0.esc with on := true } })
def wPortAccesses_4 : State := State.advance 0 ({ s0 with esc := { s0.esc with on := true, replyReady := true } })
def wPortAccesses_5 : State := State.advance 0 ({ s0 with esc := { s0.esc with on := true, replyReady := true, reply := [1, 2] } })
def wPortAccesses_6 : State := State.advance 0 ({ s0 with esc := { s0.esc with on := true } })
theorem witness_PortAccesses_1 :
    (wPortAccesses_1.isFrozen 5 = false ∧ 0x20000000 ≤ 0x20400FFC ∧ ∀ i < 4, allowedAt wPortAccesses_1.mem.lc 5 true (0x20400FFC + i) = true) ∧
    (wPortAccesses_2.isFrozen 5 = false ∧ ∀ i < 4, allowedAt wPortAccesses_2.mem.lc 5 false (0x20400FFC + i) = true) ∧
    (wPortAccesses_3.esc.on = true ∧ ([1] : List Byte) ≠ [] ∧ wPortAccesses_3.esc.busy = false ∧ wPortAccesses_3.esc.replyReady = false) ∧
    (wPortAccesses_4.esc.on = true ∧ (wPortAccesses_4.esc.busy = true ∨ wPortAccesses_4.esc.replyReady = true) ∧ wPortAccesses_4.sys.ready = true) ∧
    (wPortAccesses_5.esc.replyReady = true ∧ wPortAccesses_5.esc.reply.length < 3) ∧
    (wPortAccesses_6.esc.replyReady = false) := by decide +kernel

def wPortAccesses_7 : State := State.advance 0 (s0)
def wPortAccesses_8 : State := State.advance 0 ({ State.reset with esc := { s0.esc with on := true, busy := true } })
def wPortAccesses_9 : State := State.advance 0 ({ s0 with host := { s0.host with uartHost := true } })
def wPortAccesses_10 : State := State.advance 0 ({ s0 with cmd := { s0.cmd with held := [{ ring := 9, bytes := [1] }] } })
theorem witness_PortAccesses_2 :
    (wPortAccesses_7.esc.on = false) ∧
    (wPortAccesses_8.sys.ready = false ∧ wPortAccesses_8.esc.busy = true) ∧
    (16 ≤ (uartUnescape (zeros 16)).length ∧ (uartUnescape (zeros 16)).length ≤ 4092 ∧ wPortAccesses_9.host.uartHost = true ∧ ((wPortAccesses_9.ring 7).hostIndex + 1) % (wPortAccesses_9.ring 7).size ≠ (wPortAccesses_9.ring 7).devIndex) ∧
    ((wPortAccesses_10.cmd.held.find? fun h => h.ring == 9) = some { ring := 9, bytes := [1] } ∧ (wPortAccesses_10.ring 9).full = false) := by decide +kernel

def wColdStartStages_1 : State := State.advance 0 (State.reset)
def wColdStartStages_2 : State := State.advance 0 (State.reset)
def wColdStartStages_3 : State := State.advance 0 ({ s0 with sys := { s0.sys with boot := .hold } })
def wColdStartStages_4 : State := State.advance 0 ({ s0 with sys := { s0.sys with boot := .wipe } })
def wColdStartStages_5 : State := State.advance 0 ({ s0 with sys := { s0.sys with boot := .lock }, clk := { s0.clk with main := 0xFF } })
def wColdStartStages_6 : State := State.advance 0 ({ s0 with sys := { s0.sys with boot := .domains } })
theorem witness_ColdStartStages_1 :
    (wColdStartStages_1.railsGood = false ∧ wColdStartStages_1.sys.boot = .off ∧ wColdStartStages_1.husk.sealing = none ∧ wColdStartStages_1.husk.d0Up = false ∧ (railUp 2 rail0 (railUp 1 rail0 (railUp 0 rail0 wColdStartStages_1.sys))).railsGood = false) ∧
    (wColdStartStages_2.railsGood = false ∧ (railUp 2 { uv := 2970000, held := 1000, low := 0 } (railUp 1 { uv := 1710000, held := 1000, low := 0 } (railUp 0 { uv := 765000, held := 1000, low := 0 } wColdStartStages_2.sys))).railsGood = true) ∧
    (wColdStartStages_3.sys.boot = .hold) ∧
    (wColdStartStages_4.sys.boot = .wipe ∧ wColdStartStages_4.mem.lcPend = none) ∧
    (wColdStartStages_5.sys.boot = .lock ∧ wColdStartStages_5.clk.main = 0xFF) ∧
    (wColdStartStages_6.sys.boot = .domains) := by decide +kernel

def wColdStartStages_7 : State := State.advance 0 ({ s0 with sys := { s0.sys with boot := .cal } })
def wColdStartStages_8 : State := State.advance 0 ({ s0 with sys := { s0.sys with boot := .sheaf } })
def wColdStartStages_9 : State := State.advance 0 ({ s0 with sys := { s0.sys with boot := .sheaf }, mem := { s0.mem with block := [(0x0104, [2, 100, 0])] } })
def wColdStartStages_10 : State := State.advance 0 ({ s0 with sys := { s0.sys with boot := .tests } })
def wColdStartStages_11 : State := State.advance 0 ({ s0 with sys := { s0.sys with boot := .tests }, sense := { s0.sense with pathRun := [path0] } })
def wColdStartStages_12 : State := State.advance 0 ({ State.reset with sys := { Sys.reset with boot := .ready } })
theorem witness_ColdStartStages_2 :
    (wColdStartStages_7.sys.boot = .cal) ∧
    (wColdStartStages_8.sys.boot = .sheaf) ∧
    (wColdStartStages_9.sys.boot = .sheaf ∧ wColdStartStages_9.mem.block = [(0x0104, [2, 100, 0])]) ∧
    (wColdStartStages_10.sys.boot = .tests ∧ wColdStartStages_10.sense.pathRun = [] ∧ 3 < 4) ∧
    (wColdStartStages_11.sys.boot = .tests ∧ wColdStartStages_11.sense.pathRun ≠ []) ∧
    (wColdStartStages_12.sys.boot = .ready ∧ wColdStartStages_12.sys.ready = false ∧ wColdStartStages_12.modes.trans = none) := by decide +kernel

def wBootRomChoosesTheSlot_1 : State := State.advance 0 ({ s0 with sys := { s0.sys with boot := .verify } })
def wBootRomChoosesTheSlot_2 : State := State.advance 0 ({ s0 with sys := { s0.sys with boot := .verify, supTried := true } })
def wBootRomChoosesTheSlot_3 : State := State.advance 0 ({ s0 with sys := { s0.sys with boot := .verify }, mem := { s0.mem with lc := 5 } })
def wBootRomChoosesTheSlot_4 : State := State.advance 0 ({ s0 with sys := { s0.sys with boot := .domains } })
def wBootRomChoosesTheSlot_5 : State := State.advance 0 ({ s0 with sys := { s0.sys with boot := .domains, appTried := true } })
theorem witness_BootRomChoosesTheSlot_1 :
    (wBootRomChoosesTheSlot_1.sys.boot = .verify ∧ wBootRomChoosesTheSlot_1.mem.lc ≠ 5 ∧ wBootRomChoosesTheSlot_1.sys.supTried = false ∧ 0 = wBootRomChoosesTheSlot_1.mem.bootSup ∧ wBootRomChoosesTheSlot_1.mem.secMin.getD 0 0 ≤ 0 ∧ wBootRomChoosesTheSlot_1.eng.cores = [1, 1, 1, 0]) ∧
    (wBootRomChoosesTheSlot_2.sys.boot = .verify ∧ wBootRomChoosesTheSlot_2.mem.lc ≠ 5 ∧ wBootRomChoosesTheSlot_2.sys.supTried = true ∧ 1 < 2 ∧ 1 ≠ wBootRomChoosesTheSlot_2.mem.bootSup) ∧
    (wBootRomChoosesTheSlot_3.sys.boot = .verify ∧ wBootRomChoosesTheSlot_3.mem.lc = 5) ∧
    (wBootRomChoosesTheSlot_4.sys.boot = .domains ∧ wBootRomChoosesTheSlot_4.sys.appTried = false ∧ 0 = wBootRomChoosesTheSlot_4.mem.bootApp ∧ wBootRomChoosesTheSlot_4.mem.secMin.getD 1 0 ≤ 0) ∧
    (wBootRomChoosesTheSlot_5.sys.boot = .domains ∧ wBootRomChoosesTheSlot_5.sys.appTried = true ∧ 1 ≠ wBootRomChoosesTheSlot_5.mem.bootApp) := by decide +kernel

def wSupplyAndButtonEvents_1 : State := State.advance 0 (s0)
def wSupplyAndButtonEvents_2 : State := State.advance 0 ({ s0 with sys := { s0.sys with boot := .wipe } })
def wSupplyAndButtonEvents_3 : State := State.advance 0 (State.reset)
def wSupplyAndButtonEvents_4 : State := State.advance 0 (s0)
def wSupplyAndButtonEvents_5 : State := State.advance 0 (s0)
def wSupplyAndButtonEvents_6 : State := State.advance 0 (State.reset)
theorem witness_SupplyAndButtonEvents_1 :
    (wSupplyAndButtonEvents_1.sys.rail 0 = true ∧ railNext 0 true { uv := 739999, held := 1000, low := 0 } = false ∧ railNext 0 true { uv := 740000, held := 1000, low := 0 } = true ∧ wSupplyAndButtonEvents_1.sys.boot = .ready ∧ wSupplyAndButtonEvents_1.sys.ready = true) ∧
    (wSupplyAndButtonEvents_2.sys.rail 2 = true ∧ railNext 2 true { uv := 3800000, held := 1000, low := 0 } = false ∧ wSupplyAndButtonEvents_2.sys.boot = .wipe) ∧
    (wSupplyAndButtonEvents_3.sys.rail 0 = false) ∧
    (wSupplyAndButtonEvents_4.sys.railHv = true ∧ railNext 3 true { uv := 10999999, held := 1000, low := 0 } = false) ∧
    (railNext 3 true { uv := 11000000, held := 1000, low := 0 } = true) ∧
    (wSupplyAndButtonEvents_6.sys.railHv = false ∧ railNext 3 false { uv := 11500000, held := 1000, low := 0 } = true ∧ railNext 3 false { uv := 11499999, held := 1000, low := 0 } = false) := by decide +kernel

def wSupplyAndButtonEvents_7 : State := State.advance 0 (State.reset)
def wSupplyAndButtonEvents_8 : State := State.advance 0 ({ s0 with sys := { s0.sys with button := { Button.reset with ready := true, stuck := false, high := 1, low := 50 } } })
def wSupplyAndButtonEvents_9 : State := State.advance 0 ({ s0 with sys := { s0.sys with button := { Button.reset with low := 49 } } })
def wSupplyAndButtonEvents_10 : State := State.advance 0 ({ s0 with sys := { s0.sys with button := { Button.reset with stuck := false, high := 0, low := 8000 } } })
def wSupplyAndButtonEvents_11 : State := State.advance 0 ({ s0 with sys := { s0.sys with button := { Button.reset with stuck := true, high := 1000 } } })
def wSupplyAndButtonEvents_12 : State := State.advance 0 ({ s0 with sys := { s0.sys with button := { Button.reset with ready := false, stuck := false, high := 1000 } } })
theorem witness_SupplyAndButtonEvents_2 :
    (wSupplyAndButtonEvents_7.sys.railIo = false ∧ wSupplyAndButtonEvents_7.sys.railCore = false ∧ wSupplyAndButtonEvents_7.husk.d0Up = false ∧ railNext 2 false { uv := 2970000, held := 1000, low := 0 } = true ∧ railNext 2 false { uv := 2969999, held := 1000, low := 0 } = false) ∧
    (wSupplyAndButtonEvents_8.sys.button.ready = true ∧ wSupplyAndButtonEvents_8.sys.button.stuck = false ∧ wSupplyAndButtonEvents_8.sys.button.high = 1 ∧ 50 ≤ wSupplyAndButtonEvents_8.sys.button.low ∧ wSupplyAndButtonEvents_8.sys.button.low < 8000 ∧ wSupplyAndButtonEvents_8.legsOff = true ∧ wSupplyAndButtonEvents_8.modes.ramping = false) ∧
    (wSupplyAndButtonEvents_9.sys.button.low < 50) ∧
    (wSupplyAndButtonEvents_10.sys.button.stuck = false ∧ wSupplyAndButtonEvents_10.sys.button.high = 0 ∧ 8000 ≤ wSupplyAndButtonEvents_10.sys.button.low) ∧
    (wSupplyAndButtonEvents_11.sys.button.stuck = true ∧ 1000 ≤ wSupplyAndButtonEvents_11.sys.button.high) ∧
    (wSupplyAndButtonEvents_12.sys.button.ready = false ∧ wSupplyAndButtonEvents_12.sys.button.stuck = false ∧ 1000 ≤ wSupplyAndButtonEvents_12.sys.button.high) := by decide +kernel

def wUnitFaults_1 : State := State.advance 0 (inMode 4 s0)
def wUnitFaults_2 : State := State.advance 0 ({ s0 with sys := { s0.sys with domains := s0.sys.domains.set 8 3 } })
def wUnitFaults_3 : State := State.advance 0 ({ s0 with sys := { s0.sys with domains := s0.sys.domains.set 9 3 } })
def wUnitFaults_4 : State := State.advance 0 ({ s0 with sys := { s0.sys with domains := s0.sys.domains.set 10 3 } })
theorem witness_UnitFaults_1 :
    (wUnitFaults_1.modes.mode ≠ 0 ∧ wUnitFaults_1.modes.mode ≠ 1 ∧ wUnitFaults_1.modes.trans = none) ∧
    (wUnitFaults_2.sys.domains.getD 8 0 = 3) ∧
    (wUnitFaults_3.sys.domains.getD 9 0 = 3) ∧
    (wUnitFaults_4.sys.domains.getD 10 0 = 3) := by decide +kernel

def wModeTransitionsAndTick_1 : State := State.advance 0 ({ s0 with modes := { s0.modes with ramping := true, rampEnd := 0 } })
def wModeTransitionsAndTick_2 : State := State.advance 0 ({ s0 with modes := { s0.modes with ramping := true, rampEnd := 1 } })
def wModeTransitionsAndTick_3 : State := State.advance 0 ({ s0 with modes := { s0.modes with mode := 4, trans := some { target := 1, prev := 4, cause := 0, next := 0, resync := false, evals := 0, ms := 0, softAt := none } } })
def wModeTransitionsAndTick_4 : State := State.advance 0 ({ s0 with modes := { s0.modes with trans := some { target := 4, prev := 1, cause := 0, next := 0, resync := false, evals := 0, ms := 0, softAt := none } } })
def wModeTransitionsAndTick_5 : State := State.advance 0 ({ gridded (rated s0) with eng := { (rated s0).eng with tickAt := 5 } })
def wModeTransitionsAndTick_6 : State := State.advance 0 (s0)
theorem witness_ModeTransitionsAndTick_1 :
    (wModeTransitionsAndTick_1.modes.ramping = true ∧ wModeTransitionsAndTick_1.modes.rampEnd ≤ 0 ∧ wModeTransitionsAndTick_1.modes.trans = none ∧ wModeTransitionsAndTick_1.mem.lcPend = none ∧ wModeTransitionsAndTick_1.sys.resetPending = 0) ∧
    (wModeTransitionsAndTick_2.modes.ramping = true ∧ 0 < wModeTransitionsAndTick_2.modes.rampEnd) ∧
    (wModeTransitionsAndTick_3.onGridBoundary 0 = true ∧ (softBegin 0 wModeTransitionsAndTick_3).modes.trans = some { target := 1, prev := 4, cause := 0, next := 0, resync := false, evals := 0, ms := 0, softAt := none } ∧ (softBegin 0 wModeTransitionsAndTick_3).transDone 0 { target := 1, prev := 4, cause := 0, next := 0, resync := false, evals := 0, ms := 0, softAt := none } = true) ∧
    (wModeTransitionsAndTick_4.onGridBoundary 0 = true ∧ (softBegin 0 wModeTransitionsAndTick_4).modes.trans = some { target := 4, prev := 1, cause := 0, next := 0, resync := false, evals := 0, ms := 0, softAt := none } ∧ (softBegin 0 wModeTransitionsAndTick_4).transDone 0 { target := 4, prev := 1, cause := 0, next := 0, resync := false, evals := 0, ms := 0, softAt := none } = false) ∧
    (wModeTransitionsAndTick_5.onGridBoundary 0 = false) ∧
    (wModeTransitionsAndTick_6.onGridBoundary 0 = true ∧ wModeTransitionsAndTick_6.modes.trans = none ∧ wModeTransitionsAndTick_6.modes.startWanted = false ∧ wModeTransitionsAndTick_6.modes.restartArmed = false) := by decide +kernel

def wModeTransitionsAndTick_7 : State := State.advance 0 ({ s0 with modes := { s0.modes with rampMs := 100, trans := some { target := 4, prev := 1, cause := 0, next := 0, resync := false, evals := 0, ms := 0, softAt := none } } })
def wModeTransitionsAndTick_8 : State := State.advance 0 ({ s0 with modes := { s0.modes with trans := some { target := 2, prev := 1, cause := 0, next := 0, resync := false, evals := 0, ms := 0, softAt := none } } })
def wModeTransitionsAndTick_9 : State := State.advance 0 ({ s0 with modes := { s0.modes with trans := some { target := 4, prev := 7, cause := 0, next := 0, resync := true, evals := 3, ms := 0, softAt := none } } })
def wModeTransitionsAndTick_10 : State := State.advance 0 ({ s0 with modes := { s0.modes with trans := some { target := 4, prev := 7, cause := 0, next := 0, resync := true, evals := 2, ms := 0, softAt := none } } })
def wModeTransitionsAndTick_11 : State := State.advance 0 ({ s0 with modes := { s0.modes with startWanted := true, startMode := 1 } })
def wModeTransitionsAndTick_12 : State := State.advance 0 ({ s0 with modes := { s0.modes with startWanted := true, startMode := 2 } })
theorem witness_ModeTransitionsAndTick_2 :
    (wModeTransitionsAndTick_7.modes.trans = some { target := 4, prev := 1, cause := 0, next := 0, resync := false, evals := 0, ms := 0, softAt := none } ∧ 4 ≠ 1 ∧ 0 ≠ 8 ∧ (entryBad wModeTransitionsAndTick_7 4 1).isSome = true ∧ wModeTransitionsAndTick_7.modes.rampMs ≠ 0) ∧
    (wModeTransitionsAndTick_8.modes.trans = some { target := 2, prev := 1, cause := 0, next := 0, resync := false, evals := 0, ms := 0, softAt := none } ∧ entryBad wModeTransitionsAndTick_8 2 1 = none) ∧
    (wModeTransitionsAndTick_9.modes.trans = some { target := 4, prev := 7, cause := 0, next := 0, resync := true, evals := 3, ms := 0, softAt := none } ∧ 3 ≤ 3) ∧
    (wModeTransitionsAndTick_10.modes.trans = some { target := 4, prev := 7, cause := 0, next := 0, resync := true, evals := 2, ms := 0, softAt := none } ∧ 2 < 3) ∧
    (wModeTransitionsAndTick_11.modes.startWanted = true ∧ wModeTransitionsAndTick_11.modes.trans = none ∧ wModeTransitionsAndTick_11.modes.startMode = 1) ∧
    (wModeTransitionsAndTick_12.modes.startWanted = true ∧ wModeTransitionsAndTick_12.modes.trans = none ∧ wModeTransitionsAndTick_12.modes.startMode = 2 ∧ wModeTransitionsAndTick_12.modes.mode = 1 ∧ wModeTransitionsAndTick_12.modeBad 2 = false ∧ comboRefused wModeTransitionsAndTick_12 2 = false) := by decide +kernel

def wModeTransitionsAndTick_13 : State := State.advance 0 (s0)
def wModeTransitionsAndTick_14 : State := State.advance 0 ({ s0 with sys := { s0.sys with boot := .tests, ready := false } })
def wModeTransitionsAndTick_15 : State := State.advance 0 ({ s0 with sys := { s0.sys with boot := .cal, ready := false } })
def wModeTransitionsAndTick_16 : State := State.advance 0 ({ s0 with sys := { s0.sys with boot := .hold, ready := false } })
def wModeTransitionsAndTick_17 : State := State.advance 0 ({ s0 with timeLoaded := true, nextTick := 1000000 })
def wModeTransitionsAndTick_18 : State := State.advance 0 (s0)
theorem witness_ModeTransitionsAndTick_3 :
    (wModeTransitionsAndTick_13.sys.boot = .ready ∧ wModeTransitionsAndTick_13.sys.ready = true ∧ wModeTransitionsAndTick_13.tickFits 0 = true) ∧
    (wModeTransitionsAndTick_14.sys.boot = .tests ∧ wModeTransitionsAndTick_14.sys.ready = false ∧ wModeTransitionsAndTick_14.tickFits 0 = true) ∧
    (wModeTransitionsAndTick_15.sys.boot = .cal ∧ wModeTransitionsAndTick_15.sys.ready = false ∧ wModeTransitionsAndTick_15.tickFits 0 = true) ∧
    (wModeTransitionsAndTick_16.firmwareRuns = false) ∧
    (wModeTransitionsAndTick_17.timeLoaded = true ∧ 0 < wModeTransitionsAndTick_17.nextTick) ∧
    (wModeTransitionsAndTick_18.timeLoaded = false) := by decide +kernel

def wBaseTicksAndSplices_1 : State := State.advance 0 (s0)
def wBaseTicksAndSplices_2 : State := State.advance 0 ({ rated s0 with sys := { s0.sys with ready := false } })
def wBaseTicksAndSplices_3 : State := State.advance 0 (rated s0)
def wBaseTicksAndSplices_4 : State := State.advance 25000 (rated s0)
def wBaseTicksAndSplices_5 : State := State.advance 0 ({ rated s0 with eng := { (rated s0).eng with hasRate := false, ratePend := some { tb := 0, event := 0, groups := [1, 0, 0, 0, 0, 0, 0, 0] } } })
def wBaseTicksAndSplices_6 : State := State.advance 0 ({ s0 with eng := { s0.eng with cores := [3, 1, 1, 0], splice := some splice0 } })
theorem witness_BaseTicksAndSplices_1 :
    ((pwmSettle 0 wBaseTicksAndSplices_1).rateCfg = none) ∧
    ((pwmSettle 0 wBaseTicksAndSplices_2).sys.ready = false) ∧
    ((pwmSettle 0 wBaseTicksAndSplices_3).rateCfg = some { tb := 0, event := 0, groups := [1, 0, 0, 0, 0, 0, 0, 0] } ∧ (pwmSettle 0 wBaseTicksAndSplices_3).sys.ready = true ∧ (pwmSettle 0 wBaseTicksAndSplices_3).tickHit 0 = some 0 ∧ ((d6Sync 0 0 (pwmSettle 0 wBaseTicksAndSplices_3)).modEng fun e => { e with tickD := 0 }).eng.ratePend = none ∧ ((pwmSettle 0 wBaseTicksAndSplices_3).tb 0).inForce.mode ≠ 2 ∧ (pwmSettle 0 wBaseTicksAndSplices_3).carrierHit 0 0 0 = some 0 ∧ (pwmSettle 0 wBaseTicksAndSplices_3).eng.tickD < 0) ∧
    ((pwmSettle 25000 wBaseTicksAndSplices_4).tickHit 25000 = none ∧ (pwmSettle 25000 wBaseTicksAndSplices_4).rateCfg = some { tb := 0, event := 0, groups := [1, 0, 0, 0, 0, 0, 0, 0] }) ∧
    ((pwmSettle 0 wBaseTicksAndSplices_5).sys.ready = true ∧ (pwmSettle 0 wBaseTicksAndSplices_5).tickHit 0 = some 0 ∧ ((d6Sync 0 0 (pwmSettle 0 wBaseTicksAndSplices_5)).modEng fun e => { e with tickD := 0 }).eng.ratePend = some { tb := 0, event := 0, groups := [1, 0, 0, 0, 0, 0, 0, 0] }) ∧
    (3 < 4 ∧ wBaseTicksAndSplices_6.eng.cores.getD 0 0 = 3 ∧ wBaseTicksAndSplices_6.eng.splice = some splice0 ∧ splice0.retired = 0 ∧ splice0.moved = false ∧ (([] : List (Nat × Nat)).any fun x => decide (2 ≤ x.2)) = false ∧ ([(0, 2)].any fun x => decide (2 ≤ x.2)) = true) := by decide +kernel

def wBaseTicksAndSplices_7 : State := State.advance 0 ({ s0 with eng := { s0.eng with cores := [3, 1, 1, 0] } })
def wBaseTicksAndSplices_8 : State := State.advance 0 (s0)
def wBaseTicksAndSplices_9 : State := State.advance 0 ({ hitched s0 with eng := { (hitched s0).eng with hitch := s0.eng.hitch.set 5 { armed := true, request := 0, boundary := 0 } } })
def wBaseTicksAndSplices_10 : State := State.advance 0 ({ hitched s0 with eng := { (hitched s0).eng with hitch := s0.eng.hitch.set 5 { armed := true, request := 1, boundary := 0 } } })
def wBaseTicksAndSplices_11 : State := State.advance 0 (s0)
theorem witness_BaseTicksAndSplices_2 :
    (wBaseTicksAndSplices_7.eng.cores.getD 0 0 = 3 ∧ wBaseTicksAndSplices_7.eng.splice = none) ∧
    (wBaseTicksAndSplices_8.eng.cores.getD 3 0 ≠ 3 ∧ wBaseTicksAndSplices_8.eng.splice = none) ∧
    (5 < 16 ∧ wBaseTicksAndSplices_9.swapAt 0 5 = true) ∧
    (0 < (wBaseTicksAndSplices_10.eng.hitch.getD 5 Hitch.reset).request) ∧
    ((wBaseTicksAndSplices_11.eng.hitch.getD 15 Hitch.reset).armed = false) := by decide +kernel

def wPassVotesAndFaults_1 : State := State.advance 0 (s0)
def wPassVotesAndFaults_2 : State := State.advance 0 ({ s0 with eng := { s0.eng with due := [pass0] } })
def wPassVotesAndFaults_3 : State := State.advance 0 ({ s0 with eng := { s0.eng with due := [pass0], cores := [1, 1, 3, 3] } })
def wPassVotesAndFaults_4 : State := State.advance 0 ({ s0 with eng := { s0.eng with due := [pass0] } })
def wPassVotesAndFaults_5 : State := State.advance 0 (s0)
def wPassVotesAndFaults_6 : State := State.advance 0 ({ s0 with eng := { s0.eng with cores := [1, 1, 3, 3] } })
theorem witness_PassVotesAndFaults_1 :
    (wPassVotesAndFaults_1.eng.due = []) ∧
    (wPassVotesAndFaults_2.eng.forceDissent = [] ∧ wPassVotesAndFaults_2.eng.splice = none ∧ wPassVotesAndFaults_2.eng.due = [pass0] ∧ 2 ≤ wPassVotesAndFaults_2.voters.length) ∧
    (wPassVotesAndFaults_3.eng.forceDissent = [] ∧ wPassVotesAndFaults_3.eng.splice = none ∧ wPassVotesAndFaults_3.eng.due = [pass0] ∧ wPassVotesAndFaults_3.voters = [0, 1] ∧ ({ core := 0, stores := [], evts := [], flags := 1, words := [], vals := [1] } : CoreClaim).core = 0 ∧ (claimResult ({ core := 0, stores := [], evts := [], flags := 1, words := [], vals := [1] } : CoreClaim)).same ((resolveInit pass0 wPassVotesAndFaults_3).resultOf pass0) = false) ∧
    (wPassVotesAndFaults_4.eng.forceDissent = [] ∧ wPassVotesAndFaults_4.eng.splice = none ∧ wPassVotesAndFaults_4.eng.due = [pass0] ∧ wPassVotesAndFaults_4.voters = [0, 1, 2] ∧ ({ core := 2, stores := [], evts := [], flags := 1, words := [], vals := [1] } : CoreClaim).core = 2 ∧ (claimResult ({ core := 2, stores := [], evts := [], flags := 1, words := [], vals := [1] } : CoreClaim)).same ((resolveInit pass0 wPassVotesAndFaults_4).resultOf pass0) = false) ∧
    (wPassVotesAndFaults_5.eng.forceDissent = [] ∧ wPassVotesAndFaults_5.eng.splice = none ∧ wPassVotesAndFaults_5.voters.contains 3 = false ∧ 31 < 32 ∧ 2 ≤ wPassVotesAndFaults_5.voters.length ∧ 31 < wPassVotesAndFaults_5.gens.length ∧ 0 ≠ 31) ∧
    (wPassVotesAndFaults_6.voters = [0, 1] ∧ ({ core := 0, stores := [], evts := [], flags := 1, words := [], vals := [1] } : CoreClaim).vals ≠ wPassVotesAndFaults_6.unitVals 31 ∧ ({ core := 0, stores := [], evts := [], flags := 1, words := [], vals := [1] } : CoreClaim).vals ≠ wPassVotesAndFaults_6.unitVals 32) := by decide +kernel

def wPassVotesAndFaults_7 : State := State.advance 100000 ({ s0 with eng := { s0.eng with chans := s0.eng.chans.set 255 { Chan.reset with invSince := some 0, running := true } } })
def wPassVotesAndFaults_8 : State := State.advance 99999 ({ s0 with eng := { s0.eng with chans := s0.eng.chans.set 255 { Chan.reset with invSince := some 0, running := true } } })
def wPassVotesAndFaults_9 : State := State.advance 1000 ({ rated s0 with eng := { (rated s0).eng with due := [pass0] } })
def wPassVotesAndFaults_10 : State := State.advance 1000000 ({ rated s0 with eng := { (rated s0).eng with due := [pass0] } })
def wPassVotesAndFaults_11 : State := State.advance 0 ({ s0 with eng := { s0.eng with due := [pass0], act := Mem.writeN s0.eng.act 0x40 (le 4 0x10050100) } })
theorem witness_PassVotesAndFaults_2 :
    ((wPassVotesAndFaults_7.chan 255).invSince = some 0 ∧ (wPassVotesAndFaults_7.chan 255).running = true ∧ 0 + 100000 ≤ 100000) ∧
    ((wPassVotesAndFaults_8.chan 255).invSince = some 0 ∧ 99999 < 0 + 100000) ∧
    ((wPassVotesAndFaults_9.eng.due.filter fun r => r.group == 0 && wPassVotesAndFaults_9.period 0 != 0 && decide (r.atT + wPassVotesAndFaults_9.period 0 ≤ 1000)) = []) ∧
    ((wPassVotesAndFaults_10.eng.due.filter fun r => r.group == 0 && wPassVotesAndFaults_10.period 0 != 0 && decide (r.atT + wPassVotesAndFaults_10.period 0 ≤ 1000000)) ≠ []) ∧
    (wPassVotesAndFaults_11.eng.due = [pass0] ∧ 0 ∉ pass0.timeouts ∧ slotKind (inSlot wPassVotesAndFaults_11.eng.act pass0.ch 0) = 1 ∧ slotIndex (inSlot wPassVotesAndFaults_11.eng.act pass0.ch 0) = 5 ∧ slotSub (inSlot wPassVotesAndFaults_11.eng.act pass0.ch 0) = 1 ∧ 0 < 16 ∧ 5 < 24 ∧ wPassVotesAndFaults_11.sampleCame ((wPassVotesAndFaults_11.ain 5).outs.getD 1 Decim.reset) pass0.atT = false) := by decide +kernel

def wGridTrackerAndDcLink_1 : State := State.advance 0 ({ s0 with grid := { s0.grid with trk := { s0.grid.trk with state := 1, lockCount := 20 } } })
def wGridTrackerAndDcLink_2 : State := State.advance 0 ({ s0 with grid := { s0.grid with trk := { s0.grid.trk with state := 1, lockCount := 19 } } })
def wGridTrackerAndDcLink_3 : State := State.advance 0 ({ s0 with grid := { s0.grid with trk := { s0.grid.trk with state := 2, badCount := 3 } } })
def wGridTrackerAndDcLink_4 : State := State.advance 0 ({ s0 with grid := { s0.grid with trk := { s0.grid.trk with state := 2, f := 0 } } })
def wGridTrackerAndDcLink_5 : State := State.advance 0 ({ s0 with grid := { s0.grid with trk := { s0.grid.trk with reacq := true, reacqUntil := 0 } } })
def wGridTrackerAndDcLink_6 : State := State.advance 0 ({ gridded (rated s0) with eng := { (rated s0).eng with tickAt := 5 } })
theorem witness_GridTrackerAndDcLink_1 :
    (wGridTrackerAndDcLink_1.grid.trk.state = 1 ∧ 20 ≤ wGridTrackerAndDcLink_1.grid.trk.lockCount) ∧
    (wGridTrackerAndDcLink_2.grid.trk.lockCount < 20) ∧
    (wGridTrackerAndDcLink_3.grid.trk.state = 2 ∧ 3 ≤ wGridTrackerAndDcLink_3.grid.trk.badCount) ∧
    (wGridTrackerAndDcLink_4.grid.trk.state = 2 ∧ fInRange wGridTrackerAndDcLink_4.grid.trk.f = false) ∧
    (wGridTrackerAndDcLink_5.grid.trk.reacq = true ∧ wGridTrackerAndDcLink_5.grid.trk.reacqUntil ≤ 0) ∧
    (wGridTrackerAndDcLink_6.onGridBoundary 0 = false) := by decide +kernel

def wGridTrackerAndDcLink_7 : State := State.advance 0 ({ s0 with grid := { s0.grid with cfg := some gridCfg0, linkOut := some (List.replicate 8 1) } })
def wGridTrackerAndDcLink_8 : State := State.advance 20000 ({ s0 with dcl := { s0.dcl with chopSince := some 0 } })
def wGridTrackerAndDcLink_9 : State := State.advance 19999 ({ s0 with dcl := { s0.dcl with chopSince := some 0 } })
def wGridTrackerAndDcLink_10 : State := State.advance 10000000 ({ s0 with dcl := { s0.dcl with relSince := some 0, active := true } })
def wGridTrackerAndDcLink_11 : State := State.advance 9999999 ({ s0 with dcl := { s0.dcl with relSince := some 0, active := true } })
def wGridTrackerAndDcLink_12 : State := State.advance 0 ({ s0 with dcl := { s0.dcl with relSince := some 0, active := false } })
theorem witness_GridTrackerAndDcLink_2 :
    (wGridTrackerAndDcLink_7.onGridBoundary 0 = true ∧ wGridTrackerAndDcLink_7.grid.cfg = some gridCfg0 ∧ wGridTrackerAndDcLink_7.grid.linkOut = some (List.replicate 8 1)) ∧
    (wGridTrackerAndDcLink_8.dcl.chopSince = some 0 ∧ 0 + 20000 ≤ 20000 ∧ wGridTrackerAndDcLink_8.dcl.chopFault = false) ∧
    (wGridTrackerAndDcLink_9.dcl.chopSince = some 0 ∧ 19999 < 0 + 20000) ∧
    (wGridTrackerAndDcLink_10.dcl.relSince = some 0 ∧ 0 + 10000000 ≤ 10000000 ∧ wGridTrackerAndDcLink_10.dcl.active = true) ∧
    (wGridTrackerAndDcLink_11.dcl.relSince = some 0 ∧ 9999999 < 0 + 10000000) ∧
    (wGridTrackerAndDcLink_12.dcl.relSince = some 0 ∧ wGridTrackerAndDcLink_12.dcl.active = false) := by decide +kernel

def wGridTrackerAndDcLink_13 : State := State.advance 0 (s0)
def wGridTrackerAndDcLink_14 : State := State.advance 0 ({ s0 with rt := { s0.rt with uvDcTicks := 5, uvActed := true } })
theorem witness_GridTrackerAndDcLink_3 :
    (wGridTrackerAndDcLink_13.rt.uvDcTicks < 5) ∧
    (wGridTrackerAndDcLink_14.rt.uvActed = true) := by decide +kernel

def wRideThroughHappenings_1 : State := State.advance 0 ({ s0 with rt := { s0.rt with trips := s0.rt.trips.set 0 { enable := true, thr := 1200, tTicks := 5, count := 5, tripped := false }, esTicks := 0, esDone := false } })
def wRideThroughHappenings_2 : State := State.advance 0 (s0)
def wRideThroughHappenings_3 : State := State.advance 0 ({ s0 with rt := { s0.rt with retCount := 3, returnTicks := 3 } })
def wRideThroughHappenings_4 : State := State.advance 0 ({ s0 with rt := { s0.rt with retCount := 2, returnTicks := 3 } })
def wRideThroughHappenings_5 : State := State.advance 0 ({ s0 with rt := { s0.rt with gateOpening := true } })
def wRideThroughHappenings_6 : State := State.advance 0 ({ gridded (rated s0) with eng := { (rated s0).eng with tickAt := 5 } })
theorem witness_RideThroughHappenings_1 :
    (wRideThroughHappenings_1.tripMask ≠ 0 ∧ (wRideThroughHappenings_1.modes.mode = 1 ∨ wRideThroughHappenings_1.modes.mode = 2) ∧ wRideThroughHappenings_1.rt.esTicks = 0 ∧ wRideThroughHappenings_1.rt.esDone = false) ∧
    (wRideThroughHappenings_2.tripMask = 0) ∧
    (wRideThroughHappenings_3.rt.retCount ≠ 0 ∧ wRideThroughHappenings_3.rt.returnTicks ≤ wRideThroughHappenings_3.rt.retCount) ∧
    (wRideThroughHappenings_4.rt.retCount < wRideThroughHappenings_4.rt.returnTicks) ∧
    (wRideThroughHappenings_5.onGridBoundary 0 = true ∧ wRideThroughHappenings_5.rt.gateOpening = true) ∧
    (wRideThroughHappenings_6.onGridBoundary 0 = false) := by decide +kernel

def wRideThroughHappenings_7 : State := State.advance 0 (s0)
def wRideThroughHappenings_8 : State := State.advance 20000000 ({ inMode 4 s0 with rt := { s0.rt with gateClosed := true, gateOpening := false, gateTimed := false, gateAt := 0, restartMax := 20 } })
def wRideThroughHappenings_9 : State := State.advance 19999999 ({ inMode 4 s0 with rt := { s0.rt with gateClosed := true, gateOpening := false, gateTimed := false, gateAt := 0, restartMax := 20 } })
def wRideThroughHappenings_10 : State := State.advance 0 (s0)
def wRideThroughHappenings_11 : State := State.advance 0 ({ gridded s0 with rt := { s0.rt with esDone := false, esDelay := 0, esVLo := 917, esVHi := 1050, esFLo := -500, esFHi := 100, trips := [], vLo := 1000000, vHi := 1000000, f := 500000 }, grid := { (gridded s0).grid with trk := { s0.grid.trk with f := 500000, vPlus := 1000000, state := 2 } } })
theorem witness_RideThroughHappenings_2 :
    (wRideThroughHappenings_7.rt.gateOpening = false) ∧
    (wRideThroughHappenings_8.rt.gateClosed = true ∧ wRideThroughHappenings_8.rt.gateOpening = false ∧ wRideThroughHappenings_8.rt.gateTimed = false ∧ (wRideThroughHappenings_8.modes.mode = 4 ∨ wRideThroughHappenings_8.modes.mode = 5) ∧ wRideThroughHappenings_8.rt.gateAt + wRideThroughHappenings_8.rt.restartMax * 1000000 ≤ 20000000) ∧
    (19999999 < wRideThroughHappenings_9.rt.gateAt + wRideThroughHappenings_9.rt.restartMax * 1000000) ∧
    (wRideThroughHappenings_10.rt.gateClosed = false) ∧
    (wRideThroughHappenings_11.rt.esDone = false ∧ wRideThroughHappenings_11.rt.esDelay * 1000 ≤ wRideThroughHappenings_11.rt.esTicks ∧ wRideThroughHappenings_11.esCond = true) := by decide +kernel

def wDcLinkUndervoltageTrips_1 : State := State.advance 0 ({ inMode 4 s0 with rt := { s0.rt with uvDcTicks := 5, uvActed := false } })
theorem witness_DcLinkUndervoltageTrips_1 :
    ((wDcLinkUndervoltageTrips_1.modes.mode = 4 ∨ wDcLinkUndervoltageTrips_1.modes.mode = 5) ∧ wDcLinkUndervoltageTrips_1.modes.trans = none ∧ 5 ≤ wDcLinkUndervoltageTrips_1.rt.uvDcTicks ∧ wDcLinkUndervoltageTrips_1.rt.uvActed = false ∧ wDcLinkUndervoltageTrips_1.outranked 0 7 = false) := by decide +kernel

def wIslandingHappenings_1 : State := State.advance 0 ({ (inMode 4 awned) with isl := { s0.isl with cfg := { s0.isl.cfg with enable := true }, state := 1, epochAt := some 0 } })
def wIslandingHappenings_2 : State := State.advance 0 (s0)
def wIslandingHappenings_3 : State := State.advance 999999999 ({ (inMode 4 awned) with isl := { s0.isl with cfg := { s0.isl.cfg with enable := true }, state := 1, epochAt := some 0 } })
def wIslandingHappenings_4 : State := State.advance 1000000000 ({ (inMode 4 awned) with isl := { s0.isl with cfg := { s0.isl.cfg with enable := true }, state := 1, epochAt := some 0 } })
def wIslandingHappenings_5 : State := State.advance 5000000 ({ (inMode 4 awned) with isl := { s0.isl with cfg := { s0.isl.cfg with enable := true }, state := 1, epochAt := some 1 } })
def wIslandingHappenings_6 : State := State.advance 5000000 ({ (inMode 4 awned) with isl := { s0.isl with cfg := { s0.isl.cfg with enable := true }, state := 1, epochAt := some 0 } })
theorem witness_IslandingHappenings_1 :
    (awnRefresh 0 1 wIslandingHappenings_1 = wIslandingHappenings_1 ∧ wIslandingHappenings_1.isl.state ≠ 0 ∧ wIslandingHappenings_1.isl.state ≠ 3 ∧ wIslandingHappenings_1.d8On = true ∧ wIslandingHappenings_1.isl.epochAt = some 0) ∧
    (awnRefresh 0 1 wIslandingHappenings_2 = wIslandingHappenings_2 ∧ wIslandingHappenings_2.isl.state = 0 ∧ wIslandingHappenings_2.isl.epochAt = none) ∧
    (wIslandingHappenings_3.isl.epochAt = some 0 ∧ 999999999 < 0 + 1000000000) ∧
    (wIslandingHappenings_4.isl.epochAt = some 0 ∧ 0 + 1000000000 ≤ 1000000000) ∧
    (wIslandingHappenings_5.awnDue 5000000 = false) ∧
    (wIslandingHappenings_6.grid.cfg = some gridCfg0 ∧ wIslandingHappenings_6.awnDue 5000000 = true ∧ wIslandingHappenings_6.d8On = true ∧ wIslandingHappenings_6.isl.state ≠ 0 ∧ wIslandingHappenings_6.isl.state ≠ 3) := by decide +kernel

def wIslandingHappenings_7 : State := State.advance 100000000 (awnReady)
def wIslandingHappenings_8 : State := State.advance 0 ({ s0 with isl := { s0.isl with cfg := { s0.isl.cfg with enable := true }, decided := 1 } })
def wIslandingHappenings_9 : State := State.advance 0 ({ s0 with isl := { s0.isl with cfg := { s0.isl.cfg with enable := true }, corr := (s0.isl.corr.set 1 { Corr.reset with count := 20 }).set 63 { Corr.reset with inMap := true, count := 200 } } })
def wIslandingHappenings_10 : State := State.advance 0 ({ s0 with isl := { s0.isl with cfg := { s0.isl.cfg with enable := true }, corr := s0.isl.corr.set 2 { Corr.reset with inMap := true, count := 199 } } })
def wIslandingHappenings_11 : State := State.advance 0 ({ s0 with isl := { s0.isl with cfg := { s0.isl.cfg with enable := true }, corr := (s0.isl.corr.set 2 { Corr.reset with mode := 2, held := true, dwell := 20 }).set 0 { Corr.reset with mode := 2 } } })
def wIslandingHappenings_12 : State := State.advance 0 ({ s0 with isl := { s0.isl with cfg := { s0.isl.cfg with enable := true }, rocof := { s0.isl.rocof with enable := true, acted := false, t := 3, count := 3 } } })
theorem witness_IslandingHappenings_2 :
    (wIslandingHappenings_7.grid.cfg = some gridCfg0 ∧ wIslandingHappenings_7.awnDue 100000000 = true ∧ wIslandingHappenings_7.d8On = true ∧ wIslandingHappenings_7.isl.relearn = false ∧ wIslandingHappenings_7.isl.state = 2 ∧ wIslandingHappenings_7.lacksAwnSlot = false ∧ wIslandingHappenings_7.awnValidBut 100000000 (awnMeasure gridCfg0 wIslandingHappenings_7 (wIslandingHappenings_7.awnChips 100000000)) = true ∧ fle 0x3F000000 (awnMeasure gridCfg0 wIslandingHappenings_7 (wIslandingHappenings_7.awnChips 100000000)).ri = true) ∧
    (wIslandingHappenings_8.isl.decided ≠ 0 ∧ wIslandingHappenings_8.modes.mode = 1) ∧
    ((wIslandingHappenings_9.isl.corr.getD 1 Corr.reset).inMap = false ∧ 20 ≤ (wIslandingHappenings_9.isl.corr.getD 1 Corr.reset).count ∧ (wIslandingHappenings_9.isl.corr.getD 63 Corr.reset).inMap = true ∧ 200 ≤ (wIslandingHappenings_9.isl.corr.getD 63 Corr.reset).count) ∧
    ((wIslandingHappenings_10.isl.corr.getD 2 Corr.reset).inMap = true ∧ (wIslandingHappenings_10.isl.corr.getD 2 Corr.reset).count < 200) ∧
    ((wIslandingHappenings_11.isl.corr.getD 2 Corr.reset).mode = 2 ∧ (wIslandingHappenings_11.isl.corr.getD 2 Corr.reset).inMap = false ∧ (wIslandingHappenings_11.isl.corr.getD 2 Corr.reset).count < 20 ∧ 20 ≤ (wIslandingHappenings_11.isl.corr.getD 2 Corr.reset).dwell ∧ (wIslandingHappenings_11.isl.corr.getD 0 Corr.reset).mode = 2 ∧ (wIslandingHappenings_11.isl.corr.getD 0 Corr.reset).inMap = false ∧ (wIslandingHappenings_11.isl.corr.getD 0 Corr.reset).held = false ∧ (wIslandingHappenings_11.isl.corr.getD 63 Corr.reset).mode ≠ 2) ∧
    (wIslandingHappenings_12.isl.rocof.enable = true ∧ wIslandingHappenings_12.isl.rocof.acted = false ∧ wIslandingHappenings_12.isl.rocof.t ≤ wIslandingHappenings_12.isl.rocof.count) := by decide +kernel

def wPortHappenings_1 : State := State.advance 0 ({ inMode 4 s0 with ports := { s0.ports with pv := s0.ports.pv.set 0 { pv0 1 with inWin := 10 } } })
def wPortHappenings_2 : State := State.advance 0 (s0)
def wPortHappenings_3 : State := State.advance 10000000 ({ s0 with ports := { s0.ports with pv := s0.ports.pv.set 0 { pv0 2 with fitAt := 0 } } })
def wPortHappenings_4 : State := State.advance 10000000 ({ s0 with ports := { s0.ports with pv := s0.ports.pv.set 0 { pv0 2 with fitAt := 0, fitN := 2, fitV := 22000, fitP := 2200, fitVV := 242500000, fitVP := 24250000 } } })
def wPortHappenings_5 : State := State.advance 9999999 ({ s0 with ports := { s0.ports with pv := s0.ports.pv.set 0 { pv0 2 with fitAt := 0 } } })
def wPortHappenings_6 : State := State.advance 0 ({ s0 with sys := { s0.sys with domains := s0.sys.domains.set 8 3 } })
theorem witness_PortHappenings_1 :
    ((wPortHappenings_1.pv 0).cfg = (pv0 1).cfg ∧ (wPortHappenings_1.pv 0).state = 1 ∧ 10 ≤ (wPortHappenings_1.pv 0).inWin ∧ wPortHappenings_1.quiet = false ∧ wPortHappenings_1.modes.mode ≠ 0 ∧ (pv0 1).cfg.all (fun c => !wPortHappenings_1.pvLatched c) = true ∧ wPortHappenings_1.dcl.active = false) ∧
    ((wPortHappenings_2.pv 15).inWin < 10) ∧
    ((wPortHappenings_3.pv 0).cfg = (pv0 2).cfg ∧ (wPortHappenings_3.pv 0).state = 2 ∧ (wPortHappenings_3.pv 0).phase ≠ 3 ∧ wPortHappenings_3.d8On = true ∧ (wPortHappenings_3.pv 0).fitAt + 10000000 ≤ 10000000) ∧
    ((wPortHappenings_4.pv 0).cfg = (pv0 2).cfg ∧ (pv0 2).cfg.all (fun c => !feq ((wPortHappenings_4.pv 0).fit c 0 0 0).2.2 0) = true) ∧
    (9999999 < (wPortHappenings_5.pv 0).fitAt + 10000000) ∧
    (wPortHappenings_6.d8On = false) := by decide +kernel

def wPortHappenings_7 : State := State.advance 1000000000 ({ s0 with ports := { s0.ports with pv := s0.ports.pv.set 0 { pv0 2 with halvedAt := 0, mppt := { MpptCfg.reset with mapHalf := 1 } } } })
def wPortHappenings_8 : State := State.advance 999999999 ({ s0 with ports := { s0.ports with pv := s0.ports.pv.set 0 { pv0 2 with halvedAt := 0, mppt := { MpptCfg.reset with mapHalf := 1 } } } })
def wPortHappenings_9 : State := State.advance 1000000000 ({ s0 with ports := { s0.ports with searchAt := 0 } })
def wPortHappenings_10 : State := State.advance 999999999 ({ s0 with ports := { s0.ports with searchAt := 0 } })
def wPortHappenings_11 : State := State.advance 65535000000 ({ s0 with ports := { s0.ports with pv := s0.ports.pv.set 0 { pv0 3 with phase := 2, dwellAt := 0, dwellN := 1, dwellP := 5 } } })
def wPortHappenings_12 : State := State.advance 65535000000 ({ s0 with ports := { s0.ports with pv := s0.ports.pv.set 0 { pv0 3 with phase := 2, dwellAt := 0 } } })
theorem witness_PortHappenings_2 :
    (wPortHappenings_7.d8On = true ∧ (wPortHappenings_7.pv 0).halvedAt + (wPortHappenings_7.pv 0).mppt.mapHalf * 1000000000 ≤ 1000000000) ∧
    (999999999 < (wPortHappenings_8.pv 0).halvedAt + (wPortHappenings_8.pv 0).mppt.mapHalf * 1000000000) ∧
    (wPortHappenings_9.d8On = true ∧ wPortHappenings_9.ports.searchAt + 1000000000 ≤ 1000000000) ∧
    (999999999 < wPortHappenings_10.ports.searchAt + 1000000000) ∧
    (wPortHappenings_11.d8On = true ∧ (wPortHappenings_11.pv 0).state = 3 ∧ (wPortHappenings_11.pv 0).phase = 2 ∧ (wPortHappenings_11.pv 0).dwellN ≠ 0 ∧ (wPortHappenings_11.pv 0).dwellAt + (wPortHappenings_11.pv 0).mppt.dwell * 1000000 ≤ 65535000000 ∧ fle ((wPortHappenings_11.pv 0).mppt.over (intF ((wPortHappenings_11.pv 0).pNow : Nat) 1000)) (intF ((wPortHappenings_11.pv 0).dwellP : Nat) (1000 * (wPortHappenings_11.pv 0).dwellN)) = true) ∧
    (wPortHappenings_12.d8On = true ∧ (wPortHappenings_12.pv 0).state = 3 ∧ (wPortHappenings_12.pv 0).phase = 2 ∧ (wPortHappenings_12.pv 0).dwellN = 0 ∧ (wPortHappenings_12.pv 0).dwellAt + (wPortHappenings_12.pv 0).mppt.dwell * 1000000 ≤ 65535000000 ∧ fle ((wPortHappenings_12.pv 0).mppt.over (intF ((wPortHappenings_12.pv 0).pNow : Nat) 1000)) (intF ((5 : Nat) : Int) 1000) = true) := by decide +kernel

def wPortHappenings_13 : State := State.advance 0 ({ s0 with ports := { s0.ports with pv := s0.ports.pv.set 0 { pv0 3 with phase := 2, dwellAt := 1 } } })
def wPortHappenings_14 : State := State.advance 0 ({ s0 with ports := { s0.ports with pv := s0.ports.pv.set 0 { pv0 3 with phase := 4, ref := 500, vNow := 500 } } })
def wPortHappenings_15 : State := State.advance 0 ({ s0 with ports := { s0.ports with pv := s0.ports.pv.set 0 { pv0 3 with phase := 1 } } })
def wPortHappenings_16 : State := State.advance 0 (s0)
def wPortHappenings_17 : State := State.advance 0 ({ s0 with ports := { s0.ports with pv := s0.ports.pv.set 0 { pv0 2 with phase := 3, ref := 5000, vNow := 6000 } } })
def wPortHappenings_18 : State := State.advance 50000 ({ inMode 5 s0 with ports := { s0.ports with hasShare := true, curtAt := 0 }, dcl := { s0.dcl with vdcValid := true } })
theorem witness_PortHappenings_3 :
    ((wPortHappenings_13.pv 0).phase = 2 ∧ 0 < (wPortHappenings_13.pv 0).dwellAt + (wPortHappenings_13.pv 0).mppt.dwell * 1000000) ∧
    (wPortHappenings_14.d8On = true ∧ (wPortHappenings_14.pv 0).state = 3 ∧ (wPortHappenings_14.pv 0).phase = 4 ∧ (wPortHappenings_14.pv 0).ref = (wPortHappenings_14.pv 0).vNow) ∧
    ((wPortHappenings_15.pv 0).state = 3 ∧ (wPortHappenings_15.pv 0).phase < 2) ∧
    ((wPortHappenings_16.pv 0).state ≠ 3) ∧
    ((wPortHappenings_17.pv 0).cfg = (pv0 2).cfg ∧ (wPortHappenings_17.pv 0).state = 2 ∧ (wPortHappenings_17.pv 0).phase = 3 ∧ wPortHappenings_17.d8On = true) ∧
    (wPortHappenings_18.holdingMode = true ∧ wPortHappenings_18.ports.hasShare = true ∧ wPortHappenings_18.dcl.vdcValid = true ∧ wPortHappenings_18.ports.curtAt + 50000 ≤ 50000) := by decide +kernel

def wPortHappenings_19 : State := State.advance 49999 ({ inMode 5 s0 with ports := { s0.ports with hasShare := true, curtAt := 0 }, dcl := { s0.dcl with vdcValid := true } })
def wPortHappenings_20 : State := State.advance 0 (s0)
def wPortHappenings_21 : State := State.advance 0 ({ bmsBus with ports := { s0.ports with bms := s0.ports.bms.set 63 { Bms.reset with state := 2, age := 201, timeout := 200 } } })
def wPortHappenings_22 : State := State.advance 0 ({ bmsBus with ports := { s0.ports with bms := s0.ports.bms.set 63 { Bms.reset with state := 2, age := 200, timeout := 200 } } })
def wPortHappenings_23 : State := State.advance 0 ({ bmsBus with ports := { s0.ports with bms := s0.ports.bms.set 63 { Bms.reset with state := 3, staleTicks := 1000, disable := 1000 } } })
def wPortHappenings_24 : State := State.advance 0 ({ bmsBus with ports := { s0.ports with bms := s0.ports.bms.set 63 { Bms.reset with state := 3, staleTicks := 999, disable := 1000 } } })
theorem witness_PortHappenings_4 :
    (49999 < wPortHappenings_19.ports.curtAt + 50000) ∧
    (wPortHappenings_20.holdingMode = false) ∧
    (((wPortHappenings_21.bms 63).state = 1 ∨ (wPortHappenings_21.bms 63).state = 2) ∧ (wPortHappenings_21.bms 63).timeout < (wPortHappenings_21.bms 63).age) ∧
    (((wPortHappenings_22.bms 63).state = 1 ∨ (wPortHappenings_22.bms 63).state = 2) ∧ (wPortHappenings_22.bms 63).age ≤ (wPortHappenings_22.bms 63).timeout) ∧
    ((wPortHappenings_23.bms 63).state = 3 ∧ (wPortHappenings_23.bms 63).disable ≤ (wPortHappenings_23.bms 63).staleTicks) ∧
    ((wPortHappenings_24.bms 63).staleTicks < (wPortHappenings_24.bms 63).disable) := by decide +kernel

def wPortHappenings_25 : State := State.advance 0 ({ s0 with sys := { s0.sys with domains := s0.sys.domains.set 9 0 } })
def wPortHappenings_26 : State := State.advance 0 (s0)
def wPortHappenings_27 : State := State.advance 0 ({ bmsBus with ports := { s0.ports with bms := s0.ports.bms.set 63 { Bms.reset with state := 2, bus := some 0 } } })
def wPortHappenings_28 : State := State.advance 0 ({ bmsBus with ports := { s0.ports with bms := s0.ports.bms.set 63 { Bms.reset with state := 2, bus := some 1 } } })
theorem witness_PortHappenings_5 :
    (wPortHappenings_25.d9On = false) ∧
    ((wPortHappenings_26.bms 0).state ≠ 3 ∧ (wPortHappenings_26.net.cans.getD 1 CanCtl.reset).role ≠ 1) ∧
    (wPortHappenings_27.d9On = true ∧ (wPortHappenings_27.net.cans.getD 0 CanCtl.reset).role = 1 ∧ (wPortHappenings_27.net.cans.getD 0 CanCtl.reset).busOff = false ∧ (zeros 16).length = 16 ∧ u8 (zeros 16) 8 < 4 ∧ ((zeros 16).drop 10).all (· == 0) = true ∧ (wPortHappenings_27.bms 63).seq ≠ some (u8 (zeros 16) 9) ∧ (wPortHappenings_27.bms 63).bus = some 0 ∧ (wPortHappenings_27.bms 63).state = 2 ∧ bit (u8 (zeros 16) 8) 1 = false ∧ (zeros 15).length ≠ 16 ∧ 0x1B5D0001 / 65536 ≠ 0x1B5C) ∧
    (wPortHappenings_28.d9On = true ∧ (wPortHappenings_28.net.cans.getD 0 CanCtl.reset).role = 1 ∧ (wPortHappenings_28.net.cans.getD 0 CanCtl.reset).busOff = false ∧ (zeros 16).length = 16 ∧ u8 (zeros 16) 8 < 4 ∧ ((zeros 16).drop 10).all (· == 0) = true ∧ (wPortHappenings_28.bms 63).seq ≠ some (u8 (zeros 16) 9) ∧ (wPortHappenings_28.bms 63).state = 2 ∧ (wPortHappenings_28.bms 63).bus ≠ some 0 ∧ (wPortHappenings_28.bms 63).otherPosted = false) := by decide +kernel

def wLegHappenings_1 : State := State.advance 0 (s0)
def wLegHappenings_2 : State := State.advance 0 ({ rated s0 with pwm := { (rated s0).pwm with legs := s0.pwm.legs.set 0 { Leg.reset with hasCfg := true, loads := 1, cmp := 255, role := 1, state := 1, startedAt := 0, boot := true, bootPre := 10 } } })
def wLegHappenings_3 : State := State.advance 50000 ({ rated s0 with pwm := { (rated s0).pwm with legs := s0.pwm.legs.set 0 { Leg.reset with hasCfg := true, loads := 1, cmp := 255, role := 1, state := 1, startedAt := 0, sto := true } } })
def wLegHappenings_4 : State := State.advance 0 ({ rated s0 with pwm := { (rated s0).pwm with legs := s0.pwm.legs.set 0 { Leg.reset with hasCfg := true, loads := 1, cmp := 255, role := 1, state := 3 } } })
def wLegHappenings_5 : State := State.advance 0 ({ rated s0 with pwm := { (rated s0).pwm with legs := s0.pwm.legs.set 0 { Leg.reset with hasCfg := true, loads := 1, cmp := 255, role := 1, state := 2, sto := false } } })
def wLegHappenings_6 : State := State.advance 50000 ({ rated s0 with pwm := { (rated s0).pwm with legs := s0.pwm.legs.set 0 { Leg.reset with hasCfg := true, loads := 1, cmp := 255, role := 1, state := 4, sto := false, startedAt := 0 } } })
theorem witness_LegHappenings_1 :
    (47 < 48 ∧ (pwmSettle 0 wLegHappenings_1).loadHit 0 47 false = none ∧ (wLegHappenings_1.leg 47).state ≠ 1 ∧ (wLegHappenings_1.leg 47).testEnd = 0) ∧
    ((pwmSettle 0 wLegHappenings_2).loadHit 0 0 false = some 0 ∧ (let l := (d6Sync 0 0 (pwmSettle 0 wLegHappenings_2)).leg 0; l.state = 1 ∧ l.startReady 0 = false)) ∧
    ((pwmSettle 50000 wLegHappenings_3).loadHit 50000 0 false = some 400000 ∧ (let l := (d6Sync 50000 400000 (pwmSettle 50000 wLegHappenings_3)).leg 0; l.state = 1 ∧ l.sto = true)) ∧
    ((pwmSettle 0 wLegHappenings_4).loadHit 0 0 false = some 0 ∧ (let l := (d6Sync 0 0 (pwmSettle 0 wLegHappenings_4)).leg 0; (l.state = 0 ∨ l.state = 3))) ∧
    ((pwmSettle 0 wLegHappenings_5).loadHit 0 0 false = some 0 ∧ (let l := (d6Sync 0 0 (pwmSettle 0 wLegHappenings_5)).leg 0; l.state = 2 ∧ l.sto = false)) ∧
    ((pwmSettle 50000 wLegHappenings_6).loadHit 50000 0 false = some 400000 ∧ (let l := (d6Sync 50000 400000 (pwmSettle 50000 wLegHappenings_6)).leg 0; l.state = 4 ∧ l.startedAt < 50000 ∧ l.sto = false)) := by decide +kernel

def wLegHappenings_7 : State := State.advance 50000 ({ rated s0 with pwm := { (rated s0).pwm with legs := s0.pwm.legs.set 0 { Leg.reset with hasCfg := true, loads := 1, cmp := 255, role := 1, state := 1, preDone := true, startedAt := 0, sto := false } } })
def wLegHappenings_8 : State := State.advance 1000 (grouped ({ rated s0 with pwm := { (rated s0).pwm with legs := s0.pwm.legs.set 0 { Leg.reset with hasCfg := true, loads := 1, cmp := 255, role := 1, state := 4, testEnd := 1000 } } }))
def wLegHappenings_9 : State := State.advance 2000 ({ rated s0 with pwm := { (rated s0).pwm with legs := s0.pwm.legs.set 0 { Leg.reset with hasCfg := true, loads := 1, cmp := 255, role := 1, state := 1, boot := true, preDone := false, startedAt := 0, sto := false } } })
def wLegHappenings_10 : State := State.advance 1999 ({ rated s0 with pwm := { (rated s0).pwm with legs := s0.pwm.legs.set 0 { Leg.reset with hasCfg := true, loads := 1, cmp := 255, role := 1, state := 1, startedAt := 0 } } })
def wLegHappenings_11 : State := State.advance 1000 ({ rated s0 with pwm := { (rated s0).pwm with legs := s0.pwm.legs.set 0 { Leg.reset with hasCfg := true, loads := 1, cmp := 255, role := 1, testEnd := 1000 } } })
def wLegHappenings_12 : State := State.advance 999 ({ rated s0 with pwm := { (rated s0).pwm with legs := s0.pwm.legs.set 0 { Leg.reset with hasCfg := true, loads := 1, cmp := 255, role := 1, testEnd := 1000 } } })
theorem witness_LegHappenings_2 :
    ((pwmSettle 50000 wLegHappenings_7).loadHit 50000 0 false = some 400000 ∧ (let l := (d6Sync 50000 400000 (pwmSettle 50000 wLegHappenings_7)).leg 0; l.state = 1 ∧ l.startReady 50000 = true ∧ l.sto = false ∧ (d6Sync 50000 400000 (pwmSettle 50000 wLegHappenings_7)).inReaction 0 = false)) ∧
    ((wLegHappenings_8.leg 0).testEnd ≠ 0 ∧ (wLegHappenings_8.leg 0).testEnd ≤ 1000 ∧ (wLegHappenings_8.leg 0).state = 4 ∧ wLegHappenings_8.inReaction 0 = false ∧ (wLegHappenings_8.modLeg 0 fun l => { l with testEnd := 0 }).inReaction 0 = false) ∧
    ((wLegHappenings_9.leg 0).state = 1 ∧ (wLegHappenings_9.leg 0).boot = true ∧ (wLegHappenings_9.leg 0).preDone = false ∧ (wLegHappenings_9.leg 0).startedAt + 2000 ≤ 2000 ∧ (wLegHappenings_9.leg 0).sto = false) ∧
    (1999 < (wLegHappenings_10.leg 0).startedAt + 2000) ∧
    ((wLegHappenings_11.leg 0).testEnd ≠ 0 ∧ (wLegHappenings_11.leg 0).testEnd ≤ 1000) ∧
    (999 < (wLegHappenings_12.leg 0).testEnd) := by decide +kernel

def wSensingHappenings_1 : State := State.advance 0 ({ s0 with sys := { s0.sys with domains := s0.sys.domains.set 7 0 } })
def wSensingHappenings_2 : State := State.advance 0 (s0)
def wSensingHappenings_3 : State := State.advance 0 ({ s0 with sense := { s0.sense with ains := s0.sense.ains.set 23 { Ain.reset with enable := true } } })
def wSensingHappenings_4 : State := State.advance 0 ({ s0 with sense := { s0.sense with ains := s0.sense.ains.set 23 { Ain.reset with enable := true, rangeCnt := 64 } } })
def wSensingHappenings_5 : State := State.advance 0 ({ s0 with sense := { s0.sense with ains := s0.sense.ains.set 23 { Ain.reset with enable := true, stuck := true, stuckCnt := 512 } } })
def wSensingHappenings_6 : State := State.advance 0 ({ s0 with sense := { s0.sense with kirs := s0.sense.kirs.set 7 { Kir.reset with enable := true, members := [0, 1], cnt := 64 } } })
theorem witness_SensingHappenings_1 :
    (wSensingHappenings_1.d7Off = true) ∧
    (23 < 24 ∧ wSensingHappenings_2.d7Off = false ∧ (wSensingHappenings_2.ain 23).enable = false ∧ -8192 ≤ (-8192 : Int) ∧ (8191 : Int) ≤ 8191 ∧ wSensingHappenings_2.sense.confirm = none ∧ (wSensingHappenings_2.kir 7).cnt < 64) ∧
    (wSensingHappenings_3.d7Off = false ∧ (wSensingHappenings_3.ain 23).enable = true ∧ -8192 < (-8191 : Int) ∧ (8190 : Int) < 8191) ∧
    ((wSensingHappenings_4.ain 23).enable = true ∧ 64 ≤ (wSensingHappenings_4.ain 23).rangeCnt ∧ (wSensingHappenings_4.ain 23).suspRange = false ∧ wSensingHappenings_4.flagged 1 255 [23] = false) ∧
    ((wSensingHappenings_5.ain 23).enable = true ∧ (wSensingHappenings_5.ain 23).stuck = true ∧ 512 ≤ (wSensingHappenings_5.ain 23).stuckCnt ∧ (wSensingHappenings_5.ain 23).suspStuck = false ∧ (wSensingHappenings_5.ain 23).stuckOut = false ∧ wSensingHappenings_5.flagged 2 255 [23] = false) ∧
    ((wSensingHappenings_6.kir 7).enable = true ∧ 64 ≤ (wSensingHappenings_6.kir 7).cnt ∧ (wSensingHappenings_6.kir 7).suspended = false ∧ wSensingHappenings_6.flagged 3 7 ((List.range 24).filter fun a => (wSensingHappenings_6.kir 7).members.contains a) = false) := by decide +kernel

def wSensingHappenings_7 : State := State.advance 0 ({ s0 with sense := { s0.sense with confirm := some { confirm0 with check := 1 } } })
def wSensingHappenings_8 : State := State.advance 0 ({ s0 with sense := { s0.sense with confirm := some { confirm0 with check := 3, ains := [3, 4] } } })
def wSensingHappenings_9 : State := State.advance 0 ({ s0 with sense := { s0.sense with confirm := some { confirm0 with check := 4 } } })
def wSensingHappenings_10 : State := State.advance 0 ({ s0 with sense := { s0.sense with roles := s0.sense.roles.set 25 4, convOn := s0.sense.convOn.set 25 true } })
def wSensingHappenings_11 : State := State.advance 1000000 ({ s0 with sense := { s0.sense with ains := s0.sense.ains.set 23 { Ain.reset with suspRange := true, okRange := some 0 } } })
def wSensingHappenings_12 : State := State.advance 1000000 ({ s0 with sense := { s0.sense with kirs := s0.sense.kirs.set 7 { Kir.reset with suspended := true, okSince := some 0 } } })
theorem witness_SensingHappenings_2 :
    (wSensingHappenings_7.sense.confirm = some { confirm0 with check := 1 } ∧ 1 ≠ 4 ∧ 128 * wSensingHappenings_7.sense.confTol < 128 * wSensingHappenings_7.sense.confTol + 1 ∧ 128 * wSensingHappenings_7.sense.confTol ≤ 128 * wSensingHappenings_7.sense.confTol ∧ { confirm0 with check := 1 }.ains.tail = []) ∧
    (wSensingHappenings_8.sense.confirm = some { confirm0 with check := 3, ains := [3, 4] } ∧ 0 ≤ 128 * wSensingHappenings_8.sense.confTol ∧ { confirm0 with check := 3, ains := [3, 4] }.ains.tail = [4]) ∧
    (wSensingHappenings_9.sense.confirm = some { confirm0 with check := 4 }) ∧
    (wSensingHappenings_10.sense.roles.getD 25 0 = 4 ∧ wSensingHappenings_10.sense.convOn.getD 25 false = true ∧ wSensingHappenings_10.sense.convOffAt.getD 25 0 ≤ 0 ∧ wSensingHappenings_10.sense.roles.getD 0 0 ≠ 4) ∧
    ((wSensingHappenings_11.ain 23).suspRange = true ∧ falseFor 1000000 (wSensingHappenings_11.ain 23).okRange = true) ∧
    ((wSensingHappenings_12.kir 7).suspended = true ∧ falseFor 1000000 (wSensingHappenings_12.kir 7).okSince = true) := by decide +kernel

def wSensingHappenings_13 : State := State.advance 0 ({ s0 with sense := { s0.sense with roles := List.replicate 26 0 } })
def wSensingHappenings_14 : State := State.advance 0 ({ s0 with sense := { s0.sense with shSecond := false, convAin := s0.sense.convAin.set 25 5, ains := s0.sense.ains.set 5 { Ain.reset with enable := true } } })
def wSensingHappenings_15 : State := State.advance 0 (s0)
def wSensingHappenings_16 : State := State.advance 10000000 ({ s0 with sense := { s0.sense with calAt := 0, dacAt := 0 } })
def wSensingHappenings_17 : State := State.advance 9999999 ({ s0 with sense := { s0.sense with calAt := 0, dacAt := 0 } })
def wSensingHappenings_18 : State := State.advance 0 ({ s0 with sense := { s0.sense with sars := s0.sense.sars.set 5 { Sar.reset with busy := some 9, conv := some (3, 0) } } })
theorem witness_SensingHappenings_3 :
    (wSensingHappenings_13.convs 2 = []) ∧
    (wSensingHappenings_14.convs 2 = [25] ∧ wSensingHappenings_14.arbitrates = false ∧ wSensingHappenings_14.visitable (wSensingHappenings_14.sense.convAin.getD 25 255) = true ∧ wSensingHappenings_14.sense.shSecond = false ∧ (0 : Int).natAbs ≤ wSensingHappenings_14.sense.shOffset * 1000 ∧ (0 : Int).natAbs ≤ wSensingHappenings_14.sense.shGain * 1000) ∧
    (wSensingHappenings_15.convs 2 = [25] ∧ wSensingHappenings_15.arbitrates = false ∧ wSensingHappenings_15.visitable (wSensingHappenings_15.sense.convAin.getD 25 255) = false) ∧
    ((List.replicate 26 (0 : Int)).length = 26 ∧ wSensingHappenings_16.sense.calAt + 10000000 ≤ 10000000) ∧
    (9999999 < wSensingHappenings_17.sense.calAt + 10000000) ∧
    (5 < 6 ∧ (wSensingHappenings_18.sar 5).busy = some 9 ∧ (wSensingHappenings_18.sar 5).conv ≠ none) := by decide +kernel

def wSensingHappenings_19 : State := State.advance 999 ({ s0 with sense := { s0.sense with sars := s0.sense.sars.set 5 { Sar.reset with busy := some 9, startAt := 0 } } })
def wSensingHappenings_20 : State := State.advance 1000 ({ s0 with sense := { s0.sense with sars := s0.sense.sars.set 5 { Sar.reset with busy := some 9, startAt := 0 } } })
def wSensingHappenings_21 : State := State.advance 0 ({ s0 with sense := { s0.sense with hks := s0.sense.hks.set 0 { Hk.reset with enable := true, pending := some 0 }, sars := s0.sense.sars.set 0 { Sar.reset with logical := 0 } } })
def wSensingHappenings_22 : State := State.advance 0 (s0)
def wSensingHappenings_23 : State := State.advance 1050 ({ s0 with sense := { s0.sense with sars := s0.sense.sars.set 0 { Sar.reset with busy := some 0x100, startAt := 0 } } })
def wSensingHappenings_24 : State := State.advance 1050 ({ s0 with sense := { s0.sense with sars := s0.sense.sars.set 0 { Sar.reset with conv := some (3, 0) } } })
theorem witness_SensingHappenings_4 :
    ((wSensingHappenings_19.sar 5).busy = some 9 ∧ 999 < (wSensingHappenings_19.sar 5).startAt + 1000) ∧
    ((wSensingHappenings_20.sar 5).busy = some 9 ∧ (wSensingHappenings_20.sar 5).conv = none ∧ (wSensingHappenings_20.sar 5).startAt + 1000 ≤ 1000) ∧
    ((wSensingHappenings_21.sar 0).busy = none ∧ (wSensingHappenings_21.sar 0).logical ≠ 254 ∧ wSensingHappenings_21.d7Off = false ∧ ({ wSensingHappenings_21 with sense := { wSensingHappenings_21.sense with hks := wSensingHappenings_21.sense.hks.map fun h : Hk => wSensingHappenings_21.hkEvents (wSensingHappenings_21.pwm.d6.steps 0) (h.timer 0) } } : State).sarNext 0 = some 0 ∧ 0 < 64 ∧ 0 < wSensingHappenings_21.sense.sars.length) ∧
    ((wSensingHappenings_22.sar 5).ready 0 = none) ∧
    (wSensingHappenings_23.d7Off = false ∧ (wSensingHappenings_23.sar 0).ready 1050 = some (0x100, 0)) ∧
    (wSensingHappenings_24.d7Off = false ∧ (wSensingHappenings_24.sar 0).ready 1050 = some (3, 0) ∧ 3 ≠ 0x100 ∧ 4095 ≤ 4095) := by decide +kernel

def wSensingHappenings_25 : State := State.advance 250000 ({ s0 with sense := { s0.sense with calAt := 0, dacAt := 0 } })
def wSensingHappenings_26 : State := State.advance 249999 ({ s0 with sense := { s0.sense with calAt := 0, dacAt := 0 } })
def wSensingHappenings_27 : State := State.advance 0 ({ s0 with sense := { s0.sense with pathRun := [path0] } })
def wSensingHappenings_28 : State := State.advance 0 ({ s0 with sense := { s0.sense with pathRun := [path0], pathDiffs := [5] } })
theorem witness_SensingHappenings_5 :
    (wSensingHappenings_25.sense.pathRun = [] ∧ wSensingHappenings_25.sense.dacAt + 250000 ≤ 250000) ∧
    (249999 < wSensingHappenings_26.sense.dacAt + 250000) ∧
    (wSensingHappenings_27.d7Off = false ∧ wSensingHappenings_27.sense.pathRun ≠ [] ∧ wSensingHappenings_27.sense.pathDiffs.length ≠ wSensingHappenings_27.sense.pathRun.length) ∧
    (wSensingHappenings_28.sense.pathRun = [path0] ∧ wSensingHappenings_28.sense.pathDiffs = [5] ∧ wSensingHappenings_28.sense.pathReply = none) := by decide +kernel

def wProtectionSources_1 : State := State.advance 0 ({ grouped s0 with prot := { (grouped s0).prot with flts := s0.prot.flts.set 0 { s0.flt 0 with kind := 0, asserted := false } } })
def wProtectionSources_2 : State := State.advance 0 ({ s0 with prot := { s0.prot with flts := s0.prot.flts.set 47 { s0.flt 47 with kind := 0, asserted := false } } })
def wProtectionSources_3 : State := State.advance 0 ({ s0 with sys := { s0.sys with domains := s0.sys.domains.set 6 0 } })
def wProtectionSources_4 : State := State.advance 0 ({ grouped s0 with prot := { (grouped s0).prot with cmps := s0.prot.cmps.set 0 { Cmp.reset with cell := some 0, live := false, main := false, input := 2, action := 1, index := 0 }, flts := s0.prot.flts.set 0 { s0.flt 0 with kind := 1, cmp := 0 } } })
def wProtectionSources_5 : State := State.advance 0 ({ grouped s0 with prot := { (grouped s0).prot with cmps := s0.prot.cmps.set 0 { Cmp.reset with cell := some 0, live := false, main := false, input := 2, action := 1, index := 1 }, flts := s0.prot.flts.set 1 { s0.flt 1 with kind := 1, cmp := 0 } } })
def wProtectionSources_6 : State := State.advance 0 ({ grouped s0 with prot := { (grouped s0).prot with cmps := s0.prot.cmps.set 0 { Cmp.reset with cell := some 0, live := false, main := false, input := 1, action := 2 } } })
theorem witness_ProtectionSources_1 :
    ((wProtectionSources_1.flt 0).kind = 0 ∧ (wProtectionSources_1.modFlt 0 fun f => { f with asserted := true, ready := false }).groupOf 0 = some 0 ∧ wProtectionSources_1.domainOn 6 = true ∧ wProtectionSources_1.domainOn 7 = true) ∧
    (47 < 48 ∧ (wProtectionSources_2.flt 47).kind = 0 ∧ (wProtectionSources_2.modFlt 47 fun f => { f with asserted := true, ready := false }).groupOf 47 = none ∧ wProtectionSources_2.domainOn 6 = true ∧ wProtectionSources_2.domainOn 7 = true) ∧
    (47 < 48 ∧ wProtectionSources_3.domainOn 6 = false) ∧
    (wProtectionSources_4.d7Off = false ∧ wProtectionSources_4.fed 0 = true ∧ (wProtectionSources_4.cmp 0).live = false ∧ wProtectionSources_4.blanked 0 0 = false ∧ (wProtectionSources_4.cmp 0).main = false ∧ (wProtectionSources_4.cmp 0).action = 1 ∧ (wProtectionSources_4.modCmp 0 fun c => { c with live := true, main := true, ready := false, mainAt := 0 }).cmpGroup (wProtectionSources_4.cmp 0) = some 0 ∧ wProtectionSources_4.domainOn 6 = true ∧ wProtectionSources_4.domainOn 7 = true) ∧
    (wProtectionSources_5.d7Off = false ∧ wProtectionSources_5.fed 0 = true ∧ (wProtectionSources_5.cmp 0).live = false ∧ wProtectionSources_5.blanked 0 0 = false ∧ (wProtectionSources_5.cmp 0).main = false ∧ (wProtectionSources_5.cmp 0).action = 1 ∧ (wProtectionSources_5.modCmp 0 fun c => { c with live := true, main := true, ready := false, mainAt := 0 }).cmpGroup (wProtectionSources_5.cmp 0) = none ∧ wProtectionSources_5.domainOn 6 = true ∧ wProtectionSources_5.domainOn 7 = true) ∧
    (wProtectionSources_6.d7Off = false ∧ wProtectionSources_6.fed 0 = true ∧ (wProtectionSources_6.cmp 0).live = false ∧ wProtectionSources_6.blanked 0 0 = false ∧ (wProtectionSources_6.cmp 0).main = false ∧ (wProtectionSources_6.cmp 0).action = 2 ∧ wProtectionSources_6.domainOn 6 = true ∧ wProtectionSources_6.domainOn 7 = true) := by decide +kernel

def wProtectionSources_7 : State := State.advance 0 ({ grouped s0 with prot := { (grouped s0).prot with cmps := s0.prot.cmps.set 0 { Cmp.reset with cell := some 0, live := false, main := false, input := 1, action := 3 } } })
def wProtectionSources_8 : State := State.advance 0 ({ grouped s0 with prot := { (grouped s0).prot with cmps := s0.prot.cmps.set 0 { Cmp.reset with cell := some 0, live := false, main := false, input := 1, action := 0 } } })
def wProtectionSources_9 : State := State.advance 100 ({ grouped s0 with prot := { (grouped s0).prot with cmps := s0.prot.cmps.set 0 { Cmp.reset with cell := some 0, live := true, main := true, input := 1, action := 1, blankLeg := 0, blankNs := 1, blankEdges := 1 } }, pwm := { s0.pwm with legs := s0.pwm.legs.set 0 { Leg.reset with onPut := true, loadAt := 4, onH := 5, hasCfg := true } } })
def wProtectionSources_10 : State := State.advance 0 ({ grouped s0 with prot := { (grouped s0).prot with cmps := s0.prot.cmps.set 0 { Cmp.reset with cell := some 0, live := false, input := 1, main := true } } })
def wProtectionSources_11 : State := State.advance 0 (s0)
def wProtectionSources_12 : State := State.advance 0 ({ grouped s0 with prot := { (grouped s0).prot with cmps := s0.prot.cmps.set 0 { Cmp.reset with cell := some 0, live := false, main := false, input := 2, action := 1, index := 0, under := false }, flts := s0.prot.flts.set 0 { s0.flt 0 with kind := 1, cmp := 0 } } })
theorem witness_ProtectionSources_2 :
    (wProtectionSources_7.d7Off = false ∧ wProtectionSources_7.fed 0 = true ∧ (wProtectionSources_7.cmp 0).live = false ∧ wProtectionSources_7.blanked 0 0 = false ∧ (wProtectionSources_7.cmp 0).main = false ∧ (wProtectionSources_7.cmp 0).action = 3 ∧ wProtectionSources_7.domainOn 6 = true ∧ wProtectionSources_7.domainOn 7 = true) ∧
    (wProtectionSources_8.d7Off = false ∧ wProtectionSources_8.fed 0 = true ∧ (wProtectionSources_8.cmp 0).live = false ∧ wProtectionSources_8.blanked 0 0 = false ∧ (wProtectionSources_8.cmp 0).main = false ∧ (wProtectionSources_8.cmp 0).action = 0 ∧ wProtectionSources_8.domainOn 6 = true ∧ wProtectionSources_8.domainOn 7 = true) ∧
    (wProtectionSources_9.fed 0 = true ∧ (wProtectionSources_9.cmp 0).live = true ∧ (wProtectionSources_9.cmp 0).latch = 0 ∧ wProtectionSources_9.maskedSince 100 0 = true ∧ wProtectionSources_9.blanked 100 0 = false ∧ wProtectionSources_9.domainOn 6 = true ∧ wProtectionSources_9.domainOn 7 = true) ∧
    (wProtectionSources_10.d7Off = false ∧ wProtectionSources_10.fed 0 = true ∧ (wProtectionSources_10.cmp 0).live = false ∧ wProtectionSources_10.blanked 0 0 = false ∧ (wProtectionSources_10.cmp 0).main = true ∧ (wProtectionSources_10.cmp 0).action ≠ 3 ∧ wProtectionSources_10.domainOn 6 = true ∧ wProtectionSources_10.domainOn 7 = true) ∧
    (51 < 52 ∧ wProtectionSources_11.fed 51 = false ∧ (wProtectionSources_11.cmp 51).action ≠ 1 ∧ wProtectionSources_11.domainOn 6 = true ∧ wProtectionSources_11.domainOn 7 = true) ∧
    (wProtectionSources_12.d7Off = false ∧ wProtectionSources_12.fed 0 = true ∧ (wProtectionSources_12.cmp 0).under = false ∧ (wProtectionSources_12.cmp 0).action = 1 ∧ (wProtectionSources_12.cmp 0).hard = false ∧ (wProtectionSources_12.modCmp 0 fun c => { c with hard := true }).cmpGroup (wProtectionSources_12.cmp 0) = some 0 ∧ wProtectionSources_12.domainOn 6 = true ∧ wProtectionSources_12.domainOn 7 = true) := by decide +kernel

def wProtectionSources_13 : State := State.advance 0 ({ grouped s0 with prot := { (grouped s0).prot with cmps := s0.prot.cmps.set 0 { Cmp.reset with cell := some 0, live := false, main := false, input := 2, action := 1, index := 1, under := false }, flts := s0.prot.flts.set 1 { s0.flt 1 with kind := 1, cmp := 0 } } })
def wProtectionSources_14 : State := State.advance 0 ({ s0 with prot := { s0.prot with mons := s0.prot.mons.set 31 { Mon.reset with hasCfg := true, n := 2, count := 2, past := true, action := 1, acted := false } } })
def wProtectionSources_15 : State := State.advance 0 ({ s0 with prot := { s0.prot with mons := s0.prot.mons.set 31 { Mon.reset with hasCfg := true, n := 2, count := 2, past := true, action := 2, acted := false } } })
def wProtectionSources_16 : State := State.advance 0 ({ s0 with prot := { s0.prot with mons := s0.prot.mons.set 31 { Mon.reset with hasCfg := true, n := 2, count := 2, past := true, action := 0, acted := false } } })
def wProtectionSources_17 : State := State.advance 0 ({ s0 with prot := { s0.prot with mons := s0.prot.mons.set 31 { Mon.reset with hasCfg := true, n := 2, count := 1, past := true, action := 1, acted := false } } })
def wProtectionSources_18 : State := State.advance 0 ({ s0 with sys := { s0.sys with domains := s0.sys.domains.set 7 0 } })
theorem witness_ProtectionSources_3 :
    (wProtectionSources_13.fed 0 = true ∧ (wProtectionSources_13.cmp 0).under = false ∧ (wProtectionSources_13.cmp 0).action = 1 ∧ (wProtectionSources_13.cmp 0).hard = false ∧ (wProtectionSources_13.modCmp 0 fun c => { c with hard := true }).cmpGroup (wProtectionSources_13.cmp 0) = none ∧ wProtectionSources_13.domainOn 6 = true ∧ wProtectionSources_13.domainOn 7 = true) ∧
    ((wProtectionSources_14.mon 31).hasCfg = true ∧ (wProtectionSources_14.mon 31).n ≤ (wProtectionSources_14.mon 31).count ∧ (wProtectionSources_14.mon 31).past = true ∧ (wProtectionSources_14.mon 31).acted = false ∧ (wProtectionSources_14.mon 31).action = 1 ∧ wProtectionSources_14.domainOn 6 = true ∧ wProtectionSources_14.domainOn 7 = true) ∧
    ((wProtectionSources_15.mon 31).hasCfg = true ∧ (wProtectionSources_15.mon 31).n ≤ (wProtectionSources_15.mon 31).count ∧ (wProtectionSources_15.mon 31).past = true ∧ (wProtectionSources_15.mon 31).acted = false ∧ (wProtectionSources_15.mon 31).action = 2 ∧ wProtectionSources_15.domainOn 6 = true ∧ wProtectionSources_15.domainOn 7 = true) ∧
    ((wProtectionSources_16.mon 31).hasCfg = true ∧ (wProtectionSources_16.mon 31).n ≤ (wProtectionSources_16.mon 31).count ∧ (wProtectionSources_16.mon 31).past = true ∧ (wProtectionSources_16.mon 31).acted = false ∧ (wProtectionSources_16.mon 31).action = 0 ∧ wProtectionSources_16.domainOn 6 = true ∧ wProtectionSources_16.domainOn 7 = true) ∧
    ((wProtectionSources_17.mon 31).count < (wProtectionSources_17.mon 31).n ∧ wProtectionSources_17.domainOn 6 = true ∧ wProtectionSources_17.domainOn 7 = true) ∧
    (wProtectionSources_18.domainOn 7 = false ∧ wProtectionSources_18.d7Off = true) := by decide +kernel

def wProtectionSources_19 : State := State.advance 1000000 ({ s0 with prot := { s0.prot with mons := s0.prot.mons.set 0 { Mon.reset with hasCfg := true, partner := 3, insideAt := some 0 }, cmps := s0.prot.cmps.set 3 { Cmp.reset with cell := some 3, live := true, mainAt := 0 } } })
def wProtectionSources_20 : State := State.advance 0 ({ s0 with prot := { s0.prot with mons := s0.prot.mons.set 0 { Mon.reset with hasCfg := true, partner := 3, insideAt := none }, cmps := s0.prot.cmps.set 3 { Cmp.reset with cell := some 3, live := false, mainAt := 0 } } })
theorem witness_ProtectionSources_4 :
    (wProtectionSources_19.d7Off = false ∧ (wProtectionSources_19.mon 0).hasCfg = true ∧ (wProtectionSources_19.cmp (wProtectionSources_19.mon 0).partner).live = true ∧ wProtectionSources_19.unmaskedFrom 1000000 (wProtectionSources_19.mon 0).partner + 1000000 ≤ 1000000 ∧ (wProtectionSources_19.mon 0).insideAt = some 0 ∧ (wProtectionSources_19.mon 0).partner < 52 ∧ (wProtectionSources_19.cmp (wProtectionSources_19.mon 0).partner).cell = some 3 ∧ (wProtectionSources_19.cmp (wProtectionSources_19.mon 0).partner).suspect = false ∧ wProtectionSources_19.domainOn 6 = true ∧ wProtectionSources_19.domainOn 7 = true) ∧
    ((wProtectionSources_20.cmp (wProtectionSources_20.mon 0).partner).live = false ∧ (wProtectionSources_20.mon 0).insideAt = none ∧ wProtectionSources_20.domainOn 6 = true ∧ wProtectionSources_20.domainOn 7 = true) := by decide +kernel

def wReactionsAndCellTests_1 : State := State.advance 50 ({ s0 with prot := { s0.prot with groups := s0.prot.groups.set 7 { s0.pgroup 7 with state := 1, step1 := true, reactAt := 0, tSoft1 := 5 } } })
def wReactionsAndCellTests_2 : State := State.advance 49 ({ s0 with prot := { s0.prot with groups := s0.prot.groups.set 7 { s0.pgroup 7 with state := 1, step1 := true, reactAt := 0, tSoft1 := 5 } } })
def wReactionsAndCellTests_3 : State := State.advance 0 (s0)
def wReactionsAndCellTests_4 : State := State.advance 80 ({ s0 with prot := { s0.prot with groups := s0.prot.groups.set 7 { s0.pgroup 7 with state := 1, step1 := false, latchPend := true, hard := false, reactAt := 0, tSoft1 := 5, tInner := 3 } } })
def wReactionsAndCellTests_5 : State := State.advance 80 ({ s0 with prot := { s0.prot with groups := s0.prot.groups.set 7 { s0.pgroup 7 with state := 1, step1 := false, latchPend := false, hard := false, reactAt := 0, tSoft1 := 5, tInner := 3 } } })
def wReactionsAndCellTests_6 : State := State.advance 79 ({ s0 with prot := { s0.prot with groups := s0.prot.groups.set 7 { s0.pgroup 7 with state := 1, step1 := false, latchPend := true, hard := false, reactAt := 0, tSoft1 := 5, tInner := 3 } } })
theorem witness_ReactionsAndCellTests_1 :
    ((wReactionsAndCellTests_1.pgroup 7).state = 1 ∧ (wReactionsAndCellTests_1.pgroup 7).step1 = true ∧ (wReactionsAndCellTests_1.pgroup 7).reactAt + (wReactionsAndCellTests_1.pgroup 7).tSoft1 * 10 ≤ 50) ∧
    (49 < (wReactionsAndCellTests_2.pgroup 7).reactAt + (wReactionsAndCellTests_2.pgroup 7).tSoft1 * 10) ∧
    ((wReactionsAndCellTests_3.pgroup 7).state ≠ 1 ∧ (wReactionsAndCellTests_3.pgroup 7).state ≠ 2) ∧
    ((wReactionsAndCellTests_4.pgroup 7).state = 1 ∧ (wReactionsAndCellTests_4.pgroup 7).step1 = false ∧ (wReactionsAndCellTests_4.pgroup 7).reactAt + ((if (wReactionsAndCellTests_4.pgroup 7).hard then 0 else (wReactionsAndCellTests_4.pgroup 7).tSoft1) + (wReactionsAndCellTests_4.pgroup 7).tInner) * 10 ≤ 80 ∧ (wReactionsAndCellTests_4.pgroup 7).latchPend = true) ∧
    ((wReactionsAndCellTests_5.pgroup 7).state = 1 ∧ (wReactionsAndCellTests_5.pgroup 7).step1 = false ∧ (wReactionsAndCellTests_5.pgroup 7).reactAt + ((if (wReactionsAndCellTests_5.pgroup 7).hard then 0 else (wReactionsAndCellTests_5.pgroup 7).tSoft1) + (wReactionsAndCellTests_5.pgroup 7).tInner) * 10 ≤ 80 ∧ (wReactionsAndCellTests_5.pgroup 7).latchPend = false) ∧
    (79 < (wReactionsAndCellTests_6.pgroup 7).reactAt + ((if (wReactionsAndCellTests_6.pgroup 7).hard then 0 else (wReactionsAndCellTests_6.pgroup 7).tSoft1) + (wReactionsAndCellTests_6.pgroup 7).tInner) * 10) := by decide +kernel

def wReactionsAndCellTests_7 : State := State.advance 0 ({ s0 with prot := { s0.prot with groups := s0.prot.groups.set 7 { s0.pgroup 7 with state := 2, retryAt := 0, legs := [] } } })
def wReactionsAndCellTests_8 : State := State.advance 0 ({ s0 with prot := { s0.prot with groups := s0.prot.groups.set 0 { s0.pgroup 0 with state := 2, retryAt := 0, legs := [0], tries := 0, retries := 1 }, flts := s0.prot.flts.set 0 { s0.flt 0 with kind := 0, asserted := true } } })
def wReactionsAndCellTests_9 : State := State.advance 0 ({ s0 with prot := { s0.prot with groups := s0.prot.groups.set 0 { s0.pgroup 0 with state := 2, retryAt := 0, legs := [0], tries := 1, retries := 1 }, flts := s0.prot.flts.set 0 { s0.flt 0 with kind := 0, asserted := true } } })
def wReactionsAndCellTests_10 : State := State.advance 0 ({ s0 with prot := { s0.prot with groups := s0.prot.groups.set 7 { s0.pgroup 7 with state := 2, retryAt := 1 } } })
def wReactionsAndCellTests_11 : State := State.advance 1000000000 ({ s0 with prot := { s0.prot with groups := s0.prot.groups.set 7 { s0.pgroup 7 with state := 0, armedAt := 0, retryClear := 1 } } })
def wReactionsAndCellTests_12 : State := State.advance 999999999 ({ s0 with prot := { s0.prot with groups := s0.prot.groups.set 7 { s0.pgroup 7 with state := 0, armedAt := 0, retryClear := 1 } } })
theorem witness_ReactionsAndCellTests_2 :
    ((wReactionsAndCellTests_7.pgroup 7).state = 2 ∧ (wReactionsAndCellTests_7.pgroup 7).retryAt ≤ 0 ∧ (clearHeld 7 wReactionsAndCellTests_7).sourcesClear 7 = true) ∧
    ((wReactionsAndCellTests_8.pgroup 0).state = 2 ∧ (wReactionsAndCellTests_8.pgroup 0).retryAt ≤ 0 ∧ (clearHeld 0 wReactionsAndCellTests_8).sourcesClear 0 = false ∧ (wReactionsAndCellTests_8.pgroup 0).tries < (wReactionsAndCellTests_8.pgroup 0).retries) ∧
    ((wReactionsAndCellTests_9.pgroup 0).state = 2 ∧ (wReactionsAndCellTests_9.pgroup 0).retryAt ≤ 0 ∧ (clearHeld 0 wReactionsAndCellTests_9).sourcesClear 0 = false ∧ (wReactionsAndCellTests_9.pgroup 0).retries ≤ (wReactionsAndCellTests_9.pgroup 0).tries) ∧
    (0 < (wReactionsAndCellTests_10.pgroup 7).retryAt) ∧
    ((wReactionsAndCellTests_11.pgroup 7).state = 0 ∧ (wReactionsAndCellTests_11.pgroup 7).armedAt + (wReactionsAndCellTests_11.pgroup 7).retryClear * 1000000000 ≤ 1000000000) ∧
    (999999999 < (wReactionsAndCellTests_12.pgroup 7).armedAt + (wReactionsAndCellTests_12.pgroup 7).retryClear * 1000000000) := by decide +kernel

def wReactionsAndCellTests_13 : State := State.advance 0 ({ s0 with prot := { s0.prot with testNext := some 3 } })
def wReactionsAndCellTests_14 : State := State.advance 0 ({ s0 with sys := { s0.sys with domains := s0.sys.domains.set 7 0 } })
def wReactionsAndCellTests_15 : State := State.advance 0 ({ s0 with prot := { s0.prot with cmps := s0.prot.cmps.set 3 { Cmp.reset with cell := some 0 }, testCell := 0 } })
def wReactionsAndCellTests_16 : State := State.advance 0 ({ s0 with prot := { s0.prot with cellOk := List.replicate 52 false } })
def wReactionsAndCellTests_17 : State := State.advance 0 ({ s0 with prot := { s0.prot with cellOk := s0.prot.cellOk.set 51 false, cellOn := s0.prot.cellOn.set 51 true } })
def wReactionsAndCellTests_18 : State := State.advance 0 ({ s0 with prot := { s0.prot with cmpTest := [3], cmps := s0.prot.cmps.set 3 { Cmp.reset with cell := some 3, inForce := 100 } } })
theorem witness_ReactionsAndCellTests_3 :
    (wReactionsAndCellTests_13.d7Off = false ∧ wReactionsAndCellTests_13.prot.testNext = some 3) ∧
    (wReactionsAndCellTests_14.d7Off = true) ∧
    (wReactionsAndCellTests_15.d7Off = false ∧ wReactionsAndCellTests_15.prot.testNext = none ∧ wReactionsAndCellTests_15.testFrom wReactionsAndCellTests_15.prot.testCell = some 0 ∧ (wReactionsAndCellTests_15.modProt fun p => { p with testCell := (0 + 1) % 52, testCycles := if decide (0 < p.testCell) || 0 == 51 then (p.testCycles + 1) % 2 ^ 32 else p.testCycles }).cmpOf 0 = some 3 ∧ ((wReactionsAndCellTests_15.modProt fun p => { p with testCell := (0 + 1) % 52, testCycles := if decide (0 < p.testCell) || 0 == 51 then (p.testCycles + 1) % 2 ^ 32 else p.testCycles }).freeCell 3).isSome = true) ∧
    (wReactionsAndCellTests_16.prot.testNext = none ∧ wReactionsAndCellTests_16.testFrom wReactionsAndCellTests_16.prot.testCell = none) ∧
    (wReactionsAndCellTests_17.prot.cellOffAt.getD 51 0 ≤ 0 ∧ wReactionsAndCellTests_17.prot.cellOk.getD 51 true = false ∧ wReactionsAndCellTests_17.prot.cellOn.getD 51 false = true ∧ wReactionsAndCellTests_17.prot.cellOk.getD 50 true = true ∧ wReactionsAndCellTests_17.prot.cmpTest = []) ∧
    (wReactionsAndCellTests_18.prot.cmpTest = [3] ∧ (wReactionsAndCellTests_18.cmp 3).passes 100 100 200 = true) := by decide +kernel

def wRecorderHappenings_1 : State := State.advance 1 ({ s0 with recorder := { s0.recorder with trigs := s0.recorder.trigs.set 3 { Trig.reset with typ := 5, t := 1, periodMs := 0, fired := 0 } } })
def wRecorderHappenings_2 : State := State.advance 2000001 ({ s0 with recorder := { s0.recorder with trigs := s0.recorder.trigs.set 3 { Trig.reset with typ := 5, t := 1, periodMs := 2, fired := 1 } } })
def wRecorderHappenings_3 : State := State.advance 0 (s0)
def wRecorderHappenings_4 : State := State.advance 0 ({ s0 with recorder := { s0.recorder with cur := some cap0, state := 2, rep := false } })
def wRecorderHappenings_5 : State := State.advance 0 ({ s0 with recorder := { s0.recorder with cur := some cap0, state := 2, rep := true } })
def wRecorderHappenings_6 : State := State.advance 0 ({ s0 with recorder := { s0.recorder with cur := some { cap0 with tEnd := 1 } } })
theorem witness_RecorderHappenings_1 :
    ((wRecorderHappenings_1.trig 3).typ = 5 ∧ (wRecorderHappenings_1.trig 3).t ≤ 1 ∧ (wRecorderHappenings_1.trig 3).periodMs = 0 ∧ (wRecorderHappenings_1.trig 3).fired < (wRecorderHappenings_1.trig 3).t ∧ wRecorderHappenings_1.recWorks = true) ∧
    ((wRecorderHappenings_2.trig 3).typ = 5 ∧ 0 < (wRecorderHappenings_2.trig 3).periodMs ∧ 2000001 = (wRecorderHappenings_2.trig 3).t + 1 * ((wRecorderHappenings_2.trig 3).periodMs * 1000000) ∧ (wRecorderHappenings_2.trig 3).fired < 2000001 ∧ wRecorderHappenings_2.recWorks = true) ∧
    ((wRecorderHappenings_3.trig 3).typ ≠ 5 ∧ wRecorderHappenings_3.recorder.cur = none ∧ (wRecorderHappenings_3.recorder.maps.getD 1 PMap.reset).half = 0 ∧ (wRecorderHappenings_3.recorder.readouts.find? fun o => o.ring == 31) = none ∧ (wRecorderHappenings_3.ring 24).configured = false ∧ wRecorderHappenings_3.recorder.skew = none ∧ wRecorderHappenings_3.recWorks = true) ∧
    (wRecorderHappenings_4.recorder.cur = some cap0 ∧ wRecorderHappenings_4.recorder.state = 2 ∧ cap0.tEnd ≤ ((0 : Nat) : Int) ∧ (finishCapture 0 wRecorderHappenings_4).recorder.rep = false ∧ wRecorderHappenings_4.recWorks = true) ∧
    (wRecorderHappenings_5.recorder.cur = some cap0 ∧ wRecorderHappenings_5.recorder.state = 2 ∧ cap0.tEnd ≤ ((0 : Nat) : Int) ∧ (finishCapture 0 wRecorderHappenings_5).recorder.rep = true ∧ wRecorderHappenings_5.recWorks = true) ∧
    (wRecorderHappenings_6.recorder.cur = some { cap0 with tEnd := 1 } ∧ ((0 : Nat) : Int) < 1 ∧ wRecorderHappenings_6.recWorks = true) := by decide +kernel

def wRecorderHappenings_7 : State := State.advance 1000000000 ({ s0 with recorder := { s0.recorder with maps := s0.recorder.maps.set 1 { PMap.reset with half := 1, halvedAt := 0 } } })
def wRecorderHappenings_8 : State := State.advance 999999999 ({ s0 with recorder := { s0.recorder with maps := s0.recorder.maps.set 1 { PMap.reset with half := 1, halvedAt := 0 } } })
def wRecorderHappenings_9 : State := State.advance 0 ({ s0 with recorder := { s0.recorder with readouts := [{ cap := 0xFFFF, src := 3, sel := 0, ring := 24, recNo := 0, atT := 254 }] }, rings := s0.rings.set 24 { s0.ring 24 with configured := true, k := 4 } })
def wRecorderHappenings_10 : State := State.advance 0 ({ s0 with sys := { s0.sys with domains := s0.sys.domains.set 8 0 } })
def wRecorderHappenings_11 : State := State.advance 0 ({ s0 with recorder := { s0.recorder with skew := some { ref := 0, lanes := [1], level := 0, untilT := 5, reply := { src := .escape, image := 0, bytes := [] } } } })
theorem witness_RecorderHappenings_2 :
    ((wRecorderHappenings_7.recorder.maps.getD 1 PMap.reset).half ≠ 0 ∧ (wRecorderHappenings_7.recorder.maps.getD 1 PMap.reset).halvedAt + (wRecorderHappenings_7.recorder.maps.getD 1 PMap.reset).half * 1000000000 ≤ 1000000000 ∧ wRecorderHappenings_7.recWorks = true) ∧
    (999999999 < (wRecorderHappenings_8.recorder.maps.getD 1 PMap.reset).halvedAt + (wRecorderHappenings_8.recorder.maps.getD 1 PMap.reset).half * 1000000000 ∧ wRecorderHappenings_8.recWorks = true) ∧
    ((wRecorderHappenings_9.recorder.readouts.find? fun o => o.ring == 24) = some { cap := 0xFFFF, src := 3, sel := 0, ring := 24, recNo := 0, atT := 254 } ∧ (wRecorderHappenings_9.ring 24).configured = true ∧ (wRecorderHappenings_9.ring 24).full = false ∧ 254 < 255 ∧ wRecorderHappenings_9.recWorks = true) ∧
    (wRecorderHappenings_10.recWorks = false) ∧
    (wRecorderHappenings_11.recorder.skew = some { ref := 0, lanes := [1], level := 0, untilT := 5, reply := { src := .escape, image := 0, bytes := [] } } ∧ 4 < 5 ∧ 5 ≤ 5 ∧ wRecorderHappenings_11.recWorks = true) := by decide +kernel

def wSafetyInputHappenings_1 : State := State.advance 0 (s0)
def wSafetyInputHappenings_2 : State := State.advance 0 ({ s0 with safety := { s0.safety with tpaAt := 1, tpbAt := 0 } })
def wSafetyInputHappenings_3 : State := State.advance 0 (paired 2 0)
def wSafetyInputHappenings_4 : State := State.advance 0 (paired 0 0)
def wSafetyInputHappenings_5 : State := State.advance 65535100000 ({ s0 with safety := { s0.safety with conns := s0.safety.conns.set 3 { s0.conn 3 with state := 2, due := true, lastAt := 0, missed := false } } })
def wSafetyInputHappenings_6 : State := State.advance 0 ({ s0 with safety := { s0.safety with conns := s0.safety.conns.set 3 { s0.conn 3 with state := 2, due := true, lastAt := 1, missed := false } } })
theorem witness_SafetyInputHappenings_1 :
    ((feedbackLate 0 0 wSafetyInputHappenings_1 = wSafetyInputHappenings_1 ∧ feedbackLate 0 1 wSafetyInputHappenings_1 = wSafetyInputHappenings_1 ∧ feedbackLate 0 2 wSafetyInputHappenings_1 = wSafetyInputHappenings_1 ∧ feedbackLate 0 3 wSafetyInputHappenings_1 = wSafetyInputHappenings_1) ∧ wSafetyInputHappenings_1.pulseDue 0 0 = true ∧ wSafetyInputHappenings_1.domainOn 9 = true) ∧
    (wSafetyInputHappenings_2.pulseDue 10000000000 1 = true ∧ wSafetyInputHappenings_2.pulseDue 2 0 = false ∧ wSafetyInputHappenings_2.domainOn 9 = true) ∧
    (wSafetyInputHappenings_3.demandPair 0 = true ∧ wSafetyInputHappenings_3.discrepancy 0 ≤ (wSafetyInputHappenings_3.pair 0).disagree ∧ 0 < (wSafetyInputHappenings_3.pair 0).disagree ∧ (wSafetyInputHappenings_3.pair 0).fault = 0 ∧ wSafetyInputHappenings_3.domainOn 9 = true) ∧
    ((wSafetyInputHappenings_4.pair 0).disagree < wSafetyInputHappenings_4.discrepancy 0 ∧ wSafetyInputHappenings_4.domainOn 9 = true) ∧
    ((wSafetyInputHappenings_5.conn 3).state = 2 ∧ (wSafetyInputHappenings_5.conn 3).due = true ∧ (wSafetyInputHappenings_5.conn 3).lastAt + connTExp wSafetyInputHappenings_5.safety.active 3 * 1000000 + 100000 ≤ 65535100000 ∧ wSafetyInputHappenings_5.domainOn 9 = true) ∧
    ((wSafetyInputHappenings_6.conn 3).missed = false ∧ 0 < (wSafetyInputHappenings_6.conn 3).lastAt + connTExp wSafetyInputHappenings_6.safety.active 3 * 1000000 + 100000 ∧ wSafetyInputHappenings_6.domainOn 9 = true) := by decide +kernel

def wSafetyInputHappenings_7 : State := State.advance 0 ({ s0 with safety := { s0.safety with conns := s0.safety.conns.set 3 { s0.conn 3 with state := 2, due := true, missed := true } } })
def wSafetyInputHappenings_8 : State := State.advance 0 ({ s0 with sys := { s0.sys with domains := s0.sys.domains.set 9 0 } })
def wSafetyInputHappenings_9 : State := State.advance 0 (s0)
def wSafetyInputHappenings_10 : State := State.advance 65535000000 ({ s0 with safety := { s0.safety with conns := s0.safety.conns.set 0 { s0.conn 0 with state := 1, prodAt := 0 } }, net := { s0.net with binds := s0.net.binds.set 0 { Bind.reset with bound := true } } })
def wSafetyInputHappenings_11 : State := State.advance 0 ({ s0 with safety := { s0.safety with conns := s0.safety.conns.set 0 { s0.conn 0 with prodAt := 1 } } })
def wSafetyInputHappenings_12 : State := State.advance 0 (connected)
theorem witness_SafetyInputHappenings_2 :
    ((wSafetyInputHappenings_7.conn 3).state = 2 ∧ (wSafetyInputHappenings_7.conn 3).due = true ∧ (wSafetyInputHappenings_7.conn 3).missed = true ∧ wSafetyInputHappenings_7.domainOn 9 = true) ∧
    (wSafetyInputHappenings_8.domainOn 9 = false) ∧
    (((wSafetyInputHappenings_9.conn 0).due = false) ∧ (wSafetyInputHappenings_9.conn 0).prodAt + connPeriod wSafetyInputHappenings_9.safety.active 0 * 1000000 ≤ 65535000000 ∧ (wSafetyInputHappenings_9.conn 0).state = 0 ∧ wSafetyInputHappenings_9.pduConn (zeros 16) 0 [] = none ∧ 0 < wSafetyInputHappenings_9.safety.lastCmd + 600000000000 ∧ wSafetyInputHappenings_9.domainOn 9 = true) ∧
    ((wSafetyInputHappenings_10.conn 0).prodAt + connPeriod wSafetyInputHappenings_10.safety.active 0 * 1000000 ≤ 65535000000 ∧ (wSafetyInputHappenings_10.conn 0).state ≠ 0 ∧ (wSafetyInputHappenings_10.net.binds.getD 0 Bind.reset).bound = true ∧ wSafetyInputHappenings_10.domainOn 9 = true) ∧
    (0 < (wSafetyInputHappenings_11.conn 0).prodAt + connPeriod wSafetyInputHappenings_11.safety.active 0 * 1000000 ∧ wSafetyInputHappenings_11.domainOn 9 = true) ∧
    ((let crc := scrc ((zeros 12).take 4 ++ connSig wSafetyInputHappenings_12.safety.active 0 ++ slice (zeros 12) 4 (4 + u8 (zeros 12) 7)); let gap := (u16 (zeros 12) 4 + 65536 - (wSafetyInputHappenings_12.conn 0).seq) % 65536; wSafetyInputHappenings_12.pduConn (zeros 4) 0 (zeros 12) = some 0 ∧ (zeros 12).length = 12 + u8 (zeros 12) 7 ∧ u8 (zeros 12) 7 ≤ 64 ∧ crc ≠ u32 (zeros 12) (8 + u8 (zeros 12) 7)) ∧ (zeros 11).length ≠ 12 + u8 (zeros 11) 7 ∧ wSafetyInputHappenings_12.domainOn 9 = true) := by decide +kernel

def wSafetyInputHappenings_13 : State := State.advance 0 (connected)
def wSafetyInputHappenings_14 : State := State.advance 0 (connected)
def wSafetyInputHappenings_15 : State := State.advance 0 (connected)
def wSafetyInputHappenings_16 : State := State.advance 0 (connected)
def wSafetyInputHappenings_17 : State := State.advance 600000000000 ({ s0 with safety := { s0.safety with unlocked := some 1 } })
theorem witness_SafetyInputHappenings_3 :
    ((let crc := scrc ((pduOf 0 0).take 4 ++ connSig wSafetyInputHappenings_13.safety.active 0 ++ slice (pduOf 0 0) 4 (4 + u8 (pduOf 0 0) 7)); let gap := (u16 (pduOf 0 0) 4 + 65536 - (wSafetyInputHappenings_13.conn 0).seq) % 65536; wSafetyInputHappenings_13.pduConn (zeros 4) 0 (pduOf 0 0) = some 0 ∧ (pduOf 0 0).length = 12 + u8 (pduOf 0 0) 7 ∧ u8 (pduOf 0 0) 7 ≤ 64 ∧ crc = u32 (pduOf 0 0) (8 + u8 (pduOf 0 0) 7) ∧ bit (u8 (pduOf 0 0) 6) 2 = false ∧ gap = 0) ∧ wSafetyInputHappenings_13.domainOn 9 = true) ∧
    ((let crc := scrc ((pduOf 17 0).take 4 ++ connSig wSafetyInputHappenings_14.safety.active 0 ++ slice (pduOf 17 0) 4 (4 + u8 (pduOf 17 0) 7)); let gap := (u16 (pduOf 17 0) 4 + 65536 - (wSafetyInputHappenings_14.conn 0).seq) % 65536; wSafetyInputHappenings_14.pduConn (zeros 4) 0 (pduOf 17 0) = some 0 ∧ (pduOf 17 0).length = 12 + u8 (pduOf 17 0) 7 ∧ u8 (pduOf 17 0) 7 ≤ 64 ∧ crc = u32 (pduOf 17 0) (8 + u8 (pduOf 17 0) 7) ∧ bit (u8 (pduOf 17 0) 6) 2 = false ∧ connSeqWin wSafetyInputHappenings_14.safety.active 0 < gap) ∧ wSafetyInputHappenings_14.domainOn 9 = true) ∧
    ((let crc := scrc ((pduOf 16 0).take 4 ++ connSig wSafetyInputHappenings_15.safety.active 0 ++ slice (pduOf 16 0) 4 (4 + u8 (pduOf 16 0) 7)); let gap := (u16 (pduOf 16 0) 4 + 65536 - (wSafetyInputHappenings_15.conn 0).seq) % 65536; wSafetyInputHappenings_15.pduConn (zeros 4) 0 (pduOf 16 0) = some 0 ∧ (pduOf 16 0).length = 12 + u8 (pduOf 16 0) 7 ∧ u8 (pduOf 16 0) 7 ≤ 64 ∧ crc = u32 (pduOf 16 0) (8 + u8 (pduOf 16 0) 7) ∧ (gap ≠ 0 ∧ gap ≤ connSeqWin wSafetyInputHappenings_15.safety.active 0) ∧ u8 (pduOf 16 0) 6 / 16 = 0) ∧ wSafetyInputHappenings_15.domainOn 9 = true) ∧
    ((let crc := scrc ((pduOf 0 4).take 4 ++ connSig wSafetyInputHappenings_16.safety.active 0 ++ slice (pduOf 0 4) 4 (4 + u8 (pduOf 0 4) 7)); let gap := (u16 (pduOf 0 4) 4 + 65536 - (wSafetyInputHappenings_16.conn 0).seq) % 65536; wSafetyInputHappenings_16.pduConn (zeros 4) 0 (pduOf 0 4) = some 0 ∧ (pduOf 0 4).length = 12 + u8 (pduOf 0 4) 7 ∧ u8 (pduOf 0 4) 7 ≤ 64 ∧ crc = u32 (pduOf 0 4) (8 + u8 (pduOf 0 4) 7) ∧ bit (u8 (pduOf 0 4) 6) 2 = true ∧ u8 (pduOf 0 4) 6 / 16 = 0) ∧ wSafetyInputHappenings_16.domainOn 9 = true) ∧
    (wSafetyInputHappenings_17.safety.unlocked = some 1 ∧ wSafetyInputHappenings_17.safety.lastCmd + 600000000000 ≤ 600000000000 ∧ wSafetyInputHappenings_17.domainOn 9 = true) := by decide +kernel

def wSafetyOutputHappenings_1 : State := State.advance 199999 ({ s0 with safety := { s0.safety with outs := s0.safety.outs.set 3 { SOut.reset with chgAt := 0 } } })
def wSafetyOutputHappenings_2 : State := State.advance 200000 ({ s0 with safety := { s0.safety with outs := s0.safety.outs.set 3 { SOut.reset with chgAt := 0 } } })
def wSafetyOutputHappenings_3 : State := State.advance 200000 ({ s0 with safety := { s0.safety with outs := s0.safety.outs.set 3 { SOut.reset with chgAt := 0, mism := 3 } } })
def wSafetyOutputHappenings_4 : State := State.advance 200000 ({ s0 with safety := { s0.safety with outs := s0.safety.outs.set 3 { SOut.reset with chgAt := 0, soh := true, sol := true, state := 1 } } })
def wSafetyOutputHappenings_5 : State := State.advance 0 ({ s0 with safety := { s0.safety with outs := s0.safety.outs.set 3 { SOut.reset with mism := 4 } } })
def wSafetyOutputHappenings_6 : State := State.advance 10000000 ({ s0 with safety := { s0.safety with outs := s0.safety.outs.set 3 { SOut.reset with openLoadAt := some 0 } } })
theorem witness_SafetyOutputHappenings_1 :
    (199999 < (wSafetyOutputHappenings_1.out 3).chgAt + 200000 ∧ ((wSafetyOutputHappenings_1.out 3).soh = false ∨ (wSafetyOutputHappenings_1.out 3).sol = false) ∧ (wSafetyOutputHappenings_1.out 3).mism < 4 ∧ (wSafetyOutputHappenings_1.out 3).openLoadAt = none ∧ (wSafetyOutputHappenings_1.out 3).light = 0 ∧ (wSafetyOutputHappenings_1.out 3).dark = 0 ∧ wSafetyOutputHappenings_1.feedback 3 = none) ∧
    ((wSafetyOutputHappenings_2.out 3).chgAt + 200000 ≤ 200000 ∧ (wSafetyOutputHappenings_2.out 3).soh = false ∧ ((wSafetyOutputHappenings_2.out 3).pinOk 5000 24000 && (wSafetyOutputHappenings_2.out 3).currentOk 0) = false ∧ (wSafetyOutputHappenings_2.out 3).mism < 3) ∧
    ((wSafetyOutputHappenings_3.out 3).chgAt + 200000 ≤ 200000 ∧ (wSafetyOutputHappenings_3.out 3).soh = false ∧ ((wSafetyOutputHappenings_3.out 3).pinOk 5000 24000 && (wSafetyOutputHappenings_3.out 3).currentOk 0) = false ∧ (wSafetyOutputHappenings_3.out 3).mism = 3) ∧
    ((wSafetyOutputHappenings_4.out 3).chgAt + 200000 ≤ 200000 ∧ (wSafetyOutputHappenings_4.out 3).soh = true ∧ (wSafetyOutputHappenings_4.out 3).sol = true ∧ (wSafetyOutputHappenings_4.out 3).state = 1 ∧ (wSafetyOutputHappenings_4.out 3).light = 0 ∧ wSafetyOutputHappenings_4.feedback 3 = none ∧ ((wSafetyOutputHappenings_4.out 3).pinOk 24000 24000 && (wSafetyOutputHappenings_4.out 3).currentOk 10000) = true) ∧
    (4 ≤ (wSafetyOutputHappenings_5.out 3).mism) ∧
    ((wSafetyOutputHappenings_6.out 3).mism < 4 ∧ (wSafetyOutputHappenings_6.out 3).openLoadAt = some 0 ∧ 0 + 10000000 ≤ 10000000) := by decide +kernel

def wSafetyOutputHappenings_7 : State := State.advance 300000 ({ s0 with safety := { s0.safety with heartbeat := true, outs := s0.safety.outs.set 3 { SOut.reset with chgAt := 0, light := 1, soh := true } } })
def wSafetyOutputHappenings_8 : State := State.advance 300000 ({ s0 with safety := { s0.safety with heartbeat := true, outs := s0.safety.outs.set 3 { SOut.reset with chgAt := 0, light := 2, sol := true } } })
def wSafetyOutputHappenings_9 : State := State.advance 299999 ({ s0 with safety := { s0.safety with heartbeat := true, outs := s0.safety.outs.set 3 { SOut.reset with chgAt := 0, light := 1, soh := true } } })
def wSafetyOutputHappenings_10 : State := State.advance 0 ({ s0 with safety := { s0.safety with outs := s0.safety.outs.set 3 { SOut.reset with light := 1, dark := 1 } } })
def wSafetyOutputHappenings_11 : State := State.advance 300000 ({ s0 with safety := { s0.safety with heartbeat := true, outs := s0.safety.outs.set 3 { SOut.reset with chgAt := 0, dark := 1 } } })
def wSafetyOutputHappenings_12 : State := State.advance 10000000 ({ s0 with safety := { s0.safety with heartbeat := true, outs := s0.safety.outs.set 3 { SOut.reset with chgAt := 0, dark := 2 } } })
theorem witness_SafetyOutputHappenings_2 :
    (wSafetyOutputHappenings_7.canDrive = true ∧ (wSafetyOutputHappenings_7.out 3).chgAt + 300000 ≤ 300000 ∧ (wSafetyOutputHappenings_7.out 3).light = 1 ∧ ((wSafetyOutputHappenings_7.out 3).pinOk 24000 24000 && (wSafetyOutputHappenings_7.out 3).currentOk 0) = true ∧ ((wSafetyOutputHappenings_7.out 3).pinOk 0 24000 && (wSafetyOutputHappenings_7.out 3).currentOk 0) = false) ∧
    (wSafetyOutputHappenings_8.canDrive = true ∧ (wSafetyOutputHappenings_8.out 3).chgAt + 300000 ≤ 300000 ∧ (wSafetyOutputHappenings_8.out 3).light = 2 ∧ ((wSafetyOutputHappenings_8.out 3).pinOk 0 24000 && (wSafetyOutputHappenings_8.out 3).currentOk 0) = true) ∧
    (299999 < (wSafetyOutputHappenings_9.out 3).chgAt + 300000) ∧
    (wSafetyOutputHappenings_10.canDrive = false) ∧
    (wSafetyOutputHappenings_11.canDrive = true ∧ (wSafetyOutputHappenings_11.out 3).chgAt + 300000 ≤ 300000 ∧ (wSafetyOutputHappenings_11.out 3).dark = 1 ∧ 1999 < 2000 ∧ 2000 ≤ 2000) ∧
    (wSafetyOutputHappenings_12.canDrive = true ∧ (wSafetyOutputHappenings_12.out 3).chgAt + 10000000 ≤ 10000000 ∧ (wSafetyOutputHappenings_12.out 3).dark = 2) := by decide +kernel

def wSafetyOutputHappenings_13 : State := State.advance 300000 ({ s0 with safety := { s0.safety with heartbeat := true, outs := s0.safety.outs.set 3 { SOut.reset with chgAt := 0, dark := 3 } } })
def wSafetyOutputHappenings_14 : State := State.advance 299999 ({ s0 with safety := { s0.safety with heartbeat := true, outs := s0.safety.outs.set 3 { SOut.reset with chgAt := 0, dark := 3 } } })
def wSafetyOutputHappenings_15 : State := State.advance 65535000000 (fedBack 3)
def wSafetyOutputHappenings_16 : State := State.advance 65535000000 (fedBack 1)
def wSafetyOutputHappenings_17 : State := State.advance 0 ({ s0 with safety := { s0.safety with otAt := 1 } })
def wSafetyOutputHappenings_18 : State := State.advance 0 (s0)
theorem witness_SafetyOutputHappenings_3 :
    (wSafetyOutputHappenings_13.canDrive = true ∧ (wSafetyOutputHappenings_13.out 3).chgAt + 300000 ≤ 300000 ∧ (wSafetyOutputHappenings_13.out 3).dark = 3 ∧ 4999 < 5000 ∧ 5000 ≤ 5000) ∧
    (299999 < (wSafetyOutputHappenings_14.out 3).chgAt + 300000) ∧
    (wSafetyOutputHappenings_15.feedback 0 = some 1 ∧ (wSafetyOutputHappenings_15.out 0).state = 3 ∧ (wSafetyOutputHappenings_15.out 0).waitAt + wSafetyOutputHappenings_15.tOpen 0 * 1000000 ≤ 65535000000) ∧
    (wSafetyOutputHappenings_16.feedback 0 = some 1 ∧ (wSafetyOutputHappenings_16.out 0).state = 1 ∧ (wSafetyOutputHappenings_16.out 0).waitAt + wSafetyOutputHappenings_16.tClose 0 * 1000000 ≤ 65535000000) ∧
    (wSafetyOutputHappenings_17.safety.otAt + otPeriod wSafetyOutputHappenings_17.safety.active * 1000000000 ≤ 65536000000000 ∧ 0 < wSafetyOutputHappenings_17.safety.otAt + otPeriod wSafetyOutputHappenings_17.safety.active * 1000000000) ∧
    (((wSafetyOutputHappenings_18.out 3).state ≠ 4 ∨ (wSafetyOutputHappenings_18.out 3).recover = true) ∧ 3 < wSafetyOutputHappenings_18.safety.outs.length) := by decide +kernel

def wFleetHappenings_1 : State := State.advance 3000000000 ({ s0 with net := { s0.net with peers := [{ addr := 9, serial := zeros 8, amp := 0, mode := 0, aflags := 0, heard := 0, counter := 1 }], announceS := 1 } })
def wFleetHappenings_2 : State := State.advance 2999999999 ({ s0 with net := { s0.net with peers := [{ addr := 9, serial := zeros 8, amp := 0, mode := 0, aflags := 0, heard := 0, counter := 1 }], announceS := 1 } })
def wFleetHappenings_3 : State := State.advance 0 (s0)
def wFleetHappenings_4 : State := State.advance 0 ({ s0 with sys := { s0.sys with domains := s0.sys.domains.set 9 0 } })
def wFleetHappenings_5 : State := State.advance 0 ({ s0 with net := { s0.net with authority := true, dispatchers := [9], managers := [9], expiry := some 0 } })
def wFleetHappenings_6 : State := State.advance 0 ({ s0 with net := { s0.net with expiry := some 1 } })
theorem witness_FleetHappenings_1 :
    ((zeros 16).length = 16 ∧ wFleetHappenings_1.d9On = true ∧ wFleetHappenings_1.net.addr ≠ some 9 ∧ bit (u8 (zeros 16) 11) 1 = false ∧ bit (u8 (List.replicate 16 2) 11) 1 = true ∧ (wFleetHappenings_1.net.peers.any fun p => p.addr == 9) = true ∧ (wFleetHappenings_1.net.peers.any fun p => p.addr == 9 && decide (p.heard + 3000000000 * wFleetHappenings_1.net.announceS ≤ 3000000000)) = true ∧ wFleetHappenings_1.d9On = true) ∧
    ((wFleetHappenings_2.net.peers.any fun p => p.addr == 9 && decide (p.heard + 3000000000 * wFleetHappenings_2.net.announceS ≤ 2999999999)) = false ∧ wFleetHappenings_2.d9On = true) ∧
    ((zeros 16).length = 16 ∧ wFleetHappenings_3.d9On = true ∧ wFleetHappenings_3.net.addr ≠ some 9 ∧ (wFleetHappenings_3.net.peers.any fun p => p.addr == 9) = false ∧ wFleetHappenings_3.net.peers.length < 4096 ∧ wFleetHappenings_3.sys.ready = true ∧ (wFleetHappenings_3.net.authority && wFleetHappenings_3.net.dispatchers.contains 9) = false ∧ wFleetHappenings_3.net.managers.contains 9 = false ∧ wFleetHappenings_3.net.expiry = none ∧ wFleetHappenings_3.isFrozen 3 = false ∧ (zeros 24).length = 24 ∧ wFleetHappenings_3.d9On = true) ∧
    (wFleetHappenings_4.d9On = false) ∧
    ((zeros 24).length = 24 ∧ wFleetHappenings_5.sys.ready = true ∧ wFleetHappenings_5.d9On = true ∧ wFleetHappenings_5.net.authority = true ∧ wFleetHappenings_5.net.dispatchers.contains 9 = true ∧ wFleetHappenings_5.net.managers.contains 9 = true ∧ wFleetHappenings_5.net.expiry = some 0 ∧ 0 ≤ 0 ∧ (zeros 1412).length ≤ 1412 ∧ wFleetHappenings_5.d9On = true) ∧
    (wFleetHappenings_6.net.expiry = some 1 ∧ 0 < 1 ∧ wFleetHappenings_6.d9On = true) := by decide +kernel

def wFleetHappenings_7 : State := State.advance 0 ({ s0 with net := { s0.net with addr := some 9 } })
def wFleetHappenings_8 : State := State.advance 1000000000 ({ s0 with net := { s0.net with announcedAt := 0, announceS := 1 } })
def wFleetHappenings_9 : State := State.advance 999999999 ({ s0 with net := { s0.net with announcedAt := 0, announceS := 1 } })
theorem witness_FleetHappenings_2 :
    (wFleetHappenings_7.net.addr = some 9 ∧ slice (zeros 16) 0 8 = fit 8 (wFleetHappenings_7.mem.serial.getD []) ∧ wFleetHappenings_7.d9On = true) ∧
    (wFleetHappenings_8.sys.ready = true ∧ wFleetHappenings_8.d9On = true ∧ wFleetHappenings_8.isFrozen 3 = false ∧ wFleetHappenings_8.net.announcedAt + wFleetHappenings_8.net.announceS * 1000000000 ≤ 1000000000 ∧ wFleetHappenings_8.d9On = true) ∧
    (999999999 < wFleetHappenings_9.net.announcedAt + wFleetHappenings_9.net.announceS * 1000000000 ∧ wFleetHappenings_9.d9On = true) := by decide +kernel

def wNetworkHappenings_1 : State := State.advance 0 ({ s0 with net := { s0.net with ports := s0.net.ports.set 1 { s0.port 1 with enable := true, up := true } }, clk := { s0.clk with sources := s0.clk.sources.set 9 2 } })
def wNetworkHappenings_2 : State := State.advance 0 ({ s0 with sys := { s0.sys with domains := s0.sys.domains.set 9 0 } })
def wNetworkHappenings_3 : State := State.advance 0 ({ s0 with net := { s0.net with cans := s0.net.cans.set 1 { CanCtl.reset with role := 2 } } })
def wNetworkHappenings_4 : State := State.advance 0 ({ s0 with net := { s0.net with cans := s0.net.cans.set 1 { CanCtl.reset with role := 1 } } })
def wNetworkHappenings_5 : State := State.advance 0 ({ s0 with net := { s0.net with ports := (s0.net.ports.set 0 { s0.port 0 with enable := true, up := true }).set 1 { s0.port 1 with enable := true, failover := true, up := true }, active := 0 } })
def wNetworkHappenings_6 : State := State.advance 0 (s0)
theorem witness_NetworkHappenings_1 :
    (wNetworkHappenings_1.d9On = true ∧ (wNetworkHappenings_1.port 1).enable = true ∧ (wNetworkHappenings_1.port 1).up = true ∧ wNetworkHappenings_1.isFrozen 3 = false ∧ wNetworkHappenings_1.clk.sources.getD 9 0 = 2 ∧ wNetworkHappenings_1.canSend 33 = true ∧ wNetworkHappenings_1.canSend 32 = false ∧ wNetworkHappenings_1.d9On = true) ∧
    (wNetworkHappenings_2.d9On = false) ∧
    (wNetworkHappenings_3.d9On = true ∧ (wNetworkHappenings_3.net.cans.getD 1 CanCtl.reset).busOff = false ∧ wNetworkHappenings_3.isFrozen 3 = false ∧ (wNetworkHappenings_3.net.cans.getD 1 CanCtl.reset).role = 2 ∧ wNetworkHappenings_3.host.uartHost = false ∧ wNetworkHappenings_3.d9On = true) ∧
    (wNetworkHappenings_4.d9On = true ∧ (wNetworkHappenings_4.net.cans.getD 1 CanCtl.reset).busOff = false ∧ wNetworkHappenings_4.isFrozen 3 = false ∧ (wNetworkHappenings_4.net.cans.getD 1 CanCtl.reset).role = 1 ∧ 0x1B5D0000 / 65536 ≠ 0x1B5C ∧ wNetworkHappenings_4.d9On = true) ∧
    ((wNetworkHappenings_5.port 0).up = true ∧ wNetworkHappenings_5.failover = true ∧ wNetworkHappenings_5.net.active = 0 ∧ wNetworkHappenings_5.d9On = true) ∧
    ((wNetworkHappenings_6.port 0).up = false ∧ wNetworkHappenings_6.d9On = true) := by decide +kernel

def wNetworkHappenings_7 : State := State.advance 0 ({ s0 with net := { s0.net with cans := s0.net.cans.set 1 { CanCtl.reset with busOff := true } } })
def wNetworkHappenings_8 : State := State.advance 5000000000 ({ s0 with net := { s0.net with ptpLocked := true, ptpLastAt := 0 } })
def wNetworkHappenings_9 : State := State.advance 4999999999 ({ s0 with net := { s0.net with ptpLocked := true, ptpLastAt := 0 } })
theorem witness_NetworkHappenings_2 :
    ((wNetworkHappenings_7.net.cans.getD 1 CanCtl.reset).busOff = true ∧ (wNetworkHappenings_7.net.cans.getD 0 CanCtl.reset).busOff = false ∧ wNetworkHappenings_7.d9On = true) ∧
    (wNetworkHappenings_8.net.ptpLocked = true ∧ wNetworkHappenings_8.net.ptpLastAt + 5000000000 ≤ 5000000000 ∧ wNetworkHappenings_8.d9On = true) ∧
    (4999999999 < wNetworkHappenings_9.net.ptpLastAt + 5000000000 ∧ wNetworkHappenings_9.d9On = true) := by decide +kernel

def wCoolingHappenings_1 : State := State.advance 0 ({ s0 with sys := { s0.sys with domains := s0.sys.domains.set 6 0 } })
def wCoolingHappenings_2 : State := State.advance 1000000 ({ s0 with cool := { s0.cool with drives := s0.cool.drives.set 1 { drive0 1 with stateAt := 0 } } })
def wCoolingHappenings_3 : State := State.advance 999999 ({ s0 with cool := { s0.cool with drives := s0.cool.drives.set 1 { drive0 1 with stateAt := 0 } } })
def wCoolingHappenings_4 : State := State.advance 10000000 ({ s0 with cool := { s0.cool with drives := s0.cool.drives.set 1 { drive0 2 with stateAt := 0 } } })
def wCoolingHappenings_5 : State := State.advance 0 (s0)
def wCoolingHappenings_6 : State := State.advance 5 ({ s0 with cool := { s0.cool with drives := s0.cool.drives.set 1 { drive0 4 with commAt := 5 } } })
theorem witness_CoolingHappenings_1 :
    (wCoolingHappenings_1.domainOn 6 = false) ∧
    (1 < 2 ∧ (wCoolingHappenings_2.drive 1).state = 1 ∧ (wCoolingHappenings_2.drive 1).stateAt + 1000000 ≤ 1000000 ∧ (wCoolingHappenings_2.drive 1).lockouts = [] ∧ wCoolingHappenings_2.domainOn 6 = true) ∧
    (999999 < (wCoolingHappenings_3.drive 1).stateAt + 1000000 ∧ wCoolingHappenings_3.domainOn 6 = true) ∧
    ((wCoolingHappenings_4.drive 1).cfg = (drive0 0).cfg ∧ (wCoolingHappenings_4.drive 1).state = 2 ∧ ((drive0 0).cfg.all fun c => decide ((wCoolingHappenings_4.drive 1).stateAt + c.tAlign * 1000000 ≤ 10000000)) = true ∧ wCoolingHappenings_4.domainOn 6 = true) ∧
    ((wCoolingHappenings_5.drive 1).state ≠ 2 ∧ (wCoolingHappenings_5.drive 1).state ≠ 4 ∧ (wCoolingHappenings_5.drive 1).state ≠ 5 ∧ (wCoolingHappenings_5.drive 1).state < 2 ∧ (wCoolingHappenings_5.drive 1).state = 0 ∧ wCoolingHappenings_5.domainOn 6 = true) ∧
    ((wCoolingHappenings_6.drive 1).cfg = (drive0 0).cfg ∧ (wCoolingHappenings_6.drive 1).state = 4 ∧ (wCoolingHappenings_6.drive 1).commAt ≠ 0 ∧ (wCoolingHappenings_6.drive 1).commAt ≤ 5 ∧ wCoolingHappenings_6.domainOn 6 = true) := by decide +kernel

def wCoolingHappenings_7 : State := State.advance 4 ({ s0 with cool := { s0.cool with drives := s0.cool.drives.set 1 { drive0 4 with commAt := 5 } } })
def wCoolingHappenings_8 : State := State.advance 1000000 ({ s0 with cool := { s0.cool with drives := s0.cool.drives.set 1 { drive0 3 with stateAt := 0, rampSteps := 0 } } })
def wCoolingHappenings_9 : State := State.advance 19900000000 ({ s0 with cool := { s0.cool with drives := s0.cool.drives.set 1 { drive0 3 with stateAt := 0, rampSteps := 0 } } })
def wCoolingHappenings_10 : State := State.advance 20000000000 ({ s0 with cool := { s0.cool with drives := s0.cool.drives.set 1 { drive0 3 with stateAt := 0, rampSteps := 0 } } })
def wCoolingHappenings_11 : State := State.advance 49 ({ s0 with cool := { s0.cool with drives := s0.cool.drives.set 1 { drive0 4 with stepNs := 1000, lastComm := 0, lastCross := 0, misses := 0 } } })
def wCoolingHappenings_12 : State := State.advance 50 ({ s0 with cool := { s0.cool with drives := s0.cool.drives.set 1 { drive0 4 with stepNs := 1000, lastComm := 0, lastCross := 0, misses := 0 } } })
theorem witness_CoolingHappenings_2 :
    ((wCoolingHappenings_7.drive 1).state = 4 ∧ 4 < (wCoolingHappenings_7.drive 1).commAt ∧ wCoolingHappenings_7.domainOn 6 = true) ∧
    ((wCoolingHappenings_8.drive 1).cfg = (drive0 0).cfg ∧ (wCoolingHappenings_8.drive 1).state = 3 ∧ ((drive0 0).cfg.all fun c => decide (c.rampTurns (wCoolingHappenings_8.d6Since (wCoolingHappenings_8.drive 1).stateAt 1000000) ≤ (wCoolingHappenings_8.drive 1).rampSteps)) = true ∧ wCoolingHappenings_8.domainOn 6 = true) ∧
    ((wCoolingHappenings_9.drive 1).cfg = (drive0 0).cfg ∧ (wCoolingHappenings_9.drive 1).state = 3 ∧ ((drive0 0).cfg.all fun c => decide ((wCoolingHappenings_9.drive 1).rampSteps < c.rampTurns (wCoolingHappenings_9.d6Since (wCoolingHappenings_9.drive 1).stateAt 19900000000)) && decide (c.rampSpeed (wCoolingHappenings_9.d6Since (wCoolingHappenings_9.drive 1).stateAt 19900000000) < 2 * c.handover)) = true ∧ wCoolingHappenings_9.domainOn 6 = true) ∧
    ((wCoolingHappenings_10.drive 1).cfg = (drive0 0).cfg ∧ (wCoolingHappenings_10.drive 1).state = 3 ∧ ((drive0 0).cfg.all fun c => decide ((wCoolingHappenings_10.drive 1).rampSteps < c.rampTurns (wCoolingHappenings_10.d6Since (wCoolingHappenings_10.drive 1).stateAt 20000000000)) && decide (2 * c.handover ≤ c.rampSpeed (wCoolingHappenings_10.d6Since (wCoolingHappenings_10.drive 1).stateAt 20000000000))) = true ∧ wCoolingHappenings_10.domainOn 6 = true) ∧
    ((wCoolingHappenings_11.drive 1).cfg = (drive0 0).cfg ∧ (wCoolingHappenings_11.drive 1).state = 4 ∧ ((drive0 0).cfg.all fun c => decide (49 < (wCoolingHappenings_11.drive 1).lastComm + (wCoolingHappenings_11.drive 1).stepNs * (c.tEdge + 5) / 100)) = true ∧ wCoolingHappenings_11.domainOn 6 = true) ∧
    ((wCoolingHappenings_12.drive 1).cfg = (drive0 0).cfg ∧ (wCoolingHappenings_12.drive 1).state = 4 ∧ ((drive0 0).cfg.all fun c => decide ((wCoolingHappenings_12.drive 1).lastComm + (wCoolingHappenings_12.drive 1).stepNs * (c.tEdge + 5) / 100 ≤ 50)) = true ∧ wCoolingHappenings_12.domainOn 6 = true) := by decide +kernel

def wCoolingHappenings_13 : State := State.advance 50 ({ s0 with cool := { s0.cool with drives := s0.cool.drives.set 1 { drive0 3 with stepNs := 1000, lastComm := 0 } } })
def wCoolingHappenings_14 : State := State.advance 0 ({ s0 with cool := { s0.cool with drives := s0.cool.drives.set 1 { drive0 5 with stepNs := 1000 } } })
def wCoolingHappenings_15 : State := State.advance 1500 ({ s0 with cool := { s0.cool with drives := s0.cool.drives.set 1 { drive0 4 with stepNs := 1000, lastComm := 0, lastCross := 0, misses := 0 } } })
def wCoolingHappenings_16 : State := State.advance 1499 ({ s0 with cool := { s0.cool with drives := s0.cool.drives.set 1 { drive0 4 with stepNs := 1000, lastComm := 0, lastCross := 0, misses := 0 } } })
def wCoolingHappenings_17 : State := State.advance 1500 ({ s0 with cool := { s0.cool with drives := s0.cool.drives.set 1 { drive0 4 with stepNs := 1000, lastCross := 0, misses := 0, cfg := (drive0 0).cfg.map fun c => { c with advance := 0 } } } })
def wCoolingHappenings_18 : State := State.advance 1502 ({ s0 with cool := { s0.cool with drives := s0.cool.drives.set 1 { drive0 4 with stepNs := 1001, lastCross := 0, misses := 1 } } })
theorem witness_CoolingHappenings_3 :
    ((wCoolingHappenings_13.drive 1).cfg = (drive0 0).cfg ∧ (wCoolingHappenings_13.drive 1).state = 3 ∧ ((drive0 0).cfg.all fun c => decide ((wCoolingHappenings_13.drive 1).lastComm + (wCoolingHappenings_13.drive 1).stepNs * (c.tEdge + 5) / 100 ≤ 50)) = true ∧ wCoolingHappenings_13.domainOn 6 = true) ∧
    ((wCoolingHappenings_14.drive 1).cfg = (drive0 0).cfg ∧ (wCoolingHappenings_14.drive 1).state = 5 ∧ wCoolingHappenings_14.domainOn 6 = true) ∧
    (2 * (wCoolingHappenings_15.drive 1).lastCross + 3 * (wCoolingHappenings_15.drive 1).stepNs ≤ 2 * 1500 ∧ (wCoolingHappenings_15.drive 1).misses = 0 ∧ ((drive0 0).cfg.all fun c => decide ((wCoolingHappenings_15.drive 1).lastCross + (wCoolingHappenings_15.drive 1).stepNs + (wCoolingHappenings_15.drive 1).stepNs * (30 - c.advance) / 60 ≤ 1500)) = true ∧ wCoolingHappenings_15.domainOn 6 = true) ∧
    (2 * 1499 < 2 * (wCoolingHappenings_16.drive 1).lastCross + 3 * (wCoolingHappenings_16.drive 1).stepNs ∧ wCoolingHappenings_16.domainOn 6 = true) ∧
    ((wCoolingHappenings_17.drive 1).cfg = (drive0 0).cfg ∧ 2 * (wCoolingHappenings_17.drive 1).lastCross + 3 * (wCoolingHappenings_17.drive 1).stepNs ≤ 2 * 1500 ∧ wCoolingHappenings_17.domainOn 6 = true) ∧
    ((wCoolingHappenings_18.drive 1).cfg = (drive0 0).cfg ∧ (wCoolingHappenings_18.drive 1).state = 4 ∧ 2 * (wCoolingHappenings_18.drive 1).lastCross + 3 * (wCoolingHappenings_18.drive 1).stepNs ≤ 2 * 1502 ∧ (wCoolingHappenings_18.drive 1).misses ≠ 0 ∧ wCoolingHappenings_18.domainOn 6 = true) := by decide +kernel

def wCoolingHappenings_19 : State := State.advance 200000000 ({ s0 with cool := { s0.cool with drives := s0.cool.drives.set 1 { drive0 5 with stateAt := 0, lastCross := 0 } } })
def wCoolingHappenings_20 : State := State.advance 200000000 ({ s0 with cool := { s0.cool with drives := s0.cool.drives.set 1 { drive0 5 with stateAt := 0 }, hvGood := true } })
def wCoolingHappenings_21 : State := State.advance 62500 ({ s0 with cool := { s0.cool with drives := s0.cool.drives.set 1 { drive0 2 with pwmAt := 0 } } })
def wCoolingHappenings_22 : State := State.advance 62500 ({ s0 with cool := { s0.cool with drives := s0.cool.drives.set 1 { drive0 4 with pwmAt := 0 } } })
def wCoolingHappenings_23 : State := State.advance 62500 ({ s0 with cool := { s0.cool with drives := s0.cool.drives.set 1 { drive0 3 with pwmAt := 0, stateAt := 0 } } })
def wCoolingHappenings_24 : State := State.advance 62500 ({ s0 with cool := { s0.cool with drives := s0.cool.drives.set 1 { drive0 3 with pwmAt := 1 } } })
theorem witness_CoolingHappenings_4 :
    ((wCoolingHappenings_19.drive 1).cfg = (drive0 0).cfg ∧ (wCoolingHappenings_19.drive 1).state = 5 ∧ max (wCoolingHappenings_19.drive 1).lastCross (wCoolingHappenings_19.drive 1).stateAt + 200000000 ≤ 200000000 ∧ (wCoolingHappenings_19.drive 1).tryLeft 200000000 = true ∧ wCoolingHappenings_19.cool.hvGood = false ∧ wCoolingHappenings_19.domainOn 6 = true) ∧
    ((wCoolingHappenings_20.drive 1).state = 5 ∧ max (wCoolingHappenings_20.drive 1).lastCross (wCoolingHappenings_20.drive 1).stateAt + 200000000 ≤ 200000000 ∧ (wCoolingHappenings_20.drive 1).tryLeft 200000000 = true ∧ wCoolingHappenings_20.cool.hvGood = true ∧ wCoolingHappenings_20.domainOn 6 = true) ∧
    ((wCoolingHappenings_21.drive 1).cfg = (drive0 0).cfg ∧ ((drive0 0).cfg.all fun c => decide ((wCoolingHappenings_21.drive 1).pwmAt = 0 ∨ c.pwmNs ≤ wCoolingHappenings_21.d6Since (wCoolingHappenings_21.drive 1).pwmAt 62500)) = true ∧ (wCoolingHappenings_21.drive 1).state = 2 ∧ wCoolingHappenings_21.domainOn 6 = true) ∧
    ((wCoolingHappenings_22.drive 1).cfg = (drive0 0).cfg ∧ ((drive0 0).cfg.all fun c => decide ((wCoolingHappenings_22.drive 1).pwmAt = 0 ∨ c.pwmNs ≤ wCoolingHappenings_22.d6Since (wCoolingHappenings_22.drive 1).pwmAt 62500)) = true ∧ (wCoolingHappenings_22.drive 1).state = 4 ∧ wCoolingHappenings_22.domainOn 6 = true) ∧
    ((wCoolingHappenings_23.drive 1).cfg = (drive0 0).cfg ∧ ((drive0 0).cfg.all fun c => decide ((wCoolingHappenings_23.drive 1).pwmAt = 0 ∨ c.pwmNs ≤ wCoolingHappenings_23.d6Since (wCoolingHappenings_23.drive 1).pwmAt 62500)) = true ∧ (wCoolingHappenings_23.drive 1).state = 3 ∧ ((drive0 0).cfg.all fun c => decide (c.rampSpeed (wCoolingHappenings_23.d6Since (wCoolingHappenings_23.drive 1).stateAt 62500) < 2 * c.handover)) = true ∧ wCoolingHappenings_23.domainOn 6 = true) ∧
    ((wCoolingHappenings_24.drive 1).cfg = (drive0 0).cfg ∧ ((drive0 0).cfg.all fun c => decide ((wCoolingHappenings_24.drive 1).pwmAt ≠ 0 ∧ wCoolingHappenings_24.d6Since (wCoolingHappenings_24.drive 1).pwmAt 62500 < c.pwmNs)) = true ∧ wCoolingHappenings_24.domainOn 6 = true) := by decide +kernel

def wCoolingHappenings_25 : State := State.advance 0 ({ s0 with cool := { s0.cool with drives := s0.cool.drives.set 1 { drive0 4 with lockouts := [] } } })
def wCoolingHappenings_26 : State := State.advance 62499 ({ s0 with cool := { s0.cool with drives := s0.cool.drives.set 1 { drive0 5 with cause := 3, pwmAt := 0, stateAt := 0 } } })
def wCoolingHappenings_27 : State := State.advance 0 ({ s0 with cool := { s0.cool with drives := s0.cool.drives.set 1 { drive0 5 with cause := 1 } } })
def wCoolingHappenings_28 : State := State.advance 3600000000000 ({ s0 with cool := { s0.cool with drives := s0.cool.drives.set 1 { drive0 4 with hourAt := 0, refNs := 0 } } })
def wCoolingHappenings_29 : State := State.advance 3599999999999 ({ s0 with cool := { s0.cool with drives := s0.cool.drives.set 1 { drive0 4 with hourAt := 0 } } })
def wCoolingHappenings_30 : State := State.advance 3600000000000 ({ s0 with cool := { s0.cool with drives := s0.cool.drives.set 1 { drive0 4 with hourAt := 0, refNs := 3600000000000, blHours := 9 } } })
theorem witness_CoolingHappenings_5 :
    (1 ≤ (wCoolingHappenings_25.drive 1).state ∧ (wCoolingHappenings_25.drive 1).state ≤ 4 ∧ (wCoolingHappenings_25.drive 1).lockouts = [] ∧ 2 < 3 ∧ wCoolingHappenings_25.domainOn 6 = true) ∧
    ((wCoolingHappenings_26.drive 1).cfg = (drive0 0).cfg ∧ 5 ≤ (wCoolingHappenings_26.drive 1).state ∧ (wCoolingHappenings_26.drive 1).cause = 3 ∧ (wCoolingHappenings_26.drive 1).pwmAt ≤ (wCoolingHappenings_26.drive 1).stateAt ∧ ((drive0 0).cfg.all fun c => decide (wCoolingHappenings_26.d6Since (wCoolingHappenings_26.drive 1).pwmAt 62499 < c.pwmNs)) = true ∧ wCoolingHappenings_26.domainOn 6 = true) ∧
    (4 < (wCoolingHappenings_27.drive 1).state ∧ (wCoolingHappenings_27.drive 1).cause ≠ 3 ∧ wCoolingHappenings_27.domainOn 6 = true) ∧
    (elapsed (wCoolingHappenings_28.drive 1).hourAt 3600000000000 3600000000000 = true ∧ (wCoolingHappenings_28.drive 1).refNs < 3600000000000 ∧ wCoolingHappenings_28.domainOn 6 = true) ∧
    (elapsed (wCoolingHappenings_29.drive 1).hourAt 3600000000000 3599999999999 = false ∧ wCoolingHappenings_29.domainOn 6 = true) ∧
    (elapsed (wCoolingHappenings_30.drive 1).hourAt 3600000000000 3600000000000 = true ∧ 3600000000000 ≤ (wCoolingHappenings_30.drive 1).refNs ∧ (wCoolingHappenings_30.drive 1).blHours = 9 ∧ wCoolingHappenings_30.domainOn 6 = true) := by decide +kernel

def wClockHappenings_1 : State := State.advance 0 ({ s0 with clk := { s0.clk with xref := false, main := 0, loops := [{ Loop.reset with state := 3 }, { Loop.reset with state := 0 }] } })
def wClockHappenings_2 : State := State.advance 0 ({ s0 with clk := { s0.clk with xref := true, main := 0, loops := [{ Loop.reset with state := 1, winAt := 0 }, { Loop.reset with state := 1 }] } })
def wClockHappenings_3 : State := State.advance 5000000000000 ({ s0 with clk := { s0.clk with xref := true, main := 0, loops := [{ Loop.reset with state := 1 }, { Loop.reset with state := 1 }] } })
def wClockHappenings_4 : State := State.advance 5000000000000 ({ s0 with clk := { s0.clk with xref := true, main := 1, loops := [{ Loop.reset with state := 0, good := 2 }, { Loop.reset with state := 1 }] } })
def wClockHappenings_5 : State := State.advance 0 ({ s0 with clk := { s0.clk with xref := true, main := 0, loops := [{ Loop.reset with state := 1 }, { Loop.reset with state := 1 }] } })
def wClockHappenings_6 : State := State.advance 0 ({ s0 with clk := { s0.clk with xref := true, main := 0, loops := [{ Loop.reset with state := 1 }, { Loop.reset with state := 1 }] } })
theorem witness_ClockHappenings_1 :
    ((wClockHappenings_1.loop 0).state = 3 ∧ wClockHappenings_1.clk.xref = false) ∧
    (elapsed (wClockHappenings_2.loop 0).winAt (4096000000000 / max 1 wClockHappenings_2.clk.xrefInUse) 0 = false) ∧
    (elapsed (wClockHappenings_3.loop 0).winAt (4096000000000 / max 1 wClockHappenings_3.clk.xrefInUse) 5000000000000 = true ∧ wClockHappenings_3.clk.xref = true ∧ (wClockHappenings_3.loop 0).state = 1 ∧ -2 ≤ (-2 : Int) ∧ (2 : Int) ≤ 2 ∧ 2 < (3 : Int)) ∧
    (elapsed (wClockHappenings_4.loop 0).winAt (4096000000000 / max 1 wClockHappenings_4.clk.xrefInUse) 5000000000000 = true ∧ wClockHappenings_4.clk.xref = true ∧ ((wClockHappenings_4.loop 0).state = 0 ∨ (wClockHappenings_4.loop 0).state = 2) ∧ 2 ≤ (wClockHappenings_4.loop 0).good ∧ wClockHappenings_4.clk.main ≠ 0xFF) ∧
    (let v := (wClockHappenings_5.modLoop 0 fun x => { x with suspect := decide (1000 ≤ (1000 : Int).natAbs) && x.state == 1 }).modLoop 1 fun x => { x with suspect := decide (1000 ≤ (999 : Int).natAbs) && x.state == 1 }; v.clk.main ≠ 0xFF ∧ v.clk.xref = true ∧ (v.loop v.standby).state = 1 ∧ (v.loop v.standby).suspect = false ∧ (v.loop v.clk.main).suspect = true) ∧
    (let v := (wClockHappenings_6.modLoop 0 fun x => { x with suspect := decide (1000 ≤ (1000 : Int).natAbs) && x.state == 1 }).modLoop 1 fun x => { x with suspect := decide (1000 ≤ (1000 : Int).natAbs) && x.state == 1 }; v.clk.main ≠ 0xFF ∧ v.clk.xref = true ∧ (v.loop v.clk.main).suspect = true ∧ (v.loop v.standby).suspect = true ∧ v.clk.bothSus = 0) := by decide +kernel

def wClockHappenings_7 : State := State.advance 0 ({ s0 with clk := { s0.clk with xref := true, main := 0, bothSus := 1, loops := [{ Loop.reset with state := 1 }, { Loop.reset with state := 1 }] } })
def wClockHappenings_8 : State := State.advance 0 ({ s0 with clk := { s0.clk with xref := true, main := 0xFF, loops := [{ Loop.reset with state := 1 }, { Loop.reset with state := 1 }] } })
def wClockHappenings_9 : State := State.advance 20000000 ({ s0 with clk := { s0.clk with xref := true, main := 1, loops := [{ Loop.reset with state := 2, lostAt := [0] }, { Loop.reset with state := 1 }] } })
def wClockHappenings_10 : State := State.advance 19999999 ({ s0 with clk := { s0.clk with xref := true, main := 1, loops := [{ Loop.reset with state := 2, lostAt := [0] }, { Loop.reset with state := 1 }] } })
def wClockHappenings_11 : State := State.advance 0 ({ s0 with clk := { s0.clk with main := 0, sources := s0.clk.sources.set 11 0, loops := List.replicate 2 { Loop.reset with state := 1 } } })
def wClockHappenings_12 : State := State.advance 0 ({ s0 with clk := { s0.clk with sources := s0.clk.sources.set 5 2 } })
theorem witness_ClockHappenings_2 :
    (let v := (wClockHappenings_7.modLoop 0 fun x => { x with suspect := decide (1000 ≤ (1000 : Int).natAbs) && x.state == 1 }).modLoop 1 fun x => { x with suspect := decide (1000 ≤ (1000 : Int).natAbs) && x.state == 1 }; v.clk.main ≠ 0xFF ∧ v.clk.xref = true ∧ (v.loop v.clk.main).suspect = true ∧ (v.loop v.standby).suspect = true ∧ v.clk.bothSus = 1) ∧
    (let v := (wClockHappenings_8.modLoop 0 fun x => { x with suspect := decide (1000 ≤ (1000 : Int).natAbs) && x.state == 1 }).modLoop 1 fun x => { x with suspect := decide (1000 ≤ (1000 : Int).natAbs) && x.state == 1 }; v.clk.main = 0xFF) ∧
    ((wClockHappenings_9.loop 0).state = 2 ∧ (wClockHappenings_9.loop 0).lostAt.headD 0 + 20000000 ≤ 20000000) ∧
    (19999999 < (wClockHappenings_10.loop 0).lostAt.headD 0 + 20000000 ∧ (wClockHappenings_10.loop 1).state ≠ 2) ∧
    (wClockHappenings_11.clk.sources.getD 11 3 = 0 ∧ (wClockHappenings_11.loop wClockHappenings_11.clk.main).state = 1) ∧
    (2 ≤ wClockHappenings_12.clk.sources.getD 5 3) := by decide +kernel

def wClockHappenings_13 : State := State.advance 10000000 ({ s0 with clk := { s0.clk with region := false, hot := 9, regionAt := 0 } })
def wClockHappenings_14 : State := State.advance 9999999 ({ s0 with clk := { s0.clk with region := false, hot := 9, regionAt := 0 } })
theorem witness_ClockHappenings_3 :
    (elapsed wClockHappenings_13.clk.regionAt 10000000 10000000 = true ∧ 161 ≤ regionDelta [161, 0, 0, 0] [0, 0] ∧ wClockHappenings_13.clk.region = false ∧ wClockHappenings_13.clk.hot = 9 ∧ regionDelta [160, 0, 0, 0] [0, 0] < 161) ∧
    (elapsed wClockHappenings_14.clk.regionAt 10000000 9999999 = false) := by decide +kernel

def wMemoryHappenings_1 : State := State.advance 60000000000 ({ s0 with mem := { s0.mem with scrubAt := 0 } })
def wMemoryHappenings_2 : State := State.advance 59999999999 ({ s0 with mem := { s0.mem with scrubAt := 0 } })
def wMemoryHappenings_3 : State := State.advance 0 (s0)
def wMemoryHappenings_4 : State := State.advance 0 ({ s0 with mem := { s0.mem with secSpares := 0, blockBusy := true } })
def wMemoryHappenings_5 : State := State.advance 0 ({ s0 with mem := { s0.mem with blockDirty := true, blockBusy := false } })
def wMemoryHappenings_6 : State := State.advance 0 ({ s0 with mem := { s0.mem with lcPend := some lcPend0 } })
theorem witness_MemoryHappenings_1 :
    ([0x20000000, 0x205FFFF8].all inSram = true ∧ elapsed wMemoryHappenings_1.mem.scrubAt 60000000000 60000000000 = true) ∧
    (elapsed wMemoryHappenings_2.mem.scrubAt 60000000000 59999999999 = false) ∧
    (0 < wMemoryHappenings_3.mem.secSpares ∧ wMemoryHappenings_3.mem.blockBusy = false ∧ wMemoryHappenings_3.eng.sheafCommit = false ∧ wMemoryHappenings_3.mem.lcPend = none ∧ (wMemoryHappenings_3.mem.lc ≠ 0 ∧ wMemoryHappenings_3.mem.lc ≠ 1 ∧ wMemoryHappenings_3.mem.lc ≠ 4)) ∧
    (wMemoryHappenings_4.mem.secSpares = 0 ∧ wMemoryHappenings_4.mem.blockBusy = true) ∧
    (wMemoryHappenings_5.mem.blockDirty = true ∧ wMemoryHappenings_5.mem.blockBusy = false) ∧
    (wMemoryHappenings_6.mem.lcPend = some lcPend0 ∧ lcPend0.recorded = true) := by decide +kernel

def wMemoryHappenings_7 : State := State.advance 0 ({ s0 with mem := { s0.mem with lcPend := some { lcPend0 with recorded := false } } })
def wMemoryHappenings_8 : State := State.advance 0 ({ s0 with mem := { s0.mem with lc := 4 } })
theorem witness_MemoryHappenings_2 :
    (wMemoryHappenings_7.mem.lcPend = some { lcPend0 with recorded := false } ∧ ({ lcPend0 with recorded := false } : LcPend).recorded = false) ∧
    (wMemoryHappenings_8.mem.lc = 0 ∨ wMemoryHappenings_8.mem.lc = 1 ∨ wMemoryHappenings_8.mem.lc = 4) := by decide +kernel

def wHuskHappenings_1 : State := State.advance 0 ({ s0 with husk := { s0.husk with d0Up := true, state := 1, teg := false } })
def wHuskHappenings_2 : State := State.advance 0 (State.reset)
def wHuskHappenings_3 : State := State.advance 0 ({ { s0 with sys := { s0.sys with railIo := false } } with husk := { s0.husk with d0Up := true, state := 1 } })
def wHuskHappenings_4 : State := State.advance 1000000000 ({ s0 with husk := { s0.husk with d0Up := true, teg := true, tegAt := 0 } })
def wHuskHappenings_5 : State := State.advance 999999999 ({ s0 with husk := { s0.husk with d0Up := true, teg := true, tegAt := 0 } })
def wHuskHappenings_6 : State := State.advance 1000000000 ({ { s0 with timeLoaded := true } with husk := { s0.husk with d0Up := true, rtcWritten := 0 } })
theorem witness_HuskHappenings_1 :
    (wHuskHappenings_1.husk.d0Up = true ∧ wHuskHappenings_1.husk.state ≠ 4 ∧ wHuskHappenings_1.husk.teg = false ∧ wHuskHappenings_1.husk.buf2 = none ∧ wHuskHappenings_1.husk.sealing = none ∧ wHuskHappenings_1.sys.railIo = true ∧ wHuskHappenings_1.timeLoaded = false) ∧
    (wHuskHappenings_2.husk.d0Up = false ∧ wHuskHappenings_2.sys.railIo = false ∧ max 1799 0 < 1800 ∧ 1800 ≤ max 1800 0) ∧
    (wHuskHappenings_3.husk.d0Up = true ∧ wHuskHappenings_3.sys.railIo = false ∧ wHuskHappenings_3.husk.state ≠ 4 ∧ max 1499 0 < 1500) ∧
    (wHuskHappenings_4.husk.teg = true ∧ wHuskHappenings_4.husk.d0Up = true ∧ elapsed wHuskHappenings_4.husk.tegAt 1000000000 1000000000 = true ∧ 200 ≤ 200 ∧ 199 < 200) ∧
    (elapsed wHuskHappenings_5.husk.tegAt 1000000000 999999999 = false) ∧
    (wHuskHappenings_6.timeLoaded = true ∧ wHuskHappenings_6.husk.d0Up = true ∧ elapsed wHuskHappenings_6.husk.rtcWritten 1000000000 1000000000 = true) := by decide +kernel

def wHuskHappenings_7 : State := State.advance 999999999 ({ { s0 with timeLoaded := true } with husk := { s0.husk with d0Up := true, rtcWritten := 0 } })
def wHuskHappenings_8 : State := State.advance 0 ({ s0 with husk := { s0.husk with buf2 := some Sealed.reset } })
def wHuskHappenings_9 : State := State.advance 0 ({ { s0 with sys := { s0.sys with boot := .off } } with husk := { s0.husk with sealing := some Sealed.reset } })
theorem witness_HuskHappenings_2 :
    (elapsed wHuskHappenings_7.husk.rtcWritten 1000000000 999999999 = false) ∧
    (wHuskHappenings_8.husk.buf2 = some Sealed.reset ∧ wHuskHappenings_8.sys.railIo = true) ∧
    (wHuskHappenings_9.husk.sealing = some Sealed.reset ∧ wHuskHappenings_9.sys.railCore = true ∧ wHuskHappenings_9.sys.railAn = true ∧ wHuskHappenings_9.sys.railIo = true ∧ wHuskHappenings_9.sys.boot = .off) := by decide +kernel

end Sys2Proof.Tests
end

section
/-! SUPPORT. What a packet does that fails its framing (R62, R63): the step it fails, and how it is answered. -/

namespace Sys2Proof.Machine

/-- Step 2 of R63: with its LENGTH right, a packet whose CRC is not that of its bytes fails E_CRC. -/
theorem framingFails_eq_eCrc {b : List Byte} {valid : Nat} (hmax : u16 b 4 ≤ 4076) (hlen : valid = u16 b 4 + 16)
    (hcrc : crc32c (b.take (12 + u16 b 4)) ≠ u32 b (12 + u16 b 4)) : framingFails b valid = some (.eCrc, 0) := by
  have hok : ¬(4076 < u16 b 4 ∨ u16 b 4 + 16 ≠ valid) := by omega
  unfold framingFails
  exact (if_neg hok).trans (if_pos hcrc)

/-- Raw packet bytes run as their row. -/
theorem exec_unknownOpcodePacket (src : Source) (t : Nat) (b : List Byte) (valid : Nat) (s : State) :
    exec (.unknownOpcodePacket src t b valid) s = execUnknownOpcodePacket src t b valid s := rfl

/-- A packet that is taken and fails its framing is answered with the step it fails, and counted (R65, R66); for E_OPCODE the escape
port answers in its own way (R84), so that status is left out. -/
theorem execUnknownOpcodePacket_of_fails {src : Source} {t valid d : Nat} {b : List Byte} {s : State} {st : Status}
    (htaken : Taken b (rawPacket src t b) s) (hfails : framingFails b valid = some (st, d)) (hst : st ≠ .eOpcode) :
    execUnknownOpcodePacket src t b valid s =
      .next (sendReply src (replyBytes (u16 b 0) (rawPacket src t b).tag (flagAt (rawPacket src t b).dry 1) st.code d [])
        (whenReady (if (rawPacket src t b).dry then countDry else countRejected st) (seen (rawPacket src t b) s))) := by
  obtain ⟨hsource, htakes⟩ := htaken
  have hsrc : sourceOk src = true := hsource
  simp [execUnknownOpcodePacket, hsrc, hfails, hst, htakes, seen]

/-- Settles O14: the packet fails E_CRC at step 2 of R63 (R62), and is answered as any packet that fails its framing. -/
theorem crcFailureEchoesOpcodeAndTag : Obligations.CrcFailureEchoesOpcodeAndTag := by
  unfold Obligations.CrcFailureEchoesOpcodeAndTag
  intro src t b s p htaken hmax hlen hcrc
  have hfails : framingFails b b.length = some (.eCrc, 0) := framingFails_eq_eCrc hmax hlen hcrc
  rw [exec_unknownOpcodePacket, execUnknownOpcodePacket_of_fails htaken hfails (by decide)]
  rfl

end Sys2Proof.Machine
end

section
/-! SUPPORT. What a trip does in a grid-power mode (R229, R248), and what a forced change of mode leaves in progress (R105, R106). -/

namespace Sys2Proof.Machine

/-! ### The transition in progress through a safe-stop ramp (R102) -/

@[simp] theorem legTo_modes (t n st cause : Nat) (s : State) : (legTo t n st cause s).modes = s.modes := by
  unfold legTo
  dsimp only
  split
  · rfl
  · simp

/-- Orders to legs keep the modes: every step of the walk over the legs is an order or nothing. -/
theorem foldl_modes {f : State → Nat → State} (h : ∀ s n, (f s n).modes = s.modes) (l : List Nat) (s : State) :
    (l.foldl f s).modes = s.modes :=
  foldl_rel (R := fun s u => u.modes = s.modes) (fun _ => rfl) (fun h k => k.trans h) h l s

@[simp] theorem allLegsOff_modes (t : Nat) (s : State) : (allLegsOff t s).modes = s.modes := by
  refine foldl_modes (fun s n => ?_) _ s
  split
  · rfl
  · exact legTo_modes t n 0 0 s

@[simp] theorem outputOrders_modes (t : Nat) (s : State) : (outputOrders t s).modes = s.modes := rfl

/-- The end of a ramp ends nothing but the ramp: the transition goes on (R102). -/
@[simp] theorem endRamp_modes (t : Nat) (s : State) : (endRamp t s).modes = { s.modes with ramping := false } := by
  unfold endRamp
  dsimp only
  split
  · split
    · refine (foldl_modes (fun s n => ?_) _ _).trans rfl
      split
      · exact legTo_modes t n 0 0 s
      · rfl
    · simp
  · simp

@[simp] theorem beginRamp_trans (t ms : Nat) (s : State) : (beginRamp t ms s).modes.trans = s.modes.trans := by
  unfold beginRamp
  split
  · simp
  · dsimp only
    split <;> rfl

/-! ### A forced change of mode (R105, R106) -/

/-- A forced change leaves a transition to its target, from its cause, in progress. -/
theorem forceMode_trans (t cause target next : Nat) (resync : Bool) (s : State) :
    ∃ r, (forceMode t cause target next resync s).modes.trans = some r ∧ r.target = target ∧ r.cause = cause := by
  unfold forceMode beginTrans
  dsimp only
  split <;> simp

/-! ### A trip in a grid-power mode (R229, R233, R237, R248) -/

/-- RT_TRIP posted for everything that trips on the tick, all of it noted as acted on, and the device noted to be after a trip. -/
def tripReported (t : Nat) (s : State) : State :=
  let v := State.post t (ev 0x0441 0 (le 2 (s.tripsAt t) ++ le 2 (milli16 s.rt.vLo) ++ le 2 (milli16 s.rt.vHi) ++ le 4 s.rt.f))
    { s with rt := { s.rt with
      gateTimed := s.rt.gateTimed || s.gateTimeout t, uvActed := s.rt.uvActed || s.uvTrip
      trips := s.rt.trips.map fun x => { x with tripped := x.tripped || (x.enable && x.tTicks ≤ x.count) } } }
  { v with rt := { v.rt with afterTrip := true } }

@[simp] theorem tripReported_modes (t : Nat) (s : State) : (tripReported t s).modes = s.modes := by
  simp [tripReported]

/-- Front L is monitored in islanded supply alone (R243). -/
theorem onFrontL_of_mode_ne {s : State} (h : s.modes.mode ≠ 7) : s.onFrontL = false := by
  simp [State.onFrontL, h]

/-- In grid-following or grid-forming, with no transition in progress and no cause of a higher priority on the tick, a trip is reported
and forces safe stop from cause 7 (R105). -/
theorem rtTrip_of_gridPower {t : Nat} {s : State} (hmode : s.modes.mode = 4 ∨ s.modes.mode = 5) (htrans : s.modes.trans = none)
    (hrank : s.outranked t 7 = false) : rtTrip t s = forceMode t 0x07 1 0 false (tripReported t s) := by
  have hne : s.modes.mode ≠ 7 := by omega
  have hgrid : 3 ≤ s.modes.mode ∧ s.modes.mode ≤ 6 := by omega
  have hgoes : ((tripReported t s).outranked t 0x07 || ((tripReported t s).stopping && !(tripReported t s).stopsSooner t 0x07 &&
      !(tripReported t s).overrides t 0x07)) = false := by
    have hstop : (tripReported t s).stopping = false := by simp [State.stopping, htrans]
    have hrank' : (tripReported t s).outranked t 7 = false := by simpa [State.outranked] using hrank
    simp [hstop, hrank']
  unfold rtTrip
  simp only [onFrontL_of_mode_ne hne, Bool.false_eq_true, if_false, Nat.add_zero]
  rw [if_neg hne, if_pos hgrid]
  exact if_neg (Bool.eq_false_iff.mp hgoes)

/-! ### A DC-link undervoltage (R248) -/

/-- With the undervoltage among what trips, its bit 9 stands in the mask and it is acted on. -/
theorem tripReported_of_uvTrip {t : Nat} {s : State} (huv : s.uvTrip = true) :
    tripReported t s =
      (let v := State.post t (ev 0x0441 0
          (le 2 (s.tripMask + flagAt (s.gateTimeout t) 8 + 512) ++ le 2 (milli16 s.rt.vLo) ++ le 2 (milli16 s.rt.vHi) ++ le 4 s.rt.f))
        { s with rt := { s.rt with
          gateTimed := s.rt.gateTimed || s.gateTimeout t, uvActed := true
          trips := s.rt.trips.map fun x => { x with tripped := x.tripped || (x.enable && x.tTicks ≤ x.count) } } }
       { v with rt := { v.rt with afterTrip := true } }) := by
  have hmask : s.tripsAt t = s.tripMask + flagAt (s.gateTimeout t) 8 + 512 := by simp [State.tripsAt, huv, flagAt]
  simp only [tripReported, hmask, huv, Bool.or_true]

/-- An undervoltage of 5 ms that has not been acted on is a trip. -/
theorem exec_dclUndervoltage_of_uvTrip {t : Nat} {s : State} (huv : (s.advance t).uvTrip = true) :
    exec (.dclUndervoltage t) s = .next (rtTrip t (s.advance t)) :=
  congrArg Host.Outcome.next (if_pos huv)

/-- Settles O41: the undervoltage is a trip (R248), and a trip in a grid-power mode forces safe stop from cause 7. -/
theorem dcLinkUndervoltageTrips : Obligations.DcLinkUndervoltageTrips := by
  unfold Obligations.DcLinkUndervoltageTrips
  intro t s u hmode htrans hticks hacted hrank
  have huv : u.uvTrip = true := by simp [State.uvTrip, hticks, hacted]
  have hexec : exec (.dclUndervoltage t) s = .next (forceMode t 0x07 1 0 false (tripReported t u)) := by
    rw [exec_dclUndervoltage_of_uvTrip huv, rtTrip_of_gridPower hmode htrans hrank]
  obtain ⟨r, htr, htarget, hcause⟩ := forceMode_trans t 0x07 1 0 false (tripReported t u)
  refine ⟨?_, _, r, hexec, htr, htarget, hcause⟩
  rw [hexec, tripReported_of_uvTrip huv]

end Sys2Proof.Machine
end

section
/-! SUPPORT. What the invariants of every step speak of, as one part of the state, and the operations that leave that part alone: one lemma for each. -/

namespace Sys2Proof.Machine

/-- What the invariants of every step speak of: both memories, the life-cycle state with its pending transition, and the values of the open sessions. -/
structure Vital where
  sram : Mem
  mram : Mem
  lc : Nat
  lcPend : Option LcPend
  values : List (BitVec 32)

/-- The vital part of a state. -/
def State.vital (s : State) : Vital :=
  { sram := s.mem.sram, mram := s.mem.mram, lc := s.mem.lc, lcPend := s.mem.lcPend, values := s.cmd.sessions.map fun x => x.value }

/-- An update of a state reads through to the two parts that the vital part is made of. -/
@[simp] theorem State.vital_mk (pending : List Instr) (time : Nat) (timeValid timeLoaded : Bool) (nextTick freeCtr : Nat) (sys : Sys) (host : HostIf)
    (esc : Escape) (rings : List Ring) (cmd : Cmd) (modes : Modes) (eng : Engine) (gens : List Gen) (grid : Grid) (rt : Rt) (dcl : Dcl) (isl : Isl)
    (ports : Ports) (pwm : Pwm) (sense : Sense) (prot : Prot) (recorder : Rec) (safety : Safety) (net : Net) (cool : Cool) (clk : Clk)
    (mem : MemSys) (husk : Husk) :
    (State.mk pending time timeValid timeLoaded nextTick freeCtr sys host esc rings cmd modes eng gens grid rt dcl isl ports pwm sense prot recorder
      safety net cool clk mem husk).vital =
      { sram := mem.sram, mram := mem.mram, lc := mem.lc, lcPend := mem.lcPend, values := cmd.sessions.map fun x => x.value } := by
  simp [State.vital]

/-- The parts put together again. -/
@[simp] theorem State.vital_eta (s : State) :
    Vital.mk s.mem.sram s.mem.mram s.mem.lc s.mem.lcPend (s.cmd.sessions.map fun x => x.value) = s.vital := by
  simp [State.vital]

@[simp] theorem ite_vital (c : Prop) [Decidable c] (s t : State) : (if c then s else t).vital = if c then s.vital else t.vital := by
  split <;> rfl

/-- A fold of steps that each keep the vital part keeps it. -/
@[simp] theorem foldl_vital {α : Type} {f : State → α → State} (h : ∀ s x, (f s x).vital = s.vital) (l : List α) (s : State) :
    (l.foldl f s).vital = s.vital := by
  induction l generalizing s with
  | nil => rfl
  | cons x l ih => exact (ih (f s x)).trans (h s x)

/-! ### Flags -/

@[simp] theorem State.setInt_vital (i : Nat) (s : State) : (State.setInt i s).vital = s.vital := by simp [State.setInt]

/-! ### Steps of device time -/

@[simp] theorem State.shiftTime_vital (d : Int) (s : State) : (s.shiftTime d).vital = s.vital := by
  simp [State.shiftTime, MemSys.shift, Cmd.shift, Session.shift, Function.comp_def]

/-! ### Shared operations -/

@[simp] theorem State.modRing_vital (n : Nat) (f : Ring → Ring) (s : State) : (State.modRing n f s).vital = s.vital := by simp [State.modRing]

@[simp] theorem State.modCmd_vital {f : Cmd → Cmd} (h : ∀ c, ((f c).sessions.map fun x => x.value) = c.sessions.map fun x => x.value) (s : State) :
    (s.modCmd f).vital = s.vital := by
  simp [State.modCmd, h]

@[simp] theorem State.modHost_vital (f : HostIf → HostIf) (s : State) : (State.modHost f s).vital = s.vital := by simp [State.modHost]
@[simp] theorem State.modSys_vital (f : Sys → Sys) (s : State) : (State.modSys f s).vital = s.vital := by simp [State.modSys]
@[simp] theorem State.modModes_vital (f : Modes → Modes) (s : State) : (State.modModes f s).vital = s.vital := by simp [State.modModes]
@[simp] theorem State.modEng_vital (f : Engine → Engine) (s : State) : (State.modEng f s).vital = s.vital := by simp [State.modEng]
@[simp] theorem State.modChan_vital (n : Nat) (f : Chan → Chan) (s : State) : (State.modChan n f s).vital = s.vital := by simp [State.modChan]
@[simp] theorem State.modLeg_vital (n : Nat) (f : Leg → Leg) (s : State) : (State.modLeg n f s).vital = s.vital := by simp [State.modLeg]

@[simp] theorem State.modPGroup_vital (n : Nat) (f : PGroup → PGroup) (s : State) : (State.modPGroup n f s).vital = s.vital := by
  simp [State.modPGroup]

@[simp] theorem State.modCmp_vital (n : Nat) (f : Cmp → Cmp) (s : State) : (State.modCmp n f s).vital = s.vital := by simp [State.modCmp]
@[simp] theorem State.modAin_vital (n : Nat) (f : Ain → Ain) (s : State) : (State.modAin n f s).vital = s.vital := by simp [State.modAin]
@[simp] theorem State.modHk_vital (n : Nat) (f : Hk → Hk) (s : State) : (State.modHk n f s).vital = s.vital := by simp [State.modHk]
@[simp] theorem State.modGen_vital (n : Nat) (f : Gen → Gen) (s : State) : (State.modGen n f s).vital = s.vital := by simp [State.modGen]
@[simp] theorem State.modPv_vital (n : Nat) (f : Pv → Pv) (s : State) : (State.modPv n f s).vital = s.vital := by simp [State.modPv]
@[simp] theorem State.modBat_vital (n : Nat) (f : Bat → Bat) (s : State) : (State.modBat n f s).vital = s.vital := by simp [State.modBat]
@[simp] theorem State.modBms_vital (n : Nat) (f : Bms → Bms) (s : State) : (State.modBms n f s).vital = s.vital := by simp [State.modBms]
@[simp] theorem State.modDrive_vital (n : Nat) (f : Drive → Drive) (s : State) : (State.modDrive n f s).vital = s.vital := by simp [State.modDrive]
@[simp] theorem State.advance_vital (t : Nat) (s : State) : (State.advance t s).vital = s.vital := by simp [State.advance]
@[simp] theorem State.stepTime_vital (new : Nat) (s : State) : (State.stepTime new s).vital = s.vital := by simp [State.stepTime]
@[simp] theorem State.drawn_vital (n : Nat) (s : State) : (State.drawn n s).vital = s.vital := by simp [State.drawn]
@[simp] theorem State.count_vital (i : Nat) (s : State) : (State.count i s).vital = s.vital := by simp [State.count]
@[simp] theorem State.commitHealth_vital (s : State) : (State.commitHealth s).vital = s.vital := by simp [State.commitHealth]
@[simp] theorem d6Follow_vital (t : Nat) (s : State) : (d6Follow t s).vital = s.vital := by simp [d6Follow]
@[simp] theorem State.setRingInt_vital (n : Nat) (s : State) : (State.setRingInt n s).vital = s.vital := by simp [State.setRingInt]
@[simp] theorem State.deliver_vital (n : Nat) (b : List Byte) (s : State) : (State.deliver n b s).vital = s.vital := by simp [State.deliver]
@[simp] theorem uartSend_vital (b : List Byte) (s : State) : (uartSend b s).vital = s.vital := by simp [uartSend]
@[simp] theorem postRing_vital (time : Nat) (e : Ev) (n : Nat) (s : State) : (postRing time e n s).vital = s.vital := by simp [postRing]
@[simp] theorem postRings_vital (time : Nat) (e : Ev) (s : State) : (postRings time e s).vital = s.vital := by simp [postRings]
@[simp] theorem sealEvent_vital (time : Nat) (e : Ev) (s : State) : (sealEvent time e s).vital = s.vital := by simp [sealEvent]
@[simp] theorem markEvent_vital (time : Nat) (e : Ev) (s : State) : (markEvent time e s).vital = s.vital := by simp [markEvent]
@[simp] theorem postBase_vital (t : Nat) (e : Ev) (s : State) : (postBase t e s).vital = s.vital := by simp [postBase]
@[simp] theorem recOwnTriggers_vital (time : Nat) (s : State) : (recOwnTriggers time s).vital = s.vital := by simp [recOwnTriggers]
@[simp] theorem recFire_vital (unit : Nat) (stamp : Int) (s : State) : (recFire unit stamp s).vital = s.vital := by simp [recFire]
@[simp] theorem recEventTriggers_vital (time : Nat) (e : Ev) (s : State) : (recEventTriggers time e s).vital = s.vital := by simp [recEventTriggers]
@[simp] theorem State.post_vital (t : Nat) (e : Ev) (s : State) : (State.post t e s).vital = s.vital := by simp [State.post]

@[simp] theorem memSpliced_vital (t kind retired incoming pos left : Nat) (s : State) :
    (memSpliced t kind retired incoming pos left s).vital = s.vital := by
  simp [memSpliced]

@[simp] theorem benSend_vital (btype dst : Nat) (payload : List Byte) (s : State) : (benSend btype dst payload s).vital = s.vital := by
  unfold benSend
  split <;> simp

@[simp] theorem benDrain_vital (n : Nat) (s : State) : (benDrain n s).vital = s.vital := by
  induction n generalizing s with
  | zero => rfl
  | succ n ih => unfold benDrain; (repeat' split) <;> simp [ih]

@[simp] theorem firstAccepted_vital (s : State) : (firstAccepted s).vital = s.vital := by
  unfold firstAccepted
  dsimp only
  repeat' split
  all_goals simp

@[simp] theorem replyOn_vital (n : Nat) (b : List Byte) (s : State) : (replyOn n b s).vital = s.vital := by simp [replyOn]

@[simp] theorem sendReply_vital (src : Source) (b : List Byte) (s : State) : (sendReply src b s).vital = s.vital := by
  unfold sendReply
  split <;> simp

@[simp] theorem State.dirty_vital (s : State) : (State.dirty s).vital = s.vital := by simp [State.dirty]

/-! ### The command processor -/

@[simp] theorem countAccepted_vital (s : State) : (countAccepted s).vital = s.vital := by simp [countAccepted]
@[simp] theorem countRejected_vital (st : Status) (s : State) : (countRejected st s).vital = s.vital := by simp [countRejected]
@[simp] theorem countDry_vital (s : State) : (countDry s).vital = s.vital := by simp [countDry]

theorem whenReady_vital {f : State → State} (h : ∀ s, (f s).vital = s.vital) (s : State) : (whenReady f s).vital = s.vital := by
  simp [whenReady, h]

@[simp] theorem CmdSpec.noted_vital (c : CmdSpec) (p : Packet) (s : State) : (CmdSpec.noted c p s).vital = s.vital := by simp [CmdSpec.noted]

@[simp] theorem touchSession_vital (p : Packet) (s : State) : (touchSession p s).vital = s.vital := by
  refine State.modCmd_vital (fun c => ?_) s
  simp only [List.map_map]
  exact List.map_congr_left fun x _ => by dsimp only [Function.comp_apply]; split <;> rfl

@[simp] theorem sendStored_vital (d : DurReply) (s : State) : (sendStored d s).vital = s.vital := by simp [sendStored]

/-! ### Channels -/

@[simp] theorem destWrite_vital (kind index : Nat) (v : Int) (s : State) : (destWrite kind index v s).vital = s.vital := by
  unfold destWrite
  split <;> simp

@[simp] theorem writeDisabled_vital (m : Mem) (n : Nat) (s : State) : (writeDisabled m n s).vital = s.vital := by simp [writeDisabled]
@[simp] theorem stopChan_vital (n : Nat) (s : State) : (stopChan n s).vital = s.vital := by simp [stopChan]
@[simp] theorem initWords_vital (m : Mem) (n : Nat) (s : State) : (initWords m n s).vital = s.vital := by simp [initWords]
@[simp] theorem startChan_vital (n : Nat) (s : State) : (startChan n s).vital = s.vital := by simp [startChan]
@[simp] theorem loadEntry_vital (n : Nat) (s : State) : (loadEntry n s).vital = s.vital := by simp [loadEntry]

/-! ### Actions that groups share -/

@[simp] theorem legTo_vital (t n st cause : Nat) (s : State) : (legTo t n st cause s).vital = s.vital := by simp [legTo]
@[simp] theorem legsUpdate_vital (t : Nat) (s : State) : (legsUpdate t s).vital = s.vital := by simp [legsUpdate]
@[simp] theorem allLegsOff_vital (t : Nat) (s : State) : (allLegsOff t s).vital = s.vital := by simp [allLegsOff]
@[simp] theorem outputOrders_vital (t : Nat) (s : State) : (outputOrders t s).vital = s.vital := by simp [outputOrders]

@[simp] theorem endRamp_vital (t : Nat) (s : State) : (endRamp t s).vital = s.vital := by
  unfold endRamp
  dsimp only
  repeat' split
  all_goals simp

@[simp] theorem cutRamp_vital (t : Nat) (s : State) : (cutRamp t s).vital = s.vital := by simp [cutRamp]
@[simp] theorem beginRamp_vital (t ms : Nat) (s : State) : (beginRamp t ms s).vital = s.vital := by simp [beginRamp]
@[simp] theorem disarmRestart_vital (s : State) : (disarmRestart s).vital = s.vital := by simp [disarmRestart]

@[simp] theorem beginTrans_vital (target cause next : Nat) (resync : Bool) (s : State) : (beginTrans target cause next resync s).vital = s.vital := by
  simp [beginTrans]

@[simp] theorem forceMode_vital (t cause target next : Nat) (resync : Bool) (s : State) :
    (forceMode t cause target next resync s).vital = s.vital := by
  simp [forceMode]

@[simp] theorem forceSafeStop_vital (t cause : Nat) (s : State) : (forceSafeStop t cause s).vital = s.vital := by
  unfold forceSafeStop
  simp
  repeat' split
  all_goals simp

@[simp] theorem modeDegraded_vital (s : State) : (modeDegraded s).vital = s.vital := by simp [modeDegraded]

@[simp] theorem tripGroup_vital (t g source cause val : Nat) (s : State) : (tripGroup t g source cause val s).vital = s.vital := by
  unfold tripGroup; dsimp only; split <;> simp

@[simp] theorem tripAll_vital (t source cause val : Nat) (s : State) : (tripAll t source cause val s).vital = s.vital := by simp [tripAll]
@[simp] theorem latchGroup_vital (t g : Nat) (s : State) : (latchGroup t g s).vital = s.vital := by simp [latchGroup]
@[simp] theorem clearHeld_vital (g : Nat) (s : State) : (clearHeld g s).vital = s.vital := by simp [clearHeld]
@[simp] theorem releaseLegs_vital (t g : Nat) (s : State) : (releaseLegs t g s).vital = s.vital := by simp [releaseLegs]
@[simp] theorem chanReaction_vital (t n : Nat) (s : State) : (chanReaction t n s).vital = s.vital := by simp [chanReaction]
@[simp] theorem chanFault_vital (t n cause : Nat) (s : State) : (chanFault t n cause s).vital = s.vital := by simp [chanFault]
@[simp] theorem State.withRec_vital (f : Rec → Rec) (s : State) : (State.withRec f s).vital = s.vital := by simp [State.withRec]
@[simp] theorem commitCapture_vital (t : Nat) (c : Capture) (s : State) : (commitCapture t c s).vital = s.vital := by simp [commitCapture]
@[simp] theorem fireNext_vital (s : State) : (fireNext s).vital = s.vital := by simp [fireNext]

@[simp] theorem armRecorder_vital (t : Nat) (s : State) : (armRecorder t s).vital = s.vital := by
  unfold armRecorder
  dsimp only
  repeat' split
  all_goals simp

@[simp] theorem finishCapture_vital (t : Nat) (s : State) : (finishCapture t s).vital = s.vital := by
  unfold finishCapture
  split <;> simp

@[simp] theorem freezeMaster_vital (t m addr : Nat) (write : Bool) (s : State) : (freezeMaster t m addr write s).vital = s.vital := by
  simp [freezeMaster]

/-! ### Reset -/

@[simp] theorem resetCount_vital (cause : Nat) (s : State) : (resetCount cause s).vital = s.vital := by simp [resetCount]
@[simp] theorem applySettings_vital (b : List Byte) (s : State) : (applySettings b s).vital = s.vital := by simp [applySettings]
@[simp] theorem requestReset_vital (t cause : Nat) (s : State) : (requestReset t cause s).vital = s.vital := by simp [requestReset]

/-! ### System commands and host accesses -/

@[simp] theorem unfreeze_vital (t m by' : Nat) (s : State) : (unfreeze t m by' s).vital = s.vital := by simp [unfreeze]
@[simp] theorem doorbellReject_vital (t n v : Nat) (s : State) : (doorbellReject t n v s).vital = s.vital := by simp [doorbellReject]
@[simp] theorem violate_vital (t m addr : Nat) (write : Bool) (s : State) : (violate t m addr write s).vital = s.vital := by simp [violate]
@[simp] theorem stall_vital (m : Nat) (s : State) : (stall m s).vital = s.vital := by simp [stall]
@[simp] theorem latchTime_vital (s : State) : (latchTime s).vital = s.vital := by simp [latchTime]

@[simp] theorem countTrunc_vital (addr n : Nat) (s : State) : (countTrunc addr n s).vital = s.vital := by
  unfold countTrunc; split
  · exact whenReady_vital (fun s => by simp) s
  · rfl

@[simp] theorem hspiReadByte_vital (t a : Nat) (s : State) : (hspiReadByte t a s).2.vital = s.vital := by
  unfold hspiReadByte
  dsimp only
  repeat' split
  all_goals simp

@[simp] theorem hspiReadBytes_vital (t n a : Nat) (s : State) : (hspiReadBytes t n a s).2.vital = s.vital := by
  induction n generalizing a s with
  | zero => rfl
  | succ n ih => exact (ih _ _).trans (hspiReadByte_vital t a s)

@[simp] theorem hspiRead_vital (t addr n : Nat) (s : State) : (hspiRead t addr n s).vital = s.vital := by simp [hspiRead]
@[simp] theorem setDomain_vital (d st : Nat) (s : State) : (setDomain d st s).vital = s.vital := by simp [setDomain]
@[simp] theorem domainOff_vital (t d st : Nat) (s : State) : (domainOff t d st s).vital = s.vital := by simp [domainOff]

/-! ### The Sheaf table -/

@[simp] theorem sendWaiting_vital (n : Nat) (s : State) : (sendWaiting n s).vital = s.vital := by simp [sendWaiting]
@[simp] theorem startDue_vital (n : Nat) (s : State) : (startDue n s).vital = s.vital := by simp [startDue]
@[simp] theorem stopAfterPass_vital (n : Nat) (s : State) : (stopAfterPass n s).vital = s.vital := by simp [stopAfterPass]
@[simp] theorem disableChan_vital (n : Nat) (s : State) : (disableChan n s).vital = s.vital := by simp [disableChan]

/-! ### Profile generators -/

@[simp] theorem updateGen_vital (t k : Nat) (s : State) : (updateGen t k s).vital = s.vital := by simp [updateGen]
@[simp] theorem initGen_vital (t k : Nat) (s : State) : (initGen t k s).vital = s.vital := by simp [initGen]

/-! ### The control engine -/

@[simp] theorem resolveInit_vital (r : PassRec) (s : State) : (resolveInit r s).vital = s.vital := by simp [resolveInit]

@[simp] theorem channelEvent_vital (t n : Nat) (lanes : List Int) (s : State) : (channelEvent t n lanes s).vital = s.vital := by
  unfold channelEvent
  split <;> simp

@[simp] theorem leaveBank_vital (r : PassRec) (s : State) : (leaveBank r s).vital = s.vital := by simp [leaveBank]

@[simp] theorem commitPass_vital (t : Nat) (r : PassRec) (x : PassResult) (clocks : Nat) (s : State) :
    (commitPass t r x clocks s).vital = s.vital := by
  simp [commitPass]

@[simp] theorem retirePass_vital (r : PassRec) (done : Bool) (s : State) : (retirePass r done s).vital = s.vital := by simp [retirePass]
@[simp] theorem engineDegraded_vital (t core : Nat) (s : State) : (engineDegraded t core s).vital = s.vital := by simp [engineDegraded]

@[simp] theorem retireCore_vital (t core ch kind : Nat) (s : State) : (retireCore t core ch kind s).vital = s.vital := by
  unfold retireCore
  dsimp only
  repeat' split
  all_goals simp

@[simp] theorem abortSplice_vital (t : Nat) (s : State) : (abortSplice t s).vital = s.vital := by
  unfold abortSplice
  split <;> simp

@[simp] theorem finishSplice_vital (t : Nat) (s : State) : (finishSplice t s).vital = s.vital := by
  unfold finishSplice
  split <;> simp

@[simp] theorem modSplice_vital (f : CoreSplice → CoreSplice) (s : State) : (modSplice f s).vital = s.vital := by simp [modSplice]

@[simp] theorem joinPass_vital (t : Nat) (r : PassRec) (equal : Bool) (s : State) : (joinPass t r equal s).vital = s.vital := by
  unfold joinPass
  split <;> simp

@[simp] theorem joinUnit_vital (t u : Nat) (equal : Bool) (s : State) : (joinUnit t u equal s).vital = s.vital := by
  unfold joinUnit
  split <;> simp

@[simp] theorem exportGroup_vital (g : Nat) (s : State) : (exportGroup g s).vital = s.vital := by simp [exportGroup]
@[simp] theorem noMajority_vital (t : Nat) (r : PassRec) (s : State) : (noMajority t r s).vital = s.vital := by simp [noMajority]

@[simp] theorem dissentReaction_vital (t : Nat) (chans : List Nat) (cause : Nat) (spare : Bool) (s : State) :
    (dissentReaction t chans cause spare s).vital = s.vital := by
  simp [dissentReaction]

@[simp] theorem dissented_vital (t ch : Nat) (chans : List Nat) (cause : Nat) (d : Nat × Nat) (s : State) :
    (dissented t ch chans cause d s).vital = s.vital := by
  simp [dissented]

@[simp] theorem usedForced_vital (s : State) : (usedForced s).vital = s.vital := by simp [usedForced]
@[simp] theorem genNoMajority_vital (t k : Nat) (s : State) : (genNoMajority t k s).vital = s.vital := by simp [genNoMajority]
@[simp] theorem setUnit_vital (u : Nat) (v : List Int) (s : State) : (setUnit u v s).vital = s.vital := by simp [setUnit]

@[simp] theorem voteUnit_vital (t u : Nat) (claims : List CoreClaim) (late : List Nat) (s : State) :
    (voteUnit t u claims late s).vital = s.vital := by
  unfold voteUnit
  dsimp only
  repeat' split
  all_goals simp

@[simp] theorem faultDue_vital (t n : Nat) (s : State) : (faultDue t n s).vital = s.vital := by
  unfold faultDue
  dsimp only
  repeat' split
  all_goals simp

@[simp] theorem groupReaction_vital (t g : Nat) (s : State) : (groupReaction t g s).vital = s.vital := by simp [groupReaction]

/-! ### The grid group -/

@[simp] theorem claimLeg_vital (n role : Nat) (phase : Option (BitVec 16)) (s : State) : (claimLeg n role phase s).vital = s.vital := by
  simp [claimLeg]

@[simp] theorem dropLeg_vital (n : Nat) (s : State) : (dropLeg n s).vital = s.vital := by simp [dropLeg]
@[simp] theorem applyGridCfg_vital (t : Nat) (c : GridCfg) (s : State) : (applyGridCfg t c s).vital = s.vital := by simp [applyGridCfg]
@[simp] theorem State.modTrk_vital (f : Tracker → Tracker) (s : State) : (State.modTrk f s).vital = s.vital := by simp [State.modTrk]
@[simp] theorem trackerTo_vital (t st : Nat) (s : State) : (trackerTo t st s).vital = s.vital := by simp [trackerTo]
@[simp] theorem startCoasting_vital (t : Nat) (s : State) : (startCoasting t s).vital = s.vital := by simp [startCoasting]

@[simp] theorem jumpEvent_vital (t began : Nat) (jump : Int) (reacq : Bool) (s : State) : (jumpEvent t began jump reacq s).vital = s.vital := by
  simp [jumpEvent]

@[simp] theorem reacquire_vital (t : Nat) (o : GridObs) (s : State) : (reacquire t o s).vital = s.vital := by simp [reacquire]
@[simp] theorem trackerMeasure_vital (t : Nat) (o : GridObs) (s : State) : (trackerMeasure t o s).vital = s.vital := by simp [trackerMeasure]
@[simp] theorem trackerLock_vital (t : Nat) (s : State) : (trackerLock t s).vital = s.vital := by simp [trackerLock]
@[simp] theorem trackerUnlock_vital (t : Nat) (s : State) : (trackerUnlock t s).vital = s.vital := by simp [trackerUnlock]
@[simp] theorem reacqClear_vital (t : Nat) (s : State) : (reacqClear t s).vital = s.vital := by simp [reacqClear]
@[simp] theorem trackerTick_vital (t : Nat) (o : GridObs) (s : State) : (trackerTick t o s).vital = s.vital := by simp [trackerTick]

@[simp] theorem angleSample_vital (t a : Nat) (s : State) : (angleSample t a s).vital = s.vital := by
  unfold angleSample
  dsimp only
  repeat' split
  all_goals simp

@[simp] theorem functionsStep_vital (c : GridCfg) (s : State) : (functionsStep c s).vital = s.vital := by simp [functionsStep]

@[simp] theorem gridManager_vital (t : Nat) (s : State) : (gridManager t s).vital = s.vital := by
  unfold gridManager
  split <;> simp

@[simp] theorem deliverLinks_vital (s : State) : (deliverLinks s).vital = s.vital := by
  unfold deliverLinks
  split <;> simp

@[simp] theorem resyncCount_vital (s : State) : (resyncCount s).vital = s.vital := by
  unfold resyncCount
  split <;> simp

@[simp] theorem vsmBoundary_vital (t : Nat) (s : State) : (vsmBoundary t s).vital = s.vital := by
  unfold vsmBoundary
  dsimp only
  repeat' split
  all_goals simp

@[simp] theorem vsmEnter_vital (prev mode : Nat) (s : State) : (vsmEnter prev mode s).vital = s.vital := by
  unfold vsmEnter
  split <;> simp

@[simp] theorem setOutputs_vital (t : Nat) (o : TrackObs) (s : State) : (setOutputs t o s).vital = s.vital := by
  unfold setOutputs
  split <;> simp

@[simp] theorem latchOutputs_vital (t : Nat) (o : TrackObs) (s : State) : (latchOutputs t o s).vital = s.vital := by simp [latchOutputs]
@[simp] theorem gridPendings_vital (s : State) : (gridPendings s).vital = s.vital := by simp [gridPendings]

/-! ### Entry conditions -/

@[simp] theorem pvTo_vital (t p st : Nat) (s : State) : (pvTo t p st s).vital = s.vital := by simp [pvTo]
@[simp] theorem batTo_vital (t b st : Nat) (s : State) : (batTo t b st s).vital = s.vital := by simp [batTo]

@[simp] theorem endSweep_vital (t p how cause vAfter pAfter far : Nat) (s : State) :
    (endSweep t p how cause vAfter pAfter far s).vital = s.vital := by
  unfold endSweep
  dsimp only
  repeat' split
  all_goals simp

@[simp] theorem abortSweep_vital (t p cause : Nat) (s : State) : (abortSweep t p cause s).vital = s.vital := by simp [abortSweep]
@[simp] theorem abortSweeps_vital (t cause : Nat) (s : State) : (abortSweeps t cause s).vital = s.vital := by simp [abortSweeps]
@[simp] theorem ordersNow_vital (t : Nat) (s : State) : (ordersNow t s).vital = s.vital := by simp [ordersNow]
@[simp] theorem modeChannels_vital (t mode : Nat) (s : State) : (modeChannels t mode s).vital = s.vital := by simp [modeChannels]
@[simp] theorem initPower_vital (t : Nat) (s : State) : (initPower t s).vital = s.vital := by simp [initPower]

@[simp] theorem softBegin_vital (t : Nat) (s : State) : (softBegin t s).vital = s.vital := by
  unfold softBegin
  split <;> simp

@[simp] theorem enterMode_vital (t mode cause : Nat) (s : State) : (enterMode t mode cause s).vital = s.vital := by
  unfold enterMode
  dsimp only
  repeat' split
  all_goals simp

/-! ### Ride-through -/

@[simp] theorem State.modRt_vital (f : Rt → Rt) (s : State) : (State.modRt f s).vital = s.vital := by simp [State.modRt]
@[simp] theorem State.modDcl_vital (f : Dcl → Dcl) (s : State) : (State.modDcl f s).vital = s.vital := by simp [State.modDcl]
@[simp] theorem holdTerm_vital (s : State) : (holdTerm s).vital = s.vital := by simp [holdTerm]
@[simp] theorem classTo_vital (t c : Nat) (s : State) : (classTo t c s).vital = s.vital := by simp [classTo]
@[simp] theorem classReturn_vital (t : Nat) (s : State) : (classReturn t s).vital = s.vital := by simp [classReturn]
@[simp] theorem classTick_vital (t : Nat) (s : State) : (classTick t s).vital = s.vital := by simp [classTick]
@[simp] theorem tripTick_vital (f : Nat) (fOk : Bool) (s : State) : (tripTick f fOk s).vital = s.vital := by simp [tripTick]
@[simp] theorem restartDelay_vital (t : Nat) (s : State) : (restartDelay t s).vital = s.vital := by simp [restartDelay]

@[simp] theorem rtTrip_vital (t : Nat) (s : State) : (rtTrip t s).vital = s.vital := by
  unfold rtTrip
  dsimp only
  repeat' split
  all_goals simp

@[simp] theorem cessation_vital (t : Nat) (s : State) : (cessation t s).vital = s.vital := by simp [cessation]
@[simp] theorem cessationReturn_vital (t : Nat) (s : State) : (cessationReturn t s).vital = s.vital := by simp [cessationReturn]
@[simp] theorem gateTick_vital (t : Nat) (s : State) : (gateTick t s).vital = s.vital := by simp [gateTick]
@[simp] theorem gateDue_vital (t : Nat) (s : State) : (gateDue t s).vital = s.vital := by simp [gateDue]
@[simp] theorem esComplete_vital (t : Nat) (s : State) : (esComplete t s).vital = s.vital := by simp [esComplete]
@[simp] theorem esTick_vital (t : Nat) (s : State) : (esTick t s).vital = s.vital := by simp [esTick]
@[simp] theorem serviceCauses_vital (t : Nat) (s : State) : (serviceCauses t s).vital = s.vital := by simp [serviceCauses]
@[simp] theorem windowTick_vital (f : Nat) (s : State) : (windowTick f s).vital = s.vital := by simp [windowTick]

@[simp] theorem termTick_vital (s : State) : (termTick s).vital = s.vital := by
  unfold termTick
  split <;> simp

@[simp] theorem rtMeasure_vital (t : Nat) (o : GridObs) (c : GridCfg) (s : State) : (rtMeasure t o c s).vital = s.vital := by simp [rtMeasure]

@[simp] theorem rtTick_vital (t : Nat) (o : GridObs) (s : State) : (rtTick t o s).vital = s.vital := by
  unfold rtTick
  split <;> simp

@[simp] theorem dclEvent_vital (t step : Nat) (s : State) : (dclEvent t step s).vital = s.vital := by simp [dclEvent]

@[simp] theorem overrideGen_vital (b : Nat) (s : State) : (overrideGen b s).vital = s.vital := by
  unfold overrideGen
  split <;> simp

@[simp] theorem dclStep3_vital (t : Nat) (s : State) : (dclStep3 t s).vital = s.vital := by simp [dclStep3]
@[simp] theorem dclStep12_vital (t : Nat) (s : State) : (dclStep12 t s).vital = s.vital := by simp [dclStep12]
@[simp] theorem dclEval_vital (t : Nat) (s : State) : (dclEval t s).vital = s.vital := by simp [dclEval]
@[simp] theorem dclSample_vital (t ain out : Nat) (v : Int) (s : State) : (dclSample t ain out v s).vital = s.vital := by simp [dclSample]

@[simp] theorem pvRestart_vital (t p : Nat) (s : State) : (pvRestart t p s).vital = s.vital := by
  unfold pvRestart
  dsimp only
  repeat' split
  all_goals simp

/-! ### Islanding -/

@[simp] theorem State.modIsl_vital (f : Isl → Isl) (s : State) : (State.modIsl f s).vital = s.vital := by simp [State.modIsl]
@[simp] theorem awnTo_vital (t st cause : Nat) (s : State) : (awnTo t st cause s).vital = s.vital := by simp [awnTo]
@[simp] theorem awnRefresh_vital (t cause : Nat) (s : State) : (awnRefresh t cause s).vital = s.vital := by simp [awnRefresh]
@[simp] theorem takeAwnCfg_vital (s : State) : (takeAwnCfg s).vital = s.vital := by simp [takeAwnCfg]
@[simp] theorem startEpoch_vital (t : Nat) (s : State) : (startEpoch t s).vital = s.vital := by simp [startEpoch]
@[simp] theorem awnChip_vital (t : Nat) (s : State) : (awnChip t s).vital = s.vital := by simp [awnChip]

@[simp] theorem awnEpoch_vital (t : Nat) (s : State) : (awnEpoch t s).vital = s.vital := by
  unfold awnEpoch
  split <;> simp

@[simp] theorem awnResume_vital (t : Nat) (s : State) : (awnResume t s).vital = s.vital := by simp [awnResume]
@[simp] theorem awnLatch_vital (s : State) : (awnLatch s).vital = s.vital := by simp [awnLatch]

@[simp] theorem awnBoundary_vital (s : State) : (awnBoundary s).vital = s.vital := by
  unfold awnBoundary
  split <;> simp

@[simp] theorem awnSample_vital (stamp ain out : Nat) (v quad : Int) (s : State) : (awnSample stamp ain out v quad s).vital = s.vital := by
  unfold awnSample
  split <;> simp

@[simp] theorem awnCount_vital (t : Nat) (z : F32) (s : State) : (awnCount t z s).vital = s.vital := by simp [awnCount]

@[simp] theorem awnKeep_vital (t : Nat) (o : AwnMeas) (angle : Int) (rest valid : Bool) (s : State) :
    (awnKeep t o angle rest valid s).vital = s.vital := by
  simp [awnKeep]

@[simp] theorem awnDecide_vital (t : Nat) (o : AwnMeas) (angle : Int) (s : State) : (awnDecide t o angle s).vital = s.vital := by
  unfold awnDecide
  dsimp only
  repeat' split
  all_goals simp

@[simp] theorem awnEvaluate_vital (t : Nat) (angle : Int) (s : State) : (awnEvaluate t angle s).vital = s.vital := by
  unfold awnEvaluate
  split <;> simp

@[simp] theorem islAct_vital (t basis : Nat) (s : State) : (islAct t basis s).vital = s.vital := by simp [islAct]
@[simp] theorem islDecision_vital (t : Nat) (s : State) : (islDecision t s).vital = s.vital := by simp [islDecision]
@[simp] theorem rocofTrip_vital (t : Nat) (s : State) : (rocofTrip t s).vital = s.vital := by simp [rocofTrip]
@[simp] theorem rocofTick_vital (f : Nat) (s : State) : (rocofTick f s).vital = s.vital := by simp [rocofTick]
@[simp] theorem passiveTick_vital (t : Nat) (s : State) : (passiveTick t s).vital = s.vital := by simp [passiveTick]
@[simp] theorem applyAwnCfg_vital (t : Nat) (c : AwnCfg) (s : State) : (applyAwnCfg t c s).vital = s.vital := by simp [applyAwnCfg]
@[simp] theorem setPeer_vital (t m mode code : Nat) (s : State) : (setPeer t m mode code s).vital = s.vital := by simp [setPeer]

@[simp] theorem awnRestart_vital (t : Nat) (s : State) : (awnRestart t s).vital = s.vital := by
  unfold awnRestart
  dsimp only
  repeat' split
  all_goals simp

/-! ### Ports -/

@[simp] theorem State.modPorts_vital (f : Ports → Ports) (s : State) : (State.modPorts f s).vital = s.vital := by simp [State.modPorts]

@[simp] theorem pvTick_vital (t p : Nat) (s : State) : (pvTick t p s).vital = s.vital := by
  unfold pvTick
  dsimp only
  repeat' split
  all_goals simp

@[simp] theorem pvYield_vital (t p : Nat) (s : State) : (pvYield t p s).vital = s.vital := by
  unfold pvYield
  dsimp only
  repeat' split
  all_goals simp

@[simp] theorem yieldAll_vital (t : Nat) (s : State) : (yieldAll t s).vital = s.vital := by simp [yieldAll]
@[simp] theorem pvTap_vital (kind input out stamp : Nat) (v : Int) (s : State) : (pvTap kind input out stamp v s).vital = s.vital := by simp [pvTap]

@[simp] theorem startSweep_vital (t p pNow vEnd : Nat) (reserve : F32) (s : State) : (startSweep t p pNow vEnd reserve s).vital = s.vital := by
  simp [startSweep]

@[simp] theorem searchPort_vital (t p free : Nat) (s : State) : (searchPort t p free s).vital = s.vital := by
  unfold searchPort
  dsimp only
  repeat' split
  all_goals simp

@[simp] theorem bmsTo_vital (t n st : Nat) (s : State) : (bmsTo t n st s).vital = s.vital := by simp [bmsTo]
@[simp] theorem canDiscard_vital (s : State) : (canDiscard s).vital = s.vital := by simp [canDiscard]
@[simp] theorem bmsReport_vital (t bus n : Nat) (d : List Byte) (s : State) : (bmsReport t bus n d s).vital = s.vital := by simp [bmsReport]
@[simp] theorem bmsStale_vital (t n : Nat) (s : State) : (bmsStale t n s).vital = s.vital := by simp [bmsStale]
@[simp] theorem bmsDepart_vital (t n : Nat) (s : State) : (bmsDepart t n s).vital = s.vital := by simp [bmsDepart]
@[simp] theorem bmsTick_vital (t : Nat) (s : State) : (bmsTick t s).vital = s.vital := by simp [bmsTick]

@[simp] theorem batState_vital (t b : Nat) (s : State) : (batState t b s).vital = s.vital := by
  unfold batState
  dsimp only
  repeat' split
  all_goals simp

@[simp] theorem batTick_vital (t b : Nat) (s : State) : (batTick t b s).vital = s.vital := by
  unfold batTick
  split <;> simp

@[simp] theorem batTarget_vital (b : Nat) (w : F32) (s : State) : (batTarget b w s).vital = s.vital := by
  unfold batTarget
  split <;> simp

@[simp] theorem shareTick_vital (s : State) : (shareTick s).vital = s.vital := by
  unfold shareTick
  split <;> simp

@[simp] theorem clampTargets_vital (s : State) : (clampTargets s).vital = s.vital := by simp [clampTargets]
@[simp] theorem portLinks_vital (s : State) : (portLinks s).vital = s.vital := by simp [portLinks]
@[simp] theorem portsTick_vital (t : Nat) (s : State) : (portsTick t s).vital = s.vital := by simp [portsTick]
@[simp] theorem applyPvCfg_vital (t p : Nat) (c : PvCfg) (s : State) : (applyPvCfg t p c s).vital = s.vital := by simp [applyPvCfg]
@[simp] theorem applyBatCfg_vital (t b : Nat) (c : BatCfg) (s : State) : (applyBatCfg t b c s).vital = s.vital := by simp [applyBatCfg]
@[simp] theorem portEnable_vital (t : Nat) (bat on : Bool) (n : Nat) (s : State) : (portEnable t bat on n s).vital = s.vital := by simp [portEnable]
@[simp] theorem setBat_vital (n : Nat) (w : F32) (s : State) : (setBat n w s).vital = s.vital := by simp [setBat]

/-! ### PWM -/

@[simp] theorem State.modTb_vital (k : Nat) (f : Tb → Tb) (s : State) : (State.modTb k f s).vital = s.vital := by simp [State.modTb]

@[simp] theorem tbAnchor_vital (n k : Nat) (z : Option Int) (s : State) : (tbAnchor n k z s).vital = s.vital := by
  induction n generalizing k z s with
  | zero => rfl
  | succ n ih => simp [tbAnchor, ih]

@[simp] theorem tbApply_vital (k : Nat) (x : Int) (s : State) : (tbApply k x s).vital = s.vital := by simp [tbApply]

@[simp] theorem pwmSettle_vital (t : Nat) (s : State) : (pwmSettle t s).vital = s.vital := by
  unfold pwmSettle
  dsimp only
  generalize hu : (if (s.pwm.tbs.any fun b => b.pend) = true then _ else s) = u
  have h : u.vital = s.vital := by
    subst hu
    split
    · refine foldl_vital (fun s i => ?_) _ _
      repeat' split
      all_goals simp
    · rfl
  split <;> simp [h]

@[simp] theorem d6Sync_vital (t : Nat) (x : Int) (s : State) : (d6Sync t x s).vital = s.vital := by simp [d6Sync]
@[simp] theorem curMode_vital (old new : Nat) (s : State) : (curMode old new s).vital = s.vital := by simp [curMode]
@[simp] theorem endLegTest_vital (t n : Nat) (s : State) : (endLegTest t n s).vital = s.vital := by simp [endLegTest]
@[simp] theorem endLegTests_vital (t : Nat) (s : State) : (endLegTests t s).vital = s.vital := by simp [endLegTests]
@[simp] theorem startLegTest_vital (t n ceil ms : Nat) (s : State) : (startLegTest t n ceil ms s).vital = s.vital := by simp [startLegTest]

/-! ### Sensing -/

@[simp] theorem State.modSense_vital (f : Sense → Sense) (s : State) : (State.modSense f s).vital = s.vital := by simp [State.modSense]
@[simp] theorem State.modSar_vital (u : Nat) (f : Sar → Sar) (s : State) : (State.modSar u f s).vital = s.vital := by simp [State.modSar]
@[simp] theorem State.modKir_vital (g : Nat) (f : Kir → Kir) (s : State) : (State.modKir g f s).vital = s.vital := by simp [State.modKir]
@[simp] theorem decimLoad_vital (leg t : Nat) (s : State) : (decimLoad leg t s).vital = s.vital := by simp [decimLoad]
@[simp] theorem kirSample_vital (t a : Nat) (s : State) : (kirSample t a s).vital = s.vital := by simp [kirSample]

@[simp] theorem clipSample_vital (t a : Nat) (s : State) : (clipSample t a s).vital = s.vital := by
  unfold clipSample
  dsimp only
  repeat' split
  all_goals simp

@[simp] theorem setConv_vital (c role ain : Nat) (s : State) : (setConv c role ain s).vital = s.vital := by simp [setConv]
@[simp] theorem fixVisit_vital (s : State) : (fixVisit s).vital = s.vital := by simp [fixVisit]
@[simp] theorem routeConfirm_vital (f a : Nat) (s : State) : (routeConfirm f a s).vital = s.vital := by simp [routeConfirm]

@[simp] theorem fixShadow_vital (s : State) : (fixShadow s).vital = s.vital := by
  unfold fixShadow
  simp
  repeat' split
  all_goals simp

@[simp] theorem retiredConv_vital (c : Nat) (s : State) : (retiredConv c s).vital = s.vital := by simp [retiredConv]
@[simp] theorem spliceConv_vital (a spare : Nat) (s : State) : (spliceConv a spare s).vital = s.vital := by simp [spliceConv]
@[simp] theorem unmark_vital (l : List Nat) (s : State) : (unmark l s).vital = s.vital := by simp [unmark]
@[simp] theorem unstick_vital (a : Nat) (s : State) : (unstick a s).vital = s.vital := by simp [unstick]
@[simp] theorem suspend_vital (c : Confirm) (s : State) : (suspend c s).vital = s.vital := by simp [suspend]
@[simp] theorem retireConv_vital (t a spare since : Nat) (s : State) : (retireConv t a spare since s).vital = s.vital := by simp [retireConv]
@[simp] theorem noSpareRule_vital (t : Nat) (c : Confirm) (s : State) : (noSpareRule t c s).vital = s.vital := by simp [noSpareRule]

@[simp] theorem startConfirm_vital (t n : Nat) (s : State) : (startConfirm t n s).vital = s.vital := by
  induction n generalizing s with
  | zero => rfl
  | succ n ih =>
    unfold startConfirm
    dsimp only
    (repeat' split) <;> simp [ih]

@[simp] theorem releaseSpare_vital (c : Confirm) (s : State) : (releaseSpare c s).vital = s.vital := by
  unfold releaseSpare
  split <;> simp

@[simp] theorem giveWay_vital (c : Confirm) (s : State) : (giveWay c s).vital = s.vital := by
  unfold giveWay
  split <;> simp

@[simp] theorem flagSuspect_vital (t check group : Nat) (ains : List Nat) (s : State) :
    (flagSuspect t check group ains s).vital = s.vital := by
  unfold flagSuspect; dsimp only; split <;> simp

@[simp] theorem suspectNow_vital (t check unit : Nat) (s : State) : (suspectNow t check unit s).vital = s.vital := by simp [suspectNow]
@[simp] theorem suspects_vital (t a : Nat) (s : State) : (suspects t a s).vital = s.vital := by simp [suspects]

@[simp] theorem nextVisit_vital (s : State) : (nextVisit s).vital = s.vital := by
  unfold nextVisit
  dsimp only
  repeat' split
  all_goals simp

@[simp] theorem endConfirm_vital (t : Nat) (c : Confirm) (s : State) : (endConfirm t c s).vital = s.vital := by simp [endConfirm]
@[simp] theorem retireSpare_vital (w : Nat) (s : State) : (retireSpare w s).vital = s.vital := by simp [retireSpare]
@[simp] theorem shadowVerdict_vital (t a b d : Nat) (c : Confirm) (s : State) : (shadowVerdict t a b d c s).vital = s.vital := by simp [shadowVerdict]
@[simp] theorem State.setHealth_vital (i v : Nat) (s : State) : (State.setHealth i v s).vital = s.vital := by simp [State.setHealth]

@[simp] theorem probeNow_vital (u : Nat) (s : State) : (probeNow u s).vital = s.vital := by
  unfold probeNow
  dsimp only
  repeat' split
  all_goals simp

@[simp] theorem hkResult_vital (u n start code : Nat) (s : State) : (hkResult u n start code s).vital = s.vital := by simp [hkResult]
@[simp] theorem clearProbe_vital (genuine : Bool) (t u : Nat) (s : State) : (clearProbe genuine t u s).vital = s.vital := by simp [clearProbe]
@[simp] theorem spliceSar_vital (t u p : Nat) (s : State) : (spliceSar t u p s).vital = s.vital := by simp [spliceSar]

@[simp] theorem sarVerdict_vital (t u : Nat) (s : State) : (sarVerdict t u s).vital = s.vital := by
  unfold sarVerdict
  dsimp only
  repeat' split
  all_goals simp

@[simp] theorem testResult_vital (t u x code : Nat) (s : State) : (testResult t u x code s).vital = s.vital := by simp [testResult]
@[simp] theorem hkReadDone_vital (n start : Nat) (s : State) : (hkReadDone n start s).vital = s.vital := by simp [hkReadDone]
@[simp] theorem pathResult_vital (t : Nat) (e : PathEntry) (m : Int) (s : State) : (pathResult t e m s).vital = s.vital := by simp [pathResult]
@[simp] theorem pathLevel_vital (t l : Nat) (e : PathEntry) (s : State) : (pathLevel t l e s).vital = s.vital := by simp [pathLevel]

@[simp] theorem pathTake_vital (t kind input : Nat) (code : Int) (s : State) : (pathTake t kind input code s).vital = s.vital := by
  unfold pathTake
  dsimp only
  repeat' split
  all_goals simp

@[simp] theorem calibrate_vital (s : State) : (calibrate s).vital = s.vital := by simp [calibrate]

@[simp] theorem startPathTest_vital (l : List PathEntry) (d : Option DurReply) (s : State) : (startPathTest l d s).vital = s.vital := by
  unfold startPathTest
  split <;> simp

/-! ### Safety -/

@[simp] theorem State.modSafety_vital (f : Safety → Safety) (s : State) : (State.modSafety f s).vital = s.vital := by simp [State.modSafety]
@[simp] theorem State.modSf_vital (i : Nat) (f : Sf → Sf) (s : State) : (State.modSf i f s).vital = s.vital := by simp [State.modSf]
@[simp] theorem State.modOut_vital (x : Nat) (f : SOut → SOut) (s : State) : (State.modOut x f s).vital = s.vital := by simp [State.modOut]
@[simp] theorem State.modPair_vital (k : Nat) (f : Pair → Pair) (s : State) : (State.modPair k f s).vital = s.vital := by simp [State.modPair]
@[simp] theorem State.modConn_vital (c : Nat) (f : VConn → VConn) (s : State) : (State.modConn c f s).vital = s.vital := by simp [State.modConn]
@[simp] theorem pairFault_vital (t k cause ch : Nat) (s : State) : (pairFault t k cause ch s).vital = s.vital := by simp [pairFault]
@[simp] theorem discrepancyFault_vital (t k : Nat) (s : State) : (discrepancyFault t k s).vital = s.vital := by simp [discrepancyFault]
@[simp] theorem outFault_vital (t x cause el : Nat) (s : State) : (outFault t x cause el s).vital = s.vital := by simp [outFault]
@[simp] theorem testPassed_vital (t x : Nat) (s : State) : (testPassed t x s).vital = s.vital := by simp [testPassed]
@[simp] theorem startTest_vital (t x : Nat) (s : State) : (startTest t x s).vital = s.vital := by simp [startTest]

@[simp] theorem testsTick_vital (t : Nat) (s : State) : (testsTick t s).vital = s.vital := by
  unfold testsTick
  dsimp only
  repeat' split
  all_goals simp

@[simp] theorem produce_vital (c : Nat) (s : State) : (produce c s).vital = s.vital := by simp [produce]
@[simp] theorem produceAll_vital (s : State) : (produceAll s).vital = s.vital := by simp [produceAll]
@[simp] theorem funcTo_vital (t i st : Nat) (cause : Nat × Nat) (s : State) : (funcTo t i st cause s).vital = s.vital := by simp [funcTo]
@[simp] theorem endTests_vital (t i : Nat) (s : State) : (endTests t i s).vital = s.vital := by simp [endTests]
@[simp] theorem ackFault_vital (t i : Nat) (s : State) : (ackFault t i s).vital = s.vital := by simp [ackFault]

@[simp] theorem evalFn_vital (t : Nat) (acks : Bool) (i : Nat) (s : State) : (evalFn t acks i s).vital = s.vital := by
  unfold evalFn
  dsimp only
  repeat' split
  all_goals simp

@[simp] theorem evalFns_vital (t : Nat) (acks : Bool) (s : State) : (evalFns t acks s).vital = s.vital := by simp [evalFns]

@[simp] theorem logChange_vital (t kind : Nat) (session : BitVec 32) (before after : Nat) (s : State) :
    (logChange t kind session before after s).vital = s.vital := by
  unfold logChange
  exact (State.post_vital _ _ _).trans (State.modSafety_vital _ _)

@[simp] theorem logPlain_vital (t kind : Nat) (session : BitVec 32) (s : State) : (logPlain t kind session s).vital = s.vital := by simp [logPlain]
@[simp] theorem connTo_vital (t c st cause : Nat) (s : State) : (connTo t c st cause s).vital = s.vital := by simp [connTo]
@[simp] theorem applyConn_vital (t : Nat) (s : State) (c : Nat) : (applyConn t s c).vital = s.vital := by simp [applyConn]
@[simp] theorem applyFn_vital (t : Nat) (s : State) (i : Nat) : (applyFn t s i).vital = s.vital := by simp [applyFn]

@[simp] theorem applyImage_vital (t kind : Nat) (img : List Byte) (session : BitVec 32) (s : State) :
    (applyImage t kind img session s).vital = s.vital := by
  simp [applyImage]

@[simp] theorem applyPending_vital (t : Nat) (s : State) : (applyPending t s).vital = s.vital := by
  unfold applyPending
  split <;> simp

@[simp] theorem flagAcks_vital (sel : Nat → Bool) (s : State) : (flagAcks sel s).vital = s.vital := by simp [flagAcks]
@[simp] theorem pairTick_vital (t k : Nat) (s : State) : (pairTick t k s).vital = s.vital := by simp [pairTick]
@[simp] theorem connTimeout_vital (t c : Nat) (s : State) : (connTimeout t c s).vital = s.vital := by simp [connTimeout]

@[simp] theorem safetyTick_vital (t : Nat) (s : State) : (safetyTick t s).vital = s.vital := by
  unfold safetyTick
  split <;> simp

@[simp] theorem feedbackSeen_vital (s : State) : (feedbackSeen s).vital = s.vital := by
  unfold feedbackSeen
  refine foldl_vital (fun s x => ?_) _ _
  split <;> simp

@[simp] theorem feedbackLate_vital (t x : Nat) (s : State) : (feedbackLate t x s).vital = s.vital := by simp [feedbackLate]
@[simp] theorem pairWindow_vital (t src : Nat) (s : State) (k : Nat) : (pairWindow t src s k).vital = s.vital := by simp [pairWindow]
@[simp] theorem readFault_vital (t x : Nat) (s : State) : (readFault t x s).vital = s.vital := by simp [readFault]
@[simp] theorem queueTests_vital (t : Nat) (sel : Nat → Bool) (s : State) : (queueTests t sel s).vital = s.vital := by simp [queueTests]
@[simp] theorem connError_vital (t c : Nat) (crc : Bool) (s : State) : (connError t c crc s).vital = s.vital := by simp [connError]
@[simp] theorem connAccept_vital (t c : Nat) (pdu : List Byte) (s : State) : (connAccept t c pdu s).vital = s.vital := by simp [connAccept]

@[simp] theorem vrelPdu_vital (t : Nat) (ip : List Byte) (port : Nat) (pdu : List Byte) (s : State) : (vrelPdu t ip port pdu s).vital = s.vital := by
  unfold vrelPdu
  split <;> simp

@[simp] theorem endUnlock_vital (s : State) : (endUnlock s).vital = s.vital := by simp [endUnlock]
@[simp] theorem touched_vital (p : Packet) (s : State) : (touched p s).vital = s.vital := by simp [touched]

@[simp] theorem badPassword_vital (t : Nat) (session : BitVec 32) (s : State) : (badPassword t session s).vital = s.vital := by
  unfold badPassword; dsimp only; split <;> simp

@[simp] theorem goodPassword_vital (s : State) : (goodPassword s).vital = s.vital := by simp [goodPassword]
@[simp] theorem afterCheck_vital (t r : Nat) (session : BitVec 32) (s : State) : (afterCheck t r session s).vital = s.vital := by simp [afterCheck]

@[simp] theorem safetySwitch_vital (t : Nat) (s : State) : (safetySwitch t s).vital = s.vital := by
  unfold safetySwitch
  dsimp only
  repeat' split
  all_goals simp

/-! ### Network -/

@[simp] theorem State.modNet_vital (f : Net → Net) (s : State) : (State.modNet f s).vital = s.vital := by simp [State.modNet]

@[simp] theorem learn_vital (ip mac : List Byte) (s : State) : (learn ip mac s).vital = s.vital := by
  unfold learn
  dsimp only
  repeat' split
  all_goals simp

@[simp] theorem benDiscard_vital (s : State) : (benDiscard s).vital = s.vital := by simp [benDiscard]
@[simp] theorem refresh_vital (t src counter : Nat) (s : State) : (refresh t src counter s).vital = s.vital := by simp [refresh]
@[simp] theorem benReceive_vital (t : Nat) (d : List Byte) (s : State) : (benReceive t d s).vital = s.vital := by simp [benReceive]

@[simp] theorem frameIn_vital (t port : Nat) (b : List Byte) (s : State) : (frameIn t port b s).vital = s.vital := by
  unfold frameIn
  dsimp only
  repeat' split
  all_goals simp

@[simp] theorem announce_vital (leaving : Bool) (s : State) : (announce leaving s).vital = s.vital := by simp [announce]

@[simp] theorem joinPeer_vital (t : Nat) (p : Peer) (s : State) : (joinPeer t p s).vital = s.vital := by
  unfold joinPeer
  dsimp only
  repeat' split
  all_goals simp

@[simp] theorem conflictCheck_vital (t src : Nat) (serial : List Byte) (s : State) : (conflictCheck t src serial s).vital = s.vital := by
  simp [conflictCheck]

@[simp] theorem sendPdu_vital (s : State) : (sendPdu s).vital = s.vital := by
  unfold sendPdu
  split <;> simp

@[simp] theorem busOff_vital (t c : Nat) (off : Bool) (s : State) : (busOff t c off s).vital = s.vital := by simp [busOff]
@[simp] theorem ptpFirst_vital (s : State) : (ptpFirst s).vital = s.vital := by simp [ptpFirst]
@[simp] theorem ptpJudge_vital (t : Nat) (o : Int) (s : State) : (ptpJudge t o s).vital = s.vital := by simp [ptpJudge]
@[simp] theorem ptpSlew_vital (t : Nat) (s : State) : (ptpSlew t s).vital = s.vital := by simp [ptpSlew]
@[simp] theorem ptpOffset_vital (o : Int) (m : Nat) (s : State) : (ptpOffset o m s).vital = s.vital := by simp [ptpOffset]

/-! ### Cooling -/

@[simp] theorem coolDegraded_vital (s : State) : (coolDegraded s).vital = s.vital := by simp [coolDegraded]
@[simp] theorem driveTo_vital (t n st cause : Nat) (s : State) : (driveTo t n st cause s).vital = s.vital := by simp [driveTo]
@[simp] theorem needTry_vital (t n cause : Nat) (s : State) : (needTry t n cause s).vital = s.vital := by simp [needTry]
@[simp] theorem driveCount_vital (n k : Nat) (s : State) : (driveCount n k s).vital = s.vital := by simp [driveCount]
@[simp] theorem driveStart_vital (t n cause : Nat) (s : State) : (driveStart t n cause s).vital = s.vital := by simp [driveStart]
@[simp] theorem coolHvLost_vital (t : Nat) (s : State) : (coolHvLost t s).vital = s.vital := by simp [coolHvLost]
@[simp] theorem coolHvGood_vital (t : Nat) (s : State) : (coolHvGood t s).vital = s.vital := by simp [coolHvGood]

@[simp] theorem coolReady_vital (t : Nat) (s : State) : (coolReady t s).vital = s.vital := by
  unfold coolReady
  refine foldl_vital (fun s x => ?_) _ _
  split <;> simp

@[simp] theorem rampFails_vital (t d : Nat) (c : CoolCfg) (s : State) : (rampFails t d c s).vital = s.vital := by simp [rampFails]

@[simp] theorem crossingMiss_vital (t d : Nat) (c : CoolCfg) (early : Bool) (s : State) : (crossingMiss t d c early s).vital = s.vital := by
  simp [crossingMiss]

@[simp] theorem rampCrossing_vital (t d : Nat) (c : CoolCfg) (s : State) : (rampCrossing t d c s).vital = s.vital := by simp [rampCrossing]
@[simp] theorem runCrossing_vital (t d : Nat) (c : CoolCfg) (s : State) : (runCrossing t d c s).vital = s.vital := by simp [runCrossing]
@[simp] theorem coastCrossing_vital (t d : Nat) (c : CoolCfg) (s : State) : (coastCrossing t d c s).vital = s.vital := by simp [coastCrossing]
@[simp] theorem wearHour_vital (t d : Nat) (up : Bool) (s : State) : (wearHour t d up s).vital = s.vital := by simp [wearHour]

@[simp] theorem coolRun_vital (t n : Nat) (start clear : Bool) (target : Nat) (s : State) : (coolRun t n start clear target s).vital = s.vital := by
  simp [coolRun]

/-! ### Protection -/

@[simp] theorem State.modProt_vital (f : Prot → Prot) (s : State) : (State.modProt f s).vital = s.vital := by simp [State.modProt]
@[simp] theorem State.modFlt_vital (n : Nat) (f : Flt → Flt) (s : State) : (State.modFlt n f s).vital = s.vital := by simp [State.modFlt]
@[simp] theorem State.modMon_vital (m : Nat) (f : Mon → Mon) (s : State) : (State.modMon m f s).vital = s.vital := by simp [State.modMon]
@[simp] theorem cmpLoad_vital (leg : Nat) (s : State) : (cmpLoad leg s).vital = s.vital := by simp [cmpLoad]
@[simp] theorem curEdge_vital (t leg : Nat) (s : State) : (curEdge t leg s).vital = s.vital := by simp [curEdge]

@[simp] theorem curChange_vital (t n : Nat) (s : State) : (curChange t n s).vital = s.vital := by
  unfold curChange
  split <;> simp

@[simp] theorem cmpEvent_vital (t n : Nat) (s : State) : (cmpEvent t n s).vital = s.vital := by
  unfold cmpEvent
  dsimp only
  repeat' split
  all_goals simp

@[simp] theorem suspectCmp_vital (n : Nat) (s : State) : (suspectCmp n s).vital = s.vital := by simp [suspectCmp]
@[simp] theorem monActs_vital (t n : Nat) (s : State) : (monActs t n s).vital = s.vital := by simp [monActs]

@[simp] theorem monResult_vital (t : Nat) (hk : Bool) (input out : Nat) (v : Int) (valid : Bool) (s : State) :
    (monResult t hk input out v valid s).vital = s.vital := by
  simp [monResult]

@[simp] theorem initOwners_vital (g : Nat) (s : State) : (initOwners g s).vital = s.vital := by simp [initOwners]
@[simp] theorem armGroup_vital (t g : Nat) (s : State) : (armGroup t g s).vital = s.vital := by simp [armGroup]
@[simp] theorem protDegraded_vital (s : State) : (protDegraded s).vital = s.vital := by simp [protDegraded]
@[simp] theorem retireCell_vital (k : Nat) (s : State) : (retireCell k s).vital = s.vital := by simp [retireCell]
@[simp] theorem mapCell_vital (n k : Nat) (s : State) : (mapCell n k s).vital = s.vital := by simp [mapCell]

@[simp] theorem failCell_vital (t n k : Nat) (s : State) : (failCell t n k s).vital = s.vital := by
  unfold failCell
  split <;> simp

@[simp] theorem cellFailed_vital (t k : Nat) (s : State) : (cellFailed t k s).vital = s.vital := by
  unfold cellFailed
  split <;> simp

@[simp] theorem dropTest_vital (n : Nat) (s : State) : (dropTest n s).vital = s.vital := by simp [dropTest]

/-! ### Recorder -/

@[simp] theorem State.modRec_vital (f : Rec → Rec) (s : State) : (State.modRec f s).vital = s.vital := by simp [State.modRec]
@[simp] theorem State.modLane_vital (l : Nat) (f : Lane → Lane) (s : State) : (State.modLane l f s).vital = s.vital := by simp [State.modLane]
@[simp] theorem State.modTrig_vital (u : Nat) (f : Trig → Trig) (s : State) : (State.modTrig u f s).vital = s.vital := by simp [State.modTrig]
@[simp] theorem streamBlock_vital (t : Nat) (b : Block) (s : State) : (streamBlock t b s).vital = s.vital := by simp [streamBlock]
@[simp] theorem closeBlock_vital (t : Nat) (b : Block) (s : State) : (closeBlock t b s).vital = s.vital := by simp [closeBlock]

@[simp] theorem closeLane_vital (t l : Nat) (s : State) : (closeLane t l s).vital = s.vital := by
  unfold closeLane
  split <;> simp

@[simp] theorem blockWord_vital (t l : Nat) (c : Int) (w : BitVec 16) (s : State) : (blockWord t l c w s).vital = s.vital := by
  unfold blockWord
  split <;> simp

@[simp] theorem laneTriggers_vital (l : Nat) (c v : Int) (s : State) : (laneTriggers l c v s).vital = s.vital := by
  unfold laneTriggers
  refine foldl_vital (fun s x => ?_) _ _
  dsimp only
  repeat' split
  all_goals simp

@[simp] theorem skewCross_vital (l : Nat) (c v : Int) (s : State) : (skewCross l c v s).vital = s.vital := by
  unfold skewCross
  split <;> simp

/-! ### Modes -/

@[simp] theorem commandMode_vital (t target ms : Nat) (s : State) : (commandMode t target ms s).vital = s.vital := by simp [commandMode]
@[simp] theorem noteSettings_vital (s : State) : (noteSettings s).vital = s.vital := by simp [noteSettings]
@[simp] theorem startAttempt_vital (t : Nat) (s : State) : (startAttempt t s).vital = s.vital := by simp [startAttempt]
@[simp] theorem d7Silent_vital (s : State) : (d7Silent s).vital = s.vital := by simp [d7Silent]
@[simp] theorem faultedOff_vital (t : Nat) (s : State) : (faultedOff t s).vital = s.vital := by simp [faultedOff]
@[simp] theorem afterEntry_vital (t prev mode cause : Nat) (s : State) : (afterEntry t prev mode cause s).vital = s.vital := by simp [afterEntry]
@[simp] theorem secondStep_vital (t next cause : Nat) (s : State) : (secondStep t next cause s).vital = s.vital := by simp [secondStep]

@[simp] theorem modeDue_vital (t : Nat) (s : State) : (modeDue t s).vital = s.vital := by
  unfold modeDue
  dsimp only
  repeat' split
  all_goals simp

@[simp] theorem padClamp_vital (s : State) : (padClamp s).vital = s.vital := by simp [padClamp]
@[simp] theorem pvLost_vital (t p : Nat) (s : State) : (pvLost t p s).vital = s.vital := by simp [pvLost]
@[simp] theorem domainFault_vital (t d : Nat) (s : State) : (domainFault t d s).vital = s.vital := by simp [domainFault]

/-! ### Clocks -/

@[simp] theorem State.modClk_vital (f : Clk → Clk) (s : State) : (State.modClk f s).vital = s.vital := by simp [State.modClk]
@[simp] theorem State.modLoop_vital (l : Nat) (f : Loop → Loop) (s : State) : (State.modLoop l f s).vital = s.vital := by simp [State.modLoop]
@[simp] theorem switchOver_vital (t cause : Nat) (s : State) : (switchOver t cause s).vital = s.vital := by simp [switchOver]
@[simp] theorem toRing_vital (t cause : Nat) (s : State) : (toRing t cause s).vital = s.vital := by simp [toRing]
@[simp] theorem becomeMain_vital (t l : Nat) (s : State) : (becomeMain t l s).vital = s.vital := by simp [becomeMain]
@[simp] theorem afterLoss_vital (t l cause : Nat) (s : State) : (afterLoss t l cause s).vital = s.vital := by simp [afterLoss]
@[simp] theorem loopSpliced_vital (t l : Nat) (s : State) : (loopSpliced t l s).vital = s.vital := by simp [loopSpliced]
@[simp] theorem loopLost_vital (t l cause : Nat) (s : State) : (loopLost t l cause s).vital = s.vital := by simp [loopLost]

@[simp] theorem xrefAbsent_vital (t : Nat) (s : State) : (xrefAbsent t s).vital = s.vital := by
  unfold xrefAbsent
  dsimp only
  repeat' split
  all_goals simp

/-! ### Memory and the life cycle -/

@[simp] theorem State.modMem_vital {f : MemSys → MemSys}
    (h : ∀ m, (f m).sram = m.sram ∧ (f m).mram = m.mram ∧ (f m).lc = m.lc ∧ (f m).lcPend = m.lcPend) (s : State) : (s.modMem f).vital = s.vital := by
  simp [State.modMem, h]

@[simp] theorem State.countN_vital (i n : Nat) (s : State) : (State.countN i n s).vital = s.vital := by simp [State.countN]
@[simp] theorem rowSplice_vital (t b r : Nat) (s : State) : (rowSplice t b r s).vital = s.vital := by simp [rowSplice]
@[simp] theorem correction_vital (t a : Nat) (s : State) : (correction t a s).vital = s.vital := by simp [correction]
@[simp] theorem truncCapture_vital (t : Nat) (s : State) : (truncCapture t s).vital = s.vital := by simp [truncCapture]

@[simp] theorem sectorSplice_vital (t x : Nat) (s : State) : (sectorSplice t x s).1.vital = s.vital := by
  unfold sectorSplice
  split <;> simp

@[simp] theorem refuseCommit_vital (image : Nat) (s : State) : (refuseCommit image s).vital = s.vital := by simp [refuseCommit]
@[simp] theorem flushDurable_vital (image n : Nat) (s : State) : (flushDurable image n s).vital = s.vital := by simp [flushDurable]
@[simp] theorem flushAll_vital (image : Nat) (s : State) : (flushAll image s).vital = s.vital := by simp [flushAll]
@[simp] theorem identityCommitted_vital (s : State) : (identityCommitted s).vital = s.vital := by simp [identityCommitted]
@[simp] theorem huskStored_vital (s : State) : (huskStored s).vital = s.vital := by simp [huskStored]

@[simp] theorem countHour_vital (t : Nat) (s : State) : (countHour t s).vital = s.vital := by
  simp [countHour]

@[simp] theorem setVerified_vital (kind slot : Nat) (v : Bool) (s : State) : (setVerified kind slot v s).vital = s.vital := by
  unfold setVerified
  split <;> simp

@[simp] theorem selectSlot_vital (t kind slot : Nat) (b : List Byte) (s : State) : (selectSlot t kind slot b s).vital = s.vital := by
  simp [selectSlot]

@[simp] theorem loopSplice_vital (t l : Nat) (s : State) : (loopSplice t l s).vital = s.vital := by simp [loopSplice]

@[simp] theorem spliceNow_vital (t kind e pos : Nat) (s : State) : (spliceNow t kind e pos s).vital = s.vital := by
  unfold spliceNow
  simp
  repeat' split
  all_goals simp

/-! ### Husk -/

@[simp] theorem State.modHusk_vital (f : Husk → Husk) (s : State) : (State.modHusk f s).vital = s.vital := by simp [State.modHusk]
@[simp] theorem huskPost_vital (t : Nat) (e : Ev) (s : State) : (huskPost t e s).vital = s.vital := by simp [huskPost]
@[simp] theorem huskEnter_vital (t st : Nat) (s : State) : (huskEnter t st s).vital = s.vital := by simp [huskEnter]

@[simp] theorem huskSettle_vital (t : Nat) (s : State) : (huskSettle t s).vital = s.vital := by
  unfold huskSettle
  dsimp only
  repeat' split
  all_goals simp

@[simp] theorem keepSettle_vital (t cause : Nat) (s : State) : (keepSettle t cause s).vital = s.vital := by simp [keepSettle]
@[simp] theorem thresholds_vital (t : Nat) (s : State) : (thresholds t s).vital = s.vital := by simp [thresholds]
@[simp] theorem setVolts_vital (vqs vls : Nat) (s : State) : (setVolts vqs vls s).vital = s.vital := by simp [setVolts]
@[simp] theorem markLost_vital (t why : Nat) (s : State) : (markLost t why s).vital = s.vital := by simp [markLost]
@[simp] theorem tegTo_vital (t : Nat) (on : Bool) (s : State) : (tegTo t on s).vital = s.vital := by simp [tegTo]
@[simp] theorem rtcWrite_vital (s : State) : (rtcWrite s).vital = s.vital := by simp [rtcWrite]

@[simp] theorem powerFailure_vital (t vqs vls : Nat) (s : State) : (powerFailure t vqs vls s).vital = s.vital := by
  unfold powerFailure
  dsimp only
  repeat' split
  all_goals simp

@[simp] theorem commitTail_vital (t : Nat) (s : State) : (commitTail t s).vital = s.vital := by
  unfold commitTail
  split <;> simp

@[simp] theorem huskReady_vital (s : State) : (huskReady s).vital = s.vital := by simp [huskReady]

/-! ### Load events and samples -/

@[simp] theorem interlock_vital (t n m : Nat) (s : State) : (interlock t n m s).vital = s.vital := by simp [interlock]
@[simp] theorem bootLimit_vital (t n : Nat) (asked applied : Int) (s : State) : (bootLimit t n asked applied s).vital = s.vital := by simp [bootLimit]

@[simp] theorem placeCompare_vital (t n : Nat) (peak : Bool) (mode L : Nat) (s : State) : (placeCompare t n peak mode L s).vital = s.vital := by
  unfold placeCompare
  split <;> simp

@[simp] theorem placeCurMode_vital (t n L : Nat) (s : State) : (placeCurMode t n L s).vital = s.vital := by simp [placeCurMode]

@[simp] theorem placeInterval_vital (t n : Nat) (peak : Bool) (b : TbCfg) (x shift : Int) (s : State) :
    (placeInterval t n peak b x shift s).vital = s.vital := by
  simp [placeInterval]

@[simp] theorem curStart_vital (t n : Nat) (s : State) : (curStart t n s).vital = s.vital := by simp [curStart]
@[simp] theorem loadNow_vital (t leg : Nat) (peak : Bool) (x : Int) (s : State) : (loadNow t leg peak x s).vital = s.vital := by simp [loadNow]

@[simp] theorem frontAngle_vital (t a : Nat) (angle : Option Nat) (s : State) : (frontAngle t a angle s).vital = s.vital := by
  unfold frontAngle
  split <;> simp

/-! ### Ticks -/

@[simp] theorem rateInForce_vital (c : RateCfg) (s : State) : (rateInForce c s).vital = s.vital := by simp [rateInForce]

@[simp] theorem countTick_vital (t : Nat) (s : State) : (countTick t s).vital = s.vital := by
  unfold countTick
  split <;> simp

@[simp] theorem gridBoundary_vital (t : Nat) (o : TrackObs) (s : State) : (gridBoundary t o s).vital = s.vital := by simp [gridBoundary]
@[simp] theorem gensOf_vital (t g : Nat) (s : State) : (gensOf t g s).vital = s.vital := by simp [gensOf]

/-! ### Start-up -/

@[simp] theorem stage_vital (b : BootStage) (s : State) : (stage b s).vital = s.vital := by simp [stage]
@[simp] theorem toRecovery_vital (s : State) : (toRecovery s).vital = s.vital := by simp [toRecovery]

@[simp] theorem slotSeen_vital (kind slot version security : Nat) (s : State) : (slotSeen kind slot version security s).vital = s.vital := by
  simp [slotSeen]

@[simp] theorem bootFrom_vital (slot version : Nat) (s : State) : (bootFrom slot version s).vital = s.vital := by simp [bootFrom]

@[simp] theorem startConv_vital (t : Nat) (s : State) (a : Nat) : (startConv t s a).vital = s.vital := by
  unfold startConv
  split <;> simp

@[simp] theorem startSar_vital (t : Nat) (s : State) (u : Nat) : (startSar t s u).vital = s.vital := by
  unfold startSar
  split <;> simp

@[simp] theorem raiseMinimums_vital (s : State) : (raiseMinimums s).vital = s.vital := by simp [raiseMinimums]

end Sys2Proof.Machine
end

section
/-! SUPPORT. The operations that store to memory, end sessions, reset the device or record a life-cycle transition: none loses what the invariants say. -/

namespace Sys2Proof.Machine

/-- The pending transition of the life cycle, if any, is one of those of R543 and starts from the state in force. -/
def Vital.Legal (a : Vital) : Prop := ∀ l ∈ a.lcPend, l.lcFrom = a.lc ∧ lcListed l.lcFrom l.lcTo = true

/-- From a to b nothing that the invariants speak of is lost: memories stay canonical, the life-cycle state stands, its pending transition stays one of
those listed, and the sessions' values stay other than 0. -/
structure Vital.Safe (a b : Vital) : Prop where
  sram : Mem.wf a.sram = true → Mem.wf b.sram = true
  mram : Mem.wf a.mram = true → Mem.wf b.mram = true
  lc : b.lc = a.lc
  legal : a.Legal → b.Legal
  values : (∀ v ∈ a.values, v ≠ 0) → ∀ v ∈ b.values, v ≠ 0

@[simp, refl] theorem Vital.Safe.refl (a : Vital) : a.Safe a := ⟨id, id, rfl, id, id⟩

theorem Vital.Safe.trans {a b c : Vital} (h : a.Safe b) (k : b.Safe c) : a.Safe c :=
  ⟨k.sram ∘ h.sram, k.mram ∘ h.mram, k.lc.trans h.lc, k.legal ∘ h.legal, k.values ∘ h.values⟩

@[simp] theorem Vital.safe_ite {a b c : Vital} (p : Prop) [Decidable p] : a.Safe (if p then b else c) ↔ (p → a.Safe b) ∧ (¬p → a.Safe c) := by
  split <;> simp [*]

variable {a : Vital} {s : State}

/-- A fold of safe steps is safe. -/
@[simp] theorem foldl_safe {α : Type} {f : State → α → State} (h : ∀ (s : State) x, s.vital.Safe (f s x).vital) (l : List α) (k : a.Safe s.vital) :
    a.Safe (l.foldl f s).vital :=
  k.trans (foldl_rel (R := fun s t => s.vital.Safe t.vital) (fun s => .refl s.vital) Vital.Safe.trans h l s)

/-! ### Memory -/

/-- SRAM changed to one that is canonical where it was. -/
theorem Vital.Safe.of_sram {m : Mem} (h : Mem.wf a.sram = true → Mem.wf m = true) : a.Safe { a with sram := m } := ⟨h, id, rfl, id, id⟩

/-- MRAM changed to one that is canonical where it was. -/
theorem Vital.Safe.of_mram {m : Mem} (h : Mem.wf a.mram = true → Mem.wf m = true) : a.Safe { a with mram := m } := ⟨id, h, rfl, id, id⟩

@[simp] theorem store_safe (x : Nat) (v : List Byte) (h : a.Safe s.vital) : a.Safe (s.store x v).vital := by
  refine h.trans ?_
  unfold State.store
  split
  · exact .of_mram (a := s.vital) fun h => Mem.wf_writeN h x v
  · exact .of_sram (a := s.vital) fun h => Mem.wf_writeN h x v

@[simp] theorem markDescriptor_safe (n i : Nat) (f : Byte) (h : a.Safe s.vital) : a.Safe (markDescriptor n i f s).vital := store_safe _ _ h

@[simp] theorem useDescriptor_safe (t n i : Nat) (h : a.Safe s.vital) : a.Safe (useDescriptor t n s i).vital := by
  simp [useDescriptor, h]

@[simp] theorem passOver_safe (t n k : Nat) (h : a.Safe s.vital) : a.Safe (passOver t n k s).vital := by
  induction k generalizing s with
  | zero => exact h
  | succ k ih =>
    unfold passOver
    dsimp only
    split
    · exact ih (by simp [h])
    · exact h

@[simp] theorem passHeads_safe (t n : Nat) (h : a.Safe s.vital) : a.Safe (passHeads t n s).vital := by
  simp [passHeads, h]

@[simp] theorem arrived_safe (p : Packet) (h : a.Safe s.vital) : a.Safe (arrived p s).vital := by
  unfold arrived
  split <;> simp [h]

@[simp] theorem takePacket_safe (p : Packet) (h : a.Safe s.vital) : a.Safe (takePacket p s).vital := by
  have used (n i : Nat) (l : List Nat) : a.Safe (passHeads p.t n ((l.foldl (useDescriptor p.t n) s).modRing n fun r =>
      { r with devIndex := (r.devIndex + i) % r.size })).vital := by
    refine passHeads_safe _ _ ?_
    rw [State.modRing_vital]
    exact foldl_safe (fun s x => useDescriptor_safe _ _ _ (.refl _)) l h
  unfold takePacket
  dsimp only
  split
  · exact used _ _ _
  · exact used _ _ _
  · split <;> simp [h]
  · exact h

@[simp] theorem restore_safe (m : Mem) (key x n : Nat) (h : a.Safe s.vital) : a.Safe (restore m key x n s).vital := store_safe _ _ h

@[simp] theorem mramPut_safe (r x : Nat) (b : List Byte) (h : a.Safe s.vital) : a.Safe (mramPut r x b s).vital := by
  simp [mramPut, h]

@[simp] theorem descriptorLost_safe (t n i : Nat) (h : a.Safe s.vital) : a.Safe (descriptorLost t n i s).vital := by
  simp [descriptorLost, h]

@[simp] theorem entryReload_safe (t n : Nat) (h : a.Safe s.vital) : a.Safe (entryReload t n s).vital := by
  simp [entryReload, h]

@[simp] theorem doubleBit_safe (t x : Nat) (h : a.Safe s.vital) : a.Safe (doubleBit t x s).vital := by
  unfold doubleBit
  repeat' split
  all_goals simp [h]

@[simp] theorem sendHead_safe (t n : Nat) (h : a.Safe s.vital) : a.Safe (sendHead t n s).vital := by
  have used (u : State) (hu : a.Safe u.vital) (i : Nat) (b : List Byte) : a.Safe (passHeads t n
      (((useDescriptor t n u i).modRing n fun r => { r with devIndex := (r.devIndex + 1) % r.size }).modNet fun x => { x with txLast := some (n, b) })).vital :=
    passHeads_safe _ _ (by simp [hu])
  have passed := passHeads_safe t n h
  unfold sendHead
  dsimp only
  split
  · exact passed
  · simp [used _ passed]

/-! ### The register block and HSPI_ -/

@[simp] theorem doorbell_safe (t n v : Nat) (h : a.Safe s.vital) : a.Safe (doorbell t n v s).vital := by
  simp [doorbell, h]

@[simp] theorem sysWrite_safe (t m off v : Nat) (h : a.Safe s.vital) : a.Safe (sysWrite t m off v s).vital := by
  simp [sysWrite, h]

@[simp] theorem hspiWriteByte_safe (t addr : Nat) (d : List Byte) (i : Nat) (h : a.Safe s.vital) : a.Safe (hspiWriteByte t addr d i s).vital := by
  simp [hspiWriteByte, h]

@[simp] theorem hspiWrite_safe (t addr : Nat) (d : List Byte) (h : a.Safe s.vital) : a.Safe (hspiWrite t addr d s).vital := by
  simp [hspiWrite, h]

/-! ### The Sheaf table -/

@[simp] theorem placeEntry_safe (n off : Nat) (b : List Byte) (h : a.Safe s.vital) : a.Safe (placeEntry n off b s).vital := by
  simp [placeEntry, h]

@[simp] theorem memBits_safe (n : Nat) (mask b : Byte) (h : a.Safe s.vital) : a.Safe (memBits n mask b s).vital := store_safe _ _ h

@[simp] theorem showOwn_safe (n : Nat) (h : a.Safe s.vital) : a.Safe (showOwn n s).vital := store_safe _ _ (memBits_safe _ _ _ h)

@[simp] theorem deviceBits_safe (n : Nat) (f : Nat → Nat) (h : a.Safe s.vital) : a.Safe (deviceBits n f s).vital := by
  simp [deviceBits, h]

@[simp] theorem stampEntry_safe (n : Nat) (h : a.Safe s.vital) : a.Safe (stampEntry n s).vital := by
  simp [stampEntry, h]

@[simp] theorem effectNow_safe (n : Nat) (h : a.Safe s.vital) : a.Safe (effectNow n s).vital := by
  have stopped : a.Safe (if chEnable s.eng.act n && !chEnable s.eng.run n && (s.chan n).running then stopChan n s else s).vital := by simp [h]
  unfold effectNow
  dsimp only
  generalize (if (chEnable s.eng.act n && !chEnable s.eng.run n && (s.chan n).running) = true then stopChan n s else s) = u at stopped ⊢
  simp [stopped]

@[simp] theorem placed_safe (was : Bool) (n : Nat) (h : a.Safe s.vital) : a.Safe (placed was n s).vital := by
  simp [placed, h]

@[simp] theorem writeImg_safe (n : Nat) (img : List Byte) (h : a.Safe s.vital) : a.Safe (writeImg n img s).vital := by
  unfold writeImg
  rw [State.modEng_vital]
  exact memBits_safe _ _ _ (store_safe _ _ (store_safe _ _ (store_safe _ _ h)))

@[simp] theorem writeEnable_safe (n : Nat) (on : Bool) (h : a.Safe s.vital) : a.Safe (writeEnable n on s).vital := by
  simp [writeEnable, h]

@[simp] theorem arm_safe (g req b : Nat) (h : a.Safe s.vital) : a.Safe (arm g req b s).vital := by
  simp [arm, h]

@[simp] theorem disarm_safe (g : Nat) (h : a.Safe s.vital) : a.Safe (disarm g s).vital := by
  simp [disarm, h]

@[simp] theorem writeTemplate_safe (i : Nat) (b : List Byte) (h : a.Safe s.vital) : a.Safe (writeTemplate i b s).vital := by
  simp [writeTemplate, h]

@[simp] theorem loadFromMemory_safe (n : Nat) (r : Bool) (h : a.Safe s.vital) : a.Safe (loadFromMemory n r s).vital := by
  simp [loadFromMemory, h]

@[simp] theorem loadStored_safe (t : Nat) (m : Mem) (n : Nat) (h : a.Safe s.vital) : a.Safe (loadStored t m s n).vital := by
  unfold loadStored
  dsimp only
  split <;> simp [h]

@[simp] theorem loadTemplates_safe (m : Mem) (h : a.Safe s.vital) : a.Safe (loadTemplates m s).vital := by
  simp [loadTemplates, h]

@[simp] theorem loadSheaf_safe (t w : Nat) (h : a.Safe s.vital) : a.Safe (loadSheaf t w s).vital := by
  simp [loadSheaf, h]

@[simp] theorem copyStates_safe (h : a.Safe s.vital) : a.Safe (copyStates s).vital := by
  simp [copyStates, h]

@[simp] theorem boundaryChan_safe (n : Nat) (h : a.Safe s.vital) : a.Safe (boundaryChan n s).vital := by
  simp [boundaryChan, h]

@[simp] theorem afterPass_safe (n : Nat) (h : a.Safe s.vital) : a.Safe (afterPass n s).vital := by
  simp [afterPass, h]

@[simp] theorem overrun_safe (t g : Nat) (gone : List PassRec) (h : a.Safe s.vital) : a.Safe (overrun t g gone s).vital := by
  unfold overrun
  dsimp only
  split
  · exact h
  · split <;> simp [h]

@[simp] theorem boundaryOverrun_safe (t g : Nat) (h : a.Safe s.vital) : a.Safe (boundaryOverrun t g s).vital := by
  simp [boundaryOverrun, h]

@[simp] theorem votePass_safe (t : Nat) (claims : List CoreClaim) (late : List Nat) (clocks : Nat) (h : a.Safe s.vital) :
    a.Safe (votePass t claims late clocks s).vital := by
  unfold votePass
  dsimp only
  repeat' split
  all_goals simp [h]

/-! ### The recorder's statistics -/

@[simp] theorem bumpBin_safe (x : Nat) (h : a.Safe s.vital) : a.Safe (bumpBin x s).vital := store_safe _ _ h

@[simp] theorem bumpMapCell_safe (m r c : Nat) (h : a.Safe s.vital) : a.Safe (bumpMapCell m r c s).vital := store_safe _ _ h

@[simp] theorem pairMap_safe (m : Nat) (h : a.Safe s.vital) : a.Safe (pairMap m s).vital := by
  unfold pairMap
  dsimp only
  split
  · exact h
  · rw [State.modRec_vital]
    exact foldl_safe (fun s y => by split <;> simp) _ h

@[simp] theorem laneMaps_safe (l : Nat) (c v : Int) (h : a.Safe s.vital) : a.Safe (laneMaps l c v s).vital := by
  simp [laneMaps, h]

@[simp] theorem laneValue_safe (t l : Nat) (c v : Int) (valid clip : Bool) (h : a.Safe s.vital) :
    a.Safe (laneValue t l c v valid clip s).vital := by
  unfold laneValue
  dsimp only
  split <;> simp [h]

@[simp] theorem recResult_safe (t kind input out stamp delay : Nat) (v : Int) (valid clip : Bool) (h : a.Safe s.vital) :
    a.Safe (recResult t kind input out stamp delay v valid clip s).vital := by
  simp [recResult, h]

@[simp] theorem ainResult_safe (t x out stamp : Nat) (v : Int) (valid : Bool) (quad : Int) (h : a.Safe s.vital) :
    a.Safe (ainResult t x out stamp v valid quad s).vital := by
  simp [ainResult, h]

@[simp] theorem decimSample_safe (t x : Nat) (v : Int) (bad clip : Bool) (quad : Int) (h : a.Safe s.vital) :
    a.Safe (decimSample t x v bad clip quad s).vital :=
  foldl_safe (fun s o => foldl_safe (fun s r => ainResult_safe _ _ _ _ _ _ _ (.refl _)) _ (by simp)) _ h

@[simp] theorem recRestart_safe (h : a.Safe s.vital) : a.Safe (recRestart s).vital :=
  h.trans (.of_sram (a := s.vital) fun h => Mem.wf_clear h _ _)

/-! ### Sessions -/

/-- A session value is never 0 (R70). -/
theorem sessionValue_ne_zero (s : State) : s.sessionValue ≠ 0 := by
  unfold State.sessionValue
  split
  · decide
  · assumption

/-- Session values changed to ones that are other than 0 where they were. -/
theorem Vital.Safe.of_values {l : List (BitVec 32)} (h : (∀ v ∈ a.values, v ≠ 0) → ∀ v ∈ l, v ≠ 0) : a.Safe { a with values := l } :=
  ⟨id, id, rfl, id, h⟩

@[simp] theorem openSession_safe (src : SrcId) (h : a.Safe s.vital) : a.Safe (openSession src s).vital := by
  have opened : (openSession src s).vital = { s.vital with values := s.vital.values ++ [s.sessionValue] } := by
    simp only [openSession, State.drawn, State.modCmd, State.vital, List.map_append, List.map_cons, List.map_nil]
  rw [opened]
  refine h.trans (.of_values fun k v hv => ?_)
  rw [List.mem_append] at hv
  rcases hv with hv | hv
  · exact k v hv
  · rw [List.mem_singleton.1 hv]
    exact sessionValue_ne_zero s

/-- Sessions that end leave the others as they are (R70). -/
theorem dropSessions_vital (gone : Session → Bool) (s : State) :
    (s.dropSessions gone).vital = { s.vital with values := (s.cmd.sessions.filter fun x => !gone x).map fun x => x.value } := by
  unfold State.dropSessions
  dsimp only
  repeat' split
  all_goals rfl

@[simp] theorem dropSessions_safe (gone : Session → Bool) (h : a.Safe s.vital) : a.Safe (s.dropSessions gone).vital := by
  rw [dropSessions_vital]
  exact h.trans (.of_values fun k v hv => k v (List.map_subset _ (List.filter_subset' _) hv))

/-! ### Reset and the life cycle -/

/-- The pending transition changed to one that is legal where it was. -/
theorem Vital.Safe.of_lcPend {p : Option LcPend}
    (h : a.Legal → ∀ l ∈ p, l.lcFrom = a.lc ∧ lcListed l.lcFrom l.lcTo = true) : a.Safe { a with lcPend := p } := ⟨id, id, rfl, h, id⟩

@[simp] theorem lcRecord_safe (t : Nat) (h : a.Safe s.vital) : a.Safe (lcRecord t s).vital := by
  refine h.trans ?_
  unfold lcRecord
  split
  next l hl =>
    split
    · rfl
    · rw [State.post_vital]
      refine .of_lcPend (a := s.vital) fun k m hm => ?_
      obtain rfl := Option.mem_some.1 hm
      exact k l hl
  · rfl

/-- A transition that is listed begins as a pending one (R543, R546). -/
theorem lcStart_safe (t b : Nat) (hb : lcListed s.mem.lc b = true) (h : a.Safe s.vital) : a.Safe (lcStart t b s).vital := by
  have pend : a.Safe (s.modMem fun m => { m with nonce := none, lcPend := some { lcFrom := m.lc, lcTo := b, recorded := false } }).vital := by
    refine h.trans (.of_lcPend (a := s.vital) fun _ m hm => ?_)
    obtain rfl := Option.mem_some.1 hm
    exact ⟨rfl, hb⟩
  unfold lcStart
  dsimp only
  split <;> simp [pend]

/-- A device reset wipes SRAM and the sessions, and keeps MRAM and the life cycle (R48). -/
theorem afterReset_safe (cause : Nat) (h : a.Safe s.vital) : a.Safe (afterReset cause s).vital := by
  refine h.trans ⟨fun _ => rfl, id, rfl, fun k l hl => k l (Option.eq_some_of_filter_eq_some hl), fun _ v hv => ?_⟩
  cases hv

@[simp] theorem deviceReset_safe (cause : Nat) (h : a.Safe s.vital) : a.Safe (deviceReset cause s).vital := by
  rw [deviceReset, resetCount_vital]
  exact afterReset_safe cause h

@[simp] theorem resetNow_safe (h : a.Safe s.vital) : a.Safe (resetNow s).vital := by
  simp [resetNow, h]

@[simp] theorem managers_safe (t : Nat) (o : GridObs) (h : a.Safe s.vital) : a.Safe (managers t o s).vital := by
  simp [managers, h]

end Sys2Proof.Machine
end

section
/-! SUPPORT. Opcodes whose effects lose nothing of what the invariants say, one lemma for each. -/

namespace Sys2Proof.Machine

/-- An effect is sound where it is safe for the invariants and the reply it keeps, if it keeps one, leaves the vital part alone. -/
structure Effect.Sound (s : State) (e : Effect) : Prop where
  st : s.vital.Safe e.st.vital
  keep : ∀ k ∈ e.keep, ∀ d u, (k d u).vital = u.vital

@[simp] theorem Effect.sound_iff (s : State) (e : Effect) :
    e.Sound s ↔ s.vital.Safe e.st.vital ∧ ∀ k ∈ e.keep, ∀ d u, (k d u).vital = u.vital :=
  ⟨fun h => ⟨h.st, h.keep⟩, fun h => ⟨h.1, h.2⟩⟩

/-- An opcode is sound where every effect of it is, and its rejection leaves the vital part alone. -/
structure CmdSpec.Sound (c : CmdSpec) : Prop where
  run : ∀ p s, (c.run p s).Sound s
  onReject : ∀ st p s, (c.onReject st p s).vital = s.vital

@[simp] theorem durableNow_keep (p : Packet) : ∀ k ∈ durableNow p, ∀ d u, (k d u).vital = u.vital := by
  unfold durableNow
  split <;> simp

@[simp] theorem keepOn_keep (was : Bool) (n : Nat) : ∀ k ∈ keepOn was n, ∀ d u, (k d u).vital = u.vital := by
  unfold keepOn
  split <;> simp

/-- An effect on a channel's entry is sound where the change of the entry is safe. -/
theorem chanEffect_sound {n : Nat} {f : State → State} {s : State} (h : s.vital.Safe (f s).vital) : (chanEffect n f s).Sound s :=
  ⟨placed_safe _ _ h, keepOn_keep _ _⟩

/-- A channel enabled or disabled (R150). -/
theorem sheafEnable_sound (n : Nat) (on reset : Bool) (s : State) : (sheafEnable n on reset s).Sound s := by
  unfold sheafEnable
  split
  · exact chanEffect_sound (by simp)
  · split
    · exact ⟨placed_safe _ _ (writeEnable_safe _ _ (by simp)), keepOn_keep _ _⟩
    · simp

/-! ### System commands and host accesses -/

@[simp] theorem specSysInfo_sound : specSysInfo.Sound := ⟨fun p s => by simp [specSysInfo], fun _ _ _ => rfl⟩
@[simp] theorem specSysStatus_sound : specSysStatus.Sound := ⟨fun p s => by simp [specSysStatus], fun _ _ _ => rfl⟩
@[simp] theorem specSysReset_sound : specSysReset.Sound := ⟨fun p s => by simp [specSysReset], fun _ _ _ => rfl⟩
@[simp] theorem specSysUnfreeze_sound : specSysUnfreeze.Sound := ⟨fun p s => by simp [specSysUnfreeze], fun _ _ _ => rfl⟩
@[simp] theorem specRingConfig_sound : specRingConfig.Sound := ⟨fun p s => by simp [specRingConfig], fun _ _ _ => rfl⟩
@[simp] theorem specSessionOpen_sound : specSessionOpen.Sound := ⟨fun p s => by unfold specSessionOpen; dsimp only; split <;> simp, fun _ _ _ => rfl⟩
@[simp] theorem specSessionClose_sound : specSessionClose.Sound := ⟨fun p s => by simp [specSessionClose], fun _ _ _ => rfl⟩

/-! ### The Sheaf table -/

@[simp] theorem specSheafEntryRead_sound : specSheafEntryRead.Sound := ⟨fun p s => by simp [specSheafEntryRead], fun _ _ _ => rfl⟩
@[simp] theorem specSheafCoefStage_sound : specSheafCoefStage.Sound := ⟨fun p s => chanEffect_sound (by simp), fun _ _ _ => rfl⟩
@[simp] theorem specSheafCoefLive_sound : specSheafCoefLive.Sound := ⟨fun p s => chanEffect_sound (by simp), fun _ _ _ => rfl⟩
@[simp] theorem specSheafHitchArm_sound : specSheafHitchArm.Sound := ⟨fun p s => by simp [specSheafHitchArm], fun _ _ _ => rfl⟩
@[simp] theorem specSheafHitchCancel_sound : specSheafHitchCancel.Sound := ⟨fun p s => by simp [specSheafHitchCancel], fun _ _ _ => rfl⟩
@[simp] theorem specSheafLimitsSet_sound : specSheafLimitsSet.Sound := ⟨fun p s => chanEffect_sound (by simp), fun _ _ _ => rfl⟩
@[simp] theorem specSheafMapSet_sound : specSheafMapSet.Sound := ⟨fun p s => chanEffect_sound (by simp), fun _ _ _ => rfl⟩
@[simp] theorem specSheafStats_sound : specSheafStats.Sound := ⟨fun p s => by simp [specSheafStats], fun _ _ _ => rfl⟩
@[simp] theorem specSheafTemplateWrite_sound : specSheafTemplateWrite.Sound := ⟨fun p s => by simp [specSheafTemplateWrite], fun _ _ _ => rfl⟩
@[simp] theorem specSheafInvalidate_sound : specSheafInvalidate.Sound := ⟨fun p s => by simp [specSheafInvalidate], fun _ _ _ => rfl⟩
@[simp] theorem specSheafCommit_sound : specSheafCommit.Sound := ⟨fun p s => by simp [specSheafCommit], fun _ _ _ => rfl⟩

/-! ### Profile generators -/

@[simp] theorem specProfileConfig_sound : specProfileConfig.Sound := ⟨fun p s => by simp [specProfileConfig], fun _ _ _ => rfl⟩
@[simp] theorem specProfileTarget_sound : specProfileTarget.Sound := ⟨fun p s => by simp [specProfileTarget], fun _ _ _ => rfl⟩
@[simp] theorem specProfileHold_sound : specProfileHold.Sound := ⟨fun p s => by simp [specProfileHold], fun _ _ _ => rfl⟩
@[simp] theorem specProfileRead_sound : specProfileRead.Sound := ⟨fun p s => by simp [specProfileRead], fun _ _ _ => rfl⟩

/-! ### The control engine -/

@[simp] theorem specEngineRateSet_sound : specEngineRateSet.Sound := ⟨fun p s => by simp [specEngineRateSet], fun _ _ _ => rfl⟩
@[simp] theorem specEngineStatus_sound : specEngineStatus.Sound := ⟨fun p s => by simp [specEngineStatus], fun _ _ _ => rfl⟩

/-! ### The grid group -/

@[simp] theorem specGridConfig_sound : specGridConfig.Sound := ⟨fun p s => by simp [specGridConfig], fun _ _ _ => rfl⟩
@[simp] theorem specGridTrackerConfig_sound : specGridTrackerConfig.Sound := ⟨fun p s => by simp [specGridTrackerConfig], fun _ _ _ => rfl⟩
@[simp] theorem specGridStatus_sound : specGridStatus.Sound := ⟨fun p s => by simp [specGridStatus], fun _ _ _ => rfl⟩
@[simp] theorem specGridFunction_sound : specGridFunction.Sound := ⟨fun p s => by simp [specGridFunction], fun _ _ _ => rfl⟩
@[simp] theorem specGridSetpoint_sound : specGridSetpoint.Sound := ⟨fun p s => by simp [specGridSetpoint], fun _ _ _ => rfl⟩
@[simp] theorem specGridVsmConfig_sound : specGridVsmConfig.Sound := ⟨fun p s => by simp [specGridVsmConfig], fun _ _ _ => rfl⟩
@[simp] theorem specGridLimits_sound : specGridLimits.Sound := ⟨fun p s => by simp [specGridLimits], fun _ _ _ => rfl⟩

/-! ### Ride-through -/

@[simp] theorem specRtProfile_sound : specRtProfile.Sound := ⟨fun p s => by simp [specRtProfile], fun _ _ _ => rfl⟩
@[simp] theorem specRtRegionSet_sound : specRtRegionSet.Sound := ⟨fun p s => by simp [specRtRegionSet], fun _ _ _ => rfl⟩
@[simp] theorem specRtTripSet_sound : specRtTripSet.Sound := ⟨fun p s => by simp [specRtTripSet], fun _ _ _ => rfl⟩
@[simp] theorem specRtSupport_sound : specRtSupport.Sound := ⟨fun p s => by simp [specRtSupport], fun _ _ _ => rfl⟩
@[simp] theorem specRtService_sound : specRtService.Sound := ⟨fun p s => by simp [specRtService], fun _ _ _ => rfl⟩
@[simp] theorem specRtDclinkConfig_sound : specRtDclinkConfig.Sound := ⟨fun p s => by simp [specRtDclinkConfig], fun _ _ _ => rfl⟩
@[simp] theorem specRtDclinkClear_sound : specRtDclinkClear.Sound := ⟨fun p s => by simp [specRtDclinkClear], fun _ _ _ => rfl⟩
@[simp] theorem specRtStatus_sound : specRtStatus.Sound := ⟨fun p s => by simp [specRtStatus], fun _ _ _ => rfl⟩

/-! ### Islanding -/

@[simp] theorem specIslAwnConfig_sound : specIslAwnConfig.Sound := ⟨fun p s => by simp [specIslAwnConfig], fun _ _ _ => rfl⟩
@[simp] theorem specIslPassiveSet_sound : specIslPassiveSet.Sound := ⟨fun p s => by simp [specIslPassiveSet], fun _ _ _ => rfl⟩
@[simp] theorem specIslPeerSet_sound : specIslPeerSet.Sound := ⟨fun p s => by simp [specIslPeerSet], fun _ _ _ => rfl⟩
@[simp] theorem specIslStatus_sound : specIslStatus.Sound := ⟨fun p s => by simp [specIslStatus], fun _ _ _ => rfl⟩
@[simp] theorem specIslPccMap_sound : specIslPccMap.Sound := ⟨fun p s => by simp [specIslPccMap], fun _ _ _ => rfl⟩
@[simp] theorem specIslBaselineReset_sound : specIslBaselineReset.Sound := ⟨fun p s => by simp [specIslBaselineReset], fun _ _ _ => rfl⟩

/-! ### Ports -/

@[simp] theorem specPortPvConfig_sound : specPortPvConfig.Sound := ⟨fun p s => by simp [specPortPvConfig], fun _ _ _ => rfl⟩
@[simp] theorem specPortBatConfig_sound : specPortBatConfig.Sound := ⟨fun p s => by simp [specPortBatConfig], fun _ _ _ => rfl⟩
@[simp] theorem specPortChopperConfig_sound : specPortChopperConfig.Sound := ⟨fun p s => by simp [specPortChopperConfig], fun _ _ _ => rfl⟩
@[simp] theorem specPortShareConfig_sound : specPortShareConfig.Sound := ⟨fun p s => by simp [specPortShareConfig], fun _ _ _ => rfl⟩
@[simp] theorem specPortMpptConfig_sound : specPortMpptConfig.Sound := ⟨fun p s => by simp [specPortMpptConfig], fun _ _ _ => rfl⟩
@[simp] theorem specPortBmsConfig_sound : specPortBmsConfig.Sound := ⟨fun p s => by simp [specPortBmsConfig], fun _ _ _ => rfl⟩
@[simp] theorem specPortEnable_sound : specPortEnable.Sound := ⟨fun p s => by simp [specPortEnable], fun _ _ _ => rfl⟩
@[simp] theorem specPortBatSet_sound : specPortBatSet.Sound := ⟨fun p s => by simp [specPortBatSet], fun _ _ _ => rfl⟩
@[simp] theorem specPortSweep_sound : specPortSweep.Sound := ⟨fun p s => by simp [specPortSweep], fun _ _ _ => rfl⟩
@[simp] theorem specPortStatus_sound : specPortStatus.Sound := ⟨fun p s => by simp [specPortStatus], fun _ _ _ => rfl⟩
@[simp] theorem specPortBmsStatus_sound : specPortBmsStatus.Sound := ⟨fun p s => by simp [specPortBmsStatus], fun _ _ _ => rfl⟩
@[simp] theorem specPortMapRead_sound : specPortMapRead.Sound := ⟨fun p s => by simp [specPortMapRead], fun _ _ _ => rfl⟩

/-! ### PWM -/

@[simp] theorem specPwmTimebaseConfig_sound : specPwmTimebaseConfig.Sound := ⟨fun p s => by simp [specPwmTimebaseConfig], fun _ _ _ => rfl⟩
@[simp] theorem specPwmLegConfig_sound : specPwmLegConfig.Sound := ⟨fun p s => by simp [specPwmLegConfig], fun _ _ _ => rfl⟩
@[simp] theorem specPwmDutySet_sound : specPwmDutySet.Sound := ⟨fun p s => by simp [specPwmDutySet], fun _ _ _ => rfl⟩
@[simp] theorem specPwmLegTest_sound : specPwmLegTest.Sound := ⟨fun p s => by simp [specPwmLegTest], fun _ _ _ => rfl⟩
@[simp] theorem specPwmStatus_sound : specPwmStatus.Sound := ⟨fun p s => by simp [specPwmStatus], fun _ _ _ => rfl⟩

/-! ### Sensing -/

@[simp] theorem specSenseAinConfig_sound : specSenseAinConfig.Sound := ⟨fun p s => by simp [specSenseAinConfig], fun _ _ _ => rfl⟩
@[simp] theorem specSenseDecimConfig_sound : specSenseDecimConfig.Sound := ⟨fun p s => by simp [specSenseDecimConfig], fun _ _ _ => rfl⟩
@[simp] theorem specSenseKirchhoffSet_sound : specSenseKirchhoffSet.Sound := ⟨fun p s => by simp [specSenseKirchhoffSet], fun _ _ _ => rfl⟩
@[simp] theorem specSenseCheckConfig_sound : specSenseCheckConfig.Sound := ⟨fun p s => by simp [specSenseCheckConfig], fun _ _ _ => rfl⟩
@[simp] theorem specSenseHkConfig_sound : specSenseHkConfig.Sound := ⟨fun p s => by simp [specSenseHkConfig], fun _ _ _ => rfl⟩
@[simp] theorem specSenseHkRead_sound : specSenseHkRead.Sound := ⟨fun p s => by simp [specSenseHkRead], fun _ _ _ => rfl⟩
@[simp] theorem specSensePathTest_sound : specSensePathTest.Sound := ⟨fun p s => by simp [specSensePathTest], fun _ _ _ => rfl⟩
@[simp] theorem specSenseStatus_sound : specSenseStatus.Sound := ⟨fun p s => by simp [specSenseStatus], fun _ _ _ => rfl⟩

/-! ### Safety -/

@[simp] theorem specSafetyStatus_sound : specSafetyStatus.Sound := ⟨fun p s => by simp [specSafetyStatus, CmdSpec.safety], fun _ _ _ => rfl⟩
@[simp] theorem specSafetyUnlock_sound : specSafetyUnlock.Sound := ⟨fun p s => by simp [specSafetyUnlock, CmdSpec.safety], fun _ _ _ => rfl⟩
@[simp] theorem specSafetyLock_sound : specSafetyLock.Sound := ⟨fun p s => by simp [specSafetyLock], fun _ _ _ => rfl⟩
@[simp] theorem specSafetyStage_sound : specSafetyStage.Sound := ⟨fun p s => by simp [specSafetyStage, CmdSpec.safety], fun _ _ _ => rfl⟩
@[simp] theorem specSafetyCommit_sound : specSafetyCommit.Sound := ⟨fun p s => by simp [specSafetyCommit], fun _ _ _ => rfl⟩
@[simp] theorem specSafetyRead_sound : specSafetyRead.Sound := ⟨fun p s => by simp [specSafetyRead, CmdSpec.safety], fun _ _ _ => rfl⟩
@[simp] theorem specSafetyPassword_sound : specSafetyPassword.Sound := ⟨fun p s => by simp [specSafetyPassword, CmdSpec.safety], fun _ _ _ => rfl⟩
@[simp] theorem specSafetyAck_sound : specSafetyAck.Sound := ⟨fun p s => by simp [specSafetyAck, CmdSpec.safety], fun _ _ _ => rfl⟩
@[simp] theorem specSafetyOutputReq_sound : specSafetyOutputReq.Sound := ⟨fun p s => by simp [specSafetyOutputReq, CmdSpec.safety], fun _ _ _ => rfl⟩
@[simp] theorem specSafetyOutputTest_sound : specSafetyOutputTest.Sound := ⟨fun p s => by simp [specSafetyOutputTest, CmdSpec.safety], fun _ _ _ => rfl⟩
@[simp] theorem specSafetyLogRead_sound : specSafetyLogRead.Sound := ⟨fun p s => by simp [specSafetyLogRead, CmdSpec.safety], fun _ _ _ => rfl⟩

/-! ### Network -/

@[simp] theorem specNetPortConfig_sound : specNetPortConfig.Sound := ⟨fun p s => by simp [specNetPortConfig], fun _ _ _ => rfl⟩
@[simp] theorem specNetIpConfig_sound : specNetIpConfig.Sound := ⟨fun p s => by simp [specNetIpConfig], fun _ _ _ => rfl⟩
@[simp] theorem specNetNeighbourSet_sound : specNetNeighbourSet.Sound := ⟨fun p s => by simp [specNetNeighbourSet], fun _ _ _ => rfl⟩
@[simp] theorem specNetPtpOffset_sound : specNetPtpOffset.Sound := ⟨fun p s => by simp [specNetPtpOffset], fun _ _ _ => rfl⟩
@[simp] theorem specNetCanConfig_sound : specNetCanConfig.Sound := ⟨fun p s => by simp [specNetCanConfig], fun _ _ _ => rfl⟩
@[simp] theorem specNetUartConfig_sound : specNetUartConfig.Sound := ⟨fun p s => by simp [specNetUartConfig], fun _ _ _ => rfl⟩
@[simp] theorem specNetFleetConfig_sound : specNetFleetConfig.Sound := ⟨fun p s => by simp [specNetFleetConfig], fun _ _ _ => rfl⟩
@[simp] theorem specNetFleetKey_sound : specNetFleetKey.Sound := ⟨fun p s => by simp [specNetFleetKey], fun _ _ _ => rfl⟩
@[simp] theorem specNetDispatchAuth_sound : specNetDispatchAuth.Sound := ⟨fun p s => by simp [specNetDispatchAuth], fun _ _ _ => rfl⟩
@[simp] theorem specNetVrelBind_sound : specNetVrelBind.Sound := ⟨fun p s => by simp [specNetVrelBind], fun _ _ _ => rfl⟩
@[simp] theorem specNetPeerRead_sound : specNetPeerRead.Sound := ⟨fun p s => by simp [specNetPeerRead], fun _ _ _ => rfl⟩
@[simp] theorem specNetStatus_sound : specNetStatus.Sound := ⟨fun p s => by simp [specNetStatus], fun _ _ _ => rfl⟩

/-! ### Cooling -/

@[simp] theorem specCoolConfig_sound : specCoolConfig.Sound := ⟨fun p s => by simp [specCoolConfig], fun _ _ _ => rfl⟩
@[simp] theorem specCoolRun_sound : specCoolRun.Sound := ⟨fun p s => by simp [specCoolRun], fun _ _ _ => rfl⟩
@[simp] theorem specCoolStatus_sound : specCoolStatus.Sound := ⟨fun p s => by simp [specCoolStatus], fun _ _ _ => rfl⟩
@[simp] theorem specCoolHealth_sound : specCoolHealth.Sound := ⟨fun p s => by simp [specCoolHealth], fun _ _ _ => rfl⟩

/-! ### Protection -/

@[simp] theorem specProtGroupConfig_sound : specProtGroupConfig.Sound := ⟨fun p s => by simp [specProtGroupConfig], fun _ _ _ => rfl⟩
@[simp] theorem specProtFltConfig_sound : specProtFltConfig.Sound := ⟨fun p s => by simp [specProtFltConfig], fun _ _ _ => rfl⟩
@[simp] theorem specProtCmpConfig_sound : specProtCmpConfig.Sound := ⟨fun p s => by simp [specProtCmpConfig]; split <;> simp, fun _ _ _ => rfl⟩
@[simp] theorem specProtMonConfig_sound : specProtMonConfig.Sound := ⟨fun p s => by simp [specProtMonConfig], fun _ _ _ => rfl⟩
@[simp] theorem specProtRelease_sound : specProtRelease.Sound := ⟨fun p s => by simp [specProtRelease], fun _ _ _ => rfl⟩
@[simp] theorem specProtTrip_sound : specProtTrip.Sound := ⟨fun p s => by simp [specProtTrip], fun _ _ _ => rfl⟩
@[simp] theorem specProtCmpTest_sound : specProtCmpTest.Sound := ⟨fun p s => by simp [specProtCmpTest], fun _ _ _ => rfl⟩
@[simp] theorem specProtStatus_sound : specProtStatus.Sound := ⟨fun p s => by simp [specProtStatus], fun _ _ _ => rfl⟩

/-! ### Recorder -/

@[simp] theorem specRecLaneConfig_sound : specRecLaneConfig.Sound := ⟨fun p s => by simp [specRecLaneConfig], fun _ _ _ => rfl⟩
@[simp] theorem specRecTriggerConfig_sound : specRecTriggerConfig.Sound := ⟨fun p s => by simp [specRecTriggerConfig], fun _ _ _ => rfl⟩
@[simp] theorem specRecCaptureConfig_sound : specRecCaptureConfig.Sound := ⟨fun p s => by simp [specRecCaptureConfig], fun _ _ _ => rfl⟩
@[simp] theorem specRecArm_sound : specRecArm.Sound := ⟨fun p s => by unfold specRecArm; dsimp only; (repeat' split) <;> simp, fun _ _ _ => rfl⟩
@[simp] theorem specRecTrigger_sound : specRecTrigger.Sound := ⟨fun p s => by simp [specRecTrigger], fun _ _ _ => rfl⟩
@[simp] theorem specRecRead_sound : specRecRead.Sound := ⟨fun p s => by simp [specRecRead], fun _ _ _ => rfl⟩
@[simp] theorem specRecMapConfig_sound : specRecMapConfig.Sound := ⟨fun p s => by simp [specRecMapConfig], fun _ _ _ => rfl⟩
@[simp] theorem specRecSkewCal_sound : specRecSkewCal.Sound := ⟨fun p s => by simp [specRecSkewCal], fun _ _ _ => rfl⟩
@[simp] theorem specRecStatus_sound : specRecStatus.Sound := ⟨fun p s => by simp [specRecStatus], fun _ _ _ => rfl⟩

/-! ### Modes -/

@[simp] theorem specSysMode_sound : specSysMode.Sound := ⟨fun p s => by simp [specSysMode], fun _ _ _ => rfl⟩

/-! ### Clocks -/

@[simp] theorem specClkRefConfig_sound : specClkRefConfig.Sound := ⟨fun p s => by simp [specClkRefConfig], fun _ _ _ => rfl⟩
@[simp] theorem specClkStatus_sound : specClkStatus.Sound := ⟨fun p s => by simp [specClkStatus], fun _ _ _ => rfl⟩
@[simp] theorem specClkSwap_sound : specClkSwap.Sound := ⟨fun p s => by simp [specClkSwap], fun _ _ _ => rfl⟩

/-! ### Memory and the life cycle -/

@[simp] theorem specMemDataRead_sound : specMemDataRead.Sound := ⟨fun p s => by simp [specMemDataRead], fun _ _ _ => rfl⟩
@[simp] theorem specMemKeyInstall_sound : specMemKeyInstall.Sound := ⟨fun p s => by simp [specMemKeyInstall], fun _ _ _ => rfl⟩
@[simp] theorem specMemSerialSet_sound : specMemSerialSet.Sound := ⟨fun p s => by simp [specMemSerialSet], fun _ _ _ => rfl⟩
@[simp] theorem specMemLcChallenge_sound : specMemLcChallenge.Sound := ⟨fun p s => by simp [specMemLcChallenge], fun _ _ _ => rfl⟩
@[simp] theorem specMemStatus_sound : specMemStatus.Sound := ⟨fun p s => by simp [specMemStatus], fun _ _ _ => rfl⟩
@[simp] theorem specMemHealthRead_sound : specMemHealthRead.Sound := ⟨fun p s => by simp [specMemHealthRead], fun _ _ _ => rfl⟩

/-! ### Husk -/

@[simp] theorem specHuskConfig_sound : specHuskConfig.Sound := ⟨fun p s => by simp [specHuskConfig], fun _ _ _ => rfl⟩
@[simp] theorem specHuskStatus_sound : specHuskStatus.Sound := ⟨fun p s => by simp [specHuskStatus], fun _ _ _ => rfl⟩
@[simp] theorem specHuskTimeSet_sound : specHuskTimeSet.Sound := ⟨fun p s => by simp [specHuskTimeSet], fun _ _ _ => rfl⟩
@[simp] theorem specHuskLogRead_sound : specHuskLogRead.Sound := ⟨fun p s => by simp [specHuskLogRead], fun _ _ _ => rfl⟩

/-! ### The Sheaf table -/

@[simp] theorem specSheafEntryWrite_sound : specSheafEntryWrite.Sound :=
  ⟨fun p s => by
    simp only [specSheafEntryWrite]
    refine chanEffect_sound ?_
    rw [State.modChan_vital]
    exact writeImg_safe _ _ (.refl s.vital), fun _ _ _ => rfl⟩

@[simp] theorem specSheafEnable_sound : specSheafEnable.Sound :=
  ⟨fun p s => sheafEnable_sound _ _ _ s, fun _ _ _ => rfl⟩

@[simp] theorem specSheafStateSet_sound : specSheafStateSet.Sound :=
  ⟨fun p s => by simp only [specSheafStateSet, setWords]; split <;> simp, fun _ _ _ => rfl⟩

/-! ### Recorder -/

@[simp] theorem specRecDelete_sound : specRecDelete.Sound :=
  ⟨fun p s => ⟨by simp [specRecDelete], by
    simp only [specRecDelete]
    split
    · exact durableNow_keep p
    · simp⟩, fun _ _ _ => rfl⟩

@[simp] theorem specRecCommit_sound : specRecCommit.Sound :=
  ⟨fun p s => ⟨by simp only [specRecCommit]; split <;> simp, durableNow_keep p⟩, fun _ _ _ => rfl⟩

@[simp] theorem specRecStatClear_sound : specRecStatClear.Sound :=
  ⟨fun p s => ⟨.of_sram (a := s.vital) fun (h : Mem.wf s.mem.sram = true) => by
    simp only [specRecStatClear]
    split <;> split <;> simp [Mem.wf_clear, h], by simp [specRecStatClear]⟩, fun _ _ _ => rfl⟩

/-! ### Memory and the life cycle -/

@[simp] theorem specMemImageLoad_sound : specMemImageLoad.Sound :=
  ⟨fun p s => ⟨by simp [specMemImageLoad], durableNow_keep p⟩, fun _ _ _ => rfl⟩

@[simp] theorem specMemDataWrite_sound : specMemDataWrite.Sound :=
  ⟨fun p s => ⟨by simp [specMemDataWrite], durableNow_keep p⟩, fun _ _ _ => rfl⟩

@[simp] theorem specMemSplice_sound : specMemSplice.Sound :=
  ⟨fun p s => ⟨by simp [specMemSplice], by
    simp only [specMemSplice]
    split
    · split <;> simp
    · exact durableNow_keep p⟩, fun _ _ _ => rfl⟩

end Sys2Proof.Machine
end

section
/-! SUPPORT. Packets, deferred, dispatched and stored commands, and boundaries: none loses what the invariants say. -/

namespace Sys2Proof.Machine

variable {a : Vital} {s : State} {c : CmdSpec}

/-! ### The command processor -/

@[simp] theorem countAccepted_ready_vital (s : State) : (whenReady countAccepted s).vital = s.vital := whenReady_vital countAccepted_vital s

@[simp] theorem countDry_ready_vital (s : State) : (whenReady countDry s).vital = s.vital := whenReady_vital countDry_vital s

@[simp] theorem countRejected_ready_vital (st : Status) (s : State) : (whenReady (countRejected st) s).vital = s.vital :=
  whenReady_vital (countRejected_vital st) s

/-- The reply of a sound effect leaves the vital part alone, sent or kept. -/
theorem finishReply_vital (p : Packet) {e : Effect} {u : State} (he : e.Sound u) (s : State) : (finishReply c p e s).vital = s.vital := by
  unfold finishReply
  dsimp only
  split
  next k hk => exact he.keep k hk _ s
  · simp

/-- An accepted packet with a sound effect. -/
theorem CmdSpec.accept_safe {p : Packet} (he : (c.run p (firstAccepted s)).Sound (firstAccepted s)) : s.vital.Safe (c.accept p s).vital := by
  unfold CmdSpec.accept
  dsimp only
  split
  · simp
  · split
    · simp
    · rw [finishReply_vital p he, countAccepted_ready_vital, CmdSpec.noted_vital]
      simpa using he.st

/-- A rejected packet leaves the vital part alone where its opcode does. -/
theorem CmdSpec.reject_vital (hc : ∀ st p s, (c.onReject st p s).vital = s.vital) (p : Packet) (st : Status) (d : Nat) (s : State) :
    (c.reject p st d s).vital = s.vital := by
  unfold CmdSpec.reject
  dsimp only
  split
  · simp
  · rw [sendReply_vital, whenReady_vital (countRejected_vital st), hc]

/-- A packet processed, where the effect of one that passes every check is sound. -/
theorem CmdSpec.process_safe {p : Packet} (hr : ∀ st p s, (c.onReject st p s).vital = s.vital)
    (he : c.fails p s = none → (c.run p (firstAccepted (touchSession p s))).Sound (firstAccepted (touchSession p s))) :
    s.vital.Safe (c.process p s).vital := by
  unfold CmdSpec.process
  split
  · rw [CmdSpec.reject_vital hr]
  next h => simpa using CmdSpec.accept_safe (he h)

/-- What an answer of the machine leads to is safe; a fault leads to nothing. -/
def SafeRes (s : State) (r : Res) : Prop := ∀ t, r = .next t → s.vital.Safe t.vital

@[simp] theorem safeRes_next (s t : State) : SafeRes s (.next t) ↔ s.vital.Safe t.vital :=
  ⟨fun h => h t rfl, fun h u hu => by cases hu; exact h⟩

@[simp] theorem safeRes_fault (s : State) (f : Fault) : SafeRes s (.fault f) := fun _ h => by cases h

@[simp] theorem safeRes_within (i n : Nat) (s t : State) : SafeRes s (within i n t) ↔ (i < n → s.vital.Safe t.vital) := by
  unfold within
  split <;> simp [*]

@[simp] theorem inDomain_safe (d : Nat) {t : State} (h : a.Safe s.vital) (k : a.Safe t.vital) : a.Safe (inDomain d s t).vital := by
  simp [inDomain, h, k]

/-- A packet run: it stays with its source, or it is processed. -/
theorem runCommand_safe {p : Packet} (h : ∀ s : State, s.vital.Safe (c.process p s).vital) (s : State) : SafeRes s (runCommand c p s) := by
  rcases runCommand_cases c p s with ⟨-, hr⟩ | ⟨-, hr⟩ | ⟨-, -, hr⟩ <;> rw [hr]
  · simp
  · have taken : s.vital.Safe (seen p s).vital := by simp [seen]
    simpa using taken.trans (h (seen p s))
  · simp

/-- A packet of a sound opcode. -/
theorem CmdSpec.Sound.runCommand (hc : c.Sound) (p : Packet) (s : State) : SafeRes s (runCommand c p s) :=
  runCommand_safe (fun _ => CmdSpec.process_safe hc.onReject fun _ => hc.run p _) s

/-! ### Commands that run without a packet of their own: deferred, dispatched, stored -/

theorem CmdSpec.Sound.applyDeferred (hc : c.Sound) (p : Packet) (s : State) : s.vital.Safe (c.applyDeferred p s).1.vital := by
  unfold CmdSpec.applyDeferred
  dsimp only
  split
  · simp
  · simpa using (hc.run p s).st

/-- Every opcode that may be deferred is sound. -/
theorem sound_of_mem_deferrable : ∀ c ∈ deferrable, c.Sound := by
  simp [deferrable]

theorem swapOne_safe (t : Nat) (x : State × Nat × Nat) (d : Deferred) (h : a.Safe x.1.vital) : a.Safe (swapOne t x d).1.vital := by
  have taken (s : State) : (s.modCmd fun c => { c with deferred := c.deferred.erase d }).vital = s.vital := by simp
  unfold swapOne
  dsimp only
  split
  · rw [taken]; exact h
  next c hc =>
    have applied := (sound_of_mem_deferrable c (List.mem_of_find?_eq_some hc)).applyDeferred { d.pkt with t := t }
      (x.1.modCmd fun c => { c with deferred := c.deferred.erase d })
    rw [taken] at applied
    split
    · exact h.trans applied
    · simpa using h.trans applied

theorem swaps_safe (t : Nat) (l : List Deferred) (x : State × Nat × Nat) (h : a.Safe x.1.vital) : a.Safe (l.foldl (swapOne t) x).1.vital := by
  induction l generalizing x with
  | nil => exact h
  | cons d l ih => exact ih _ (swapOne_safe t x d h)

@[simp] theorem hitchSwap_safe (t g : Nat) (h : a.Safe s.vital) : a.Safe (hitchSwap t g s).vital := by
  unfold hitchSwap
  dsimp only
  rw [State.post_vital, State.modEng_vital]
  exact swaps_safe t _ _ (foldl_safe (fun s n => deviceBits_safe n _ (.refl s.vital)) _ h)

@[simp] theorem swapDue_safe (t g : Nat) (h : a.Safe s.vital) : a.Safe (swapDue t g s).vital := by
  simp [swapDue, h]

@[simp] theorem submit_safe (hc : c.Sound) (t src : Nat) (b : List Byte) (h : a.Safe s.vital) : a.Safe (submit c t src b s).2.vital := by
  unfold submit
  dsimp only
  split
  · simpa using h
  · simpa using h.trans (hc.run _ s).st

@[simp] theorem dispatchAct_safe (t src : Nat) (d : List Byte) (h : a.Safe s.vital) : a.Safe (dispatchAct t src d s).vital := by
  have first : a.Safe (if bit (u8 d 20) 0 then submit specGridSetpoint t src (slice d 0 8 ++ le 4 s.grid.vSet.toNat ++ zeros 4) s else (.ok, s)).2.vital := by
    split
    · exact submit_safe specGridSetpoint_sound t src _ h
    · exact h
  unfold dispatchAct
  dsimp only
  generalize (if bit (u8 d 20) 0 = true then submit specGridSetpoint t src (slice d 0 8 ++ le 4 s.grid.vSet.toNat ++ zeros 4) s else (.ok, s)) = r at first ⊢
  have second : a.Safe (if bit (u8 d 20) 1 then submit specPortBatSet t src ([0xFF, 0, 0, 0] ++ slice d 8 4) r.2 else (.ok, r.2)).2.vital := by
    split
    · exact submit_safe specPortBatSet_sound t src _ first
    · exact first
  generalize (if bit (u8 d 20) 1 = true then submit specPortBatSet t src ([0xFF, 0, 0, 0] ++ slice d 8 4) r.2 else (.ok, r.2)) = q at second ⊢
  rw [benSend_vital, State.post_vital]
  split <;> simpa using second

/-- Every opcode of the block image is sound. -/
theorem sound_of_mem_blockSpecs : ∀ c ∈ blockSpecs, c.Sound := by
  simp [blockSpecs]

theorem applyStored_safe (t : Nat) (e : Nat × List Byte) (h : a.Safe s.vital) : a.Safe (applyStored t s e).vital := by
  unfold applyStored
  split
  · simpa using h
  · split
    next c hc => exact h.trans ((sound_of_mem_blockSpecs c (List.mem_of_find?_eq_some hc)).run _ s).st
    · exact h

@[simp] theorem loadBlock_safe (t w : Nat) (h : a.Safe s.vital) : a.Safe (loadBlock t w s).vital := by
  have stored (l : List (Nat × List Byte)) (x : State) (hx : a.Safe x.vital) : a.Safe (l.foldl (applyStored t) x).vital :=
    foldl_safe (fun s e => applyStored_safe t e (.refl s.vital)) l hx
  unfold loadBlock
  dsimp only
  split <;> simpa using stored _ _ (by simp [h])

/-! ### Boundaries -/

/-- The parts of a boundary that come before the channels take theirs: overruns, exports, swaps, outputs and generators (R155, R164). -/
@[simp] theorem boundaries_safe (t : Nat) (o : TrackObs) (gs : List Nat) (h : a.Safe s.vital) : a.Safe (boundaries t o gs s).vital := by
  unfold boundaries
  dsimp only
  rw [State.modEng_vital]
  refine foldl_safe (fun s g => foldl_safe (fun s n => boundaryChan_safe n (by simp)) _ (.refl s.vital)) _ ?_
  have swapped : a.Safe ((List.range 16).foldl (fun s g => swapDue t g s)
      (gs.foldl (fun s g => exportGroup g s) (gs.foldl (fun s g => boundaryOverrun t g s) s))).vital := by
    refine foldl_safe (fun s g => swapDue_safe t g (.refl s.vital)) _ ?_
    rw [foldl_vital fun s g => exportGroup_vital g s]
    exact foldl_safe (fun s g => boundaryOverrun_safe t g (.refl s.vital)) _ h
  generalize (List.range 16).foldl (fun s g => swapDue t g s)
      (gs.foldl (fun s g => exportGroup g s) (gs.foldl (fun s g => boundaryOverrun t g s) s)) = u at swapped ⊢
  split <;> simpa using swapped

end Sys2Proof.Machine
end

section
/-! SUPPORT. Every host access and every happening, and the invariants of a step (R48, R70, R71, R542 to R546). -/

namespace Sys2Proof.Machine

/-! ### System commands and host accesses -/

theorem execUnknownOpcodePacket_safe (src : Source) (t : Nat) (bytes : List Byte) (valid : Nat) (s : State) :
    SafeRes s (execUnknownOpcodePacket src t bytes valid s) := by
  unfold execUnknownOpcodePacket
  dsimp only
  repeat' split
  all_goals simp

theorem execDoorbellWrite_safe (t m n v : Nat) (s : State) : SafeRes s (execDoorbellWrite t m n v s) := by
  simp [execDoorbellWrite]

theorem execIntStatusWrite_safe (t m : Nat) (v : Word) (s : State) : SafeRes s (execIntStatusWrite t m v s) := by
  simp [execIntStatusWrite]

theorem execTimeLoRead_safe (t m : Nat) (s : State) : SafeRes s (execTimeLoRead t m s) := by
  simp [execTimeLoRead]

theorem execRegisterWrite_safe (t m addr : Nat) (v : Word) (s : State) : SafeRes s (execRegisterWrite t m addr v s) := by
  simp [execRegisterWrite]

theorem execHspiWrite_safe (t addr : Nat) (data : List Byte) (s : State) : SafeRes s (execHspiWrite t addr data s) := by
  simp [execHspiWrite]

theorem execHspiQuadWrite_safe (t addr : Nat) (data : List Byte) (s : State) : SafeRes s (execHspiQuadWrite t addr data s) := by
  simp [execHspiQuadWrite]

theorem execHspiRead_safe (t addr n : Nat) (s : State) : SafeRes s (execHspiRead t addr n s) := by
  simp [execHspiRead]

theorem execHspiQuadRead_safe (t addr n : Nat) (s : State) : SafeRes s (execHspiQuadRead t addr n s) := by
  simp [execHspiQuadRead]

theorem execEscapeRead_safe (t n : Nat) (s : State) : SafeRes s (execEscapeRead t n s) := by
  unfold execEscapeRead
  dsimp only
  repeat' split
  all_goals simp

theorem execUnknownInstruction_safe (t : Nat) (b : Byte) (s : State) : SafeRes s (execUnknownInstruction t b s) := by
  simp [execUnknownInstruction]

theorem execHostUartPacket_safe (t : Nat) (frame : List Byte) (s : State) : SafeRes s (execHostUartPacket t frame s) := by
  simp [execHostUartPacket]

theorem execHeldReply_safe (t n : Nat) (s : State) : SafeRes s (execHeldReply t n s) := by
  unfold execHeldReply
  dsimp only
  split <;> simp

theorem execFirewallViolation_safe (t m addr : Nat) (write : Bool) (cores : List Nat) (s : State) :
    SafeRes s (execFirewallViolation t m addr write cores s) := by
  simp [execFirewallViolation]

theorem execFrozenD10Restart_safe (t : Nat) (s : State) : SafeRes s (execFrozenD10Restart t s) := by
  unfold execFrozenD10Restart
  dsimp only
  split <;> simp

/-! ### The control engine -/

theorem execPassVote_safe (t subject unit : Nat) (claims : List CoreClaim) (late : List Nat) (clocks : Nat) (s : State) :
    SafeRes s (execPassVote t subject unit claims late clocks s) := by
  unfold execPassVote
  dsimp only
  repeat' split
  all_goals simp

theorem execVoteLate_safe (t core : Nat) (r : LateVote) (s : State) : SafeRes s (execVoteLate t core r s) := by
  simp [execVoteLate]

theorem execSampleTimeout_safe (t ain out : Nat) (s : State) : SafeRes s (execSampleTimeout t ain out s) := by
  simp [execSampleTimeout]

theorem execChannelFault_safe (t ch : Nat) (s : State) : SafeRes s (execChannelFault t ch s) := by
  simp [execChannelFault]

theorem execRateOverrun_safe (t g : Nat) (s : State) : SafeRes s (execRateOverrun t g s) := by
  simp [execRateOverrun]

theorem execCoreDomainOff_safe (t core : Nat) (s : State) : SafeRes s (execCoreDomainOff t core s) := by
  unfold execCoreDomainOff
  dsimp only
  repeat' split
  all_goals simp

theorem execCoreSpliceTransfer_safe (t : Nat) (differed : List (Nat × Nat)) (s : State) : SafeRes s (execCoreSpliceTransfer t differed s) := by
  unfold execCoreSpliceTransfer
  dsimp only
  split <;> simp

/-! ### The grid group -/

theorem execTrackerLocked_safe (t : Nat) (s : State) : SafeRes s (execTrackerLocked t s) := by
  simp [execTrackerLocked]

theorem execTrackerAcquiring_safe (t : Nat) (s : State) : SafeRes s (execTrackerAcquiring t s) := by
  simp [execTrackerAcquiring]

theorem execReacqClear_safe (t : Nat) (s : State) : SafeRes s (execReacqClear t s) := by
  simp [execReacqClear]

/-! ### Ride-through -/

theorem execRtTrip_safe (t : Nat) (s : State) : SafeRes s (execRtTrip t s) := by
  simp [execRtTrip]

theorem execClassReturn_safe (t : Nat) (s : State) : SafeRes s (execClassReturn t s) := by
  unfold execClassReturn
  dsimp only
  split <;> simp

theorem execRtRestart_safe (t : Nat) (s : State) : SafeRes s (execRtRestart t s) := by
  simp [execRtRestart]

theorem execRestartTimeout_safe (t : Nat) (s : State) : SafeRes s (execRestartTimeout t s) := by
  simp [execRestartTimeout]

theorem execEnterServiceComplete_safe (t : Nat) (s : State) : SafeRes s (execEnterServiceComplete t s) := by
  simp [execEnterServiceComplete]

theorem execDclChopperFault_safe (t : Nat) (s : State) : SafeRes s (execDclChopperFault t s) := by
  unfold execDclChopperFault
  dsimp only
  split <;> simp

theorem execDclRelease_safe (t : Nat) (s : State) : SafeRes s (execDclRelease t s) := by
  unfold execDclRelease
  dsimp only
  repeat' split
  all_goals simp

theorem execDclUndervoltage_safe (t : Nat) (s : State) : SafeRes s (execDclUndervoltage t s) := by
  simp [execDclUndervoltage]

/-! ### Islanding -/

theorem execAwnChip_safe (t : Nat) (s : State) : SafeRes s (execAwnChip t s) := by
  simp [execAwnChip]

theorem execAwnEpoch_safe (t : Nat) (s : State) : SafeRes s (execAwnEpoch t s) := by
  simp [execAwnEpoch]

theorem execAwnEvaluation_safe (t : Nat) (angle : Int) (s : State) : SafeRes s (execAwnEvaluation t angle s) := by
  simp [execAwnEvaluation]

theorem execIslDetected_safe (t : Nat) (s : State) : SafeRes s (execIslDetected t s) := by
  simp [execIslDetected]

theorem execPeerPcc_safe (t m : Nat) (s : State) : SafeRes s (execPeerPcc t m s) := by
  simp [execPeerPcc]

theorem execAutoScanDwell_safe (t m : Nat) (s : State) : SafeRes s (execAutoScanDwell t m s) := by
  simp [execAutoScanDwell]

theorem execRocofTrip_safe (t : Nat) (s : State) : SafeRes s (execRocofTrip t s) := by
  simp [execRocofTrip]

/-! ### Ports -/

theorem execPvPortStart_safe (t p : Nat) (s : State) : SafeRes s (execPvPortStart t p s) := by
  unfold execPvPortStart
  dsimp only
  split <;> simp

theorem execLocalTracker_safe (t p : Nat) (slope v w : F32) (s : State) : SafeRes s (execLocalTracker t p slope v w s) := by
  unfold execLocalTracker
  dsimp only
  split <;> simp

theorem execMapHalving_safe (t p : Nat) (s : State) : SafeRes s (execMapHalving t p s) := by
  simp [execMapHalving]

theorem execPvReferencePost_safe (t : Nat) (s : State) : SafeRes s (execPvReferencePost t s) := by
  simp [execPvReferencePost]

theorem execGlobalSearch_safe (t : Nat) (mean : List Nat) (s : State) : SafeRes s (execGlobalSearch t mean s) := by
  simp [execGlobalSearch]

theorem execPvSweep_safe (t p mean deficit : Nat) (s : State) : SafeRes s (execPvSweep t p mean deficit s) := by
  simp [execPvSweep]

theorem execBmsNodeReport_safe (t bus ident : Nat) (data : List Byte) (s : State) : SafeRes s (execBmsNodeReport t bus ident data s) := by
  simp [execBmsNodeReport]

theorem execBmsNodeStale_safe (t n : Nat) (s : State) : SafeRes s (execBmsNodeStale t n s) := by
  simp [execBmsNodeStale]

theorem execBmsNodeDeparted_safe (t n : Nat) (s : State) : SafeRes s (execBmsNodeDeparted t n s) := by
  simp [execBmsNodeDeparted]

theorem execBmsStatusSend_safe (t bus : Nat) (s : State) : SafeRes s (execBmsStatusSend t bus s) := by
  simp [execBmsStatusSend]

theorem execCurtailmentUpdate_safe (t : Nat) (s : State) : SafeRes s (execCurtailmentUpdate t s) := by
  simp [execCurtailmentUpdate]

/-! ### PWM -/

theorem execLegTestEnd_safe (t n : Nat) (s : State) : SafeRes s (execLegTestEnd t n s) := by
  simp [execLegTestEnd]

theorem execBootPrecharge_safe (t n : Nat) (s : State) : SafeRes s (execBootPrecharge t n s) := by
  simp [execBootPrecharge]

/-! ### Sensing -/

theorem execSenseSuspect_safe (t check unit : Nat) (s : State) : SafeRes s (execSenseSuspect t check unit s) := by
  simp [execSenseSuspect]

theorem execSenseVerdict_safe (t a b d : Nat) (s : State) : SafeRes s (execSenseVerdict t a b d s) := by
  unfold execSenseVerdict
  dsimp only
  repeat' split
  all_goals simp

theorem execConverterPowerOff_safe (t c : Nat) (s : State) : SafeRes s (execConverterPowerOff t c s) := by
  simp [execConverterPowerOff]

theorem execCheckSuspensionEnd_safe (t check unit : Nat) (s : State) : SafeRes s (execCheckSuspensionEnd t check unit s) := by
  unfold execCheckSuspensionEnd
  dsimp only
  repeat' split
  all_goals simp

theorem execShadowVisit_safe (t : Nat) (offset gain : Int) (s : State) : SafeRes s (execShadowVisit t offset gain s) := by
  unfold execShadowVisit
  dsimp only
  repeat' split
  all_goals simp

theorem execSarStart_safe (t u : Nat) (_reqs : List (Nat × Nat)) (s : State) : SafeRes s (execSarStart t u _reqs s) := by
  unfold execSarStart
  dsimp only
  repeat' split
  all_goals simp

theorem execTestDacStep_safe (t : Nat) (s : State) : SafeRes s (execTestDacStep t s) := by
  simp [execTestDacStep]

theorem execSensePath_safe (t : Nat) (diffs : List Int) (s : State) : SafeRes s (execSensePath t diffs s) := by
  unfold execSensePath
  dsimp only
  repeat' split
  all_goals simp

theorem execCalibrationCorrection_safe (t : Nat) (gains : List Int) (s : State) : SafeRes s (execCalibrationCorrection t gains s) := by
  simp [execCalibrationCorrection]

/-! ### Safety -/

theorem execSafetyInputSample_safe (t levels : Nat) (s : State) : SafeRes s (execSafetyInputSample t levels s) := by
  simp [execSafetyInputSample]

theorem execTestPulse_safe (t src : Nat) (s : State) : SafeRes s (execTestPulse t src s) := by
  simp [execTestPulse]

theorem execDiscrepancyFault_safe (t k : Nat) (s : State) : SafeRes s (execDiscrepancyFault t k s) := by
  simp [execDiscrepancyFault]

theorem execOutputReadback_safe (t x pinMv hvMv uA : Nat) (s : State) : SafeRes s (execOutputReadback t x pinMv hvMv uA s) := by
  simp [execOutputReadback]

theorem execOutputFault_safe (t x : Nat) (s : State) : SafeRes s (execOutputFault t x s) := by
  simp [execOutputFault]

theorem execSafetyOutputOvercurrent_safe (t x : Nat) (s : State) : SafeRes s (execSafetyOutputOvercurrent t x s) := by
  simp [execSafetyOutputOvercurrent]

theorem execLightTestStep_safe (t x pinMv hvMv uA : Nat) (s : State) : SafeRes s (execLightTestStep t x pinMv hvMv uA s) := by
  simp [execLightTestStep]

theorem execDarkTestStep_safe (t x pinMv hvMv uA : Nat) (s : State) : SafeRes s (execDarkTestStep t x pinMv hvMv uA s) := by
  simp [execDarkTestStep]

theorem execFeedbackTimeout_safe (t x : Nat) (s : State) : SafeRes s (execFeedbackTimeout t x s) := by
  simp [execFeedbackTimeout]

theorem execOutputTest_safe (t : Nat) (s : State) : SafeRes s (execOutputTest t s) := by
  unfold execOutputTest
  dsimp only
  split <;> simp

theorem execVrelPdu_safe (t : Nat) (ip : List Byte) (port : Nat) (pdu : List Byte) (s : State) : SafeRes s (execVrelPdu t ip port pdu s) := by
  simp [execVrelPdu]

theorem execVrelTimeout_safe (t c : Nat) (s : State) : SafeRes s (execVrelTimeout t c s) := by
  simp [execVrelTimeout]

theorem execVrelProduce_safe (t c : Nat) (s : State) : SafeRes s (execVrelProduce t c s) := by
  unfold execVrelProduce
  dsimp only
  split <;> simp

theorem execSafetySessionTimeout_safe (t : Nat) (s : State) : SafeRes s (execSafetySessionTimeout t s) := by
  unfold execSafetySessionTimeout
  dsimp only
  split <;> simp

/-! ### Network -/

theorem execEthernetFrame_safe (t port : Nat) (frame : List Byte) (beyond : Bool) (s : State) :
    SafeRes s (execEthernetFrame t port frame beyond s) := by
  simp [execEthernetFrame]

theorem execAnnounceSend_safe (t : Nat) (s : State) : SafeRes s (execAnnounceSend t s) := by
  simp [execAnnounceSend]

theorem execAnnounce_safe (t src counter : Nat) (payload : List Byte) (s : State) : SafeRes s (execAnnounce t src counter payload s) := by
  simp [execAnnounce]

theorem execPeerAgedOut_safe (t addr : Nat) (s : State) : SafeRes s (execPeerAgedOut t addr s) := by
  simp [execPeerAgedOut]

theorem execDispatch_safe (t src : Nat) (payload : List Byte) (s : State) : SafeRes s (execDispatch t src payload s) := by
  simp [execDispatch]

theorem execDispatchExpiry_safe (t : Nat) (s : State) : SafeRes s (execDispatchExpiry t s) := by
  unfold execDispatchExpiry
  dsimp only
  split <;> simp

theorem execCommand_safe (t src : Nat) (pkt : List Byte) (s : State) : SafeRes s (execCommand t src pkt s) := by
  simp [execCommand]

theorem execNetworkSessionTimeout_safe (t addr : Nat) (s : State) : SafeRes s (execNetworkSessionTimeout t addr s) := by
  simp [execNetworkSessionTimeout]

theorem execCanFrame_safe (t c ident : Nat) (fd ext brs remote : Bool) (data : List Byte) (s : State) :
    SafeRes s (execCanFrame t c ident fd ext brs remote data s) := by
  simp [execCanFrame]

theorem execUartReceive_safe (t : Nat) (data : List Byte) (s : State) : SafeRes s (execUartReceive t data s) := by
  simp [execUartReceive]

theorem execFrameTransmit_safe (t n : Nat) (s : State) : SafeRes s (execFrameTransmit t n s) := by
  simp [execFrameTransmit]

theorem execNetLink_safe (t port : Nat) (isUp : Bool) (s : State) : SafeRes s (execNetLink t port isUp s) := by
  simp [execNetLink]

theorem execCanBusOff_safe (t c : Nat) (s : State) : SafeRes s (execCanBusOff t c s) := by
  simp [execCanBusOff]

theorem execCanBusRecovered_safe (t c : Nat) (s : State) : SafeRes s (execCanBusRecovered t c s) := by
  simp [execCanBusRecovered]

theorem execPtpTimeout_safe (t : Nat) (s : State) : SafeRes s (execPtpTimeout t s) := by
  unfold execPtpTimeout
  dsimp only
  split <;> simp

/-! ### Cooling -/

theorem execCoolPwmPeriod_safe (t d iU iV iW mean : Nat) (s : State) : SafeRes s (execCoolPwmPeriod t d iU iV iW mean s) := by
  unfold execCoolPwmPeriod
  dsimp only
  split <;> simp

theorem execCoolOvercurrent_safe (t d : Nat) (s : State) : SafeRes s (execCoolOvercurrent t d s) := by
  simp [execCoolOvercurrent]

theorem execCoolPrechargeEnd_safe (t d : Nat) (s : State) : SafeRes s (execCoolPrechargeEnd t d s) := by
  simp [execCoolPrechargeEnd]

theorem execAlignEnd_safe (t d : Nat) (s : State) : SafeRes s (execAlignEnd t d s) := by
  unfold execAlignEnd
  dsimp only
  split <;> simp

theorem execCommutation_safe (t d : Nat) (s : State) : SafeRes s (execCommutation t d s) := by
  unfold execCommutation
  dsimp only
  split <;> simp

theorem execBackEmfCrossing_safe (t d : Nat) (s : State) : SafeRes s (execBackEmfCrossing t d s) := by
  unfold execBackEmfCrossing
  dsimp only
  split <;> simp

theorem execCrossingMiss_safe (t d : Nat) (s : State) : SafeRes s (execCrossingMiss t d s) := by
  unfold execCrossingMiss
  dsimp only
  split <;> simp

theorem execCoastTimeout_safe (t d : Nat) (s : State) : SafeRes s (execCoastTimeout t d s) := by
  unfold execCoastTimeout
  dsimp only
  repeat' split
  all_goals simp

theorem execBootstrapLockout_safe (t d phase : Nat) (s : State) : SafeRes s (execBootstrapLockout t d phase s) := by
  simp [execBootstrapLockout]

theorem execCoolHourly_safe (t d : Nat) (up : Bool) (s : State) : SafeRes s (execCoolHourly t d up s) := by
  simp [execCoolHourly]

/-! ### Protection -/

theorem execComparatorAsserted_safe (t n : Nat) (s : State) : SafeRes s (execComparatorAsserted t n s) := by
  unfold execComparatorAsserted
  dsimp only
  repeat' split
  all_goals simp

theorem execComparatorReleased_safe (t n : Nat) (s : State) : SafeRes s (execComparatorReleased t n s) := by
  simp [execComparatorReleased]

theorem execHardCellAsserted_safe (t n : Nat) (s : State) : SafeRes s (execHardCellAsserted t n s) := by
  unfold execHardCellAsserted
  dsimp only
  repeat' split
  all_goals simp

theorem execFltAsserted_safe (t n : Nat) (s : State) : SafeRes s (execFltAsserted t n s) := by
  unfold execFltAsserted
  dsimp only
  repeat' split
  all_goals simp

theorem execFltReady_safe (t n : Nat) (s : State) : SafeRes s (execFltReady t n s) := by
  simp [execFltReady]

theorem execMonitorActs_safe (t n : Nat) (s : State) : SafeRes s (execMonitorActs t n s) := by
  simp [execMonitorActs]

theorem execSoftStep_safe (t g : Nat) (s : State) : SafeRes s (execSoftStep t g s) := by
  simp [execSoftStep]

theorem execInnerStep_safe (t g : Nat) (s : State) : SafeRes s (execInnerStep t g s) := by
  simp [execInnerStep]

theorem execProtRetry_safe (t g : Nat) (s : State) : SafeRes s (execProtRetry t g s) := by
  simp [execProtRetry]

theorem execTriesClear_safe (t g : Nat) (s : State) : SafeRes s (execTriesClear t g s) := by
  simp [execTriesClear]

theorem execCmpSelfTestStep_safe (t : Nat) (cellBad standBad : Bool) (s : State) : SafeRes s (execCmpSelfTestStep t cellBad standBad s) := by
  unfold execCmpSelfTestStep
  dsimp only
  repeat' split
  all_goals simp

theorem execPartnerSuspect_safe (t n : Nat) (s : State) : SafeRes s (execPartnerSuspect t n s) := by
  simp [execPartnerSuspect]

theorem execCellPowerOff_safe (t k : Nat) (s : State) : SafeRes s (execCellPowerOff t k s) := by
  simp [execCellPowerOff]

theorem execCmpTestComplete_safe (t : Nat) (codes : List (Nat × Nat × Nat)) (s : State) : SafeRes s (execCmpTestComplete t codes s) := by
  unfold execCmpTestComplete
  dsimp only
  repeat' split
  all_goals simp

/-! ### Recorder -/

theorem execRecComplete_safe (t : Nat) (s : State) : SafeRes s (execRecComplete t s) := by
  unfold execRecComplete
  dsimp only
  repeat' split
  all_goals simp

theorem execRecTimeTrigger_safe (t k : Nat) (s : State) : SafeRes s (execRecTimeTrigger t k s) := by
  simp [execRecTimeTrigger]

theorem execPersistenceHalving_safe (t m : Nat) (s : State) : SafeRes s (execPersistenceHalving t m s) := by
  simp [execPersistenceHalving]

theorem execReadoutRecord_safe (t n : Nat) (s : State) : SafeRes s (execReadoutRecord t n s) := by
  unfold execReadoutRecord
  dsimp only
  repeat' split
  all_goals simp

theorem execSkewCalComplete_safe (t : Nat) (s : State) : SafeRes s (execSkewCalComplete t s) := by
  unfold execSkewCalComplete
  dsimp only
  repeat' split
  all_goals simp

/-! ### Modes -/

theorem execStartModeAttempt_safe (t : Nat) (s : State) : SafeRes s (execStartModeAttempt t s) := by
  simp [execStartModeAttempt]

theorem execSafeStopRampEnd_safe (t : Nat) (s : State) : SafeRes s (execSafeStopRampEnd t s) := by
  unfold execSafeStopRampEnd
  dsimp only
  split <;> simp

theorem execModeEntered_safe (t : Nat) (s : State) : SafeRes s (execModeEntered t s) := by
  simp [execModeEntered]

theorem execModeAborted_safe (t : Nat) (s : State) : SafeRes s (execModeAborted t s) := by
  unfold execModeAborted
  dsimp only
  repeat' split
  all_goals simp

theorem execResynchronisationComplete_safe (t : Nat) (s : State) : SafeRes s (execResynchronisationComplete t s) := by
  unfold execResynchronisationComplete
  dsimp only
  split <;> simp

theorem execHeartbeatLost_safe (t : Nat) (s : State) : SafeRes s (execHeartbeatLost t s) := by
  simp [execHeartbeatLost]

theorem execSupervisorFault_safe (t : Nat) (s : State) : SafeRes s (execSupervisorFault t s) := by
  simp [execSupervisorFault]

theorem execUnrecoverableFault_safe (t unit : Nat) (s : State) : SafeRes s (execUnrecoverableFault t unit s) := by
  simp [execUnrecoverableFault]

theorem execDomainFault_safe (t d : Nat) (s : State) : SafeRes s (execDomainFault t d s) := by
  simp [execDomainFault]

theorem execDomainRestarted_safe (t d : Nat) (s : State) : SafeRes s (execDomainRestarted t d s) := by
  simp [execDomainRestarted]

/-! ### Clocks -/

theorem execLockWindow_safe (t l : Nat) (diff : Int) (roKhz : Nat) (s : State) : SafeRes s (execLockWindow t l diff roKhz s) := by
  simp [execLockWindow]

theorem execXrefAbsent_safe (t : Nat) (s : State) : SafeRes s (execXrefAbsent t s) := by
  unfold execXrefAbsent
  dsimp only
  split <;> simp

theorem execXrefPresent_safe (t : Nat) (s : State) : SafeRes s (execXrefPresent t s) := by
  simp [execXrefPresent]

theorem execClkSwitch_safe (t : Nat) (err0 err1 : Int) (s : State) : SafeRes s (execClkSwitch t err0 err1 s) := by
  simp [execClkSwitch]

theorem execRelockTimeout_safe (t l : Nat) (s : State) : SafeRes s (execRelockTimeout t l s) := by
  simp [execRelockTimeout]

theorem execMissingEdge_safe (t k : Nat) (s : State) : SafeRes s (execMissingEdge t k s) := by
  simp [execMissingEdge]

theorem execClkRegion_safe (t : Nat) (ctl iface : List Int) (s : State) : SafeRes s (execClkRegion t ctl iface s) := by
  simp [execClkRegion]

/-! ### Memory and the life cycle -/

theorem execScrub_safe (t : Nat) (hits : List Nat) (s : State) : SafeRes s (execScrub t hits s) := by
  unfold execScrub
  dsimp only
  repeat' split
  all_goals simp

theorem execSramCorrection_safe (t addr : Nat) (s : State) : SafeRes s (execSramCorrection t addr s) := by
  simp [execSramCorrection]
  split <;> simp

theorem execSramDoubleBitError_safe (t addr : Nat) (s : State) : SafeRes s (execSramDoubleBitError t addr s) := by
  unfold execSramDoubleBitError
  dsimp only
  split <;> simp

theorem execMramVerifyFailure_safe (t kind addr image : Nat) (s : State) : SafeRes s (execMramVerifyFailure t kind addr image s) := by
  unfold execMramVerifyFailure
  dsimp only
  repeat' split
  all_goals simp

theorem execBlockImageCommit_safe (t : Nat) (s : State) : SafeRes s (execBlockImageCommit t s) := by
  simp [execBlockImageCommit]

theorem execCopyPointerSwitch_safe (t image : Nat) (s : State) : SafeRes s (execCopyPointerSwitch t image s) := by
  unfold execCopyPointerSwitch
  dsimp only
  repeat' split
  all_goals simp

theorem execHealthCommit_safe (t : Nat) (s : State) : SafeRes s (execHealthCommit t s) := by
  unfold execHealthCommit
  dsimp only
  split <;> simp

theorem execJtagInstruction_safe (t kind : Nat) (pins : List (Nat × Bool)) (s : State) : SafeRes s (execJtagInstruction t kind pins s) := by
  simp [execJtagInstruction]

/-! ### Husk -/

theorem execVlsThreshold_safe (t vqs vls : Nat) (s : State) : SafeRes s (execVlsThreshold t vqs vls s) := by
  simp [execVlsThreshold]

theorem execHuskTimeLost_safe (o : StoresAt) (s : State) : SafeRes s (execHuskTimeLost o s) := by
  simp [execHuskTimeLost]

theorem execD0Reset_safe (o : StoresAt) (s : State) : SafeRes s (execD0Reset o s) := by
  simp [execD0Reset]

theorem execD0PowerOn_safe (t vqs vls : Nat) (s : State) : SafeRes s (execD0PowerOn t vqs vls s) := by
  unfold execD0PowerOn
  dsimp only
  repeat' split
  all_goals simp

theorem execVddIoGood_safe (o : RailAt) (s : State) : SafeRes s (execVddIoGood o s) := by
  unfold execVddIoGood
  dsimp only
  repeat' split
  all_goals simp

theorem execHuskTeg_safe (t : Nat) (on : Bool) (voc : Nat) (s : State) : SafeRes s (execHuskTeg t on voc s) := by
  simp [execHuskTeg]

theorem execTegMeasure_safe (t voc uw : Nat) (s : State) : SafeRes s (execTegMeasure t voc uw s) := by
  unfold execTegMeasure
  dsimp only
  split <;> simp

theorem execRtcWrite_safe (o : RtcAt) (s : State) : SafeRes s (execRtcWrite o s) := by
  unfold execRtcWrite
  dsimp only
  split <;> simp

theorem execSealedBlockWrite_safe (t : Nat) (s : State) : SafeRes s (execSealedBlockWrite t s) := by
  unfold execSealedBlockWrite
  dsimp only
  repeat' split
  all_goals simp

theorem execBurstComplete_safe (t : Nat) (s : State) : SafeRes s (execBurstComplete t s) := by
  unfold execBurstComplete
  dsimp only
  split <;> simp

/-! ### Hitch swaps -/

theorem execHitchSwapped_safe (t g : Nat) (s : State) : SafeRes s (execHitchSwapped t g s) := by
  simp [execHitchSwapped]

/-! ### Load events and samples -/

theorem execLoadEvent_safe (t leg : Nat) (peak : Bool) (s : State) : SafeRes s (execLoadEvent t leg peak s) := by
  unfold execLoadEvent
  dsimp only
  split <;> simp

theorem execPipelineSample_safe (t a : Nat) (code : Int) (o : FrontObs) (s : State) : SafeRes s (execPipelineSample t a code o s) := by
  simp [execPipelineSample]

theorem execSarResult_safe (t u code : Nat) (s : State) : SafeRes s (execSarResult t u code s) := by
  unfold execSarResult
  dsimp only
  split <;> simp

/-! ### Ticks -/

theorem execSafetyTick_safe (t : Nat) (o : GridObs) (btnLow : Bool) (s : State) : SafeRes s (execSafetyTick t o btnLow s) := by
  unfold execSafetyTick
  dsimp only
  repeat' split
  all_goals simp

theorem execLinkDelivery_safe (t : Nat) (s : State) : SafeRes s (execLinkDelivery t s) := by
  simp [execLinkDelivery]

theorem execBaseTick_safe (t : Nat) (o : TrackObs) (s : State) : SafeRes s (execBaseTick t o s) := by
  unfold execBaseTick
  dsimp only
  split <;> simp

/-! ### Start-up -/

theorem execPowerOnReset_safe (t : Nat) (o : RailsObs) (s : State) : SafeRes s (execPowerOnReset t o s) := by
  unfold execPowerOnReset
  dsimp only
  repeat' split
  all_goals simp

theorem execVddHvNotGood_safe (o : RailAt) (s : State) : SafeRes s (execVddHvNotGood o s) := by
  simp [execVddHvNotGood]

theorem execVddHvGood_safe (o : RailAt) (s : State) : SafeRes s (execVddHvGood o s) := by
  simp [execVddHvGood]

theorem execPllLockTimeout_safe (t : Nat) (s : State) : SafeRes s (execPllLockTimeout t s) := by
  simp [execPllLockTimeout]

theorem execImageVerifyComplete_safe (t kind slot verdict version security : Nat) (s : State) :
    SafeRes s (execImageVerifyComplete t kind slot verdict version security s) := by
  unfold execImageVerifyComplete
  dsimp only
  repeat' split
  all_goals simp

theorem execConverterCalibrationComplete_safe (t : Nat) (s : State) : SafeRes s (execConverterCalibrationComplete t s) := by
  simp [execConverterCalibrationComplete]

theorem execSheafImageLoad_safe (t sheaf block : Nat) (s : State) : SafeRes s (execSheafImageLoad t sheaf block s) := by
  unfold execSheafImageLoad
  dsimp only
  split <;> simp

theorem execStartUpTestsComplete_safe (t : Nat) (convs sars cells : List Nat) (outs : List (Nat × Nat)) (s : State) :
    SafeRes s (execStartUpTestsComplete t convs sars cells outs s) := by
  simp [execStartUpTestsComplete]

theorem execButtonReset_safe (t : Nat) (s : State) : SafeRes s (execButtonReset t s) := by
  simp [execButtonReset]

theorem execResetButtonStuck_safe (t : Nat) (s : State) : SafeRes s (execResetButtonStuck t s) := by
  simp [execResetButtonStuck]

theorem execResetButtonFreed_safe (t : Nat) (s : State) : SafeRes s (execResetButtonFreed t s) := by
  unfold execResetButtonFreed
  dsimp only
  split <;> simp

theorem execResetBtnReady_safe (t : Nat) (s : State) : SafeRes s (execResetBtnReady t s) := by
  simp [execResetBtnReady]

/-! ### Those that touch memory or reset the device -/

theorem execEscapeWrite_safe (t : Nat) (frame : List Byte) (s : State) : SafeRes s (execEscapeWrite t frame s) := by
  unfold execEscapeWrite
  dsimp only
  rw [safeRes_next]
  split
  · simp
  · split
    · rw [whenReady_vital fun s => by simp]
      simp
    · simp

theorem execResetHoldEnd_safe (t : Nat) (s : State) : SafeRes s (execResetHoldEnd t s) := by
  have wiped (u : State) : u.vital.Safe (u.modMem fun m => { m with sram := [] }).vital := .of_sram (a := u.vital) fun _ => rfl
  unfold execResetHoldEnd
  dsimp only
  rw [safeRes_next]
  split
  · rw [setDomain_vital, setDomain_vital, stage_vital]
    exact wiped (s.advance t)
  · simp

theorem execReady_safe (t : Nat) (s : State) : SafeRes s (execReady t s) := by
  unfold execReady
  dsimp only
  rw [safeRes_next]
  split
  · exact foldl_safe (fun s n => passHeads_safe t n (.refl s.vital)) _ (by simp)
  · simp

theorem execSupplyReset_safe (t rail uv held low : Nat) (v : Stores) (s : State) : SafeRes s (execSupplyReset t rail uv held low v s) := by
  unfold execSupplyReset
  dsimp only
  rw [safeRes_within]
  intro _
  split
  · rw [State.modSys_vital]
    exact afterReset_safe _ (by simp)
  · split <;> simp

/-! ### The life cycle (R543 to R546) -/

/-- What one command leads to: as from a safe step, but that the life-cycle state may move along a transition that is listed. -/
structure Vital.Step (a b : Vital) : Prop where
  sram : Mem.wf a.sram = true → Mem.wf b.sram = true
  mram : Mem.wf a.mram = true → Mem.wf b.mram = true
  life : a.Legal → b.Legal ∧ (b.lc = a.lc ∨ lcListed a.lc b.lc = true)
  values : (∀ v ∈ a.values, v ≠ 0) → ∀ v ∈ b.values, v ≠ 0

theorem Vital.Safe.step {a b : Vital} (h : a.Safe b) : a.Step b := ⟨h.sram, h.mram, fun k => ⟨h.legal k, .inl h.lc⟩, h.values⟩

theorem Vital.Step.safe {a b c : Vital} (h : a.Step b) (k : b.Safe c) : a.Step c :=
  ⟨k.sram ∘ h.sram, k.mram ∘ h.mram, fun l => ⟨k.legal (h.life l).1, by rw [k.lc]; exact (h.life l).2⟩, k.values ∘ h.values⟩

/-- The same of an answer. -/
def StepRes (s : State) (r : Res) : Prop := ∀ t, r = .next t → s.vital.Step t.vital

theorem SafeRes.step {s : State} {r : Res} (h : SafeRes s r) : StepRes s r := fun t ht => (h t ht).step

@[simp] theorem stepRes_next (s t : State) : StepRes s (.next t) ↔ s.vital.Step t.vital :=
  ⟨fun h => h t rfl, fun h u hu => by cases hu; exact h⟩

/-- t is s but for bytes of MRAM that are gone. -/
def ErasesOnly (s t : State) : Prop := ∃ m, (Mem.wf s.vital.mram = true → Mem.wf m = true) ∧ t.vital = { s.vital with mram := m }

theorem ErasesOnly.of_vital {s t : State} (h : t.vital = s.vital) : ErasesOnly s t := ⟨_, id, h⟩

theorem ErasesOnly.trans {s t u : State} (h : ErasesOnly s t) (k : ErasesOnly t u) : ErasesOnly s u := by
  obtain ⟨m, hm, ht⟩ := h
  obtain ⟨n, hn, hu⟩ := k
  rw [ht] at hn hu
  exact ⟨n, hn ∘ hm, hu⟩

theorem eraseMram_erasesOnly (x n : Nat) (s : State) : ErasesOnly s (eraseMram x n s) := ⟨_, fun h => Mem.wf_clear h x n, rfl⟩

theorem eraseRegion_erasesOnly (i : Nat) (s : State) : ErasesOnly s (eraseRegion i s) := by
  unfold eraseRegion
  split
  · exact (eraseMram_erasesOnly 0x10000000 0x400000 s).trans (.of_vital (by simp))
  · exact (eraseMram_erasesOnly 0x10400000 0x200000 s).trans (.of_vital (by simp))
  · exact .of_vital (by simp)
  · exact .of_vital (by simp)
  · exact .of_vital (by simp)
  · exact .of_vital (by simp)
  · exact .of_vital (by simp)
  · exact eraseMram_erasesOnly _ _ s
  · exact .of_vital (by simp)
  · exact .of_vital (by simp)

/-- The erase of a recorded transition puts its new state in force (R546). -/
theorem lcErase_step {s : State} {l : LcPend} (hl : s.mem.lcPend = some l) : s.vital.Step (lcErase l.lcFrom l.lcTo s).vital := by
  obtain ⟨m, hm, hv⟩ : ErasesOnly s ((List.range 10).foldl
      (fun s i => if (lcErases l.lcFrom l.lcTo).1.getD i false then eraseRegion i s else s) s) :=
    foldl_rel (R := ErasesOnly) (fun s => .of_vital rfl) ErasesOnly.trans (fun s i => by
      split
      · exact eraseRegion_erasesOnly i s
      · exact .of_vital rfl) _ s
  have erased : (lcErase l.lcFrom l.lcTo s).vital = { s.vital with mram := m, lc := l.lcTo, lcPend := none } :=
    congrArg (fun v : Vital => { v with lc := l.lcTo, lcPend := none }) hv
  rw [erased]
  refine ⟨id, hm, fun k => ⟨(fun _ h => nomatch h), .inr ?_⟩, id⟩
  obtain ⟨hfrom, hlisted⟩ := k l hl
  exact hfrom ▸ hlisted

theorem lcResume_step (t : Nat) (s : State) : s.vital.Step (lcResume t s).vital := by
  unfold lcResume
  split
  next l hl =>
    split
    · rw [State.post_vital]
      exact lcErase_step hl
    · exact (Vital.Safe.refl _).step
  · exact (Vital.Safe.refl _).step

theorem execLcEraseComplete_step (t : Nat) (s : State) : StepRes s (execLcEraseComplete t s) := by
  unfold execLcEraseComplete
  dsimp only
  rw [stepRes_next]
  split
  next l hl =>
    split
    · exact (lcErase_step (s := s.advance t) hl).safe (deviceReset_safe 4 (by simp))
    · exact (Vital.Safe.refl _).step
  · exact (Vital.Safe.refl _).step

theorem execSramWipeComplete_step (t : Nat) (s : State) : StepRes s (execSramWipeComplete t s) := by
  unfold execSramWipeComplete
  dsimp only
  rw [stepRes_next]
  split
  · simpa using lcResume_step t { setDomain 11 2 (setDomain 1 2 (stage .lock (s.advance t))) with
      esc := { (setDomain 11 2 (setDomain 1 2 (stage .lock (s.advance t)))).esc with on := true }
      safety := { (setDomain 11 2 (setDomain 1 2 (stage .lock (s.advance t)))).safety with heartbeat := true } }
  · exact (Vital.Safe.refl _).step

/-- A transition that passes every check is listed: step 6 of R63 refuses any other (R543). -/
theorem lcListed_of_fails {p : Packet} {s : State} (h : specMemLcTransition.fails p s = none) : lcListed s.mem.lc (u8 p.payload 0) = true := by
  by_contra hl
  have hbad : specMemLcTransition.lcBad s p = true := by simpa [specMemLcTransition] using hl
  have hcore (x y z : Bool) : specMemLcTransition.coreFails x y z p s ≠ none := by simp [CmdSpec.coreFails, hbad]
  unfold CmdSpec.fails at h
  split at h
  · cases h
  · split at h
    · cases h
    · split at h
      · cases h
      · split at h
        · cases h
        · exact hcore _ _ _ h

theorem execMemLcTransition_safe (p : Packet) (s : State) : SafeRes s (execMemLcTransition p s) := by
  refine runCommand_safe (fun u => CmdSpec.process_safe (fun _ _ s => ?_) fun h => ⟨lcStart_safe _ _ ?_ (.refl _), by simp [specMemLcTransition]⟩) s
  · simp [specMemLcTransition]
  · simpa using lcListed_of_fails h

/-! ### Every command -/

/-- Every opcode but MEM_LC_TRANSITION is sound whatever the packet is. -/
theorem sound_of_packetOf {i : Instr} {c : CmdSpec} {p : Packet} (h : packetOf i = some (c, p)) (hi : ∀ q, i ≠ .memLcTransition q) : c.Sound := by
  cases i
  case memLcTransition q => exact absurd rfl (hi q)
  all_goals cases h
  all_goals simp

/-- A command packet is safe for the invariants. -/
theorem packet_step {i : Instr} {c : CmdSpec} {p : Packet} (h : packetOf i = some (c, p)) (s : State) : StepRes s (exec i s) := by
  by_cases hi : ∃ q, i = .memLcTransition q
  · obtain ⟨q, rfl⟩ := hi
    exact (execMemLcTransition_safe q s).step
  · rw [exec_packetOf s h]
    exact ((sound_of_packetOf h fun q hq => hi ⟨q, hq⟩).runCommand p s).step

/-- So is a happening, but for an erase, which moves the life cycle on. -/
theorem happening_step {i : Instr} (h : packetOf i = none) (s : State) : StepRes s (exec i s) := by
  cases i
  case doorbellWrite t m n v => exact (execDoorbellWrite_safe t m n v s).step
  case intStatusWrite t m v => exact (execIntStatusWrite_safe t m v s).step
  case timeLoRead t m => exact (execTimeLoRead_safe t m s).step
  case registerWrite t m addr v => exact (execRegisterWrite_safe t m addr v s).step
  case hspiWrite t addr data => exact (execHspiWrite_safe t addr data s).step
  case hspiQuadWrite t addr data => exact (execHspiQuadWrite_safe t addr data s).step
  case hspiRead t addr n => exact (execHspiRead_safe t addr n s).step
  case hspiQuadRead t addr n => exact (execHspiQuadRead_safe t addr n s).step
  case escapeWrite t frame => exact (execEscapeWrite_safe t frame s).step
  case escapeRead t n => exact (execEscapeRead_safe t n s).step
  case unknownInstruction t b => exact (execUnknownInstruction_safe t b s).step
  case hostUartPacket t frame => exact (execHostUartPacket_safe t frame s).step
  case heldReply t n => exact (execHeldReply_safe t n s).step
  case firewallViolation t m addr write cores => exact (execFirewallViolation_safe t m addr write cores s).step
  case frozenD10Restart t => exact (execFrozenD10Restart_safe t s).step
  case powerOnReset t o => exact (execPowerOnReset_safe t o s).step
  case supplyReset t rail uv held low v => exact (execSupplyReset_safe t rail uv held low v s).step
  case vddHvNotGood o => exact (execVddHvNotGood_safe o s).step
  case vddHvGood o => exact (execVddHvGood_safe o s).step
  case resetHoldEnd t => exact (execResetHoldEnd_safe t s).step
  case sramWipeComplete t => exact execSramWipeComplete_step t s
  case imageVerifyComplete t kind slot verdict version security => exact (execImageVerifyComplete_safe t kind slot verdict version security s).step
  case pllLockTimeout t => exact (execPllLockTimeout_safe t s).step
  case converterCalibrationComplete t => exact (execConverterCalibrationComplete_safe t s).step
  case sheafImageLoad t sheaf block => exact (execSheafImageLoad_safe t sheaf block s).step
  case startUpTestsComplete t convs sars cells outs => exact (execStartUpTestsComplete_safe t convs sars cells outs s).step
  case ready t => exact (execReady_safe t s).step
  case startModeAttempt t => exact (execStartModeAttempt_safe t s).step
  case buttonReset t => exact (execButtonReset_safe t s).step
  case resetButtonStuck t => exact (execResetButtonStuck_safe t s).step
  case resetButtonFreed t => exact (execResetButtonFreed_safe t s).step
  case resetBtnReady t => exact (execResetBtnReady_safe t s).step
  case heartbeatLost t => exact (execHeartbeatLost_safe t s).step
  case supervisorFault t => exact (execSupervisorFault_safe t s).step
  case unrecoverableFault t unit => exact (execUnrecoverableFault_safe t unit s).step
  case domainFault t d => exact (execDomainFault_safe t d s).step
  case domainRestarted t d => exact (execDomainRestarted_safe t d s).step
  case safeStopRampEnd t => exact (execSafeStopRampEnd_safe t s).step
  case modeEntered t => exact (execModeEntered_safe t s).step
  case modeAborted t => exact (execModeAborted_safe t s).step
  case resynchronisationComplete t => exact (execResynchronisationComplete_safe t s).step
  case safetyTick t o btnLow => exact (execSafetyTick_safe t o btnLow s).step
  case baseTick t o => exact (execBaseTick_safe t o s).step
  case passVote t subject unit claims late clocks => exact (execPassVote_safe t subject unit claims late clocks s).step
  case voteLate t core r => exact (execVoteLate_safe t core r s).step
  case sampleTimeout t ain out => exact (execSampleTimeout_safe t ain out s).step
  case channelFault t ch => exact (execChannelFault_safe t ch s).step
  case rateOverrun t g => exact (execRateOverrun_safe t g s).step
  case coreDomainOff t core => exact (execCoreDomainOff_safe t core s).step
  case coreSpliceTransfer t differed => exact (execCoreSpliceTransfer_safe t differed s).step
  case hitchSwapped t g => exact (execHitchSwapped_safe t g s).step
  case trackerLocked t => exact (execTrackerLocked_safe t s).step
  case trackerAcquiring t => exact (execTrackerAcquiring_safe t s).step
  case reacqClear t => exact (execReacqClear_safe t s).step
  case linkDelivery t => exact (execLinkDelivery_safe t s).step
  case classReturn t => exact (execClassReturn_safe t s).step
  case rtTrip t => exact (execRtTrip_safe t s).step
  case rtRestart t => exact (execRtRestart_safe t s).step
  case restartTimeout t => exact (execRestartTimeout_safe t s).step
  case enterServiceComplete t => exact (execEnterServiceComplete_safe t s).step
  case dclChopperFault t => exact (execDclChopperFault_safe t s).step
  case dclRelease t => exact (execDclRelease_safe t s).step
  case dclUndervoltage t => exact (execDclUndervoltage_safe t s).step
  case awnChip t => exact (execAwnChip_safe t s).step
  case awnEvaluation t angle => exact (execAwnEvaluation_safe t angle s).step
  case awnEpoch t => exact (execAwnEpoch_safe t s).step
  case islDetected t => exact (execIslDetected_safe t s).step
  case peerPcc t m => exact (execPeerPcc_safe t m s).step
  case autoScanDwell t m => exact (execAutoScanDwell_safe t m s).step
  case rocofTrip t => exact (execRocofTrip_safe t s).step
  case pvPortStart t p => exact (execPvPortStart_safe t p s).step
  case localTracker t p slope v w => exact (execLocalTracker_safe t p slope v w s).step
  case mapHalving t p => exact (execMapHalving_safe t p s).step
  case globalSearch t mean => exact (execGlobalSearch_safe t mean s).step
  case pvSweep t p mean deficit => exact (execPvSweep_safe t p mean deficit s).step
  case pvReferencePost t => exact (execPvReferencePost_safe t s).step
  case curtailmentUpdate t => exact (execCurtailmentUpdate_safe t s).step
  case bmsNodeReport t bus ident data => exact (execBmsNodeReport_safe t bus ident data s).step
  case bmsNodeStale t n => exact (execBmsNodeStale_safe t n s).step
  case bmsNodeDeparted t n => exact (execBmsNodeDeparted_safe t n s).step
  case bmsStatusSend t bus => exact (execBmsStatusSend_safe t bus s).step
  case loadEvent t leg peak => exact (execLoadEvent_safe t leg peak s).step
  case bootPrecharge t leg => exact (execBootPrecharge_safe t leg s).step
  case legTestEnd t leg => exact (execLegTestEnd_safe t leg s).step
  case pipelineSample t a code o => exact (execPipelineSample_safe t a code o s).step
  case senseSuspect t check unit => exact (execSenseSuspect_safe t check unit s).step
  case senseVerdict t a b d => exact (execSenseVerdict_safe t a b d s).step
  case converterPowerOff t c => exact (execConverterPowerOff_safe t c s).step
  case checkSuspensionEnd t check unit => exact (execCheckSuspensionEnd_safe t check unit s).step
  case shadowVisit t offset gain => exact (execShadowVisit_safe t offset gain s).step
  case sarStart t u reqs => exact (execSarStart_safe t u reqs s).step
  case sarResult t u code => exact (execSarResult_safe t u code s).step
  case testDacStep t => exact (execTestDacStep_safe t s).step
  case sensePath t diffs => exact (execSensePath_safe t diffs s).step
  case calibrationCorrection t gains => exact (execCalibrationCorrection_safe t gains s).step
  case fltAsserted t n => exact (execFltAsserted_safe t n s).step
  case fltReady t n => exact (execFltReady_safe t n s).step
  case comparatorAsserted t n => exact (execComparatorAsserted_safe t n s).step
  case hardCellAsserted t n => exact (execHardCellAsserted_safe t n s).step
  case monitorActs t n => exact (execMonitorActs_safe t n s).step
  case softStep t g => exact (execSoftStep_safe t g s).step
  case innerStep t g => exact (execInnerStep_safe t g s).step
  case protRetry t g => exact (execProtRetry_safe t g s).step
  case triesClear t g => exact (execTriesClear_safe t g s).step
  case partnerSuspect t n => exact (execPartnerSuspect_safe t n s).step
  case cmpSelfTestStep t cellBad standBad => exact (execCmpSelfTestStep_safe t cellBad standBad s).step
  case cellPowerOff t k => exact (execCellPowerOff_safe t k s).step
  case cmpTestComplete t codes => exact (execCmpTestComplete_safe t codes s).step
  case recTimeTrigger t k => exact (execRecTimeTrigger_safe t k s).step
  case recComplete t => exact (execRecComplete_safe t s).step
  case persistenceHalving t m => exact (execPersistenceHalving_safe t m s).step
  case readoutRecord t n => exact (execReadoutRecord_safe t n s).step
  case skewCalComplete t => exact (execSkewCalComplete_safe t s).step
  case safetyInputSample t levels => exact (execSafetyInputSample_safe t levels s).step
  case testPulse t src => exact (execTestPulse_safe t src s).step
  case discrepancyFault t k => exact (execDiscrepancyFault_safe t k s).step
  case outputReadback t x pinMv hvMv uA => exact (execOutputReadback_safe t x pinMv hvMv uA s).step
  case outputFault t x => exact (execOutputFault_safe t x s).step
  case lightTestStep t x pinMv hvMv uA => exact (execLightTestStep_safe t x pinMv hvMv uA s).step
  case feedbackTimeout t x => exact (execFeedbackTimeout_safe t x s).step
  case outputTest t => exact (execOutputTest_safe t s).step
  case darkTestStep t x pinMv hvMv uA => exact (execDarkTestStep_safe t x pinMv hvMv uA s).step
  case vrelPdu t ip port pdu => exact (execVrelPdu_safe t ip port pdu s).step
  case vrelTimeout t c => exact (execVrelTimeout_safe t c s).step
  case vrelProduce t c => exact (execVrelProduce_safe t c s).step
  case safetySessionTimeout t => exact (execSafetySessionTimeout_safe t s).step
  case ethernetFrame t port frame beyond => exact (execEthernetFrame_safe t port frame beyond s).step
  case announce t src counter payload => exact (execAnnounce_safe t src counter payload s).step
  case dispatch t src payload => exact (execDispatch_safe t src payload s).step
  case command t src pkt => exact (execCommand_safe t src pkt s).step
  case canFrame t c ident fd ext brs remote data => exact (execCanFrame_safe t c ident fd ext brs remote data s).step
  case uartReceive t data => exact (execUartReceive_safe t data s).step
  case frameTransmit t n => exact (execFrameTransmit_safe t n s).step
  case netLink t port isUp => exact (execNetLink_safe t port isUp s).step
  case ptpTimeout t => exact (execPtpTimeout_safe t s).step
  case announceSend t => exact (execAnnounceSend_safe t s).step
  case peerAgedOut t addr => exact (execPeerAgedOut_safe t addr s).step
  case dispatchExpiry t => exact (execDispatchExpiry_safe t s).step
  case canBusOff t c => exact (execCanBusOff_safe t c s).step
  case canBusRecovered t c => exact (execCanBusRecovered_safe t c s).step
  case networkSessionTimeout t addr => exact (execNetworkSessionTimeout_safe t addr s).step
  case coolPrechargeEnd t d => exact (execCoolPrechargeEnd_safe t d s).step
  case alignEnd t d => exact (execAlignEnd_safe t d s).step
  case commutation t d => exact (execCommutation_safe t d s).step
  case backEmfCrossing t d => exact (execBackEmfCrossing_safe t d s).step
  case crossingMiss t d => exact (execCrossingMiss_safe t d s).step
  case coastTimeout t d => exact (execCoastTimeout_safe t d s).step
  case coolPwmPeriod t d iU iV iW mean => exact (execCoolPwmPeriod_safe t d iU iV iW mean s).step
  case coolOvercurrent t d => exact (execCoolOvercurrent_safe t d s).step
  case bootstrapLockout t d phase => exact (execBootstrapLockout_safe t d phase s).step
  case coolHourly t d up => exact (execCoolHourly_safe t d up s).step
  case lockWindow t l diff roKhz => exact (execLockWindow_safe t l diff roKhz s).step
  case clkSwitch t err0 err1 => exact (execClkSwitch_safe t err0 err1 s).step
  case relockTimeout t l => exact (execRelockTimeout_safe t l s).step
  case xrefAbsent t => exact (execXrefAbsent_safe t s).step
  case xrefPresent t => exact (execXrefPresent_safe t s).step
  case missingEdge t k => exact (execMissingEdge_safe t k s).step
  case clkRegion t ctl iface => exact (execClkRegion_safe t ctl iface s).step
  case scrub t hits => exact (execScrub_safe t hits s).step
  case sramDoubleBitError t addr => exact (execSramDoubleBitError_safe t addr s).step
  case mramVerifyFailure t kind addr image => exact (execMramVerifyFailure_safe t kind addr image s).step
  case copyPointerSwitch t image => exact (execCopyPointerSwitch_safe t image s).step
  case blockImageCommit t => exact (execBlockImageCommit_safe t s).step
  case healthCommit t => exact (execHealthCommit_safe t s).step
  case lcEraseComplete t => exact execLcEraseComplete_step t s
  case vlsThreshold t vqs vls => exact (execVlsThreshold_safe t vqs vls s).step
  case huskTimeLost o => exact (execHuskTimeLost_safe o s).step
  case d0Reset o => exact (execD0Reset_safe o s).step
  case huskTeg t on voc => exact (execHuskTeg_safe t on voc s).step
  case tegMeasure t voc uw => exact (execTegMeasure_safe t voc uw s).step
  case rtcWrite o => exact (execRtcWrite_safe o s).step
  case burstComplete t => exact (execBurstComplete_safe t s).step
  case sealedBlockWrite t => exact (execSealedBlockWrite_safe t s).step
  case unknownOpcodePacket src t bytes valid => exact (execUnknownOpcodePacket_safe src t bytes valid s).step
  case safetyOutputOvercurrent t x => exact (execSafetyOutputOvercurrent_safe t x s).step
  case comparatorReleased t n => exact (execComparatorReleased_safe t n s).step
  case jtagInstruction t kind pins => exact (execJtagInstruction_safe t kind pins s).step
  case vddIoGood o => exact (execVddIoGood_safe o s).step
  case d0PowerOn t vqs vls => exact (execD0PowerOn_safe t vqs vls s).step
  case sramCorrection t addr => exact (execSramCorrection_safe t addr s).step
  all_goals cases h

theorem exec_step (i : Instr) (s : State) : StepRes s (exec i s) := by
  cases h : packetOf i with
  | none => exact happening_step h s
  | some cp => exact packet_step h s

/-- What a step of the machine leads to. -/
theorem step_step {s t : State} (h : step s = .next t) : s.vital.Step t.vital := by
  unfold step at h
  split at h
  · cases h
    exact (Vital.Safe.refl _).step
  next c rest hp => exact exec_step c { s with pending := rest } t h

/-- Settles O57: no step leaves a memory that was canonical other than canonical. -/
theorem everyStepKeepsMemoryCanonical : Obligations.EveryStepKeepsMemoryCanonical := by
  unfold Obligations.EveryStepKeepsMemoryCanonical
  intro s t ⟨hsram, hmram⟩ hstep
  exact ⟨(step_step hstep).sram hsram, (step_step hstep).mram hmram⟩

/-- The listed transitions never lead to Blank, to Manufacture from Blank alone, and from state 5 nowhere (R543). -/
theorem lcListed_moves {x y : Nat} (h : lcListed x y = true) : y ≠ 0 ∧ (y = 1 → x = 0) ∧ x ≠ 5 := by
  simp only [lcListed, List.contains_eq_mem, List.mem_cons, Prod.mk.injEq, List.not_mem_nil, or_false, decide_eq_true_eq] at h
  omega

/-- Settles O58: a step leaves the life-cycle state or moves it along a listed transition. -/
theorem lifeCycleMovesAsListed : Obligations.LifeCycleMovesAsListed := by
  unfold Obligations.LifeCycleMovesAsListed
  intro s t hlegal hstep
  obtain ⟨hlegal', hmove⟩ := (step_step hstep).life hlegal
  refine ⟨hlegal', hmove, ?_⟩
  rcases hmove with hstay | hlisted
  · have hlc : t.mem.lc = s.mem.lc := hstay
    omega
  · obtain ⟨hblank, hmanufacture, hscrap⟩ := lcListed_moves hlisted
    exact ⟨fun h => absurd h hblank, fun h => .inl (hmanufacture h), fun h => absurd h hscrap⟩

/-- Settles O59: no step opens a session with the value 0. -/
theorem everyStepKeepsSessionsLegal : Obligations.EveryStepKeepsSessionsLegal := by
  unfold Obligations.EveryStepKeepsSessionsLegal
  intro s t hlegal hstep x hx
  exact (step_step hstep).values (List.forall_mem_map.2 hlegal) x.value (List.mem_map_of_mem hx)

/-- Settles O60: the machine after reset has both memories empty, no transition pending and no session. -/
theorem resetMeetsTheInvariants : Obligations.ResetMeetsTheInvariants := by
  refine ⟨⟨rfl, rfl⟩, ?_, ?_⟩ <;> intro x hx <;> cases hx

end Sys2Proof.Machine
end

section
/-! SUPPORT. Every command answers a next state or stops at a unit that does not exist; a well-formed one never stops. -/

namespace Sys2Proof.Machine

/-- A command answers a next state, or, where it is not well formed, stops at a unit that does not exist. -/
def Runs (ok : Bool) (r : Res) : Prop := (∃ t, r = .next t) ∨ (ok = false ∧ r = .fault .noSuchUnit)

theorem Runs.next {ok : Bool} (t : State) : Runs ok (.next t) := .inl ⟨t, rfl⟩

theorem Runs.stop {ok : Bool} (h : ok = false) : Runs ok (.fault .noSuchUnit) := .inr ⟨h, rfl⟩

/-- A happening of a unit that exists answers a next state. -/
theorem Runs.within {ok : Bool} {i n : Nat} (h : ok = true → i < n) (t : State) : Runs ok (within i n t) := by
  unfold Machine.within
  by_cases hi : i < n
  · rw [if_pos hi]; exact .next t
  · rw [if_neg hi]; exact .stop (by cases ok <;> simp_all)

theorem Runs.completes {ok : Bool} {r : Res} (h : Runs ok r) (hok : ok = true) : ∃ t, r = .next t := by
  obtain h | ⟨hf, _⟩ := h
  · exact h
  · rw [hok] at hf; cases hf

/-! ### Packets -/

/-- A packet stops only at a source that does not exist (R72). -/
theorem runCommand_runs (c : CmdSpec) (p : Packet) (s : State) : Runs p.ok (runCommand c p s) := by
  obtain ⟨hs, h⟩ | ⟨_, h⟩ | ⟨_, _, h⟩ := runCommand_cases c p s <;> rw [h]
  · refine .stop ?_
    cases ho : p.ok with
    | false => rfl
    | true => rw [Laws.WellFormedSource.source_of_ok ho] at hs; cases hs
  · exact .next _
  · exact .next _

/-- A row that is a packet is well formed as its packet is. -/
theorem wellFormed_packetOf {i : Instr} {c : CmdSpec} {p : Packet} (h : packetOf i = some (c, p)) : i.wellFormed = p.ok := by
  cases i <;> cases h <;> rfl

/-- A well-formed source exists (R72). -/
theorem sourceOk_of_ok {src : Source} (h : src.ok = true) : sourceOk src = true := by
  cases src <;> simp_all [Source.ok, sourceOk]

theorem unknownOpcodePacket_runs (src : Source) (t : Nat) (bytes : List Byte) (valid : Nat) (s : State) :
    Runs src.ok (exec (.unknownOpcodePacket src t bytes valid) s) := by
  change Runs _ (execUnknownOpcodePacket src t bytes valid s)
  unfold execUnknownOpcodePacket
  by_cases h : sourceOk src = true
  · simp only [h, Bool.not_true, Bool.false_eq_true, if_false]
    split
    · exact .next _
    · split <;> exact .next _
  · rw [if_pos (by simpa using h)]
    exact .stop (Bool.eq_false_iff.2 fun k => h (sourceOk_of_ok k))

/-! ### Happenings whose unit is looked at in a way of its own -/

theorem imageVerifyComplete_runs (t kind slot verdict version security : Nat) (s : State) :
    Runs (decide (kind < 2) && decide (slot < 2)) (exec (.imageVerifyComplete t kind slot verdict version security) s) := by
  change Runs _ (execImageVerifyComplete t kind slot verdict version security s)
  unfold execImageVerifyComplete
  dsimp only
  by_cases h : 2 ≤ kind ∨ 2 ≤ slot
  · rw [if_pos h]
    exact .stop (by simp; omega)
  · rw [if_neg h]
    split <;> exact .next _

theorem passVote_runs (t subject unit : Nat) (claims : List CoreClaim) (late : List Nat) (clocks : Nat) (s : State) :
    Runs (subject != 1 || decide (unit < 32)) (exec (.passVote t subject unit claims late clocks) s) := by
  change Runs _ (execPassVote t subject unit claims late clocks s)
  unfold execPassVote
  dsimp only
  split
  · exact .next _
  · split
    next h => exact .within (by simp [h]) _
    · exact .next _

theorem senseSuspect_runs (t check unit : Nat) (s : State) :
    Runs (if check = 3 then decide (unit < 8) else decide (unit < 24)) (exec (.senseSuspect t check unit) s) := by
  refine Runs.within (n := if check = 3 then 8 else 24) ?_ _
  split <;> simp

theorem senseVerdict_runs (t a b d : Nat) (s : State) : Runs true (exec (.senseVerdict t a b d) s) := by
  change Runs _ (execSenseVerdict t a b d s)
  unfold execSenseVerdict
  dsimp only
  repeat' split
  all_goals exact .next _

theorem checkSuspensionEnd_runs (t check unit : Nat) (s : State) :
    Runs (if check = 3 then decide (unit < 8) else decide (unit < 24)) (exec (.checkSuspensionEnd t check unit) s) := by
  change Runs _ (execCheckSuspensionEnd t check unit s)
  unfold execCheckSuspensionEnd
  dsimp only
  by_cases h : (s.advance t).d7Off = true
  · rw [if_pos h]; exact .next _
  · rw [if_neg h]
    by_cases hc : check = 3
    · rw [if_pos hc, if_pos hc]; exact .within of_decide_eq_true _
    · rw [if_neg hc, if_neg hc]; exact .within of_decide_eq_true _

theorem shadowVisit_runs (t : Nat) (offset gain : Int) (s : State) : Runs true (exec (.shadowVisit t offset gain) s) := by
  change Runs _ (execShadowVisit t offset gain s)
  unfold execShadowVisit
  dsimp only
  repeat' split
  all_goals exact .next _

theorem cmpSelfTestStep_runs (t : Nat) (cellBad standBad : Bool) (s : State) : Runs true (exec (.cmpSelfTestStep t cellBad standBad) s) := by
  change Runs _ (execCmpSelfTestStep t cellBad standBad s)
  unfold execCmpSelfTestStep
  dsimp only
  repeat' split
  all_goals exact .next _

theorem recComplete_runs (t : Nat) (s : State) : Runs true (exec (.recComplete t) s) := by
  change Runs _ (execRecComplete t s)
  unfold execRecComplete
  dsimp only
  repeat' split
  all_goals exact .next _

theorem readoutRecord_runs (t n : Nat) (s : State) : Runs (decide (24 ≤ n) && decide (n < 32)) (exec (.readoutRecord t n) s) := by
  change Runs _ (execReadoutRecord t n s)
  unfold execReadoutRecord
  dsimp only
  by_cases h : n < 24 ∨ 32 ≤ n
  · rw [if_pos h]
    exact .stop (by simp; omega)
  · rw [if_neg h]
    repeat' split
    all_goals exact .next _

theorem skewCalComplete_runs (t : Nat) (s : State) : Runs true (exec (.skewCalComplete t) s) := by
  change Runs _ (execSkewCalComplete t s)
  unfold execSkewCalComplete
  dsimp only
  repeat' split
  all_goals exact .next _

theorem scrub_runs (t : Nat) (hits : List Nat) (s : State) : Runs (hits.all sramAddr) (exec (.scrub t hits) s) := by
  change Runs (hits.all inSram) (execScrub t hits s)
  unfold execScrub
  dsimp only
  split
  · exact .next _
  next h => exact .stop (Bool.eq_false_iff.2 h)

theorem sramDoubleBitError_runs (t addr : Nat) (s : State) : Runs (sramAddr addr) (exec (.sramDoubleBitError t addr) s) := by
  change Runs (inSram addr) (execSramDoubleBitError t addr s)
  unfold execSramDoubleBitError
  dsimp only
  split
  · exact .next _
  next h => exact .stop (Bool.eq_false_iff.2 h)

theorem sramCorrection_runs (t addr : Nat) (s : State) : Runs (sramAddr addr) (exec (.sramCorrection t addr) s) := by
  change Runs (inSram addr) (execSramCorrection t addr s)
  unfold execSramCorrection
  split
  · exact .next _
  next h => exact .stop (Bool.eq_false_iff.2 h)

theorem mramVerifyFailure_runs (t kind addr image : Nat) (s : State) :
    Runs (decide (0x10000000 ≤ addr) && decide (addr < 0x11000000) && decide (kind < 3)) (exec (.mramVerifyFailure t kind addr image) s) := by
  change Runs _ (execMramVerifyFailure t kind addr image s)
  unfold execMramVerifyFailure
  dsimp only
  by_cases h : addr < 0x10000000 ∨ 0x11000000 ≤ addr ∨ 3 ≤ kind
  · rw [if_pos h]
    exact .stop (by simp; omega)
  · rw [if_neg h]
    repeat' split
    all_goals exact .next _

/-! ### Every command -/

/-- A host access or a happening of a unit that exists answers a next state. -/
theorem happening_runs {i : Instr} (h : packetOf i = none) (s : State) : Runs i.wellFormed (exec i s) := by
  cases i
  case doorbellWrite t m n v => exact .within of_decide_eq_true _
  case intStatusWrite t m v => exact .next _
  case timeLoRead t m => exact .next _
  case registerWrite t m addr v => exact .next _
  case hspiWrite t addr data => exact .next _
  case hspiQuadWrite t addr data => exact .next _
  case hspiRead t addr n => exact .next _
  case hspiQuadRead t addr n => exact .next _
  case escapeWrite t frame => exact .next _
  case escapeRead t n => exact .next _
  case unknownInstruction t b => exact .next _
  case hostUartPacket t frame => exact .next _
  case heldReply t n => exact .within of_decide_eq_true _
  case firewallViolation t m addr write cores => exact .within of_decide_eq_true _
  case frozenD10Restart t => exact .next _
  case powerOnReset t o => exact .next _
  case supplyReset t rail uv held low v => exact .within of_decide_eq_true _
  case vddHvNotGood o => exact .next _
  case vddHvGood o => exact .next _
  case resetHoldEnd t => exact .next _
  case sramWipeComplete t => exact .next _
  case imageVerifyComplete t kind slot verdict version security => exact imageVerifyComplete_runs t kind slot verdict version security s
  case pllLockTimeout t => exact .next _
  case converterCalibrationComplete t => exact .next _
  case sheafImageLoad t sheaf block => exact .next _
  case startUpTestsComplete t convs sars cells outs => exact .next _
  case ready t => exact .next _
  case startModeAttempt t => exact .next _
  case buttonReset t => exact .next _
  case resetButtonStuck t => exact .next _
  case resetButtonFreed t => exact .next _
  case resetBtnReady t => exact .next _
  case heartbeatLost t => exact .next _
  case supervisorFault t => exact .next _
  case unrecoverableFault t unit => exact .within of_decide_eq_true _
  case domainFault t d => exact .next _
  case domainRestarted t d => exact .next _
  case safeStopRampEnd t => exact .next _
  case modeEntered t => exact .next _
  case modeAborted t => exact .next _
  case resynchronisationComplete t => exact .next _
  case safetyTick t o btnLow => exact .next _
  case baseTick t o => exact .next _
  case passVote t subject unit claims late clocks => exact passVote_runs t subject unit claims late clocks s
  case voteLate t core r => exact .within of_decide_eq_true _
  case sampleTimeout t ain out => exact .within of_decide_eq_true _
  case channelFault t ch => exact .within of_decide_eq_true _
  case rateOverrun t g => exact .within of_decide_eq_true _
  case coreDomainOff t core => exact .within of_decide_eq_true _
  case coreSpliceTransfer t differed => exact .next _
  case hitchSwapped t g => exact .within of_decide_eq_true _
  case trackerLocked t => exact .next _
  case trackerAcquiring t => exact .next _
  case reacqClear t => exact .next _
  case linkDelivery t => exact .next _
  case classReturn t => exact .next _
  case rtTrip t => exact .next _
  case rtRestart t => exact .next _
  case restartTimeout t => exact .next _
  case enterServiceComplete t => exact .next _
  case dclChopperFault t => exact .next _
  case dclRelease t => exact .next _
  case dclUndervoltage t => exact .next _
  case awnChip t => exact .next _
  case awnEvaluation t angle => exact .next _
  case awnEpoch t => exact .next _
  case islDetected t => exact .next _
  case peerPcc t m => exact .within of_decide_eq_true _
  case autoScanDwell t m => exact .within of_decide_eq_true _
  case rocofTrip t => exact .next _
  case pvPortStart t p => exact .within of_decide_eq_true _
  case localTracker t p slope v w => exact .within of_decide_eq_true _
  case mapHalving t p => exact .within of_decide_eq_true _
  case globalSearch t mean => exact .next _
  case pvSweep t p mean deficit => exact .within of_decide_eq_true _
  case pvReferencePost t => exact .next _
  case curtailmentUpdate t => exact .next _
  case bmsNodeReport t bus ident data => exact .within of_decide_eq_true _
  case bmsNodeStale t n => exact .within of_decide_eq_true _
  case bmsNodeDeparted t n => exact .within of_decide_eq_true _
  case bmsStatusSend t bus => exact .within of_decide_eq_true _
  case loadEvent t leg peak => exact .within of_decide_eq_true _
  case bootPrecharge t leg => exact .within of_decide_eq_true _
  case legTestEnd t leg => exact .within of_decide_eq_true _
  case pipelineSample t a code o => exact .within of_decide_eq_true _
  case senseSuspect t check unit => exact senseSuspect_runs t check unit s
  case senseVerdict t a b d => exact senseVerdict_runs t a b d s
  case converterPowerOff t c => exact .within of_decide_eq_true _
  case checkSuspensionEnd t check unit => exact checkSuspensionEnd_runs t check unit s
  case shadowVisit t offset gain => exact shadowVisit_runs t offset gain s
  case sarStart t u reqs => exact .within of_decide_eq_true _
  case sarResult t u code => exact .within of_decide_eq_true _
  case testDacStep t => exact .next _
  case sensePath t diffs => exact .next _
  case calibrationCorrection t gains => exact .next _
  case fltAsserted t n => exact .within of_decide_eq_true _
  case fltReady t n => exact .within of_decide_eq_true _
  case comparatorAsserted t n => exact .within of_decide_eq_true _
  case hardCellAsserted t n => exact .within of_decide_eq_true _
  case monitorActs t n => exact .within of_decide_eq_true _
  case softStep t g => exact .within of_decide_eq_true _
  case innerStep t g => exact .within of_decide_eq_true _
  case protRetry t g => exact .within of_decide_eq_true _
  case triesClear t g => exact .within of_decide_eq_true _
  case partnerSuspect t n => exact .within of_decide_eq_true _
  case cmpSelfTestStep t cellBad standBad => exact cmpSelfTestStep_runs t cellBad standBad s
  case cellPowerOff t k => exact .within of_decide_eq_true _
  case cmpTestComplete t codes => exact .next _
  case recTimeTrigger t k => exact .within of_decide_eq_true _
  case recComplete t => exact recComplete_runs t s
  case persistenceHalving t m => exact .within of_decide_eq_true _
  case readoutRecord t n => exact readoutRecord_runs t n s
  case skewCalComplete t => exact skewCalComplete_runs t s
  case safetyInputSample t levels => exact .next _
  case testPulse t src => exact .within of_decide_eq_true _
  case discrepancyFault t k => exact .within of_decide_eq_true _
  case outputReadback t x pinMv hvMv uA => exact .within of_decide_eq_true _
  case outputFault t x => exact .within of_decide_eq_true _
  case lightTestStep t x pinMv hvMv uA => exact .within of_decide_eq_true _
  case feedbackTimeout t x => exact .within of_decide_eq_true _
  case outputTest t => exact .next _
  case darkTestStep t x pinMv hvMv uA => exact .within of_decide_eq_true _
  case vrelPdu t ip port pdu => exact .next _
  case vrelTimeout t c => exact .within of_decide_eq_true _
  case vrelProduce t c => exact .within of_decide_eq_true _
  case safetySessionTimeout t => exact .next _
  case ethernetFrame t port frame beyond => exact .within of_decide_eq_true _
  case announce t src counter payload => exact .within of_decide_eq_true _
  case dispatch t src payload => exact .within of_decide_eq_true _
  case command t src pkt => exact .within of_decide_eq_true _
  case canFrame t c ident fd ext brs remote data => exact .within of_decide_eq_true _
  case uartReceive t data => exact .next _
  case frameTransmit t n => exact .within of_decide_eq_true _
  case netLink t port isUp => exact .within of_decide_eq_true _
  case ptpTimeout t => exact .next _
  case announceSend t => exact .next _
  case peerAgedOut t addr => exact .next _
  case dispatchExpiry t => exact .next _
  case canBusOff t c => exact .within of_decide_eq_true _
  case canBusRecovered t c => exact .within of_decide_eq_true _
  case networkSessionTimeout t addr => exact .next _
  case coolPrechargeEnd t d => exact .within of_decide_eq_true _
  case alignEnd t d => exact .within of_decide_eq_true _
  case commutation t d => exact .within of_decide_eq_true _
  case backEmfCrossing t d => exact .within of_decide_eq_true _
  case crossingMiss t d => exact .within of_decide_eq_true _
  case coastTimeout t d => exact .within of_decide_eq_true _
  case coolPwmPeriod t d iU iV iW mean => exact .within of_decide_eq_true _
  case coolOvercurrent t d => exact .within of_decide_eq_true _
  case bootstrapLockout t d phase => exact .within of_decide_eq_true _
  case coolHourly t d up => exact .within of_decide_eq_true _
  case lockWindow t l diff roKhz => exact .within of_decide_eq_true _
  case clkSwitch t err0 err1 => exact .next _
  case relockTimeout t l => exact .within of_decide_eq_true _
  case xrefAbsent t => exact .next _
  case xrefPresent t => exact .next _
  case missingEdge t k => exact .within of_decide_eq_true _
  case clkRegion t ctl iface => exact .next _
  case scrub t hits => exact scrub_runs t hits s
  case sramDoubleBitError t addr => exact sramDoubleBitError_runs t addr s
  case mramVerifyFailure t kind addr image => exact mramVerifyFailure_runs t kind addr image s
  case copyPointerSwitch t image => exact .within of_decide_eq_true _
  case blockImageCommit t => exact .next _
  case healthCommit t => exact .next _
  case lcEraseComplete t => exact .next _
  case vlsThreshold t vqs vls => exact .next _
  case huskTimeLost o => exact .next _
  case d0Reset o => exact .next _
  case huskTeg t on voc => exact .next _
  case tegMeasure t voc uw => exact .next _
  case rtcWrite o => exact .next _
  case burstComplete t => exact .next _
  case sealedBlockWrite t => exact .next _
  case unknownOpcodePacket src t bytes valid => exact unknownOpcodePacket_runs src t bytes valid s
  case safetyOutputOvercurrent t x => exact .within of_decide_eq_true _
  case comparatorReleased t n => exact .within of_decide_eq_true _
  case jtagInstruction t kind pins => exact .within of_decide_eq_true _
  case vddIoGood o => exact .next _
  case d0PowerOn t vqs vls => exact .next _
  case sramCorrection t addr => exact sramCorrection_runs t addr s
  all_goals cases h

theorem exec_runs (i : Instr) (s : State) : Runs i.wellFormed (exec i s) := by
  cases h : packetOf i with
  | none => exact happening_runs h s
  | some cp => rw [wellFormed_packetOf h, exec_packetOf s h]; exact runCommand_runs cp.1 cp.2 s

/-! ### The obligations about the step -/

/-- Settles O1: a step looks at the front of its queue. -/
theorem stepRunsTheFrontCommand : Obligations.StepRunsTheFrontCommand := fun _ _ _ => rfl

/-- Settles O2: every command runs, or stops at a unit that does not exist. -/
theorem noCommandIsRefused : Obligations.NoCommandIsRefused := fun i s => (exec_runs i s).imp_right And.right

/-- Settles O3: a well-formed command names units that exist. -/
theorem wellFormedCommandsComplete : Obligations.WellFormedCommandsComplete := fun i s h => (exec_runs i s).completes h

/-- Settles O4: no ring beyond the submission rings is a source (R72). -/
theorem missingSourceStops : Obligations.MissingSourceStops := by
  intro i c p s hi hsrc
  have hno : sourceOk p.src = false := by
    obtain ⟨n, hn, h8⟩ | ⟨k, hk, h4⟩ := hsrc
    · rw [hn]; exact decide_eq_false (by omega)
    · rw [hk]; exact decide_eq_false (by omega)
  rw [exec_packetOf s hi]
  exact if_pos (by rw [hno]; rfl)

/-- Settles O6: the reset state, value by value. -/
theorem resetHoldsTheGivenValues : Obligations.ResetHoldsTheGivenValues := by
  unfold Obligations.ResetHoldsTheGivenValues
  decide

end Sys2Proof.Machine
end

section
/-! SUPPORT. A device reset, the framing of a reply, and packets that the command processor does not take (R48, R51, R61, R73 to R76, R83). -/

namespace Sys2Proof.Machine

/-! ### A device reset (R48) -/

/-- A device reset is the reset state with what it keeps, its cause counted and the health record committed. -/
theorem deviceReset_eq (cause : Nat) (s : State) : ∃ (m : MemSys) (c : Cool),
    deviceReset cause s = { afterReset cause s with mem := { (afterReset cause s).mem with health := m.health, healthStored := m.healthStored }, cool := c } :=
  ⟨((afterReset cause s).count cause).commitHealth.mem, _, rfl⟩

/-- The safety outputs of the reset state are open (R48). -/
theorem reset_outs_open (x : Nat) : (Safety.reset.outs.getD x SOut.reset).soh = false ∧ (Safety.reset.outs.getD x SOut.reset).sol = false := by
  have h : Safety.reset.outs.getD x SOut.reset = SOut.reset := by
    by_cases hx : x < 4
    · interval_cases x <;> rfl
    · exact List.getD_eq_default _ _ (by have : Safety.reset.outs.length = 4 := rfl; omega)
  rw [h]
  exact ⟨rfl, rfl⟩

/-- Settles O5: the reset state with the parts that a reset keeps. -/
theorem deviceResetScope : Obligations.DeviceResetScope := by
  intro cause s
  obtain ⟨m, c, h⟩ := deviceReset_eq cause s
  simp only [h]
  refine ⟨rfl, rfl, rfl, rfl, rfl, rfl, rfl, rfl, rfl, ?_, rfl, rfl, rfl, rfl, rfl, rfl, ?_⟩
  · exact fun _ => rfl
  · exact fun x _ => reset_outs_open x

/-! ### The framing of a reply (R61) -/

theorem le_one (v : Nat) : le 1 v = [BitVec.ofNat 8 (v % 256)] := rfl

theorem le_two (v : Nat) : le 2 v = [BitVec.ofNat 8 (v % 256), BitVec.ofNat 8 (v / 256 % 256)] := rfl

/-- Bit 15 of a smaller number set (R61). -/
theorem or_bit15 {n : Nat} (h : n < 2 ^ 15) : n ||| 0x8000 = n + 2 ^ 15 := by
  have := Nat.two_pow_add_eq_or_of_lt h 1
  rw [Nat.lor_comm, Nat.add_comm]
  simpa using this.symm

/-- A reply is its header, its data and its CRC. -/
theorem replyBytes_eq (op st detail fl : Nat) (tag : BitVec 16) (data : List Byte) : ∃ h : List Byte,
    h = le 2 (op ||| 0x8000) ++ le 2 tag.toNat ++ le 2 data.length ++ le 1 fl ++ [1] ++ le 2 st ++ le 2 detail ∧
    replyBytes op tag fl st detail data = (h ++ data) ++ le 4 (crc32c (h ++ data)) := ⟨_, rfl, rfl⟩

/-- Settles O13: the fields of the header stand at their places, the data and the CRC-32C after it. -/
theorem replyFraming : Obligations.ReplyFraming := by
  intro op st detail fl tag data hop hst hdetail hfl hlen
  obtain ⟨h, hh, hr⟩ := replyBytes_eq op st detail fl tag data
  have h12 : h.length = 12 := by simp [hh]
  have h12d : (h ++ data).length = 12 + data.length := by simp [h12]
  have htag := tag.isLt
  simp only [hr]
  refine ⟨by simp [h12]; omega, ?_, ?_, ?_, ?_, ?_, ?_, ?_, ?_, ?_⟩
  · simp [hh, le_one, le_two, or_bit15 hop, u16, uN, u8]; omega
  · simp [hh, le_one, le_two, u16, uN, u8]; omega
  · simp [hh, le_one, le_two, u16, uN, u8]; omega
  · simp [hh, le_one, le_two, u8]; omega
  · simp [hh, le_one, le_two, u8]
  · simp [hh, le_one, le_two, u16, uN, u8]; omega
  · simp [hh, le_one, le_two, u16, uN, u8]; omega
  · have : ((h ++ data ++ le 4 (crc32c (h ++ data))).drop 12).take data.length = data := by
      rw [List.append_assoc, ← h12, List.drop_left, List.take_left]
    simp only [slice, this, Nat.sub_self, List.replicate_zero, List.append_nil]
  · rw [← h12d, List.drop_left, List.take_left]

/-! ### Packets not taken (R29, R51, R74, R76, R83) -/

/-- A ring before Ready, or with no descriptor exposed, is not looked at (R51, R74). -/
theorem passHeads_idle {s : State} {n : Nat} (h : s.sys.ready = false ∨ (s.ring n).devIndex = (s.ring n).hostIndex) (t : Nat) :
    passHeads t n s = s := by
  obtain h | h := h
  · exact if_neg (by simp [h])
  · exact passHeads_inOrder (fun hne => absurd h hne) t

/-- Where its ring is not looked at, a packet arrives at its time and nothing else happens. -/
theorem arrived_idle {p : Packet} {s : State} {n : Nat} (hn : ringOf p.src = some n)
    (h : s.sys.ready = false ∨ (s.ring n).devIndex = (s.ring n).hostIndex) : arrived p s = s.advance p.t := by
  unfold arrived
  cases hs : p.src with
  | hostRing k => rw [hs] at hn; cases hn; exact passHeads_idle (s := s.advance p.t) h _
  | appRing k => rw [hs] at hn; cases hn; exact passHeads_idle (s := s.advance p.t) h _
  | net a => rfl
  | escape => rfl

/-- The reasons for which a packet on a ring is not taken. -/
theorem takes_ring_false {b : List Byte} {p : Packet} {s : State} {n : Nat} (hn : ringOf p.src = some n)
    (h : s.sys.ready = false ∨ (s.ring n).devIndex = (s.ring n).hostIndex ∨ (∃ h ∈ s.cmd.held, some h.ring = replyRing p.src) ∨
      (48 ≤ n ∧ s.sys.domains.getD 10 0 ≠ 2)) : takes b p s = false := by
  unfold takes
  rw [hn]
  obtain h | h | ⟨x, hx, hr⟩ | ⟨h48, hd⟩ := h
  · simp [h]
  · simp [h]
  · have : (s.cmd.held.any fun h => some h.ring == replyRing p.src) = true := List.any_eq_true.2 ⟨x, hx, by simp [hr]⟩
    simp [this]
  · have h1 : decide (n < 48) = false := decide_eq_false (by omega)
    have h2 : (s.sys.domains.getD 10 0 == 2) = false := by simpa using hd
    simp only [h1, h2, Bool.or_self, Bool.and_false]

/-- A packet that is not taken arrives, and that is all. -/
theorem runCommand_untaken {c : CmdSpec} {p : Packet} {s : State} (hs : sourceOk p.src = true)
    (ht : takes (packetBytes c.opcode p) p (arrived p s) = false) : runCommand c p s = .next (arrived p s) := by
  obtain ⟨hno, _⟩ | ⟨⟨_, hyes⟩, _⟩ | ⟨_, _, h⟩ := runCommand_cases c p s
  · rw [hs] at hno; cases hno
  · rw [ht] at hyes; cases hyes
  · exact h

/-- Settles O12: a packet that is not taken arrives and stays. -/
theorem untakenPacketsStay : Obligations.UntakenPacketsStay := by
  refine ⟨fun i c p s n hi hs hn hwait => ?_, fun i c p s hi hsrc hwait => ?_⟩
  · have ht : takes (packetBytes c.opcode p) p (arrived p s) = false := by
      refine takes_ring_false hn ?_
      obtain h | h | h | h := hwait
      · exact .inl (by simpa using h)
      · exact .inr (.inl (by rw [arrived_idle hn (.inr h)]; exact h))
      · exact .inr (.inr (.inl (by simpa using h)))
      · exact .inr (.inr (.inr (by simpa using h)))
    have hnext := (exec_packetOf s hi).trans (runCommand_untaken hs ht)
    refine ⟨hnext, fun hidle => ?_⟩
    rw [hnext]
    obtain h | h | h := hidle
    · rw [arrived_inOrder h]
    · rw [arrived_idle hn (.inl h)]
    · rw [arrived_idle hn (.inr h)]
  · have ha : arrived p s = s.advance p.t := by unfold arrived; rw [hsrc]
    have ht : takes (packetBytes c.opcode p) p (arrived p s) = false := by
      have : takes (packetBytes c.opcode p) p (arrived p s) = (s.esc.on && s.esc.busy && !s.esc.replyReady && s.esc.frame == packetBytes c.opcode p) := by
        rw [ha]; unfold takes; rw [hsrc]; rfl
      rw [this]
      obtain h | h | h | h := hwait <;> simp [h]
    rw [exec_packetOf s hi, runCommand_untaken (by rw [hsrc]; rfl) ht, ha]

/-! ### A packet of a ring whose index lies beyond its size -/

/-- Ready, ring 0 with one descriptor, both of its indexes 1 and nothing exposed. -/
def indexBeyondRing : State :=
  { (State.reset.modRing 0 fun r => { r with base := 0x20000000, k := 0, devIndex := 1, hostIndex := 1 }) with
    sys := { State.reset.sys with ready := true } }

/-- A packet of ring 0 without payload. -/
def ringZeroPacket : Packet := { src := .hostRing 0, t := 0, tag := 0, flags := 0, session := 0, payload := [] }

set_option maxRecDepth 100000 in
/-- Taking it wraps DEV_INDEX to 0, and the descriptor there, which is not executed, is marked DONE and ERROR. -/
theorem seen_indexBeyondRing : Mem.read (seen ringZeroPacket indexBeyondRing).mem.sram 0x2000000C = 3 := by decide

/-- Refutes O8: with both indexes of a ring equal and beyond its size nothing is exposed and the packet's span is empty, but DEV_INDEX wraps
and the descriptor that then stands at the head is passed over. -/
theorem not_takingAPacketStoresOneByte : ¬ Obligations.TakingAPacketStoresOneByte := by
  intro h
  have hin : InOrder ringZeroPacket indexBeyondRing := by
    intro n hn i hi
    cases hn
    cases hi
  have hread := (h ringZeroPacket indexBeyondRing 0x2000000C (.inr ⟨hin, List.not_mem_nil⟩)).1
  rw [seen_indexBeyondRing] at hread
  revert hread
  decide

end Sys2Proof.Machine
end

section
/-! SUPPORT. System commands and SYS_MODE (R91 to R94, R98 to R101). -/

namespace Sys2Proof.Machine

/-- An updated element of a list, its new value given by the old one. -/
theorem modRing_eq (n : Nat) (f : Ring → Ring) (s : State) : s.modRing n f = { s with rings := upd s.rings n fun _ => f (s.ring n) } := by
  unfold State.modRing State.ring
  rw [upd_eq]

/-- A reset asked for with every leg off and no ramp running is only noted (R48). -/
theorem requestReset_off {s : State} (ho : s.legsOff = true) (hr : s.modes.ramping = false) (t cause : Nat) :
    requestReset t cause s =
      { s with sys := { s.sys with resetPending := if s.sys.resetPending = 0 then cause else min s.sys.resetPending cause } } :=
  if_pos ⟨ho, by simpa [State.modSys] using hr⟩

/-- A master other than the recorder is unfrozen and the event posted (R89). -/
theorem unfreeze_of_ne_recorder {m : Nat} (h : m ≠ 2) (t by' : Nat) (s : State) :
    unfreeze t m by' s = State.post t (ev 0x0191 m [BitVec.ofNat 8 by'])
      { s with host := { s.host with frozen := s.host.frozen &&& ~~~ (BitVec.ofNat 7 (2 ^ m)), stalled := s.host.stalled.set m 0 } } := by
  unfold unfreeze
  dsimp only
  rw [if_neg fun hm => h hm.1]
  rfl

/-- With no safety session unlocked, sessions that end change the list of sessions alone (R70). -/
theorem dropSessions_locked {s : State} (h : s.safety.unlocked = none) (gone : Session → Bool) :
    s.dropSessions gone = { s with cmd := { s.cmd with sessions := s.cmd.sessions.filter fun x => !gone x } } := by
  unfold State.dropSessions
  rw [h]
  rfl

/-- Accepted system commands. -/
theorem systemPackets (p : Packet) (s : State) :
    let u := begun p s
    let b := p.payload
    let r := u.ring (u8 b 0)
    Answers (.sysInfo p) specSysInfo p s (infoReply u) ∧
    Answers (.sysStatus p) specSysStatus p s (statusReply u) ∧
    (u.legsOff = true → u.modes.ramping = false →
      Effects (.sysReset p) specSysReset p s .ok []
        { u with sys := { u.sys with resetPending := if u.sys.resetPending = 0 then 4 else min u.sys.resetPending 4 } }) ∧
    Effects (.sysReset p) specSysReset p s .ok [] (requestReset p.t 4 u) ∧
    (u8 b 0 ≠ 2 → Effects (.sysUnfreeze p) specSysUnfreeze p s .ok []
      (State.post p.t (ev 0x0191 (u8 b 0) [BitVec.ofNat 8 (issuer p.src)])
        { u with host := { u.host with
            frozen := u.host.frozen &&& ~~~ (BitVec.ofNat 7 (2 ^ u8 b 0)), stalled := u.host.stalled.set (u8 b 0) 0 } })) ∧
    Effects (.sysUnfreeze p) specSysUnfreeze p s .ok [] (unfreeze p.t (u8 b 0) (issuer p.src) u) ∧
    Effects (.ringConfig p) specRingConfig p s .ok []
      { u with rings := upd u.rings (u8 b 0) fun _ => ringSet b r } ∧
    (∀ src, p.src.sid = some src → Effects (.sessionOpen p) specSessionOpen p s .ok (le 4 u.sessionValue.toNat) (openSession src u)) ∧
    (u.safety.unlocked = none → Effects (.sessionClose p) specSessionClose p s .ok []
      { u with cmd := { u.cmd with sessions := u.cmd.sessions.filter fun x => !(some x.src == p.src.sid && x.value == p.session) } }) ∧
    Effects (.sessionClose p) specSessionClose p s .ok [] (u.dropSessions fun x => some x.src == p.src.sid && x.value == p.session) := by
  refine ⟨effects_of_run rfl rfl, effects_of_run rfl rfl, fun ho hr => ?_, effects_of_run rfl rfl, fun h => ?_, effects_of_run rfl rfl, ?_,
    fun src h => ?_, fun h => ?_, effects_of_run rfl rfl⟩
  · rw [← requestReset_off ho hr p.t 4]
    exact effects_of_run rfl rfl
  · rw [← unfreeze_of_ne_recorder h]
    exact effects_of_run rfl rfl
  · rw [← modRing_eq]
    exact effects_of_run rfl rfl
  · exact effects_of_run rfl (by simp only [specSessionOpen, h])
  · rw [← dropSessions_locked h fun x => some x.src == p.src.sid && x.value == p.session]
    exact effects_of_run rfl rfl

/-- The effect of SYS_MODE on the state that its transition starts from: what waited for another mode is dropped (R98). -/
def modeAsked (u : State) : State := { u with modes := { u.modes with startWanted := false, restartArmed := false, reconnect := 0 } }

/-- The same with the start mode stored (R100). -/
def modeStored (target : Nat) (u : State) : State :=
  noteSettings { modeAsked u with modes := { (modeAsked u).modes with startMode := target } }

/-- What SYS_MODE does without STORE and with it, and the reply it gives where the mode stands already and where it does not. -/
theorem sysMode_run (p : Packet) (u : State) :
    specSysMode.run p u =
      let target := u8 p.payload 0
      let ms := u.rampOf (u16 p.payload 4)
      let still : Bool := target == u.modes.mode && u.modes.trans.isNone
      { st := commandMode p.t target ms (if u8 p.payload 2 = 1 then modeStored target u else modeAsked u)
        data := [BitVec.ofNat 8 u.modes.mode, BitVec.ofNat 8 target] ++ le 2 (if still then 0 else u.expectedMs target ms)
        status := if still then .ok else .okDeferred
        keep := if u8 p.payload 2 = 1 ∧ p.ack = true then some sendStored else none } := by
  by_cases h : u8 p.payload 2 = 1
  · simp [specSysMode, modeStored, modeAsked, State.modModes, h]
  · simp [specSysMode, modeAsked, State.modModes, h]

/-- The mode asked for stands already (R98). -/
theorem still_true {u : State} {m : Nat} (hm : u.modes.mode = m) (ht : u.modes.trans = none) :
    (m == u.modes.mode && u.modes.trans.isNone) = true := by simp [hm, ht]

theorem still_false {u : State} {m : Nat} (h : u.modes.mode ≠ m ∨ u.modes.trans ≠ none) :
    (m == u.modes.mode && u.modes.trans.isNone) = false := by
  obtain h | h := h
  · simp [Ne.symm h]
  · cases ht : u.modes.trans with
    | none => exact absurd ht h
    | some _ => simp

/-- Settles O15: the effects of the system commands, and SYS_MODE's with and without STORE and ACK_ON_DURABLE. -/
theorem systemAndModePackets : Obligations.SystemAndModePackets := by
  refine ⟨systemPackets, fun p s => ⟨fun hb hm ht => ?_, fun hb h => ?_, fun hb ha hm ht => ?_, fun hb ha h => ?_,
    fun hb ha hm ht => ?_, fun hb ha h => ?_⟩⟩
  · exact effects_of_run rfl (by rw [sysMode_run]; simp only [still_true hm ht, hb]; rfl)
  · exact effects_of_run rfl (by rw [sysMode_run]; simp only [still_false h, hb]; rfl)
  · exact effects_of_run rfl (by rw [sysMode_run]; simp only [still_true hm ht, hb, ha]; rfl)
  · exact effects_of_run rfl (by rw [sysMode_run]; simp only [still_false h, hb, ha]; rfl)
  · exact effectsLater_of_run rfl (by rw [sysMode_run]; simp only [still_true hm ht, hb, ha]; rfl)
  · exact effectsLater_of_run rfl (by rw [sysMode_run]; simp only [still_false h, hb, ha]; rfl)

end Sys2Proof.Machine
end

section
/-! SUPPORT. Sheaf table commands, at once and at a channel's boundary (R137, R139, R148 to R150). -/

namespace Sys2Proof.Machine

/-- A channel changed, its new value given by the old one. -/
theorem modChan_eq (n : Nat) (f : Chan → Chan) (s : State) :
    s.modChan n f = { s with eng := { s.eng with chans := upd s.eng.chans n fun _ => f (s.chan n) } } := by
  unfold State.modChan State.modEng State.chan
  dsimp only
  rw [← upd_eq]

/-- A template written stands in SRAM and in the engine (R149). -/
theorem writeTemplate_eq (i : Nat) (pl : List Byte) (s : State) :
    writeTemplate i pl s =
      let t := fit 0x180 (pl.drop 4) ++ le 1 (u8 pl 1) ++ zeros 0x7F
      { s with
        mem := { s.mem with sram := Mem.writeN s.mem.sram (0x20340000 + i * 0x200) t }
        eng := { s.eng with templates := Mem.writeN s.eng.templates (i * 0x200) t } } := by
  unfold writeTemplate State.store
  dsimp only
  rw [if_neg (by omega)]
  rfl

/-- The sheaf commands that act at once. -/
theorem sheafImmediatePackets (p : Packet) (s : State) :
    let u := begun p s
    let b := p.payload
    let n := u16 b 0
    let c := u.chan n
    let counted : Chan := { c with passes := 0, limCount := 0, satCount := 0, evtSupp := 0, invCount := 0, disCount := 0 }
    let unflagged (c : Chan) : Chan := { c with faulted := false, overrun := false, invalid := false, lim := false, sat := false }
    let kept := if bit (u8 b 2) 0 then counted else c
    let cleared := if bit (u8 b 2) 1 then unflagged kept else kept
    Answers (.sheafEntryRead p) specSheafEntryRead p s
      (Mem.readN u.eng.run (n * 0x400) 0x380 ++ c.stateBytes ++ c.statBytes) ∧
    Effects (.sheafStats p) specSheafStats p s .ok c.statBytes
      { u with eng := { u.eng with chans := upd u.eng.chans n fun _ => cleared } } ∧
    (let req := if u64 b 4 = 0 then p.t else u64 b 4
     let bd := (u.swapBoundary (u8 b 0) req p.t).getD 0
     Effects (.sheafHitchArm p) specSheafHitchArm p s .okDeferred (le 8 bd) (arm (u8 b 0) req bd u)) ∧
    Effects (.sheafHitchCancel p) specSheafHitchCancel p s .ok [] (disarm (u8 b 0) u) ∧
    (let t := fit 0x180 (b.drop 4) ++ le 1 (u8 b 1) ++ zeros 0x7F
     Effects (.sheafTemplateWrite p) specSheafTemplateWrite p s .ok []
       { u with
         mem := { u.mem with sram := Mem.writeN u.mem.sram (0x20340000 + u8 b 0 * 0x200) t }
         eng := { u.eng with templates := Mem.writeN u.eng.templates (u8 b 0 * 0x200) t } }) ∧
    Effects (.sheafCommit p) specSheafCommit p s .ok (le 4 (crc32c (sheafImage u)))
      { u with eng := { u.eng with sheafCommit := true, commitImg := sheafStored u } } := by
  refine ⟨effects_of_run rfl ?_, effects_of_run rfl ?_, effects_of_run rfl rfl, effects_of_run rfl rfl, effects_of_run rfl ?_,
    effects_of_run rfl rfl⟩
  · simp only [specSheafEntryRead, entryBytes, entryImg, entryAt, Nat.add_zero, chOf]
  · simp only [specSheafStats, modChan_eq]; rfl
  · simp only [specSheafTemplateWrite, writeTemplate_eq]

/-- The reply of a command kept with the channel whose boundary it waits for (R137). -/
def keepReply (n : Nat) (d : DurReply) (s : State) : State := s.modChan n fun x => { x with replies := x.replies ++ [d] }

/-- A command that changes a channel's entry as v has it: at once on a channel that does not run, else at its next boundary (R137). -/
def AtBoundary (p : Packet) (s : State) (n : Nat) (i : Instr) (c : CmdSpec) (v : State) : Prop :=
  ((begun p s).live n = false → Effects i c p s .ok [] (effectNow n (v.modChan n fun x => { x with pending := true }))) ∧
  ((begun p s).live n = true → EffectsLater i c p s .ok [] (keepReply n) (v.modChan n fun x => { x with pending := true }))

/-- An opcode whose effect is placed at a channel's boundary acts at the channel's boundary. -/
theorem atBoundary_of_run {p : Packet} {s v : State} {n : Nat} {i : Instr} {c : CmdSpec} (hi : exec i s = runCommand c p s)
    (hrun : c.run p (begun p s) = { st := placed ((begun p s).live n) n v, keep := keepOn ((begun p s).live n) n }) : AtBoundary p s n i c v := by
  refine ⟨fun h => effects_of_run hi ?_, fun h => effectsLater_of_run hi ?_⟩
  · rw [hrun, h]; rfl
  · rw [hrun, h]; rfl

/-- The channel of SHEAF_ENABLE switched off: it stops after the pass under way (R150). -/
def switchedOff (n : Nat) (u : State) : State := disableChan n (u.modChan n fun c => { c with pendStart := false, pendRun := false })

/-- The channel of SHEAF_ENABLE switched on: its group runs again (R148). -/
def switchedOn (n : Nat) (reset : Bool) (u : State) : State :=
  ((writeEnable n true u).modChan n fun c => { c with pendStart := true, pendReset := c.pendReset || reset }).modEng fun e =>
    { e with groups := upd e.groups (chGroup e.run n) fun g => { g with stopped := false } }

theorem sheafEnable_on (n : Nat) (reset : Bool) (s : State) :
    sheafEnable n true reset s = { st := placed (s.live n) n (switchedOn n reset s), keep := keepOn (s.live n) n } := rfl

theorem sheafEnable_off {n : Nat} {s : State} (h : s.enabled n = true) (reset : Bool) :
    sheafEnable n false reset s =
      { st := placed ((switchedOff n s).chan n).pendStop n (writeEnable n false (switchedOff n s)), keep := keepOn ((switchedOff n s).chan n).pendStop n } := by
  unfold sheafEnable
  rw [if_neg Bool.false_ne_true, if_pos h]
  rfl

theorem sheafEnable_already_off {n : Nat} {s : State} (h : s.enabled n = false) (reset : Bool) : sheafEnable n false reset s = { st := s } := by
  unfold sheafEnable
  rw [if_neg Bool.false_ne_true, if_neg (by simp [h])]

/-- The run of SHEAF_ENABLE with ENABLE set and with it clear. -/
theorem sheafEnable_run (p : Packet) (u : State) (on : Bool) (h : bit (u8 p.payload 2) 0 = on) :
    specSheafEnable.run p u = sheafEnable (u16 p.payload 0) on (bit (u8 p.payload 2) 1) u := by
  rw [← h]; rfl

/-- The sheaf commands whose effect waits for a channel's boundary. -/
theorem sheafBoundaryPackets (p : Packet) (s : State) :
    let u := begun p s
    let b := p.payload
    let n := u16 b 0
    AtBoundary p s n (.sheafEntryWrite p) specSheafEntryWrite
      ((writeImg n (slice b 4 0x380) u).modChan n fun c => { c with pendReset := c.pendReset || bit (u8 b 2) 0 }) ∧
    AtBoundary p s n (.sheafCoefStage p) specSheafCoefStage (placeEntry n (bankAt u n false (u8 b 2)) (b.drop 4) u) ∧
    AtBoundary p s n (.sheafCoefLive p) specSheafCoefLive (placeEntry n (bankAt u n true (u8 b 2)) (slice b 4 2) u) ∧
    AtBoundary p s n (.sheafLimitsSet p) specSheafLimitsSet (placeEntry n (0x300 + 4 * u8 b 2) (b.drop 4) u) ∧
    AtBoundary p s n (.sheafMapSet p) specSheafMapSet (placeEntry n ((if u8 b 2 = 0 then 0x40 else 0x340) + 4 * u8 b 3) (b.drop 8) u) ∧
    (bit (u8 b 2) 0 = true → AtBoundary p s n (.sheafEnable p) specSheafEnable
      (let v := (writeEnable n true u).modChan n fun c => { c with pendStart := true, pendReset := c.pendReset || bit (u8 b 2) 1 }
       v.modEng fun e => { e with groups := upd e.groups (chGroup e.run n) fun g => { g with stopped := false } })) ∧
    (let v := switchedOff n u
     let w := (writeEnable n false v).modChan n fun x => { x with pending := true }
     bit (u8 b 2) 0 = false → u.enabled n = true →
      ((v.chan n).pendStop = false → Effects (.sheafEnable p) specSheafEnable p s .ok [] (effectNow n w)) ∧
      ((v.chan n).pendStop = true → EffectsLater (.sheafEnable p) specSheafEnable p s .ok [] (keepReply n) w)) ∧
    (bit (u8 b 2) 0 = false → u.enabled n = false → Effects (.sheafEnable p) specSheafEnable p s .ok [] u) := by
  refine ⟨atBoundary_of_run rfl rfl, atBoundary_of_run rfl rfl, atBoundary_of_run rfl rfl, atBoundary_of_run rfl rfl, atBoundary_of_run rfl rfl,
    fun h => ?_, fun h he => ⟨fun hs => ?_, fun hs => ?_⟩, fun h he => ?_⟩
  · exact atBoundary_of_run rfl ((sheafEnable_run p _ true h).trans (sheafEnable_on _ _ _))
  · exact effects_of_run rfl (by rw [sheafEnable_run p _ false h, sheafEnable_off he, hs]; rfl)
  · exact effectsLater_of_run rfl (by rw [sheafEnable_run p _ false h, sheafEnable_off he, hs]; rfl)
  · exact effects_of_run rfl (by rw [sheafEnable_run p _ false h, sheafEnable_already_off he])

/-- State words set: at once on a channel that does not run, else with the channel's boundary. -/
theorem sheafStateSet_effects (p : Packet) (s : State) :
    let u := begun p s
    let b := p.payload
    let n := u16 b 0
    let ws := (List.range (u8 b 3)).map fun i => (u8 b 2 + i, signed 40 (uN 5 b (4 + 8 * i)))
    (u.live n = false → Effects (.sheafStateSet p) specSheafStateSet p s .ok []
      (u.modChan n fun c => { c with words := ws.foldl (fun w x => w.set x.1 x.2) c.words })) ∧
    (u.live n = true → EffectsLater (.sheafStateSet p) specSheafStateSet p s .ok [] (keepReply n)
      (u.modChan n fun c => { c with pendWords := c.pendWords ++ ws })) := by
  refine ⟨fun h => effects_of_run rfl ?_, fun h => effectsLater_of_run rfl ?_⟩
  · exact if_neg (by rw [Bool.not_eq_true]; exact h)
  · exact if_pos h

/-- Entries loaded from memory: answered at once, or with the boundary of the slowest channel that runs (R148). -/
theorem sheafInvalidate_effects (p : Packet) (s : State) :
    let u := begun p s
    let b := p.payload
    let r := (List.range (u16 b 2)).map fun i => u16 b 0 + i
    let v := r.foldl (fun s m => loadFromMemory m (bit (u8 b 4) 0) s) u
    (slowest u r = none → Effects (.sheafInvalidate p) specSheafInvalidate p s .ok [] v) ∧
    (∀ m, slowest u r = some m → EffectsLater (.sheafInvalidate p) specSheafInvalidate p s .ok [] (keepReply m) v) := by
  have hrun : specSheafInvalidate.run p (begun p s) =
      let r := (List.range (u16 p.payload 2)).map fun i => u16 p.payload 0 + i
      { st := r.foldl (fun s m => loadFromMemory m (bit (u8 p.payload 4) 0) s) (begun p s)
        keep := (slowest (begun p s) r).map keepReply } := rfl
  refine ⟨fun h => effects_of_run rfl ?_, fun m h => effectsLater_of_run rfl ?_⟩
  · rw [hrun]; simp only [h]; rfl
  · rw [hrun]; simp only [h]; rfl

/-- Settles O16: the immediate commands, then those at a boundary. -/
theorem sheafTablePackets : Obligations.SheafTablePackets := by
  refine ⟨sheafImmediatePackets, fun p s => ?_⟩
  obtain ⟨hw, hst, hlv, hlim, hmap, hon, hoff, halready⟩ := sheafBoundaryPackets p s
  exact ⟨hw, hst, hlv, hlim, hmap, hon, hoff, halready, sheafStateSet_effects p s, sheafInvalidate_effects p s⟩

end Sys2Proof.Machine
end

section
/-! SUPPORT. Safety commands (R449 to R457), memory, life-cycle and husk commands (R538 to R546, R559 to R562). -/

namespace Sys2Proof.Machine

/-! ### Safety commands -/

/-- SAFETY_UNLOCK and SAFETY_PASSWORD after a check of a password with result r: with 0 the effect, else the failure logged (R451). -/
def passwordAnswered (t r : Nat) (session : BitVec 32) (good u : State) : Effect :=
  let v := if r = 0 then good else afterCheck t r session u
  { st := v, data := unlockReply t r v }

theorem passwordAnswered_good (t : Nat) (session : BitVec 32) (good u : State) :
    passwordAnswered t 0 session good u = { st := good, data := unlockReply t 0 good } := rfl

theorem passwordAnswered_bad {r : Nat} (h : r ≠ 0) (t : Nat) (session : BitVec 32) (good u : State) :
    passwordAnswered t r session good u = { st := afterCheck t r session u, data := unlockReply t r (afterCheck t r session u) } := by
  unfold passwordAnswered
  simp only [if_neg h]

/-- The session of an accepted SAFETY_UNLOCK is unlocked and the active image copied into staging (R451). -/
def unlockOpened (p : Packet) (u : State) : State :=
  logPlain p.t 1 p.session
    ((goodPassword u).modSafety fun z => { z with unlocked := some p.session, staging := some z.active, lastCmd := p.t })

theorem safetyUnlock_run (p : Packet) (w : State) :
    specSafetyUnlock.run p w =
      let u := touched p w
      passwordAnswered p.t (checkPassword p.t (slice p.payload 4 (u8 p.payload 0)) u) p.session (unlockOpened p u) u := rfl

/-- An accepted SAFETY_PASSWORD stores the record of the new password (R450). -/
def passwordChanged (p : Packet) (u : State) : State :=
  logPlain p.t 7 p.session
    ((goodPassword u).modSafety fun z => { z with log := { z.log with password := some (passwordRecord (slice p.payload 68 (u8 p.payload 1)) u) } })

/-- The result of SAFETY_PASSWORD's check: the old password's, or with none asked for whether the lock-out stands. -/
def passwordResult (p : Packet) (u : State) : Nat :=
  if u8 p.payload 0 = 0 then (if p.t < u.safety.log.lockUntil then 2 else 0) else checkPassword p.t (slice p.payload 4 (u8 p.payload 0)) u

theorem safetyPassword_run (p : Packet) (w : State) :
    specSafetyPassword.run p w =
      let u := touched p w
      passwordAnswered p.t (passwordResult p u) p.session (passwordChanged p u) u := rfl

/-- SAFETY_PASSWORD whose check gives r = 0. -/
theorem safetyPassword_good {p : Packet} {s : State} (h : passwordResult p (touched p (begun p s)) = 0) :
    let v := passwordChanged p (touched p (begun p s))
    Effects (.safetyPassword p) specSafetyPassword p s .ok (unlockReply p.t 0 v) v :=
  effects_of_run rfl (by rw [safetyPassword_run]; simp only [h]; rfl)

/-- SAFETY_PASSWORD whose check fails. -/
theorem safetyPassword_bad {p : Packet} {s : State} {r : Nat} (h : passwordResult p (touched p (begun p s)) = r) (hr : r ≠ 0) :
    let v := afterCheck p.t r p.session (touched p (begun p s))
    Effects (.safetyPassword p) specSafetyPassword p s .ok (unlockReply p.t r v) v :=
  effects_of_run rfl (by rw [safetyPassword_run]; simp only [h, passwordAnswered_bad hr])

theorem safetyUnlock_good {p : Packet} {s : State}
    (h : checkPassword p.t (slice p.payload 4 (u8 p.payload 0)) (touched p (begun p s)) = 0) :
    let v := unlockOpened p (touched p (begun p s))
    Effects (.safetyUnlock p) specSafetyUnlock p s .ok (unlockReply p.t 0 v) v :=
  effects_of_run rfl (by rw [safetyUnlock_run]; simp only [h]; rfl)

theorem safetyUnlock_bad {p : Packet} {s : State} {r : Nat}
    (h : checkPassword p.t (slice p.payload 4 (u8 p.payload 0)) (touched p (begun p s)) = r) (hr : r ≠ 0) :
    let v := afterCheck p.t r p.session (touched p (begun p s))
    Effects (.safetyUnlock p) specSafetyUnlock p s .ok (unlockReply p.t r v) v :=
  effects_of_run rfl (by rw [safetyUnlock_run]; simp only [h, passwordAnswered_bad hr])

/-- SAFETY_COMMIT ends the unlock, and what was staged waits to be written; its reply waits with it (R452). -/
theorem safetyCommit_effects (p : Packet) (s : State) :
    let w := begun p s
    let kind := if tightening w.safety.active w.stagingImg then 0 else if w.inSafeStop then 1 else 2
    let sw := safetySwitch p.t w
    EffectsLater (.safetyCommit p) specSafetyCommit p s (if kind = 2 then .okDeferred else .ok)
      ([BitVec.ofNat 8 (if kind = 2 then 1 else 0)] ++ zeros 3 ++ le 4 (scrc w.stagingImg))
      (fun d s => { s with safety := { s.safety with writeReply := some d } })
      { sw with safety := { sw.safety with
          unlocked := none, staging := none, writing := some w.stagingImg, writeKind := kind, writeSession := p.session } } :=
  effectsLater_of_run rfl rfl

/-- SAFETY_OUTPUT_TEST with no output named is answered at once, else when its tests end (R455). -/
theorem safetyOutputTest_effects (p : Packet) (s : State) :
    let u := touched p (begun p s)
    let v := queueTests p.t (fun x => bit (u8 p.payload 0) x) { u with safety := { u.safety with testMask := 0 } }
    (u8 p.payload 0 = 0 → Effects (.safetyOutputTest p) specSafetyOutputTest p s .ok (zeros 4) v) ∧
    (u8 p.payload 0 ≠ 0 → EffectsLater (.safetyOutputTest p) specSafetyOutputTest p s .ok (zeros 4)
      (fun d s => testsTick p.t { s with safety := { s.safety with testReply := some d } }) v) := by
  have hrun : ∀ w, specSafetyOutputTest.run p w =
      let u := touched p w
      { st := queueTests p.t (fun x => bit (u8 p.payload 0) x) { u with safety := { u.safety with testMask := 0 } }, data := zeros 4
        keep := if u8 p.payload 0 = 0 then none else some fun d s => testsTick p.t { s with safety := { s.safety with testReply := some d } } } :=
    fun _ => rfl
  refine ⟨fun h => effects_of_run rfl ?_, fun h => effectsLater_of_run rfl ?_⟩
  · rw [hrun]; simp only [if_pos h]
  · rw [hrun]; simp only [if_neg h]

/-- Settles O26: each command's effect on the state that the unlocked session's last command has been noted in. -/
theorem safetyPackets : Obligations.SafetyPackets := by
  intro p s
  have hold (h : u8 p.payload 0 ≠ 0) : passwordResult p (touched p (begun p s)) =
      checkPassword p.t (slice p.payload 4 (u8 p.payload 0)) (touched p (begun p s)) := if_neg h
  have hnew (h : u8 p.payload 0 = 0) : passwordResult p (touched p (begun p s)) =
      if p.t < (touched p (begun p s)).safety.log.lockUntil then 2 else 0 := if_pos h
  refine ⟨effects_of_run rfl rfl, safetyUnlock_good, fun r h hr => safetyUnlock_bad h hr, effects_of_run rfl rfl, effects_of_run rfl rfl,
    safetyCommit_effects p s, effects_of_run rfl rfl, fun h hc => safetyPassword_good ((hold h).trans hc),
    fun r h hc hr => safetyPassword_bad ((hold h).trans hc) hr,
    fun h ht => safetyPassword_good ((hnew h).trans (if_neg (Nat.not_lt.2 ht))),
    fun h ht => safetyPassword_bad ((hnew h).trans (if_pos ht)) (by decide),
    effects_of_run rfl rfl, effects_of_run rfl rfl, (safetyOutputTest_effects p s).1, (safetyOutputTest_effects p s).2, effects_of_run rfl rfl⟩

/-! ### Memory, life-cycle and husk commands -/

/-- An opcode that stores by itself answers DURABLE at once where ACK_ON_DURABLE asks (R67). -/
theorem durableNow_effects {p : Packet} {s : State} {i : Instr} {c : CmdSpec} {data : List Byte} {v : State} (hi : exec i s = runCommand c p s)
    (hrun : c.run p (begun p s) = { st := v, data := data, keep := durableNow p }) :
    (p.ack = false → Effects i c p s .ok data v) ∧
    (p.ack = true → EffectsLater i c p s .ok data (fun d s => sendReply d.src (setDurable d.bytes) s) v) := by
  refine ⟨fun h => effects_of_run hi ?_, fun h => effectsLater_of_run hi ?_⟩
  · rw [hrun]; simp only [durableNow, h]; rfl
  · rw [hrun]; simp only [durableNow, h]; rfl

/-- MEM_IMAGE_LOAD: a part of an image stored, and with the last of it the slot selected (R540). -/
theorem memImageLoad_effects (p : Packet) (s : State) (fin : Bool) (h : bit (u8 p.payload 2) 0 = fin) :
    let u := begun p s
    let b := p.payload
    let kind := u8 b 0
    let slot := u8 b 1
    let o := u32 b 4
    let d := b.drop 8
    let whole := slotWith u kind slot o d
    let put := mramPut (if kind = 0 then slot else 2) (slotBase kind slot + o) d u
    let data : List Byte := [if fin then 1 else 0] ++ zeros 3 ++ le 4 (crc32c (whole.take (o + d.length)))
    let v := if fin then selectSlot p.t kind slot whole put else setVerified kind slot false put
    (p.ack = false → Effects (.memImageLoad p) specMemImageLoad p s .ok data v) ∧
    (p.ack = true → EffectsLater (.memImageLoad p) specMemImageLoad p s .ok data (fun d s => sendReply d.src (setDurable d.bytes) s) v) := by
  subst h
  exact durableNow_effects rfl rfl

/-- MEM_SPLICE: the reply of a row splice waits for the health record, that of the others goes at once (R544). -/
theorem memSplice_effects (p : Packet) (s : State) :
    let u := begun p s
    let b := p.payload
    let v := spliceNow p.t (u8 b 0) (u8 b 1) (u16 b 2) u
    (p.ack = false → Effects (.memSplice p) specMemSplice p s .ok [] v) ∧
    (u8 b 0 ≠ 1 → p.ack = true → EffectsLater (.memSplice p) specMemSplice p s .ok [] (fun d s => sendReply d.src (setDurable d.bytes) s) v) ∧
    (u8 b 0 = 1 → p.ack = true → EffectsLater (.memSplice p) specMemSplice p s .ok []
      (fun d s => { s with cmd := { s.cmd with durable := s.cmd.durable ++ [{ d with image := 3, bytes := setDurable d.bytes }] } }) v) := by
  refine ⟨fun h => effects_of_run rfl ?_, fun hk h => effectsLater_of_run rfl ?_, fun hk h => effectsLater_of_run rfl ?_⟩
  · simp [specMemSplice, durableNow, h]
  · simp only [specMemSplice, durableNow, h, if_neg hk]; rfl
  · simp only [specMemSplice, h, if_pos hk]; rfl

/-- Settles O29: each command's effect, and its reply at once or DURABLE. -/
theorem memoryAndHuskPackets : Obligations.MemoryAndHuskPackets := by
  intro p s
  obtain ⟨hsplice, hsplice', hrow⟩ := memSplice_effects p s
  have hwrite := durableNow_effects (p := p) (s := s) (i := .memDataWrite p) (c := specMemDataWrite) rfl rfl
  exact ⟨effects_of_run rfl rfl, fun h => (memImageLoad_effects p s true h).1, fun h => (memImageLoad_effects p s false h).1,
    fun h => (memImageLoad_effects p s true h).2, fun h => (memImageLoad_effects p s false h).2, hwrite.1, hwrite.2, effects_of_run rfl rfl,
    effects_of_run rfl rfl, effects_of_run rfl rfl, effects_of_run rfl rfl, effects_of_run rfl rfl, ⟨hsplice, hsplice', hrow⟩,
    effects_of_run rfl rfl, effects_of_run rfl rfl, effects_of_run rfl rfl, effects_of_run rfl rfl, effects_of_run rfl rfl⟩

end Sys2Proof.Machine
end

section
/-! SUPPORT. What a register access, a violation and the end of a freeze do (R77 to R80, R87 to R89). -/

namespace Sys2Proof.Machine

/-! ### What leaves the frozen masters alone -/

@[simp] theorem post_frozen (t : Nat) (e : Ev) (s : State) : (s.post t e).host.frozen = s.host.frozen := by
  obtain ⟨_, _, _, _, _, _, h⟩ := post_postOnly t e s
  rw [h]

@[simp] theorem setInt_frozen (i : Nat) (s : State) : (s.setInt i).host.frozen = s.host.frozen := by simp [State.setInt]

/-- D6's clock followed changes the clock of the PWM alone. -/
theorem d6Follow_eq (t : Nat) (s : State) : ∃ d : D6Clock, d6Follow t s = { s with pwm := { s.pwm with d6 := d } } := by
  unfold d6Follow
  dsimp only
  generalize (if s.d6Ring then (if s.clk.roKhz = 0 then 400000 else s.clk.roKhz) else 0) = f
  by_cases h : f = s.pwm.d6.khz
  · rw [if_pos h]; exact ⟨s.pwm.d6, rfl⟩
  · rw [if_neg h]; exact ⟨_, rfl⟩

/-- A domain set changes its state, its clock source and D6's clock alone (R500). -/
theorem setDomain_eq (d st : Nat) (s : State) : ∃ (c : List Nat) (k : D6Clock), setDomain d st s =
    { s with sys := { s.sys with domains := s.sys.domains.set d st }, clk := { s.clk with sources := c }, pwm := { s.pwm with d6 := k } } := by
  obtain ⟨k, h⟩ := d6Follow_eq s.time { s with
    sys := { s.sys with domains := s.sys.domains.set d st }
    clk := { s.clk with sources := s.clk.sources.set d (
      let src := s.clk.sources.getD d 3
      if st = 0 ∨ (st = 3 ∧ 8 ≤ d) then 3 else if src = 3 ∧ st ≠ 3 then (if s.clk.main = 0xFF then 2 else s.clk.pick.getD d 0) else src) } }
  exact ⟨_, k, h⟩

@[simp] theorem setDomain_host (d st : Nat) (s : State) : (setDomain d st s).host = s.host := by
  obtain ⟨_, _, h⟩ := setDomain_eq d st s
  rw [h]

/-- A domain set changes its own state alone. -/
@[simp] theorem setDomain_sys (d st : Nat) (s : State) : (setDomain d st s).sys = { s.sys with domains := s.sys.domains.set d st } := by
  obtain ⟨_, _, h⟩ := setDomain_eq d st s
  rw [h]

@[simp] theorem setDomain_cmd (d st : Nat) (s : State) : (setDomain d st s).cmd = s.cmd := by
  obtain ⟨_, _, h⟩ := setDomain_eq d st s
  rw [h]

@[simp] theorem domainOff_frozen (t d st : Nat) (s : State) : (domainOff t d st s).host.frozen = s.host.frozen := by
  unfold domainOff; dsimp only; split <;> simp

@[simp] theorem domainOff_sys (t d st : Nat) (s : State) : (domainOff t d st s).sys = { s.sys with domains := s.sys.domains.set d st } := by
  unfold domainOff; dsimp only; split <;> simp

@[simp] theorem domainOff_cmd (t d st : Nat) (s : State) : (domainOff t d st s).cmd = s.cmd := by
  unfold domainOff; dsimp only; split <;> simp

/-- Sessions that end change the list of sessions and the unlocked session alone (R70). -/
theorem dropSessions_eq (gone : Session → Bool) (s : State) : ∃ z : Safety,
    s.dropSessions gone = { s with cmd := { s.cmd with sessions := s.cmd.sessions.filter fun x => !gone x }, safety := z } := by
  cases hu : s.safety.unlocked with
  | none => exact ⟨_, dropSessions_locked hu gone⟩
  | some v =>
    unfold State.dropSessions
    rw [hu]
    dsimp only
    by_cases h : (s.cmd.sessions.any fun x => gone x && x.value == v) = true
    · rw [if_pos h]; exact ⟨_, rfl⟩
    · rw [if_neg h]; exact ⟨s.safety, rfl⟩

/-- Either way the same masters are frozen. -/
theorem ite_frozen {c : Prop} [Decidable c] {x y : State} {f : BitVec 7} (hx : x.host.frozen = f) (hy : y.host.frozen = f) :
    (if c then x else y).host.frozen = f := by
  split
  · exact hx
  · exact hy

theorem commitCapture_frozen (t : Nat) (c : Capture) (s : State) : (commitCapture t c s).host.frozen = s.host.frozen := by
  unfold commitCapture
  dsimp only
  exact ite_frozen (post_frozen _ _ _) (post_frozen _ _ _)

theorem finishCapture_frozen (t : Nat) (s : State) : (finishCapture t s).host.frozen = s.host.frozen := by
  unfold finishCapture
  split
  · rfl
  · exact ite_frozen ((commitCapture_frozen _ _ _).trans (post_frozen _ _ _)) (post_frozen _ _ _)

/-- A frozen master's bit is set, whatever the recorder's own freeze ends (R87). -/
theorem freezeMaster_frozen (t m a : Nat) (w : Bool) (s : State) :
    (freezeMaster t m a w s).host.frozen = s.host.frozen ||| BitVec.ofNat 7 (2 ^ m) := by
  unfold freezeMaster
  dsimp only
  rw [post_frozen, setInt_frozen]
  exact ite_frozen (finishCapture_frozen _ _) rfl

/-- A freeze of another master than the recorder touches neither memory nor modes nor engine. -/
theorem freezeMaster_of_ne_recorder {m : Nat} (h : m ≠ 2) (t a : Nat) (w : Bool) (s : State) :
    (freezeMaster t m a w s).mem = s.mem ∧ (freezeMaster t m a w s).modes = s.modes ∧ (freezeMaster t m a w s).eng = s.eng := by
  unfold freezeMaster
  dsimp only
  simp [h]

theorem bit_eq_testBit (v i : Nat) : bit v i = v.testBit i := by
  rw [Nat.testBit_eq_decide_div_mod_eq]; rfl

/-- A frozen master is frozen (R87). -/
theorem isFrozen_of_or {s : State} {m : Nat} {x : BitVec 7} (hm : m < 7) (h : s.host.frozen = x ||| BitVec.ofNat 7 (2 ^ m)) : s.isFrozen m = true := by
  unfold State.isFrozen
  rw [bit_eq_testBit, h, BitVec.toNat_or, Nat.testBit_or, Bool.or_eq_true]
  right
  interval_cases m <;> decide

/-! ### The register block -/

/-- Two updates of an element that give it the same value are one. -/
theorem upd_congr_at {α : Type} {l : List α} {i : Nat} {f g : α → α} {d : α} (h : f (l.getD i d) = g (l.getD i d)) : upd l i f = upd l i g := by
  rw [upd_eq l i f d, upd_eq l i g d, h]

/-- A write of a master that is not frozen to a doorbell of its own ring (R78). -/
theorem sysWrite_doorbell {t n v : Nat} {u : State} (hf : u.isFrozen 5 = false) (hn : n < 16) (hv : v < 4096) :
    sysWrite t 5 (4 * n) v u = doorbell t n v u := by
  have hparty : isParty 5 n u = true := by simp [isParty, hn]
  have hdiv : 4 * n / 4 = n := by omega
  have hmod : v % 4096 = v := Nat.mod_eq_of_lt hv
  have hz : v / 4096 = 0 := Nat.div_eq_of_lt hv
  unfold sysWrite
  simp [hf, hdiv, hparty, hmod, hz, show 4 * n < 0x100 by omega, show ¬ 268435456 ≤ v by omega]

/-- A write of a frozen master stalls (R87). -/
theorem sysWrite_frozen {t m off v : Nat} {u : State} (hf : u.isFrozen m = true) : sysWrite t m off v u = stall m u := if_pos hf

/-- The masters that may write INT_STATUS clear the bits they write 1s to; a reserved bit discards the write (R10, R79). -/
theorem sysWrite_intStatus {t m v : Nat} {u : State} (hf : u.isFrozen m = false) (hm : m = 4 ∨ m = 5 ∨ m = 0) :
    sysWrite t m 0x100 v u =
      if 2 ^ 28 ≤ v then u else u.modHost fun h => { h with intStatus := h.intStatus &&& ~~~ (BitVec.ofNat 32 v) } := by
  have hm' : m = 4 ∨ m = 5 ∨ m = 0 ∨ (m = 6 ∧ debugMay u.mem.lc true .systemRegs) := by
    obtain h | h | h := hm
    · exact .inl h
    · exact .inr (.inl h)
    · exact .inr (.inr (.inl h))
  unfold sysWrite
  rw [if_neg (by simp [hf]), if_neg (by simp), if_pos ⟨rfl, hm'⟩]

/-- A write elsewhere in the register block is a violation (R77). -/
theorem sysWrite_elsewhere {t m off v : Nat} {u : State} (hf : u.isFrozen m = false) (ho : 0x104 ≤ off) :
    sysWrite t m off v u = violate t m (0x40000000 + off) true u := by
  unfold sysWrite
  rw [if_neg (by simp [hf]), if_neg (by omega), if_neg (by omega)]

/-- A violation of another master than the supervisor and the engine freezes it (R87). -/
theorem violate_freezes {m : Nat} (h : 2 ≤ m) (t a : Nat) (w : Bool) (u : State) : violate t m a w u = freezeMaster t m a w u := by
  unfold violate
  rw [if_neg (by omega), if_neg (by omega)]

/-- A violation that every voting core presents trips every group and forces safe stop (R88). -/
theorem violate_engine (t a : Nat) (w : Bool) (u : State) :
    violate t 1 a w u = forceSafeStop t 0x02
      (((List.range 8).foldl (fun s g => tripGroup t g 0xFF00 9 0 s) { u with host := { u.host with frozen := u.host.frozen ||| 2 } }).setInt 27) := by
  unfold violate
  rw [if_neg (by decide), if_pos rfl]
  simp only [tripAll, State.modHost]

/-- Doorbells, interrupt status, the time latch and the other addresses of the register block. -/
theorem registerAccesses (t : Nat) (s : State) :
    let u := s.advance t
    (∀ n v, 8 ≤ n → n < 16 → u.isFrozen 5 = false → v < 4096 → (u.ring n).configured = true → v < (u.ring n).size →
      (v + (u.ring n).size - (u.ring n).hostIndex) % (u.ring n).size ≤
        ((u.ring n).devIndex + (u.ring n).size - (u.ring n).hostIndex) % (u.ring n).size →
      exec (.doorbellWrite t 5 n v) s = .next { u with rings := upd u.rings n fun r =>
        { r with hostIndex := v, recs := r.recs.drop ((v + r.size - (u.ring n).hostIndex) % r.size) } }) ∧
    (∀ n v, n < 16 → u.isFrozen 5 = false → v < 4096 → (u.ring n).size ≤ v →
      exec (.doorbellWrite t 5 n v) s = .next ((u.setInt 24).post t (ev 0x0192 n (le 2 v ++ [1, 0])))) ∧
    (∀ m n v, n < 64 → u.isFrozen m = true →
      exec (.doorbellWrite t m n v) s = .next { u with host := { u.host with stalled := upd u.host.stalled m (· + 1) } }) ∧
    (∀ m v, m = 4 ∨ m = 5 ∨ m = 0 → u.isFrozen m = false → v.toNat < 2 ^ 28 →
      exec (.intStatusWrite t m v) s = .next { u with host := { u.host with intStatus := u.host.intStatus &&& ~~~ v } }) ∧
    (∀ m v, m = 4 ∨ m = 5 ∨ m = 0 → u.isFrozen m = false → 2 ^ 28 ≤ v.toNat → exec (.intStatusWrite t m v) s = .next u) ∧
    (∀ m, u.isFrozen m = false →
      exec (.timeLoRead t m) s = .next { u with host := { u.host with timeLatch := BitVec.ofNat 32 (u.now / 2 ^ 32) } }) ∧
    (∀ m off v, 2 ≤ m → m < 7 → u.isFrozen m = false → 0x104 ≤ off → off < 0x10000 →
      exec (.registerWrite t m (0x40000000 + off) v) s = .next (freezeMaster t m (0x40000000 + off) true u) ∧
      ∃ w, exec (.registerWrite t m (0x40000000 + off) v) s = .next w ∧
        w.host.frozen = u.host.frozen ||| BitVec.ofNat 7 (2 ^ m) ∧ (m ≠ 2 → w.mem = u.mem)) := by
  have hexec (m n v : Nat) (hn : n < 64) : exec (.doorbellWrite t m n v) s = .next (sysWrite t m (4 * n) v (s.advance t)) := if_pos hn
  refine ⟨fun n v h8 h16 hf hv hc hs hd => ?_, fun n v h16 hf hv hs => ?_, fun m n v hn hf => ?_, fun m v hm hf hv => ?_, fun m v hm hf hv => ?_,
    fun m hf => ?_, fun m off v h2 h7 hf ho ho' => ?_⟩
  · rw [hexec 5 n v (by omega), sysWrite_doorbell hf h16 hv]
    have hdev : deviceConsumes n = false := by simp [deviceConsumes]; omega
    unfold doorbell
    dsimp only
    rw [if_neg (by simp [hc]; omega), if_neg (by simp [hdev]), if_pos hd]
    rw [State.modRing, upd_congr_at (d := Ring.reset) (g := fun r =>
      { r with hostIndex := v, recs := r.recs.drop ((v + r.size - ((s.advance t).ring n).hostIndex) % r.size) })]
    rfl
  · rw [hexec 5 n v (by omega), sysWrite_doorbell hf h16 hv]
    exact congrArg _ (if_pos (.inr hs))
  · rw [hexec m n v hn, sysWrite_frozen hf]
    rfl
  · exact congrArg _ ((sysWrite_intStatus hf hm).trans (by rw [if_neg (by omega), BitVec.ofNat_toNat, BitVec.setWidth_eq]; rfl))
  · exact congrArg _ ((sysWrite_intStatus hf hm).trans (if_pos hv))
  · exact congrArg _ (if_neg (by simp [hf]))
  · have h : exec (.registerWrite t m (0x40000000 + off) v) s = .next (freezeMaster t m (0x40000000 + off) true (s.advance t)) := by
      change execRegisterWrite t m (0x40000000 + off) v s = _
      unfold execRegisterWrite
      dsimp only
      rw [if_neg (by simp [hf]), if_pos ⟨by omega, by omega⟩, Nat.add_sub_cancel_left, sysWrite_elsewhere hf ho, violate_freezes h2]
    exact ⟨h, _, h, freezeMaster_frozen _ _ _ _ _, fun hm => (freezeMaster_of_ne_recorder hm _ _ _ _).1⟩

/-! ### The firewall -/

theorem mayReach_false {u : State} {m a : Nat} {w : Bool} (h : allowedAt u.mem.lc m w a = false) : u.mayReach m w a = false := by
  unfold State.mayReach; rw [h, Bool.false_and]

/-- An access outside the rights of a master that is not frozen (R87). -/
theorem firewallViolation_exec {t m a : Nat} {w : Bool} {cores : List Nat} {s : State} (hm : m < 7) (hf : (s.advance t).isFrozen m = false)
    (hr : (s.advance t).mayReach m w a = false) :
    exec (.firewallViolation t m a w cores) s = .next (
      if m = 1 then
        if (List.range 4).all fun c => (s.advance t).eng.cores.getD c 0 != 1 || cores.contains c then violate t 1 a w (s.advance t)
        else (s.advance t).modEng fun e => { e with forceDissent := e.forceDissent ++ (cores.filter fun c => decide (c < 4)).map (· + 8) }
      else violate t m a w (s.advance t)) := by
  change execFirewallViolation t m a w cores s = _
  unfold execFirewallViolation within
  dsimp only
  rw [if_pos hm, if_neg (by simp [hf, hr])]

/-- The end of the application core's freeze by the restart of D10 (R89). -/
theorem frozenD10Restart_next {t : Nat} {s : State} (hf : (s.advance t).isFrozen 4 = true)
    (hd : (s.advance t).host.appFrozenAt + 60000000000 ≤ t ∨ 3 ≤ (s.advance t).host.appFreezes.length) :
    let u := s.advance t
    ∃ v, exec (.frozenD10Restart t) s = .next v ∧ v.isFrozen 4 = false ∧ v.sys.domains = u.sys.domains.set 10 1 ∧
      v.cmd.sessions = u.cmd.sessions.filter fun x => !(x.src == .app) := by
  intro u
  have hrun : exec (.frozenD10Restart t) s = .next ((setDomain 10 1 (domainOff t 10 0 (unfreeze t 4 0xFF (u.modHost fun h =>
      { h with appFreezes := if 3 ≤ h.appFreezes.length then [] else h.appFreezes })))).dropSessions fun x => x.src == .app) :=
    congrArg _ (if_pos ⟨hf, hd⟩)
  refine ⟨_, hrun, ?_, ?_, ?_⟩
  all_goals
    obtain ⟨_, hdrop⟩ := dropSessions_eq (fun x => x.src == .app) (setDomain 10 1 (domainOff t 10 0 (unfreeze t 4 0xFF (u.modHost fun h =>
      { h with appFreezes := if 3 ≤ h.appFreezes.length then [] else h.appFreezes }))))
    rw [hdrop, unfreeze_of_ne_recorder (by decide)]
  · have hbit (x : BitVec 7) : bit (x &&& ~~~ (BitVec.ofNat 7 (2 ^ 4))).toNat 4 = false := by
      rw [bit_eq_testBit, BitVec.toNat_and, Nat.testBit_and, Bool.and_eq_false_iff]
      exact .inr (by decide)
    simpa [State.isFrozen] using hbit _
  · simp
  · simp

/-- Settles O30: the register block, then the firewall. -/
theorem registerAndFirewallAccesses : Obligations.RegisterAndFirewallAccesses := by
  refine ⟨registerAccesses, fun t s => ⟨fun m a w cores h2 h7 hf hr => ?_, fun a w cores hf hl hall => ?_, fun a w cores hf hl hall => ?_,
    fun m a w cores h7 hr => ?_, fun hf hd => frozenD10Restart_next hf hd⟩⟩
  · have h := firewallViolation_exec (cores := cores) h7 hf hr
    rw [if_neg (by omega), violate_freezes h2] at h
    exact ⟨h, _, h, isFrozen_of_or h7 (freezeMaster_frozen _ _ _ _ _), fun hm => freezeMaster_of_ne_recorder hm _ _ _ _⟩
  · rw [firewallViolation_exec (by decide) hf (mayReach_false hl), if_pos rfl, if_pos hall, violate_engine]
  · rw [firewallViolation_exec (by decide) hf (mayReach_false hl), if_pos rfl, if_neg (by rw [hall]; exact Bool.false_ne_true)]
    rfl
  · change execFirewallViolation t m a w cores s = _
    unfold execFirewallViolation within
    dsimp only
    rw [if_pos h7, if_pos (.inl hr)]

end Sys2Proof.Machine
end

section
/-! SUPPORT. Accesses over HSPI_, the escape port, host-over-UART and held replies (R76, R81 to R85). -/

namespace Sys2Proof.Machine

/-! ### Memory accesses of the host bridge (R82) -/

/-- An address of the 4 KB page of an address of SRAM is below the register block. -/
theorem page_below {a i n : Nat} (ha : a < 0x40000000) (hi : i < served a n) : a + i < 0x40000000 := by
  unfold served at hi; omega

/-- A byte of SRAM that the host bridge may write is stored (R82). -/
theorem hspiWriteByte_stores {t a i : Nat} {d : List Byte} {u : State} (hf : u.isFrozen 5 = false) (h2 : 0x20000000 ≤ a) (h4 : a + i < 0x40000000)
    (hok : allowedAt u.mem.lc 5 true (a + i) = true) :
    hspiWriteByte t a d i u = { u with mem := { u.mem with sram := Mem.write u.mem.sram (a + i) (d.getD i 0) } } := by
  unfold hspiWriteByte
  dsimp only
  rw [if_neg (by simp [hf]), if_neg (by omega), if_pos hok, State.store, if_neg (by omega)]
  rfl

/-- Bytes written one after the other. -/
theorem writeN_append_one (m : Mem) (a : Nat) (l : List Byte) (v : Byte) :
    Mem.writeN m a (l ++ [v]) = Mem.write (Mem.writeN m a l) (a + l.length) v := by
  induction l generalizing m a with
  | nil => rfl
  | cons x l ih =>
    rw [List.cons_append, Mem.writeN, Mem.writeN, ih, List.length_cons, Nat.add_assoc, Nat.add_comm 1]

/-- The bytes served of a write stand in SRAM (R82). -/
theorem hspiWriteByte_fold {t a k : Nat} {d : List Byte} {u : State} (hf : u.isFrozen 5 = false) (h2 : 0x20000000 ≤ a) (h4 : ∀ i < k, a + i < 0x40000000)
    (hd : k ≤ d.length) (hok : ∀ i < k, allowedAt u.mem.lc 5 true (a + i) = true) :
    (List.range k).foldl (fun s i => hspiWriteByte t a d i s) u =
      { u with mem := { u.mem with sram := Mem.writeN u.mem.sram a (d.take k) } } := by
  induction k with
  | zero => rfl
  | succ k ih =>
    rw [List.range_succ, List.foldl_append, ih (fun i hi => h4 i (by omega)) (by omega) fun i hi => hok i (by omega)]
    have hget : d.getD k 0 = d[k] := List.getD_eq_getElem _ _ (by omega)
    have hlen : (d.take k).length = k := by simp; omega
    rw [List.foldl_cons, List.foldl_nil,
      hspiWriteByte_stores (u := { u with mem := { u.mem with sram := Mem.writeN u.mem.sram a (d.take k) } }) hf h2 (h4 k (by omega)) (hok k (by omega)), List.take_succ_eq_append_getElem (by omega),
      writeN_append_one, hlen, hget]

/-- A transfer that reaches the end of its page with more to come is counted from Ready. -/
theorem countTrunc_eq (a n : Nat) (v : State) :
    countTrunc a n v = if served a n < n ∧ v.sys.ready = true then { v with cmd := { v.cmd with trunc4k := (v.cmd.trunc4k + 1) % 2 ^ 32 } } else v := by
  unfold countTrunc whenReady
  by_cases h : served a n < n
  · simp [h, State.modCmd]
  · simp [h]

/-- A write of the host bridge that it may make (R82). -/
theorem hspiWrite_eq {t a : Nat} {u : State} (hf : u.isFrozen 5 = false) (h2 : 0x20000000 ≤ a) (h4 : a < 0x40000000) {d : List Byte}
    (hok : ∀ i < served a d.length, allowedAt u.mem.lc 5 true (a + i) = true) :
    hspiWrite t a d u = countTrunc a d.length
      { u with host := { u.host with spiOut := [] }, mem := { u.mem with sram := Mem.writeN u.mem.sram a (d.take (served a d.length)) } } := by
  unfold hspiWrite
  rw [if_neg (by simp [hf]), hspiWriteByte_fold (k := served a d.length) (u := u.modHost fun h => { h with spiOut := [] }) hf h2 (fun i hi => page_below h4 hi)
    (Nat.min_le_left _ _) hok]
  rfl

/-- A byte of SRAM that the host bridge may read (R82). -/
theorem hspiReadByte_shown {t a : Nat} {u : State} (hf : u.isFrozen 5 = false) (h4 : a < 0x40000000) (hok : allowedAt u.mem.lc 5 false a = true) :
    hspiReadByte t a u = (u.shown a, u) := by
  unfold hspiReadByte
  rw [if_neg (by simp [hf]), if_neg (by omega), if_pos hok]

theorem hspiReadBytes_shown {t k a : Nat} {u : State} (hf : u.isFrozen 5 = false) (h4 : ∀ i < k, a + i < 0x40000000)
    (hok : ∀ i < k, allowedAt u.mem.lc 5 false (a + i) = true) :
    hspiReadBytes t k a u = ((List.range k).map fun i => u.shown (a + i), u) := by
  induction k generalizing a with
  | zero => rfl
  | succ k ih =>
    have hrest : hspiReadBytes t k (a + 1) u = ((List.range k).map fun i => u.shown (a + 1 + i), u) :=
      ih (fun i hi => by have := h4 (i + 1) (by omega); omega) fun i hi => by
        have := hok (i + 1) (by omega)
        rwa [Nat.add_assoc, Nat.add_comm 1]
    unfold hspiReadBytes
    rw [hspiReadByte_shown hf (by simpa using h4 0) (by simpa using hok 0)]
    dsimp only
    rw [hrest, List.range_succ_eq_map, List.map_cons, List.map_map]
    simp [Function.comp_def, Nat.add_assoc, Nat.add_comm 1]

/-- A read of the host bridge that it may make (R82). -/
theorem hspiRead_eq {t a n : Nat} {u : State} (hf : u.isFrozen 5 = false) (h4 : a < 0x40000000)
    (hok : ∀ i < served a n, allowedAt u.mem.lc 5 false (a + i) = true) :
    hspiRead t a n u = countTrunc a n
      { u with host := { u.host with spiOut := ((List.range (served a n)).map fun i => u.shown (a + i)) ++ List.replicate (n - served a n) 0xFF } } := by
  unfold hspiRead
  rw [hspiReadBytes_shown (k := served a n) hf (fun i hi => page_below h4 hi) hok]
  dsimp only
  rw [if_neg (by simp [hf]), countTrunc_eq, countTrunc_eq]
  dsimp only
  split <;> rfl

/-- Reads and writes over HSPI_, single and quad. -/
theorem hspiAccesses (t a : Nat) (s : State) :
    let u := s.advance t
    u.isFrozen 5 = false → 0x20000000 ≤ a → a < 0x40000000 →
    (∀ d : List Byte,
      let k := min d.length (4096 - a % 4096)
      let v : State := { u with host := { u.host with spiOut := [] }, mem := { u.mem with sram := Mem.writeN u.mem.sram a (d.take k) } }
      let w : State := if k < d.length ∧ u.sys.ready = true then { v with cmd := { v.cmd with trunc4k := (v.cmd.trunc4k + 1) % 2 ^ 32 } } else v
      (∀ i < k, allowedAt u.mem.lc 5 true (a + i) = true) →
      exec (.hspiWrite t a d) s = .next w ∧ exec (.hspiQuadWrite t a d) s = .next w) ∧
    (∀ n : Nat,
      let k := min n (4096 - a % 4096)
      let v : State := { u with host := { u.host with
        spiOut := ((List.range k).map fun i => u.shown (a + i)) ++ List.replicate (n - k) 0xFF } }
      let w : State := if k < n ∧ u.sys.ready = true then { v with cmd := { v.cmd with trunc4k := (v.cmd.trunc4k + 1) % 2 ^ 32 } } else v
      (∀ i < k, allowedAt u.mem.lc 5 false (a + i) = true) →
      exec (.hspiRead t a n) s = .next w ∧ exec (.hspiQuadRead t a n) s = .next w) := by
  intro u hf h2 h4
  constructor
  · intro d k v w hok
    have h : hspiWrite t a d u = w := (hspiWrite_eq hf h2 h4 hok).trans (countTrunc_eq _ _ _)
    exact ⟨congrArg _ h, congrArg _ h⟩
  · intro n k v w hok
    have h : hspiRead t a n u = w := (hspiRead_eq hf h4 hok).trans (countTrunc_eq _ _ _)
    exact ⟨congrArg _ h, congrArg _ h⟩

/-! ### The escape port, UART0 and held replies (R76, R83, R85) -/

/-- A frame that finds the escape port busy is discarded, and counted from Ready (R83). -/
theorem escapeWrite_busy {t : Nat} {f : List Byte} {s : State} (hon : (s.advance t).esc.on = true) (hf : f ≠ [])
    (hb : (s.advance t).esc.busy = true ∨ (s.advance t).esc.replyReady = true) :
    exec (.escapeWrite t f) s =
      .next (whenReady (fun s => s.modCmd fun c => { c with escDiscarded := (c.escDiscarded + 1) % 2 ^ 32 }) (s.advance t)) := by
  change execEscapeWrite t f s = _
  unfold execEscapeWrite
  dsimp only
  generalize s.advance t = u at *
  rw [if_neg (by simp [hon, hf]), if_pos hb]

theorem escapeWrite_free {t : Nat} {f : List Byte} {s : State} (hon : (s.advance t).esc.on = true) (hf : f ≠ [])
    (hb : (s.advance t).esc.busy = false) (hr : (s.advance t).esc.replyReady = false) :
    exec (.escapeWrite t f) s = .next { s.advance t with esc := { (s.advance t).esc with busy := true, frame := f } } := by
  change execEscapeWrite t f s = _
  unfold execEscapeWrite
  dsimp only
  generalize s.advance t = u at *
  rw [if_neg (by simp [hon, hf]), if_neg (by simp [hb, hr])]

/-- A frame that the escape port neither takes nor counts. -/
theorem escapeWrite_ignored {t : Nat} {f : List Byte} {s : State}
    (h : (s.advance t).esc.on = false ∨ ((s.advance t).sys.ready = false ∧ ((s.advance t).esc.busy = true ∨ (s.advance t).esc.replyReady = true))) :
    exec (.escapeWrite t f) s = .next (s.advance t) := by
  by_cases h0 : (s.advance t).esc.on = false ∨ f = []
  · exact congrArg _ (if_pos (by simpa using h0))
  · obtain ⟨hon, hf⟩ := not_or.1 h0
    obtain hoff | ⟨hready, hb⟩ := h
    · exact absurd hoff hon
    · rw [escapeWrite_busy (by simpa using hon) hf hb]
      exact congrArg _ (if_neg (by rw [hready]; exact Bool.false_ne_true))

/-- A read of the escape port (R83). -/
theorem escapeRead_exec (t n : Nat) (s : State) :
    exec (.escapeRead t n) s =
      let u := s.advance t
      let out := fit n (BitVec.ofNat 8 u.escStatus :: (if u.esc.replyReady then u.esc.reply else []))
      let v : State := { u with host := { u.host with spiOut := out } }
      .next (if u.esc.replyReady ∧ u.esc.reply.length < n then { v with esc := { v.esc with replyReady := false, reply := [] } } else v) := rfl

/-- A packet received on UART0 with room on ring 7 is placed there (R85). -/
theorem hostUartPacket_placed {t : Nat} {p : List Byte} {s : State} (hlo : 16 ≤ (uartUnescape p).length) (hhi : (uartUnescape p).length ≤ 4092)
    (hu : (s.advance t).host.uartHost = true)
    (hroom : (((s.advance t).ring 7).hostIndex + 1) % ((s.advance t).ring 7).size ≠ ((s.advance t).ring 7).devIndex) :
    let u := s.advance t
    let r := u.ring 7
    exec (.hostUartPacket t ([0x7E] ++ p ++ [0x7E])) s =
      .next (((u.store (u.uartBuf r.hostIndex) (uartUnescape p)).store (r.base + 16 * r.hostIndex)
        (le 4 (u.uartBuf r.hostIndex) ++ le 2 4096 ++ le 2 (uartUnescape p).length ++ le 4 r.seq ++ [4] ++ zeros 3)).modRing 7 fun r =>
          { r with hostIndex := (r.hostIndex + 1) % r.size, seq := (r.seq + 1) % 2 ^ 32 }) := by
  have hin : (([0x7E] ++ p ++ [0x7E] : List Byte).drop 1).dropLast = p := by simp
  have hlast : ([0x7E] ++ p ++ [0x7E] : List Byte).getLast? = some 0x7E := List.getLast?_concat
  intro u r
  change execHostUartPacket t _ s = _
  unfold execHostUartPacket
  dsimp only
  rw [hin, if_pos ⟨hu, rfl, hlast, hlo, hhi, hroom⟩]

/-- A held reply is written once its ring has room (R76). -/
theorem heldReply_written {t n : Nat} {s : State} {h : HeldReply} (hn : n < 64) (hh : (s.advance t).cmd.held.find? (fun h => h.ring == n) = some h)
    (hroom : ((s.advance t).ring n).full = false) :
    let u := s.advance t
    exec (.heldReply t n) s = .next (({ u with
      cmd := { u.cmd with held := u.cmd.held.erase h }
      rings := upd u.rings n fun r => { r with
        devIndex := (r.devIndex + 1) % r.size, seq := (r.seq + 1) % 2 ^ 32, recs := r.recs ++ [h.bytes] } } : State).setRingInt n) := by
  intro u
  change execHeldReply t n s = _
  unfold execHeldReply within
  dsimp only
  rw [if_pos hn, hh]
  dsimp only
  rw [if_neg (by simp [hroom])]
  rfl

/-- Settles O31: accesses over HSPI_, then the other ports. -/
theorem portAccesses : Obligations.PortAccesses := by
  refine ⟨hspiAccesses, fun t s => ⟨fun f hon hf hb hr => escapeWrite_free hon hf hb hr, fun f hon hf hb hready => ?_, fun n hr hl => ?_, fun n hr => ?_,
    fun b h1 h2 h3 h4 h5 h6 => ?_, fun f h => escapeWrite_ignored h, fun p hlo hhi hu hroom => hostUartPacket_placed hlo hhi hu hroom,
    fun n h hn hh hroom => heldReply_written hn hh hroom⟩⟩
  · rw [escapeWrite_busy hon hf hb]
    exact congrArg _ (if_pos hready)
  · rw [escapeRead_exec]
    dsimp only
    rw [if_pos ⟨hr, hl⟩, if_pos hr, State.escStatus, hr]
    rfl
  · rw [escapeRead_exec]
    dsimp only
    generalize s.advance t = u at *
    rw [if_neg (by simp [hr]), if_neg (by simp [hr]), State.escStatus, hr]
    rfl
  · have hno : spiInstruction b = false := by
      simp only [spiInstruction, Bool.or_eq_false_iff, beq_eq_false_iff_ne]
      exact ⟨⟨⟨⟨⟨h1, h2⟩, h3⟩, h4⟩, h5⟩, h6⟩
    exact congrArg _ (if_neg (by simp [hno]))

end Sys2Proof.Machine
end

section
/-! SUPPORT. The boot ROM's choice of slots, supplies, the reset button and faults of units (R29, R34 to R36, R41, R43, R47 to R49, R52 to R58, R531). -/

namespace Sys2Proof.Machine

/-! ### What a domain set leaves -/

@[simp] theorem setDomain_eng (d st : Nat) (s : State) : (setDomain d st s).eng = s.eng := by
  obtain ⟨_, _, h⟩ := setDomain_eq d st s
  rw [h]

@[simp] theorem setDomain_mem (d st : Nat) (s : State) : (setDomain d st s).mem = s.mem := by
  obtain ⟨_, _, h⟩ := setDomain_eq d st s
  rw [h]

@[simp] theorem setDomain_net (d st : Nat) (s : State) : (setDomain d st s).net = s.net := by
  obtain ⟨_, _, h⟩ := setDomain_eq d st s
  rw [h]

@[simp] theorem setDomain_esc (d st : Nat) (s : State) : (setDomain d st s).esc = s.esc := by
  obtain ⟨_, _, h⟩ := setDomain_eq d st s
  rw [h]

@[simp] theorem setDomain_safety (d st : Nat) (s : State) : (setDomain d st s).safety = s.safety := by
  obtain ⟨_, _, h⟩ := setDomain_eq d st s
  rw [h]

/-! ### The boot ROM (R52, R531) -/

/-- The state and event of a slot that failed its verification. -/
def slotFailed (t kind slot verdict : Nat) (s : State) : State :=
  (setVerified kind slot false s).post t (imageEv kind (if verdict = 0 ∨ verdict = 3 then 3 else 1) slot)

/-- The state and event of a slot that verified. -/
def slotPassed (t kind slot version security : Nat) (s : State) : State :=
  (slotSeen kind slot version security s).post t (imageEv kind 0 slot)

@[simp] theorem setVerified_sys (kind slot : Nat) (v : Bool) (s : State) : (setVerified kind slot v s).sys = s.sys := rfl
@[simp] theorem setVerified_eng (kind slot : Nat) (v : Bool) (s : State) : (setVerified kind slot v s).eng = s.eng := rfl

@[simp] theorem slotFailed_sys (t kind slot verdict : Nat) (s : State) : (slotFailed t kind slot verdict s).sys = s.sys := by simp [slotFailed]
@[simp] theorem slotPassed_sys (t kind slot version security : Nat) (s : State) : (slotPassed t kind slot version security s).sys = s.sys := by
  simp [slotPassed, slotSeen]
@[simp] theorem slotPassed_eng (t kind slot version security : Nat) (s : State) : (slotPassed t kind slot version security s).eng = s.eng := by
  simp [slotPassed, slotSeen]

/-- A supervisor slot's verification ends while the boot ROM waits for it. -/
theorem imageVerify_supervisor {t slot verdict version security : Nat} {s : State} (hs : slot < 2) (hb : (s.advance t).sys.boot = .verify) :
    let u := s.advance t
    exec (.imageVerifyComplete t 0 slot verdict version security) s = .next (
      if u.mem.lc = 5 then toRecovery u
      else if (slot == u.mem.bootSup) != u.sys.supTried then
        if verdict == 0 && decide (u.mem.secMin.getD 0 0 ≤ security) then bootFrom slot version (slotPassed t 0 slot version security u)
        else if slot == u.mem.bootSup then (stage .verify (slotFailed t 0 slot verdict u)).modSys fun y => { y with supTried := true }
        else toRecovery ((slotFailed t 0 slot verdict u).post t (imageEv 0 2 slot))
      else u) := by
  intro u
  change execImageVerifyComplete t 0 slot verdict version security s = _
  unfold execImageVerifyComplete
  dsimp only
  rw [if_neg (by omega), if_pos rfl, if_pos (.inl hb)]
  rfl

/-- An application slot's verification ends while the boot ROM waits for it. -/
theorem imageVerify_application {t slot verdict version security : Nat} {s : State} (hs : slot < 2) (hb : (s.advance t).sys.boot = .domains)
    (hfirst : ((slot == (s.advance t).mem.bootApp) != (s.advance t).sys.appTried) = true) :
    let u := s.advance t
    exec (.imageVerifyComplete t 1 slot verdict version security) s = .next (
      if verdict == 0 && decide (u.mem.secMin.getD 1 0 ≤ security) then
        setDomain 10 1 ((stage .cal (slotPassed t 1 slot version security u)).modSys fun y => { y with appSlotB := slot == 1, d10Held := false })
      else if slot == u.mem.bootApp then (slotFailed t 1 slot verdict u).modSys fun y => { y with appTried := true }
      else (stage .cal ((slotFailed t 1 slot verdict u).post t (imageEv 1 2 slot))).modSys fun y => { y with d10Held := true }) := by
  intro u
  change execImageVerifyComplete t 1 slot verdict version security s = _
  unfold execImageVerifyComplete
  dsimp only
  rw [if_neg (by omega), if_neg (by omega), if_pos ⟨hb, hfirst⟩]
  rfl

/-- The supervisor image boots: D6 to D9 and the cores that the health record names are started (R52). -/
theorem bootFrom_sys {s : State} (hc : s.eng.cores = [1, 1, 1, 0]) (slot version : Nat) :
    (bootFrom slot version s).sys = { s.sys with
      boot := .domains, supSlotB := slot == 1, fwVersion := version
      domains := ((((((s.sys.domains.set 6 1).set 7 1).set 8 1).set 9 1).set 2 1).set 3 1).set 4 1 } := by
  simp [bootFrom, List.range_succ, hc]

/-- Settles O33: the selected slot first, then the other one. -/
theorem bootRomChoosesTheSlot : Obligations.BootRomChoosesTheSlot := by
  intro t slot version security s u hs
  refine ⟨fun hb hl ht hsel hsec hc => ?_, fun hb hl ht hsel => ?_, fun hb hl ht hsel => ?_, fun hb hl => ?_, fun hb ht hsel hsec => ?_,
    fun hb ht hsel => ?_⟩
  · have hfirst : (slot == u.mem.bootSup) = true := beq_iff_eq.2 hsel
    have hok : ((0 : Nat) == 0 && decide (u.mem.secMin.getD 0 0 ≤ security)) = true := by rw [decide_eq_true hsec]; rfl
    refine ⟨bootFrom slot version (slotPassed t 0 slot version security u), ?_, ?_⟩
    · rw [imageVerify_supervisor hs hb, if_neg hl, if_pos (by rw [hfirst, ht]; rfl), if_pos hok]
    · rw [bootFrom_sys (by rw [slotPassed_eng]; exact hc)]
      simp
  · have hfirst : (slot == u.mem.bootSup) = true := beq_iff_eq.2 hsel
    refine ⟨(stage .verify (slotFailed t 0 slot 1 u)).modSys fun y => { y with supTried := true }, ?_, rfl, rfl, ?_⟩
    · rw [imageVerify_supervisor hs hb, if_neg hl, if_pos (by rw [hfirst, ht]; rfl), if_neg (by simp), if_pos hfirst]
    · simp [stage]
  · refine ⟨toRecovery ((slotFailed t 0 slot 1 u).post t (imageEv 0 2 slot)), ?_, rfl, rfl⟩
    have hne : (slot == u.mem.bootSup) = false := beq_eq_false_iff_ne.2 hsel
    rw [imageVerify_supervisor hs hb, if_neg hl, if_pos (by rw [hne, ht]; rfl), if_neg (by simp), if_neg (by rw [hne]; exact Bool.false_ne_true)]
  · refine ⟨toRecovery u, ?_, rfl, rfl⟩
    rw [imageVerify_supervisor hs hb, if_pos hl]
  · have hfirst : (slot == u.mem.bootApp) = true := beq_iff_eq.2 hsel
    have hok : ((0 : Nat) == 0 && decide (u.mem.secMin.getD 1 0 ≤ security)) = true := by rw [decide_eq_true hsec]; rfl
    refine ⟨setDomain 10 1 ((stage .cal (slotPassed t 1 slot version security u)).modSys fun y => { y with appSlotB := slot == 1, d10Held := false }),
      ?_, ?_, ?_, ?_⟩
    · rw [imageVerify_application hs hb (by rw [hfirst, ht]; rfl), if_pos hok]
    all_goals simp [stage]
  · have hne : (slot == u.mem.bootApp) = false := beq_eq_false_iff_ne.2 hsel
    refine ⟨(stage .cal ((slotFailed t 1 slot 1 u).post t (imageEv 1 2 slot))).modSys fun y => { y with d10Held := true }, ?_, rfl, rfl⟩
    rw [imageVerify_application hs hb (by rw [hne, ht]; rfl), if_neg (by simp), if_neg (by rw [hne]; exact Bool.false_ne_true)]

/-! ### Supplies (R43, R47 to R49) -/

/-- What a rail's own row sets stands in that rail. -/
theorem rail_setRail {r : Nat} (h : r < 3) (b : Bool) (y : Sys) : (y.setRail r b).rail r = b := by
  interval_cases r <;> rfl

theorem setRail_resetCause (r : Nat) (b : Bool) (y : Sys) : (y.setRail r b).resetCause = y.resetCause := by
  unfold Sys.setRail
  repeat' split
  all_goals rfl

/-- The state in which a rail that leaves its thresholds leaves the device before the reset: the husk decides its burst (R47). -/
def railDown (t rail : Nat) (o : RailObs) (v : Stores) (u : State) : State :=
  let s := u.modSys fun y => { (y.noteRail rail o).setRail rail false with ready := false }
  let s := commitTail t (powerFailure t v.vqs v.vls s)
  if s.husk.d0Up ∧ s.husk.state ≠ 4 then thresholds t s else s

/-- The life-cycle state is kept until the reset. -/
theorem railDown_lc (t rail : Nat) (o : RailObs) (v : Stores) (u : State) : (railDown t rail o v u).mem.lc = u.mem.lc := by
  have h : (railDown t rail o v u).vital = u.vital := by simp [railDown]
  exact congrArg Vital.lc h

/-- A rail that is good leaves its thresholds (R43, R47, R49). -/
theorem supplyReset_fails {t rail : Nat} {o : RailObs} {v : Stores} {s : State} (hr : rail < 3) (hg : (s.advance t).sys.rail rail = true)
    (hn : railNext rail true o = false) :
    let u := s.advance t
    let code := if railOver rail ≤ o.uv then 3 else 2
    let cause := if u.inSequence then min u.sys.resetCause code else code
    exec (.supplyReset t rail o.uv o.held o.low v) s = .next ((afterReset cause (railDown t rail o v u)).modSys fun y =>
      { (y.setRail rail false).noteRail rail o with
        boot := .off, belowPowerOn := (u.sys.belowPowerOn && u.sys.boot == .off) || decide (o.low < powerOnLevel rail) }) := by
  intro u code cause
  change execSupplyReset t rail o.uv o.held o.low v s = _
  unfold execSupplyReset within
  dsimp only
  rw [if_pos hr, if_pos (by rw [hg, hn]; rfl)]
  rfl

/-- The outcome of a rail's own row while the rail stays good, or is not good. -/
theorem supplyReset_stays {t rail : Nat} {o : RailObs} {v : Stores} {s : State} (hr : rail < 3) (hg : (s.advance t).sys.rail rail = true)
    (hn : railNext rail true o = true) :
    exec (.supplyReset t rail o.uv o.held o.low v) s =
      .next { s.advance t with sys := { (s.advance t).sys with railUv := (s.advance t).sys.railUv.set rail o.uv } } := by
  change execSupplyReset t rail o.uv o.held o.low v s = _
  unfold execSupplyReset within
  dsimp only
  rw [if_pos hr, if_neg (by rw [hg, hn]; exact Bool.false_ne_true), if_pos hg]
  rfl

theorem supplyReset_off {t rail : Nat} {o : RailObs} {v : Stores} {s : State} (hr : rail < 3) (hg : (s.advance t).sys.rail rail = false) :
    exec (.supplyReset t rail o.uv o.held o.low v) s = .next { s.advance t with sys := (s.advance t).sys.noteRail rail o } := by
  change execSupplyReset t rail o.uv o.held o.low v s = _
  unfold execSupplyReset within
  dsimp only
  rw [if_pos hr, if_neg (by rw [hg]; exact Bool.false_ne_true), if_neg (by rw [hg]; exact Bool.false_ne_true)]
  rfl

/-- The rows of the three rails that hold the device up. -/
theorem supplyEvents (t rail : Nat) (o : RailObs) (s : State) :
    let u := s.advance t
    let code := if railOver rail ≤ o.uv then 3 else 2
    (∀ v, rail < 3 → u.sys.rail rail = true → railNext rail true o = false → u.sys.boot = .ready → u.sys.ready = true →
      ∃ w, exec (.supplyReset t rail o.uv o.held o.low v) s = .next w ∧ w.sys.ready = false ∧ w.sys.boot = .off ∧ w.sys.rail rail = false ∧
        w.sys.resetCause = code ∧ w.mem.sram = [] ∧ w.cmd.sessions = [] ∧ w.safety.heartbeat = false ∧
        w.sys.belowPowerOn = decide (o.low < powerOnLevel rail) ∧ w.mem.lc = u.mem.lc) ∧
    (∀ v, rail < 3 → u.sys.rail rail = true → railNext rail true o = false → u.sys.boot = .wipe →
      ∃ w, exec (.supplyReset t rail o.uv o.held o.low v) s = .next w ∧ w.sys.resetCause = min u.sys.resetCause code ∧ w.sys.boot = .off) ∧
    (∀ v, rail < 3 → u.sys.rail rail = true → railNext rail true o = true → exec (.supplyReset t rail o.uv o.held o.low v) s =
      .next { u with sys := { u.sys with railUv := u.sys.railUv.set rail o.uv } }) ∧
    (∀ v, rail < 3 → u.sys.rail rail = false → exec (.supplyReset t rail o.uv o.held o.low v) s = .next { u with sys := u.sys.noteRail rail o }) := by
  intro u code
  refine ⟨fun v hr hg hn hb hrdy => ?_, fun v hr hg hn hb => ?_, fun v hr hg hn => supplyReset_stays hr hg hn, fun v hr hg => supplyReset_off hr hg⟩
  · have hseq : u.inSequence = false := by unfold State.inSequence; rw [hb, hrdy]; rfl
    have hrun := supplyReset_fails (v := v) hr hg hn
    refine ⟨_, hrun, ?_, rfl, ?_, ?_, rfl, rfl, rfl, ?_, railDown_lc t rail o v u⟩
    · interval_cases rail <;> rfl
    · exact rail_setRail hr false _
    · refine (setRail_resetCause rail false _).trans ?_
      exact if_neg (by rw [hseq]; exact Bool.false_ne_true)
    · change (u.sys.belowPowerOn && u.sys.boot == .off || decide (o.low < powerOnLevel rail)) = _
      rw [hb, show (BootStage.ready == BootStage.off) = false from rfl, Bool.and_false, Bool.false_or]
  · have hseq : u.inSequence = true := by unfold State.inSequence; rw [hb]; rfl
    refine ⟨_, supplyReset_fails (v := v) hr hg hn, ?_, rfl⟩
    exact (setRail_resetCause rail false _).trans (if_pos hseq)

/-- VDD_HV and VDD_IO (R43). -/
theorem hvAndIoEvents (t : Nat) (o : RailObs) (s : State) :
    let u := s.advance t
    let v : State := { u with sys := u.sys.noteRail 3 o }
    let q : State := { u with sys := u.sys.noteRail 2 o }
    (u.sys.railHv = true → railNext 3 true o = false → exec (.vddHvNotGood ⟨t, o⟩) s =
      .next (cutRamp t (outputOrders t (coolHvLost t { v with sys := { v.sys with railHv := false } })))) ∧
    ((u.sys.railHv = false ∨ railNext 3 true o = true) → exec (.vddHvNotGood ⟨t, o⟩) s = .next v) ∧
    (u.sys.railHv = false → railNext 3 false o = true → exec (.vddHvGood ⟨t, o⟩) s =
      .next (coolHvGood t { v with sys := { v.sys with railHv := true } })) ∧
    ((u.sys.railHv = true ∨ railNext 3 false o = false) → exec (.vddHvGood ⟨t, o⟩) s = .next v) ∧
    (u.sys.railIo = false → u.sys.railCore = false → u.husk.d0Up = false → railNext 2 false o = true →
      exec (.vddIoGood ⟨t, o⟩) s = .next { q with sys := { q.sys with railIo := true } }) ∧
    (railNext 2 false o = false → exec (.vddIoGood ⟨t, o⟩) s = .next q) := by
  intro u v q
  have hnot : exec (.vddHvNotGood ⟨t, o⟩) s = .next (if u.sys.railHv && !railNext 3 true o then
      cutRamp t (outputOrders t (coolHvLost t { v with sys := { v.sys with railHv := false } })) else v) := rfl
  have hgood : exec (.vddHvGood ⟨t, o⟩) s = .next (if !u.sys.railHv && railNext 3 false o then
      coolHvGood t { v with sys := { v.sys with railHv := true } } else v) := rfl
  have hio : exec (.vddIoGood ⟨t, o⟩) s = .next (if u.sys.railIo ∨ (u.sys.railCore ∧ u.sys.railAn) ∨ !railNext 2 false o then q
      else
        let r : State := { q with sys := { q.sys with railIo := true } }
        if u.husk.d0Up then thresholds t (huskEnter t (r.husk.target true) r) else r) := rfl
  refine ⟨fun h hn => ?_, fun h => ?_, fun h hn => ?_, fun h => ?_, fun h hc hd hn => ?_, fun hn => ?_⟩
  · rw [hnot, if_pos (by rw [h, hn]; rfl)]
  · rw [hnot, if_neg (by obtain h | h := h <;> simp only [h] <;> simp)]
  · rw [hgood, if_pos (by rw [h, hn]; rfl)]
  · rw [hgood, if_neg (by obtain h | h := h <;> simp only [h] <;> simp)]
  · rw [hio, if_neg (by rw [h, hc, hn]; simp)]
    dsimp only
    rw [if_neg (by rw [hd]; exact Bool.false_ne_true)]
  · rw [hio, if_pos (.inr (.inr (by rw [hn]; rfl)))]

/-! ### The reset button (R55, R57, R58) -/

/-- The release tick of a press (R57). -/
theorem buttonReset_asks {t : Nat} {s : State} (h : let b := (s.advance t).sys.button
    b.ready = true ∧ b.stuck = false ∧ b.high = 1 ∧ 50 ≤ b.low ∧ b.low < 8000) : exec (.buttonReset t) s = .next (requestReset t 5 (s.advance t)) := by
  obtain ⟨hr, hs, hh, hl, hm⟩ := h
  exact congrArg _ (if_pos ⟨hr, by rw [hs]; rfl, hh, hl, hm⟩)

theorem buttonEvents (t : Nat) (s : State) :
    let u := s.advance t
    let b := u.sys.button
    (b.ready = true → b.stuck = false → b.high = 1 → 50 ≤ b.low → b.low < 8000 → exec (.buttonReset t) s = .next (requestReset t 5 u)) ∧
    (b.ready = true → b.stuck = false → b.high = 1 → 50 ≤ b.low → b.low < 8000 → u.legsOff = true → u.modes.ramping = false →
      exec (.buttonReset t) s =
      .next { u with sys := { u.sys with resetPending := if u.sys.resetPending = 0 then 5 else min u.sys.resetPending 5 } }) ∧
    (b.low < 50 ∨ 8000 ≤ b.low → exec (.buttonReset t) s = .next u) ∧
    (b.stuck = false → b.high = 0 → 8000 ≤ b.low → exec (.resetButtonStuck t) s =
      .next (State.post t (ev 0x0180 0 []) { u with sys := { u.sys with button := { b with stuck := true, ready := false } } })) ∧
    (b.stuck = true → 1000 ≤ b.high → exec (.resetButtonFreed t) s =
      .next (State.post t (ev 0x0181 0 []) { u with sys := { u.sys with button := { b with stuck := false, ready := true } } })) ∧
    (b.ready = false → b.stuck = false → 1000 ≤ b.high → exec (.resetBtnReady t) s =
      .next { u with sys := { u.sys with button := { b with ready := true } } }) := by
  intro u b
  refine ⟨fun hr hs hh hl hm => buttonReset_asks ⟨hr, hs, hh, hl, hm⟩, fun hr hs hh hl hm ho hramp => ?_, fun h => ?_, fun hs hh hl => ?_,
    fun hs hh => ?_, fun hr hs hh => ?_⟩
  · rw [buttonReset_asks ⟨hr, hs, hh, hl, hm⟩, requestReset_off ho hramp]
  · exact congrArg _ (if_neg fun ⟨_, _, _, hl, hm⟩ => h.elim (fun h => Nat.not_le.2 h hl) fun h => Nat.not_le.2 hm h)
  · exact congrArg _ (if_pos ⟨by rw [hs]; rfl, hh, hl⟩)
  · exact congrArg _ (if_pos ⟨hs, hh⟩)
  · exact congrArg _ (if_pos ⟨by rw [hr]; rfl, by rw [hs]; rfl, hh⟩)

/-- Settles O34: the rails, VDD_HV and VDD_IO, the button. -/
theorem supplyAndButtonEvents : Obligations.SupplyAndButtonEvents := ⟨supplyEvents, hvAndIoEvents, buttonEvents⟩

/-! ### Faults of units (R29, R34 to R36, R41) -/

/-- A supervisor fault in a mode other than safe stop turns to it with cause 2 (R41). -/
theorem forceSafeStop_leaves {u : State} (h0 : u.modes.mode ≠ 0) (h1 : u.modes.mode ≠ 1) (ht : u.modes.trans = none) (t cause : Nat) :
    forceSafeStop t cause u = forceMode t cause 1 0 false u := by
  unfold forceSafeStop
  rw [if_neg h0, ht]
  exact if_neg h1

/-- A domain that is up or starting again takes the supervisor's restart (R41). -/
theorem domainRestarted_exec {t d : Nat} {s : State} (h : (s.advance t).sys.domains.getD d 0 = 3 ∨ (s.advance t).sys.domains.getD d 0 = 1) :
    let u := s.advance t
    exec (.domainRestarted t d) s = .next (
      if d = 8 then (List.range 16).foldl (fun s p => pvLost t p s) (recRestart (awnRestart t (setDomain 8 2 u)))
      else if d = 9 then
        let s := (setDomain 9 2 u).dropSessions fun x => match x.src with | .net _ => true | _ => false
        let was := s.net.ptpLocked
        let s := s.modNet fun n => { n with peers := [], neigh := n.neigh.map fun e => (if e.written then e else Neigh.reset), ptpLocked := false, ptpGood := 0 }
        if was then s.post t (ptpEv s) else s
      else if d = 10 then (setDomain 10 2 u).dropSessions fun x => x.src == .app
      else u) :=
  congrArg _ (if_neg fun ⟨h3, h1⟩ => h.elim h3 h1)

/-- What a fault that leads to safe stop leaves: a failed D6 or D7 goes off once the device stands there (R35). -/
def faultDone (t : Nat) (v : State) : State := if v.modes.mode ≤ 1 ∧ v.modes.trans = none then faultedOff t v else v

/-- An unrecoverable fault of D6, of D7 and of the two other units (R34, R35). -/
theorem unrecoverableFault_exec {unit : Nat} (h : unit < 4) (t : Nat) (s : State) :
    exec (.unrecoverableFault t unit) s = .next (faultDone t (forceSafeStop t 2
      (if unit = 0 then padClamp (allLegsOff t (setDomain 6 3 (tripAll t 0xFF00 9 0 (s.advance t))))
       else if unit = 1 then setDomain 7 3 (tripAll t 0xFF00 9 0 (s.advance t))
       else if unit = 2 then tripAll t 0xFF00 9 0 (s.advance t) else s.advance t))) := by
  change execUnrecoverableFault t unit s = _
  unfold execUnrecoverableFault within faultDone
  dsimp only
  rw [if_pos h]

/-- Settles O35: each row of a fault and of a restart. -/
theorem unitFaults : Obligations.UnitFaults := by
  intro t s
  dsimp only
  refine ⟨rfl, rfl, fun h0 h1 ht => ?_, ?_, ?_, ?_, ?_, rfl, rfl, rfl, fun h => ?_, fun h => ?_, fun h => ?_⟩
  · exact congrArg _ (forceSafeStop_leaves h0 h1 ht t 2)
  · rw [unrecoverableFault_exec (by decide), if_pos rfl, faultDone]
  · rw [unrecoverableFault_exec (by decide), if_neg (by decide), if_pos rfl, faultDone]
  · rw [unrecoverableFault_exec (by decide), if_neg (by decide), if_neg (by decide), if_pos rfl, faultDone]
  · rw [unrecoverableFault_exec (by decide), if_neg (by decide), if_neg (by decide), if_neg (by decide), faultDone]
  · rw [domainRestarted_exec h, if_pos rfl]
  · obtain ⟨z, hdrop⟩ := dropSessions_eq (fun x => match x.src with | .net _ => true | _ => false) (setDomain 9 2 (s.advance t))
    refine ⟨_, domainRestarted_exec h, ?_⟩
    rw [if_neg (by decide), if_pos rfl]
    dsimp only
    rw [hdrop]
    split <;> simp <;> rfl
  · obtain ⟨z, hdrop⟩ := dropSessions_eq (fun x => x.src == .app) (setDomain 10 2 (s.advance t))
    refine ⟨_, domainRestarted_exec h, ?_⟩
    rw [if_neg (by decide), if_neg (by decide), if_pos rfl, hdrop]
    simp

end Sys2Proof.Machine
end

section
/-! SUPPORT. Base ticks, splices of cores and hitch swaps (R145, R155 to R158, R170, R171, R181). -/

namespace Sys2Proof.Machine

/-! ### Base ticks -/

/-- A base tick happens where the carrier of the base timebase has an event (R156). -/
theorem baseTick_exec (t : Nat) (o : TrackObs) (s : State) :
    exec (.baseTick t o) s =
      let u := pwmSettle t (s.advance t)
      .next (match (if u.sys.ready then u.tickHit t else none) with
        | none => u
        | some x =>
          let v := countTick t ((d6Sync t x u).modEng fun e => { e with tickD := x })
          finishSplice t (boundaries t o v.dueGroups v)) := rfl

/-- Where no event of the carrier is due, nothing happens. -/
theorem baseTick_none {t : Nat} {s : State} (h : let u := pwmSettle t (s.advance t); (if u.sys.ready then u.tickHit t else none) = none) (o : TrackObs) :
    exec (.baseTick t o) s = .next (pwmSettle t (s.advance t)) := by
  rw [baseTick_exec]
  dsimp only at h ⊢
  rw [h]

/-- An event of the carrier is a tick once the device is Ready. -/
theorem baseTick_some {t : Nat} {s : State} {x : Int} (hr : (pwmSettle t (s.advance t)).sys.ready = true)
    (h : (pwmSettle t (s.advance t)).tickHit t = some x) (o : TrackObs) :
    let v := countTick t ((d6Sync t x (pwmSettle t (s.advance t))).modEng fun e => { e with tickD := x })
    exec (.baseTick t o) s = .next (finishSplice t (boundaries t o v.dueGroups v)) := by
  rw [baseTick_exec]
  dsimp only
  rw [if_pos hr, h]

/-- The first tick after ENGINE_RATE_SET puts its configuration in force and counts from 0 (R181). -/
theorem countTick_pending {z : State} {r : RateCfg} (h : z.eng.ratePend = some r) (t : Nat) :
    (countTick t z).eng.tick = 0 ∧ (countTick t z).eng.rate = r ∧ (countTick t z).eng.hasRate = true ∧ (countTick t z).eng.ratePend = none := by
  unfold countTick
  rw [h]
  exact ⟨rfl, rfl, rfl, rfl⟩

/-- A later tick counts on. -/
theorem countTick_next {z : State} (h : z.eng.ratePend = none) (t : Nat) : (countTick t z).eng.tick = (z.eng.tick + 1) % 2 ^ 64 := by
  unfold countTick
  rw [h]
  rfl

/-- A zero of the carrier after the last tick is a tick (R156). -/
theorem tickHit_zero {u : State} {t : Nat} {c : RateCfg} {x : Int} (hc : u.rateCfg = some c) (hm : (u.tb c.tb).inForce.mode ≠ 2)
    (hx : u.carrierHit t c.tb 0 = some x) (hlt : u.eng.tickD < x) : u.tickHit t = some x := by
  unfold State.tickHit
  rw [hc]
  dsimp only
  rw [if_pos (.inl hm), hx]
  simp [hlt]

/-- Base ticks with and without an event of the carrier. -/
theorem baseTicks (t : Nat) (o : TrackObs) (s : State) :
    let u := pwmSettle t (s.advance t)
    (u.rateCfg = none → exec (.baseTick t o) s = .next u) ∧
    (u.sys.ready = false → exec (.baseTick t o) s = .next u) ∧
    (u.tickHit t = none → exec (.baseTick t o) s = .next u) ∧
    (∀ x, u.sys.ready = true → u.tickHit t = some x →
      let z := (d6Sync t x u).modEng fun e => { e with tickD := x }
      let v := countTick t z
      exec (.baseTick t o) s = .next (finishSplice t (boundaries t o v.dueGroups v)) ∧ v.eng.tickAt = t ∧
      (∀ r, z.eng.ratePend = some r → v.eng.tick = 0 ∧ v.eng.rate = r ∧ v.eng.hasRate = true ∧ v.eng.ratePend = none) ∧
      (z.eng.ratePend = none → v.eng.tick = (z.eng.tick + 1) % 2 ^ 64)) ∧
    (∀ c x, u.rateCfg = some c → (u.tb c.tb).inForce.mode ≠ 2 → u.carrierHit t c.tb 0 = some x → u.eng.tickD < x → u.tickHit t = some x) := by
  intro u
  refine ⟨fun h => baseTick_none ?_ o, fun h => baseTick_none ?_ o, fun h => baseTick_none ?_ o,
    fun x hr hx => ⟨baseTick_some hr hx o, rfl, fun r h => countTick_pending h t, fun h => countTick_next h t⟩, fun c x hc hm hx hlt => tickHit_zero hc hm hx hlt⟩
  · have hnone : u.tickHit t = none := by unfold State.tickHit; rw [h]
    exact (ite_eq_right_iff.2 fun _ => hnone)
  · exact if_neg (by rw [h]; exact Bool.false_ne_true)
  · exact (ite_eq_right_iff.2 fun _ => h)

/-! ### A retired core's domain (R170) -/

/-- The row of a retired core (R170). -/
theorem coreDomainOff_exec {t k : Nat} (hk : k < 4) (s : State) :
    exec (.coreDomainOff t k) s = .next (
      if (s.advance t).eng.cores.getD k 0 = 3 then
        match (domainOff t (2 + k) 0 (s.advance t)).eng.splice with
        | some sp => if sp.retired = k ∧ !sp.moved then setDomain (2 + sp.incoming) 1 (domainOff t (2 + k) 0 (s.advance t))
          else domainOff t (2 + k) 0 (s.advance t)
        | none => domainOff t (2 + k) 0 (s.advance t)
      else s.advance t) := if_pos hk

@[simp] theorem domainOff_eng (t d st : Nat) (s : State) : (domainOff t d st s).eng = s.eng := by
  unfold domainOff
  dsimp only
  split <;> simp

/-! ### The transfer to the incoming core (R171) -/

/-- The row of the transfer. -/
theorem coreSpliceTransfer_exec (t : Nat) (d : List (Nat × Nat)) (s : State) :
    exec (.coreSpliceTransfer t d) s =
      let u := s.advance t
      .next (match u.eng.splice with
        | some sp =>
          if sp.moved then u
          else if d.any fun x => decide (2 ≤ x.2) then abortSplice t u
          else
            let gs := (List.range 8).filter fun g => u.groupUsed g
            let v := setDomain (2 + sp.incoming) 2 u
            finishSplice t (v.modEng fun e =>
              { e with cores := e.cores.set sp.incoming 2
                       splice := some { sp with moved := true, exports := gs.map fun g => (g, 0), toJoin := v.runningIn gs, units := v.unitsIn gs } })
        | none => u) := rfl

/-- A splice given up retires the incoming core, and no core is left to splice (R171). -/
theorem abortSplice_eng {u : State} {sp : CoreSplice} (h : u.eng.splice = some sp) (t : Nat) :
    (abortSplice t u).eng = { u.eng with splice := none, cores := u.eng.cores.set sp.incoming 3, noSpare := true, degraded := true } := by
  unfold abortSplice
  rw [h]
  simp [engineDegraded]

@[simp] theorem setDomain_gens (d st : Nat) (s : State) : (setDomain d st s).gens = s.gens := by
  obtain ⟨_, _, h⟩ := setDomain_eq d st s
  rw [h]

@[simp] theorem setDomain_grid (d st : Nat) (s : State) : (setDomain d st s).grid = s.grid := by
  obtain ⟨_, _, h⟩ := setDomain_eq d st s
  rw [h]

theorem setDomain_runningIn (d st : Nat) (s : State) (gs : List Nat) : (setDomain d st s).runningIn gs = s.runningIn gs := by
  simp [State.runningIn, State.chan]

theorem setDomain_unitsIn (d st : Nat) (s : State) (gs : List Nat) : (setDomain d st s).unitsIn gs = s.unitsIn gs := by
  simp [State.unitsIn, State.unitGroup, State.gen]

/-- A group without an armed swap at its time does not swap (R145). -/
theorem swapAt_false {u : State} {t k : Nat} (h : (u.eng.hitch.getD k Hitch.reset).armed = false ∨ t < (u.eng.hitch.getD k Hitch.reset).request) :
    u.swapAt t k = false := by
  unfold State.swapAt
  dsimp only
  obtain h | h := h
  · rw [h]; rfl
  · rw [decide_eq_false (Nat.not_le.2 h)]
    simp

/-- Splices of cores and hitch swaps. -/
theorem coreSplices (t k : Nat) (s : State) :
    let u := s.advance t
    (∀ sp, k < 4 → u.eng.cores.getD k 0 = 3 → u.eng.splice = some sp → sp.retired = k → sp.moved = false →
      exec (.coreDomainOff t k) s = .next (setDomain (2 + sp.incoming) 1 (domainOff t (2 + k) 0 u))) ∧
    (k < 4 → u.eng.cores.getD k 0 = 3 → u.eng.splice = none → exec (.coreDomainOff t k) s = .next (domainOff t (2 + k) 0 u)) ∧
    (k < 4 → u.eng.cores.getD k 0 ≠ 3 → exec (.coreDomainOff t k) s = .next u) ∧
    (∀ sp d, u.eng.splice = some sp → sp.moved = false → (d.any fun x => decide (2 ≤ x.2)) = false →
      let gs := (List.range 8).filter fun g => u.groupUsed g
      exec (.coreSpliceTransfer t d) s = .next (finishSplice t { setDomain (2 + sp.incoming) 2 u with
        eng := { u.eng with
          cores := u.eng.cores.set sp.incoming 2
          splice := some { sp with moved := true, exports := gs.map fun g => (g, 0), toJoin := u.runningIn gs, units := u.unitsIn gs } } })) ∧
    (∀ sp d, u.eng.splice = some sp → sp.moved = false → (d.any fun x => decide (2 ≤ x.2)) = true →
      ∃ v, exec (.coreSpliceTransfer t d) s = .next v ∧ v.eng.splice = none ∧
        v.eng.cores = u.eng.cores.set sp.incoming 3 ∧ v.eng.degraded = true ∧ v.eng.noSpare = true) ∧
    (∀ d, u.eng.splice = none → exec (.coreSpliceTransfer t d) s = .next u) ∧
    (k < 16 → u.swapAt t k = true → exec (.hitchSwapped t k) s = .next (hitchSwap t k u)) ∧
    (k < 16 → ((u.eng.hitch.getD k Hitch.reset).armed = false ∨ t < (u.eng.hitch.getD k Hitch.reset).request) →
      exec (.hitchSwapped t k) s = .next u) := by
  intro u
  have hswap (hk : k < 16) : exec (.hitchSwapped t k) s = .next (if u.swapAt t k then hitchSwap t k u else u) := if_pos hk
  refine ⟨fun sp hk hc hs hr hm => ?_, fun hk hc hs => ?_, fun hk hc => ?_, fun sp d hs hm hd => ?_, fun sp d hs hm hd => ?_, fun d hs => ?_,
    fun hk h => ?_, fun hk h => ?_⟩
  · rw [coreDomainOff_exec hk, if_pos hc, domainOff_eng, hs]
    exact congrArg _ (if_pos ⟨hr, by rw [hm]; rfl⟩)
  · rw [coreDomainOff_exec hk, if_pos hc, domainOff_eng, hs]
  · rw [coreDomainOff_exec hk, if_neg hc]
  · rw [coreSpliceTransfer_exec]
    dsimp only
    rw [hs]
    dsimp only
    rw [if_neg (by rw [hm]; exact Bool.false_ne_true), if_neg (by rw [hd]; exact Bool.false_ne_true), setDomain_runningIn, setDomain_unitsIn,
      State.modEng, setDomain_eng]
  · refine ⟨abortSplice t u, ?_, ?_⟩
    · rw [coreSpliceTransfer_exec]
      dsimp only
      rw [hs]
      dsimp only
      rw [if_neg (by rw [hm]; exact Bool.false_ne_true), if_pos hd]
    · rw [abortSplice_eng hs]
      exact ⟨rfl, rfl, rfl, rfl⟩
  · rw [coreSpliceTransfer_exec]
    dsimp only
    rw [hs]
  · rw [hswap hk, if_pos h]
  · rw [hswap hk, if_neg (by rw [swapAt_false h]; exact Bool.false_ne_true)]

/-- Settles O37: base ticks, then the splices and swaps. -/
theorem baseTicksAndSplices : Obligations.BaseTicksAndSplices := ⟨baseTicks, coreSplices⟩

end Sys2Proof.Machine
end

section
/-! SUPPORT. Votes, late samples, channel faults and overruns (R133, R158, R164 to R170). -/

namespace Sys2Proof.Machine

/-! ### Ballots (R168, R169) -/

section ballots

variable {α : Type} {same : α → α → Bool} {own : α}

/-- What core c presents where core q alone claims x. -/
def onlyClaim (q : Nat) (x own : α) (c : Nat) : α := if q = c then x else own

/-- Cores that present the same agree, and none dissents. -/
theorem ballot_agreed (hr : same own own = true) {voters : List Nat} (h2 : 2 ≤ voters.length) :
    ballot same voters [] [] (fun _ => own) = (some own, []) := by
  obtain ⟨a, l, rfl⟩ : ∃ a l, voters = a :: l := List.exists_cons_of_ne_nil (by rintro rfl; simp at h2)
  have h2' : 1 ≤ l.length := by simpa using h2
  simp [ballot, hr, h2']

/-- Two cores that differ have no majority. -/
theorem ballot_split (hr : ∀ x, same x x = true) {a b : Nat} (hab : a ≠ b) {x : α} (hxo : same x own = false) (hox : same own x = false) :
    (ballot same [a, b] [] [] (onlyClaim a x own)).1 = none := by
  simp [ballot, onlyClaim, hab, hxo, hox, hr]

/-- The third core, where it differs from the two others, dissents by value. -/
theorem ballot_dissent (hr : ∀ x, same x x = true) {a b c : Nat} (hac : a ≠ c) (hbc : b ≠ c) {x : α} (hox : same own x = false) :
    ballot same [a, b, c] [] [] (onlyClaim c x own) = (some own, [(c, 0)]) := by
  simp [ballot, onlyClaim, Ne.symm hac, Ne.symm hbc, hox, hr]

/-- The third core, where its result is late, dissents by that. -/
theorem ballot_late (hr : same own own = true) {a b c : Nat} (hac : a ≠ c) (hbc : b ≠ c) :
    ballot same [a, b, c] [c] [] (fun _ => own) = (some own, [(c, 1)]) := by
  simp [ballot, hac, hbc, hr]

end ballots

/-- Voters are different cores. -/
theorem voters_nodup (s : State) : s.voters.Nodup := List.nodup_range.filter _

theorem voters_lt {s : State} {c : Nat} (h : c ∈ s.voters) : c < 4 := by
  simpa using List.mem_of_mem_filter h

theorem passResult_same_refl (x : PassResult) : x.same x = true := by simp [PassResult.same]

theorem passResult_same_symm (x y : PassResult) : x.same y = y.same x := by
  simp only [PassResult.same, Bool.beq_comm (a := x.flags), Bool.beq_comm (a := wordsCrc x.words), Bool.beq_comm (a := x.stores),
    Bool.beq_comm (a := x.evts)]

/-! ### The vote on a pass -/

/-- Initial values resolved change channels alone (R147). -/
theorem resolveInit_eq (r : PassRec) (u : State) : ∃ l : List Chan, resolveInit r u = { u with eng := { u.eng with chans := l } } := by
  have fold : ∀ (l : List (Nat × Nat)) (v : State) (f : State → Nat × Nat → Chan → Chan), ∃ k : List Chan,
      l.foldl (fun s x => s.modChan r.ch (f s x)) v = { v with eng := { v.eng with chans := k } } := by
    intro l
    induction l with
    | nil => exact fun v _ => ⟨v.eng.chans, rfl⟩
    | cons x l ih =>
      intro v f
      obtain ⟨k, hk⟩ := ih (v.modChan r.ch (f v x)) f
      exact ⟨k, by rw [List.foldl_cons, hk]; rfl⟩
  obtain ⟨k, hk⟩ := fold (u.chan r.ch).initSel u fun s x c =>
    let q := readSlot s r (bits x.2 11 8)
    let w := if bit x.2 12 then q15Neg q.1 else q.1
    { c with words := c.words.set x.1 (w * 65536), sat := c.sat || q.2.2.2 || (bit x.2 12 && q.1 == -32768) }
  refine ⟨_, (congrArg (fun s => State.modChan r.ch (fun c => { c with initSel := [] }) s) hk).trans rfl⟩

/-- What core c presents of a pass whose inputs give `own`. -/
def presented (claims : List CoreClaim) (own : PassResult) (c : Nat) : PassResult :=
  match claims.find? fun x => x.core == c with
  | some x => claimResult x
  | none => own

/-- An agreed pass: committed, and out of the queue (R167). -/
def passDone (t : Nat) (r : PassRec) (clocks : Nat) (u : State) : State :=
  retirePass r true (commitPass t r ((resolveInit r u).resultOf r) clocks (usedForced (resolveInit r u)))

/-- An agreed pass from which core c dissents in one kind (R170). -/
def passDissent (t : Nat) (r : PassRec) (clocks : Nat) (d : Nat × Nat) (u : State) : State :=
  finishSplice t (afterPass r.ch (dissented t r.ch [r.ch] 2 d
    ((passDone t r clocks u).modChan r.ch fun q => { q with disCount := satInc 65535 q.disCount })))

/-- The cores that vote, the ordered dissents and the splice are not touched by initial values resolved. -/
theorem resolveInit_votersOn {u : State} (hs : u.eng.splice = none) (r : PassRec) (f : CoreSplice → Bool) :
    (resolveInit r u).votersOn f = u.voters := by
  obtain ⟨k, hk⟩ := resolveInit_eq r u
  rw [hk]
  simp [State.votersOn, hs, State.voters]

theorem resolveInit_forced (r : PassRec) (u : State) : (resolveInit r u).forced = u.forced := by
  obtain ⟨k, hk⟩ := resolveInit_eq r u
  rw [hk]
  rfl

theorem resolveInit_splice (r : PassRec) (u : State) : (resolveInit r u).eng.splice = u.eng.splice := by
  obtain ⟨k, hk⟩ := resolveInit_eq r u
  rw [hk]

theorem votersOn_of_no_splice {u : State} (hs : u.eng.splice = none) (f : CoreSplice → Bool) : u.votersOn f = u.voters := by
  simp [State.votersOn, hs]

/-- Without a splice no dissent is that of a source core (R173). -/
theorem duplexDissent_of_no_splice {u : State} (hs : u.eng.splice = none) (ds : List (Nat × Nat)) : u.duplexDissent ds = false := by
  simp [State.duplexDissent, hs]

section passes

variable {t clocks : Nat} {u : State} {r : PassRec} {l : List PassRec} {claims : List CoreClaim} {late : List Nat}
  (hd : u.eng.due = r :: l) (hs : u.eng.splice = none)

include hd hs

/-- A vote without a splice in which no two cores agree (R169). -/
theorem votePass_split (hb : (ballot PassResult.same u.voters late u.forced (presented claims ((resolveInit r u).resultOf r))).1 = none) :
    votePass t claims late clocks u = finishSplice t (noMajority t r (usedForced (resolveInit r u))) := by
  unfold votePass
  rw [hd]
  dsimp only
  rw [resolveInit_votersOn hs, resolveInit_forced]
  generalize hB : ballot PassResult.same u.voters late u.forced _ = B
  obtain ⟨agreed, ds⟩ := B
  obtain rfl : agreed = none := (congrArg Prod.fst hB).symm.trans hb
  dsimp only
  rw [ite_self]

/-- A vote without a splice on which all agree (R167). -/
theorem votePass_agreed (hb : ballot PassResult.same u.voters late u.forced (presented claims ((resolveInit r u).resultOf r)) =
      (some ((resolveInit r u).resultOf r), [])) :
    votePass t claims late clocks u = finishSplice t (afterPass r.ch (passDone t r clocks u)) := by
  unfold votePass
  rw [hd]
  dsimp only
  rw [resolveInit_votersOn hs, resolveInit_forced]
  generalize hB : ballot PassResult.same u.voters late u.forced _ = B
  obtain rfl : B = (some ((resolveInit r u).resultOf r), []) := hB.symm.trans hb
  dsimp only
  rw [duplexDissent_of_no_splice ((resolveInit_splice r u).trans hs), if_neg Bool.false_ne_true, resolveInit_splice, hs]
  rfl

/-- A vote without a splice from which one core dissents (R170). -/
theorem votePass_dissent {d : Nat × Nat} (hb : ballot PassResult.same u.voters late u.forced (presented claims ((resolveInit r u).resultOf r)) =
      (some ((resolveInit r u).resultOf r), [d])) :
    votePass t claims late clocks u = passDissent t r clocks d u := by
  unfold votePass
  rw [hd]
  dsimp only
  rw [resolveInit_votersOn hs, resolveInit_forced]
  generalize hB : ballot PassResult.same u.voters late u.forced _ = B
  obtain rfl : B = (some ((resolveInit r u).resultOf r), [d]) := hB.symm.trans hb
  dsimp only
  rw [duplexDissent_of_no_splice ((resolveInit_splice r u).trans hs), if_neg Bool.false_ne_true]
  rfl

end passes

/-- One claim alone. -/
theorem presented_one (q : CoreClaim) (own : PassResult) : presented [q] own = onlyClaim q.core (claimResult q) own := by
  funext c
  unfold presented onlyClaim
  by_cases h : q.core = c
  · simp [h]
  · simp [h]

theorem presented_none (own : PassResult) : presented [] own = fun _ => own := rfl

/-! ### The vote on a unit -/

/-- What core c presents of a unit whose committed values are `own`. -/
def presentedUnit (claims : List CoreClaim) (own : List Int) (c : Nat) : List Int :=
  match claims.find? fun x => x.core == c with
  | some x => x.vals
  | none => own

theorem presentedUnit_one (q : CoreClaim) (own : List Int) : presentedUnit [q] own = onlyClaim q.core q.vals own := by
  funext c
  unfold presentedUnit onlyClaim
  by_cases h : q.core = c
  · simp [h]
  · simp [h]

section units

variable {t k : Nat} {u : State} {claims : List CoreClaim} {late : List Nat} (hs : u.eng.splice = none)

include hs

/-- A vote on a unit on which all agree. -/
theorem voteUnit_agreed (hb : ballot (· == ·) u.voters late u.forced (presentedUnit claims (u.unitVals k)) = (some (u.unitVals k), [])) :
    voteUnit t k claims late u = setUnit k (u.unitVals k) (usedForced u) := by
  unfold voteUnit
  dsimp only
  rw [votersOn_of_no_splice hs]
  generalize hB : ballot _ u.voters late u.forced _ = B
  obtain rfl : B = (some (u.unitVals k), []) := hB.symm.trans hb
  dsimp only
  rw [duplexDissent_of_no_splice hs, if_neg Bool.false_ne_true, hs]
  rfl

/-- A vote on a unit in which no two cores agree. -/
theorem voteUnit_split (hb : (ballot (· == ·) u.voters late u.forced (presentedUnit claims (u.unitVals k))).1 = none) :
    voteUnit t k claims late u = if k < 32 then genNoMajority t k (usedForced u) else forceSafeStop t 0x02 (usedForced u) := by
  unfold voteUnit
  dsimp only
  rw [votersOn_of_no_splice hs]
  generalize hB : ballot _ u.voters late u.forced _ = B
  obtain ⟨agreed, ds⟩ := B
  obtain rfl : agreed = none := (congrArg Prod.fst hB).symm.trans hb
  dsimp only
  rw [ite_self]

end units

/-- The committed values of a generator's unit are its own p, v and a (R167). -/
theorem setUnit_gen {v : State} {k : Nat} (hk : k < 32) (hl : k < v.gens.length) (g : Nat) :
    (setUnit k (v.unitVals k) v).gen k = (v.gen k).commit ∧ (g ≠ k → (setUnit k (v.unitVals k) v).gen g = v.gen g) := by
  have hset : setUnit k (v.unitVals k) v = v.modGen k Gen.commit := by
    unfold setUnit State.unitVals State.modGen
    rw [if_pos hk, if_pos hk, upd_congr_at (d := Gen.reset) (g := Gen.commit)]
    simp [State.gen]
  rw [hset]
  constructor
  · simp [State.modGen, State.gen, upd, List.getElem?_modify, hl]
  · intro hg
    simp [State.modGen, State.gen, upd, List.getElem?_modify, Ne.symm hg]

/-! ### The rows -/

theorem voteLate_exec {t c : Nat} (hc : c < 4) (lv : LateVote) (s : State) :
    exec (.voteLate t c lv) s = .next (
      let u := s.advance t
      if (u.votersOn fun sp => match u.eng.due with | r :: _ => sp.joined.contains r.ch | [] => false).contains c then
        votePass t lv.claims [c] lv.clocks u else u) := if_pos hc

/-- Votes on passes and units. -/
theorem passVotes (t k clocks : Nat) (s : State) :
    let u := s.advance t
    let x (r : PassRec) : PassResult := (resolveInit r u).resultOf r
    let done (r : PassRec) : State := retirePass r true (commitPass t r (x r) clocks (usedForced (resolveInit r u)))
    let dissent (r : PassRec) (c kind : Nat) : State := finishSplice t (afterPass r.ch (dissented t r.ch [r.ch] 2 (c, kind)
      ((done r).modChan r.ch fun q => { q with disCount := satInc 65535 q.disCount })))
    (u.eng.due = [] → ∀ claims late, exec (.passVote t 0 k claims late clocks) s = .next u) ∧
    (u.eng.forceDissent = [] → u.eng.splice = none →
      (∀ r l, u.eng.due = r :: l → 2 ≤ u.voters.length →
        exec (.passVote t 0 k [] [] clocks) s = .next (finishSplice t (afterPass r.ch (done r)))) ∧
      (∀ r l a b q, u.eng.due = r :: l → u.voters = [a, b] → q.core = a → (claimResult q).same (x r) = false →
        exec (.passVote t 0 k [q] [] clocks) s = .next (finishSplice t (noMajority t r (usedForced (resolveInit r u))))) ∧
      (∀ r l a b c q, u.eng.due = r :: l → u.voters = [a, b, c] → q.core = c → (claimResult q).same (x r) = false →
        exec (.passVote t 0 k [q] [] clocks) s = .next (dissent r c 0)) ∧
      (∀ r l a b c, u.eng.due = r :: l → u.voters = [a, b, c] → exec (.voteLate t c ⟨[], clocks⟩) s = .next (dissent r c 1)) ∧
      (∀ c claims, c < 4 → u.voters.contains c = false → exec (.voteLate t c ⟨claims, clocks⟩) s = .next u) ∧
      (k < 32 → 2 ≤ u.voters.length → exec (.passVote t 1 k [] [] clocks) s = .next (setUnit k (u.unitVals k) (usedForced u))) ∧
      (∀ a b q, k < 32 → u.voters = [a, b] → q.core = a → q.vals ≠ u.unitVals k → exec (.passVote t 1 k [q] [] clocks) s =
        .next ((u.readers 3 (some k)).foldl (fun s n => chanFault t n 3 s)
          { usedForced u with gens := upd u.gens k fun g => { g with enable := false, p := g.pWas, v := g.vWas, a := g.aWas, vScale := g.sWas } })) ∧
      (2 ≤ u.voters.length → exec (.passVote t 2 k [] [] clocks) s = .next (setUnit 32 (u.unitVals 32) (usedForced u))) ∧
      (∀ v g, k < 32 → k < v.gens.length → (setUnit k (v.unitVals k) v).gen k = (v.gen k).commit ∧
        (g ≠ k → (setUnit k (v.unitVals k) v).gen g = v.gen g)) ∧
      (∀ a b q, u.voters = [a, b] → q.core = a → q.vals ≠ u.unitVals 32 →
        exec (.passVote t 2 k [q] [] clocks) s = .next (forceSafeStop t 2 (usedForced u)))) := by
  intro u x done dissent
  have hpass (claims late) : exec (.passVote t 0 k claims late clocks) s = .next (votePass t claims late clocks u) := rfl
  have hgen (claims) (hk : k < 32) : exec (.passVote t 1 k claims [] clocks) s = .next (voteUnit t k claims [] u) := if_pos hk
  have htrk (claims) : exec (.passVote t 2 k claims [] clocks) s = .next (voteUnit t 32 claims [] u) := rfl
  have hvals {a b : List Int} (h : a ≠ b) : (a == b) = false := beq_eq_false_iff_ne.2 h
  refine ⟨fun hd claims late => ?_, fun hf hs => ?_⟩
  · rw [hpass]
    unfold votePass
    rw [hd]
  have hforced : u.forced = [] := by unfold State.forced; rw [hf]; rfl
  have hnodup := voters_nodup u
  refine ⟨fun r l hd h2 => ?_, fun r l a b q hd hv hq hne => ?_, fun r l a b c q hd hv hq hne => ?_, fun r l a b c hd hv => ?_,
    fun c claims hc hno => ?_, fun hk h2 => ?_, fun a b q hk hv hq hne => ?_, fun h2 => ?_, fun v g hk hl => setUnit_gen hk hl g,
    fun a b q hv hq hne => ?_⟩
  · rw [hpass, votePass_agreed hd hs (by rw [presented_none, hforced]; exact ballot_agreed (passResult_same_refl _) h2)]
    rfl
  · have hab : a ≠ b := by rw [hv] at hnodup; simpa using hnodup
    rw [hpass, votePass_split hd hs]
    rw [hv, hforced, presented_one, hq]
    exact ballot_split passResult_same_refl hab hne ((passResult_same_symm _ _).trans hne)
  · have ⟨hac, hbc⟩ : a ≠ c ∧ b ≠ c := by rw [hv] at hnodup; simp at hnodup; exact ⟨hnodup.1.2, hnodup.2⟩
    rw [hpass, votePass_dissent hd hs (d := (c, 0))]
    · rfl
    rw [hv, hforced, presented_one, hq]
    exact ballot_dissent passResult_same_refl hac hbc ((passResult_same_symm _ _).trans hne)
  · have ⟨hac, hbc⟩ : a ≠ c ∧ b ≠ c := by rw [hv] at hnodup; simp at hnodup; exact ⟨hnodup.1.2, hnodup.2⟩
    have hmem : c ∈ u.voters := by rw [hv]; simp
    rw [voteLate_exec (voters_lt hmem)]
    dsimp only
    rw [votersOn_of_no_splice hs, if_pos (by simpa using hmem), votePass_dissent hd hs (d := (c, 1))]
    · rfl
    rw [hv, hforced, presented_none]
    exact ballot_late (passResult_same_refl _) hac hbc
  · rw [voteLate_exec hc]
    dsimp only
    rw [votersOn_of_no_splice hs, if_neg (by rw [hno]; exact Bool.false_ne_true)]
  · rw [hgen [] hk, voteUnit_agreed hs]
    rw [hforced]
    exact ballot_agreed (beq_self_eq_true _) h2
  · have hab : a ≠ b := by rw [hv] at hnodup; simpa using hnodup
    rw [hgen [q] hk, voteUnit_split hs, if_pos hk]
    · rfl
    rw [hv, hforced, presentedUnit_one, hq]
    exact ballot_split (fun x => beq_self_eq_true x) hab (hvals hne) (hvals (Ne.symm hne))
  · rw [htrk, voteUnit_agreed hs]
    rw [hforced]
    exact ballot_agreed (beq_self_eq_true _) h2
  · have hab : a ≠ b := by rw [hv] at hnodup; simpa using hnodup
    rw [htrk, voteUnit_split hs, if_neg (by decide)]
    rw [hv, hforced, presentedUnit_one, hq]
    exact ballot_split (fun x => beq_self_eq_true x) hab (hvals hne) (hvals (Ne.symm hne))

/-! ### Late samples, channel faults and overruns -/

/-- Slot i of a pass waits for a sample that has not come (R158). -/
def awaits (s : State) (ain out : Nat) (r : PassRec) (i : Nat) : Bool :=
  let w := inSlot s.eng.act r.ch i
  slotKind w == 1 && slotIndex w == ain && slotSub w == out && !s.sampleCame ((s.ain ain).outs.getD out Decim.reset) r.atT

/-- A pass whose late slots load the previous sample, marked invalid (R158). -/
def timedOut (s : State) (ain out : Nat) (r : PassRec) : PassRec :=
  let idx := (List.range 16).filter fun i => awaits s ain out r i && !r.timeouts.contains i
  { r with
    timeouts := r.timeouts ++ idx
    ins := (List.range 16).map fun i =>
      let v := r.ins.getD i (0, none, 0, false)
      if idx.contains i then
        let x := s.slotValue r.atT (inSlot s.eng.act r.ch i)
        (x.1, some (x.2.1.getD x.2.2.1), x.2.2.1, x.2.2.2)
      else v }

theorem sampleTimeout_exec {t ain : Nat} (h : ain < 24) (out : Nat) (s : State) :
    let u := s.advance t
    exec (.sampleTimeout t ain out) s = .next { u with eng := { u.eng with due := u.eng.due.map (timedOut u ain out) } } := if_pos h

/-- A slot that awaits its sample and has not timed out yet does so. -/
theorem timedOut_slot {s : State} {ain out i : Nat} {r : PassRec} (hi : i < 16) (hn : i ∉ r.timeouts) (h : awaits s ain out r i = true) :
    i ∈ (timedOut s ain out r).timeouts ∧
    (timedOut s ain out r).ins.getD i (0, none, 0, true) =
      (let x := s.slotValue r.atT (inSlot s.eng.act r.ch i); (x.1, some (x.2.1.getD x.2.2.1), x.2.2.1, x.2.2.2)) := by
  have hidx : i ∈ (List.range 16).filter fun i => awaits s ain out r i && !r.timeouts.contains i :=
    List.mem_filter.2 ⟨List.mem_range.2 hi, by simp [h, hn]⟩
  refine ⟨List.mem_append_right _ hidx, ?_⟩
  unfold timedOut
  dsimp only
  rw [List.getD_eq_getElem _ _ (by simpa using hi), List.getElem_map, List.getElem_range, if_pos (by simpa using hidx)]

/-- The reaction of a channel whose passes have been invalid for 100 µs (R133). -/
theorem faultDue_some {u : State} {k a : Nat} (h : (u.chan k).invSince = some a) (t : Nat) :
    faultDue t k u = if (u.chan k).running ∧ a + 100000 ≤ (u.chan k).invAt then (chanFault t k 1 u).modChan k fun c => { c with invSince := none } else u := by
  unfold faultDue
  dsimp only
  rw [h]

theorem overrun_none (t g : Nat) (u : State) : overrun t g [] u = u := if_pos rfl

/-- Channel faults, overruns and late samples. -/
theorem faultsAndOverruns (t k : Nat) (s : State) :
    let u := s.advance t
    let old := u.eng.due.filter fun r => r.group == k && u.period k != 0 && decide (r.atT + u.period k ≤ t)
    (∀ a, k < 256 → (u.chan k).invSince = some a → (u.chan k).running = true → a + 100000 ≤ (u.chan k).invAt →
      exec (.channelFault t k) s = .next ((chanFault t k 1 u).modChan k fun c => { c with invSince := none })) ∧
    (∀ a, k < 256 → (u.chan k).invSince = some a → (u.chan k).invAt < a + 100000 → exec (.channelFault t k) s = .next u) ∧
    (k < 8 → old = [] → exec (.rateOverrun t k) s = .next u) ∧
    (k < 8 → old ≠ [] → exec (.rateOverrun t k) s = .next (overrun t k old u)) ∧
    (∀ out, k < 24 → u.eng.due = [] → exec (.sampleTimeout t k out) s = .next u) ∧
    (∀ r out i, k < 24 → u.eng.due = [r] → i < 16 → i ∉ r.timeouts →
      (let w := inSlot u.eng.act r.ch i; slotKind w = 1 ∧ slotIndex w = k ∧ slotSub w = out) →
      u.sampleCame ((u.ain k).outs.getD out Decim.reset) r.atT = false →
      ∃ v r', exec (.sampleTimeout t k out) s = .next v ∧ v.eng.due = [r'] ∧ i ∈ r'.timeouts ∧ r'.ch = r.ch ∧
        r'.ins.getD i (0, none, 0, true) =
          (let x := u.slotValue r.atT (inSlot u.eng.act r.ch i); (x.1, some (x.2.1.getD x.2.2.1), x.2.2.1, x.2.2.2))) := by
  intro u old
  have hfault (hk : k < 256) : exec (.channelFault t k) s = .next (faultDue t k u) := if_pos hk
  have hover (hk : k < 8) : exec (.rateOverrun t k) s = .next (overrun t k old u) := if_pos hk
  refine ⟨fun a hk h hr ha => ?_, fun a hk h ha => ?_, fun hk h => ?_, fun hk _ => hover hk, fun out hk hd => ?_,
    fun r out i hk hd hi hn hw hc => ?_⟩
  · rw [hfault hk, faultDue_some h, if_pos ⟨hr, ha⟩]
  · rw [hfault hk, faultDue_some h, if_neg fun hr => Nat.not_le.2 ha hr.2]
  · rw [hover hk, h, overrun_none]
  · rw [sampleTimeout_exec hk]
    dsimp only
    rw [hd, List.map_nil, ← hd]
  · obtain ⟨hkind, hindex, hsub⟩ := hw
    have haw : awaits u k out r i = true := by
      unfold awaits
      dsimp only
      rw [hkind, hindex, hsub, hc]
      simp
    obtain ⟨hmem, hins⟩ := timedOut_slot hi hn haw
    refine ⟨_, timedOut u k out r, sampleTimeout_exec hk out s, ?_, hmem, rfl, hins⟩
    dsimp only
    rw [hd, List.map_cons, List.map_nil]

/-- Settles O38: the votes, then faults, overruns and late samples. -/
theorem passVotesAndFaults : Obligations.PassVotesAndFaults := ⟨passVotes, faultsAndOverruns⟩

end Sys2Proof.Machine
end

section
/-! SUPPORT. The grid tracker, the links, the DC-link defence and ride-through (R194, R196, R203, R226, R229, R236, R237, R242, R245, R247). -/

namespace Sys2Proof.Machine

/-! ### The tracker and the links -/

theorem trackerTo_of_ne {u : State} {st : Nat} (h : u.grid.trk.state ≠ st) (t : Nat) :
    trackerTo t st u = (u.modTrk fun k => { k with state := st, lockCount := 0, badCount := 0, lockedAt := if st = 2 then t else k.lockedAt }).post t
      (ev 0x0430 0 ([BitVec.ofNat 8 u.grid.trk.state, BitVec.ofNat 8 st, 0, 0] ++ le 4 u.grid.trk.f)) := if_neg h

/-- Twenty ticks lock the tracker (R194). -/
theorem trackerLocked_next {t : Nat} {s : State} (h1 : (s.advance t).grid.trk.state = 1) (hc : 20 ≤ (s.advance t).grid.trk.lockCount) :
    let u := s.advance t
    exec (.trackerLocked t) s = .next (State.post t (ev 0x0430 0 ([1, 2, 0, 0] ++ le 4 u.grid.trk.f))
      { u with grid := { u.grid with trk := { u.grid.trk with state := 2, lockCount := 0, badCount := 0, lockedAt := t } } }) := by
  refine congrArg _ ((if_pos ⟨h1, hc⟩).trans ((trackerTo_of_ne (by omega) t).trans ?_))
  rw [h1]
  rfl

/-- Three bad ticks, or a frequency out of range, send it back to Acquiring (R194). -/
theorem trackerAcquiring_next {t : Nat} {s : State} (h2 : (s.advance t).grid.trk.state = 2)
    (hb : 3 ≤ (s.advance t).grid.trk.badCount ∨ fInRange (s.advance t).grid.trk.f = false) :
    let u := s.advance t
    exec (.trackerAcquiring t) s = .next (State.post t (ev 0x0430 0 ([2, 1, 0, 0] ++ le 4 u.grid.trk.f))
      { u with grid := { u.grid with trk := { u.grid.trk with state := 1, lockCount := 0, badCount := 0 } } }) := by
  have hb' : 3 ≤ (s.advance t).grid.trk.badCount ∨ (!fInRange (s.advance t).grid.trk.f) = true := hb.imp_right fun h => by rw [h]; rfl
  refine congrArg _ ((if_pos ⟨h2, hb'⟩).trans ((trackerTo_of_ne (by omega) t).trans ?_))
  rw [h2]
  rfl

theorem linkDelivery_exec (t : Nat) (s : State) :
    exec (.linkDelivery t) s = .next (if (s.advance t).onGridBoundary t then deliverLinks (s.advance t) else s.advance t) := rfl

/-- Link values waiting are delivered, once (R203). -/
theorem deliverLinks_some {u : State} {c : GridCfg} {l : List (BitVec 16)} (hc : u.grid.cfg = some c) (hl : u.grid.linkOut = some l) :
    deliverLinks u = { u with
      grid := { u.grid with linkOut := none }
      eng := { u.eng with links := (List.range 8).foldl (fun a i => a.set (c.linkBase + i) (l.getD i 0)) u.eng.links } } := by
  unfold deliverLinks
  rw [hc, hl]

theorem trackerAndLinks (t : Nat) (s : State) :
    let u := s.advance t
    let k := u.grid.trk
    (k.state = 1 → 20 ≤ k.lockCount → exec (.trackerLocked t) s =
      .next (State.post t (ev 0x0430 0 ([1, 2, 0, 0] ++ le 4 k.f))
        { u with grid := { u.grid with trk := { k with state := 2, lockCount := 0, badCount := 0, lockedAt := t } } })) ∧
    ((k.state ≠ 1 ∨ k.lockCount < 20) → exec (.trackerLocked t) s = .next u) ∧
    (k.state = 2 → (3 ≤ k.badCount ∨ fInRange k.f = false) → exec (.trackerAcquiring t) s =
      .next (State.post t (ev 0x0430 0 ([2, 1, 0, 0] ++ le 4 k.f))
        { u with grid := { u.grid with trk := { k with state := 1, lockCount := 0, badCount := 0 } } })) ∧
    (k.reacq = true → k.reacqUntil ≤ t → exec (.reacqClear t) s =
      .next { u with grid := { u.grid with trk := { k with reacq := false } } }) ∧
    (u.onGridBoundary t = false → exec (.linkDelivery t) s = .next u) ∧
    (∀ c l, u.onGridBoundary t = true → u.grid.cfg = some c → u.grid.linkOut = some l → exec (.linkDelivery t) s = .next { u with
      grid := { u.grid with linkOut := none }
      eng := { u.eng with links := (List.range 8).foldl (fun a i => a.set (c.linkBase + i) (l.getD i 0)) u.eng.links } }) := by
  intro u k
  refine ⟨fun h hc => trackerLocked_next h hc, fun h => congrArg _ (if_neg fun hk => ?_), fun h hb => trackerAcquiring_next h hb,
    fun h ht => congrArg _ (if_pos ⟨h, ht⟩), fun h => ?_, fun c l h hc hl => ?_⟩
  · exact h.elim (fun h => h hk.1) fun h => Nat.not_le.2 h hk.2
  · rw [linkDelivery_exec, if_neg (ne_true_of_eq_false h)]
  · rw [linkDelivery_exec, if_pos h, deliverLinks_some hc hl]

/-! ### The DC-link defence -/

theorem dclChopperFault_some {t a : Nat} {s : State} (h : (s.advance t).dcl.chopSince = some a) :
    let u := s.advance t
    exec (.dclChopperFault t) s = .next (if a + 20000 ≤ t ∧ !u.dcl.chopFault then
      State.post t (ev 0x0444 u.ports.chopper (le 2 u.vdcV ++ le 2 (u.leg u.ports.chopper).applied.toNat))
        { u with dcl := { u.dcl with chopFault := true } } else u) := by
  change execDclChopperFault t s = _
  unfold execDclChopperFault
  dsimp only
  conv_lhs => rw [h]
  rfl

/-- The defence released: the ports it held restart (R247). -/
def dclReleased (t : Nat) (u : State) : State :=
  let v := (List.range 16).foldl (fun s p => if (s.pv p).state = 6 then pvRestart t p s else s)
    { u with dcl := { u.dcl with active := false, step2 := false } }
  let w := (List.range 4).foldl (fun s b =>
    (if (s.bat b).state = 4 then batTo t b 3 s else s).modBat b fun x => { x with overridden := false }) v
  dclEvent t 0 (legsUpdate t w)

theorem dclRelease_some {t a : Nat} {s : State} (h : (s.advance t).dcl.relSince = some a) :
    exec (.dclRelease t) s = .next (if (s.advance t).dcl.active ∧ a + 10000000 ≤ t then dclReleased t (s.advance t) else s.advance t) := by
  change execDclRelease t s = _
  unfold execDclRelease dclReleased
  dsimp only
  conv_lhs => rw [h]
  rfl

theorem dcLinkDefence (t : Nat) (s : State) :
    let u := s.advance t
    (∀ a, u.dcl.chopSince = some a → a + 20000 ≤ t → u.dcl.chopFault = false → exec (.dclChopperFault t) s =
      .next (State.post t (ev 0x0444 u.ports.chopper (le 2 u.vdcV ++ le 2 (u.leg u.ports.chopper).applied.toNat))
        { u with dcl := { u.dcl with chopFault := true } })) ∧
    (∀ a, u.dcl.chopSince = some a → t < a + 20000 → exec (.dclChopperFault t) s = .next u) ∧
    (∀ a, u.dcl.relSince = some a → a + 10000000 ≤ t → u.dcl.active = true → exec (.dclRelease t) s = .next (dclReleased t u)) ∧
    (∀ a, u.dcl.relSince = some a → (t < a + 10000000 ∨ u.dcl.active = false) → exec (.dclRelease t) s = .next u) ∧
    ((u.rt.uvDcTicks < 5 ∨ u.rt.uvActed = true) → exec (.dclUndervoltage t) s = .next u) := by
  intro u
  refine ⟨fun a h ha hf => ?_, fun a h ha => ?_, fun a h ha hact => ?_, fun a h hno => ?_, fun h => congrArg _ (if_neg ?_)⟩
  · rw [dclChopperFault_some h, if_pos ⟨ha, by rw [hf]; rfl⟩]
  · rw [dclChopperFault_some h, if_neg fun hk => Nat.not_le.2 ha hk.1]
  · rw [dclRelease_some h, if_pos ⟨hact, ha⟩]
  · rw [dclRelease_some h, if_neg fun hk => hno.elim (fun h => Nat.not_le.2 h hk.2) fun h => ne_true_of_eq_false h hk.1]
  · unfold State.uvTrip
    obtain h | h := h
    · exact fun hk => Nat.not_le.2 h (of_decide_eq_true (Bool.and_elim_left hk))
    · exact fun hk => absurd (Bool.and_elim_right hk) (by rw [h]; decide)

/-- Settles O39: the tracker and the links, then the DC-link defence. -/
theorem gridTrackerAndDcLink : Obligations.GridTrackerAndDcLink := ⟨trackerAndLinks, dcLinkDefence⟩

/-! ### Ride-through -/

/-- The gate's time-out is that of grid power alone (R236). -/
theorem gateTimeout_of_mode {u : State} (h : u.modes.mode = 1 ∨ u.modes.mode = 2) (t : Nat) : u.gateTimeout t = false := by
  unfold State.gateTimeout
  obtain h | h := h <;> rw [h] <;> simp

/-- With no enter-service delay running there is none to restart (R242). -/
theorem restartDelay_idle {u : State} (h0 : u.rt.esTicks = 0) (hd : u.rt.esDone = false) (t : Nat) : restartDelay t u = u :=
  if_neg fun h => h.elim (fun h => h h0) (ne_true_of_eq_false hd)

/-- A trip in safe stop or standby is reported, and that is all (R229). -/
theorem rtTrip_at_rest {u : State} (hm : u.modes.mode = 1 ∨ u.modes.mode = 2) (h0 : u.rt.esTicks = 0) (hd : u.rt.esDone = false) (t : Nat) :
    rtTrip t u = State.post t (ev 0x0441 0 (le 2 (u.tripMask + flagAt u.uvTrip 9) ++ le 2 (milli16 u.rt.vLo) ++ le 2 (milli16 u.rt.vHi) ++ le 4 u.rt.f))
      { u with rt := { u.rt with
        trips := u.rt.trips.map fun x => { x with tripped := x.tripped || (x.enable && x.tTicks ≤ x.count) }, uvActed := u.rt.uvActed || u.uvTrip } } := by
  have hmode7 : u.modes.mode ≠ 7 := by omega
  have hmode3 : ¬(3 ≤ u.modes.mode ∧ u.modes.mode ≤ 6) := by omega
  unfold rtTrip State.tripsAt
  dsimp only
  rw [if_neg hmode7, if_neg hmode3, gateTimeout_of_mode hm, onFrontL_of_mode_ne hmode7, restartDelay_idle (by simpa using h0) (by simpa using hd)]
  simp [State.modRt, flagAt]

theorem rtRestart_exec (t : Nat) (s : State) :
    exec (.rtRestart t) s = .next (if (s.advance t).onGridBoundary t then gateDue t (s.advance t) else s.advance t) := rfl

theorem esComplete_done {u : State} (hd : u.rt.esDone = false) (ht : u.rt.esDelay * 1000 ≤ u.rt.esTicks) (hc : u.esCond = true) (t : Nat) :
    esComplete t u = State.post t (ev 0x0443 0 [1]) { u with rt := { u.rt with esDone := true } } :=
  if_neg fun h => h.elim (ne_true_of_eq_false hd) fun h => h.elim (Nat.not_lt.2 ht) fun h => by rw [hc] at h; cases h

/-- The gate's time-out counted (R237). -/
theorem gateTimeout_due {u : State} {t : Nat} (hc : u.rt.gateClosed = true) (ho : u.rt.gateOpening = false) (hn : u.rt.gateTimed = false)
    (hm : u.modes.mode = 4 ∨ u.modes.mode = 5) (ht : u.rt.gateAt + u.rt.restartMax * 1000000 ≤ t) : u.gateTimeout t = true := by
  unfold State.gateTimeout
  rw [hc, ho, hn, decide_eq_true ht]
  obtain h | h := hm <;> rw [h] <;> rfl

/-- Settles O40: trips, the return to a less severe class, the restart and its time-out, and the enter-service delay. -/
theorem rideThroughHappenings : Obligations.RideThroughHappenings := by
  intro t s u r
  refine ⟨fun h => congrArg _ (if_pos h), fun h => congrArg _ (if_neg fun hk => hk h), fun h hm h0 hd => ?_, fun h0 hr => ?_, fun hr => ?_, fun hb ho => ?_,
    fun h => ?_, fun hc ho hn hm ht => ⟨?_, ?_⟩, fun h => congrArg _ (if_neg ?_), fun hd ht hc => ?_⟩
  · exact congrArg _ ((if_pos h).trans (rtTrip_at_rest hm h0 hd t))
  · exact congrArg _ ((if_pos ⟨h0, hr⟩).trans (congrArg (cessationReturn t) (if_pos ⟨h0, hr⟩)))
  · exact congrArg _ (if_neg fun hk => Nat.not_le.2 hr hk.2)
  · rw [rtRestart_exec, if_pos hb]
    exact congrArg _ (if_pos ho)
  · rw [rtRestart_exec]
    obtain hb | ho := h
    · rw [if_neg (ne_true_of_eq_false hb)]
    · have hgate : gateDue t u = u := if_neg (ne_true_of_eq_false ho)
      rw [hgate, ite_self]
  · exact congrArg _ (if_pos (gateTimeout_due hc ho hn hm ht))
  · unfold State.tripsAt
    rw [gateTimeout_due hc ho hn hm ht]
    rfl
  · unfold State.gateTimeout
    obtain h | h := h
    · rw [h]; simp
    · rw [decide_eq_false (Nat.not_le.2 h)]; simp
  · exact congrArg _ (congrArg (serviceCauses t) (esComplete_done hd ht hc t))

end Sys2Proof.Machine
end

section
/-! SUPPORT. Engine, profile, grid, ride-through and islanding commands (R181 to R184, R215 to R221, R249 to R256, R280 to R284). -/

namespace Sys2Proof.Machine

/-! ### Engine and profile commands -/

/-- A generator changed, its new value given by the old one. -/
theorem modGen_eq (k : Nat) (f : Gen → Gen) (s : State) : s.modGen k f = { s with gens := upd s.gens k fun _ => f (s.gen k) } := by
  unfold State.modGen State.gen
  rw [← upd_eq]

theorem setTarget_held {g : Gen} (h : g.held = true) (x : BitVec 16) : g.setTarget x = { g with pendTarget := some x } := if_pos h

theorem setTarget_moving {g : Gen} (h : g.held = false) (x : BitVec 16) :
    g.setTarget x = { g with target := x, arrived := g.arrived && g.target == x } := if_neg (ne_true_of_eq_false h)

theorem hold_again {g : Gen} (h : g.held = true) (T : F32) : g.hold true T = g := (if_pos rfl).trans (if_pos h)

theorem hold_moving {g : Gen} (h : g.held = false) (T : F32) :
    g.hold true T = { g with held := true, holdPoint := if T = 0 then g.p else g.holdAt genFuel T } :=
  (if_pos rfl).trans (if_neg (ne_true_of_eq_false h))

theorem hold_release {g : Gen} (h : g.pendTarget = none) (T : F32) : g.hold false T = { g with held := false } := by
  unfold Gen.hold
  rw [if_neg Bool.false_ne_true, h]

theorem hold_release_pending {g : Gen} {x : BitVec 16} (h : g.pendTarget = some x) (T : F32) :
    g.hold false T = { g with held := false, pendTarget := none, target := x, arrived := g.arrived && g.target == x } := by
  unfold Gen.hold
  rw [if_neg Bool.false_ne_true, h]

/-- PROFILE_TARGET leaves the generator as its new value v is. -/
theorem profileTarget_effects {p : Packet} {s : State} {v : Gen}
    (h : ((begun p s).gen (u8 p.payload 0)).setTarget (BitVec.ofNat 16 (u16 p.payload 2)) = v) :
    Effects (.profileTarget p) specProfileTarget p s .ok [] { begun p s with gens := upd (begun p s).gens (u8 p.payload 0) fun _ => v } :=
  effects_of_run rfl (by simp only [specProfileTarget, modGen_eq, h])

/-- PROFILE_HOLD leaves the generator as its new value v is. -/
theorem profileHold_effects {p : Packet} {s : State} {on : Bool} {v : Gen} (hon : bit (u8 p.payload 1) 0 = on)
    (h : ((begun p s).gen (u8 p.payload 0)).hold on (secondsF ((begun p s).period ((begun p s).gen (u8 p.payload 0)).group)) = v) :
    Effects (.profileHold p) specProfileHold p s .ok [] { begun p s with gens := upd (begun p s).gens (u8 p.payload 0) fun _ => v } :=
  effects_of_run rfl (by simp only [specProfileHold, modGen_eq, hon, h])

/-- Settles O17: the rate configuration waits, and a profile command sets its generator by the generator's own rule. -/
theorem engineAndProfilePackets : Obligations.EngineAndProfilePackets := by
  intro p s
  refine ⟨effects_of_run rfl rfl, effects_of_run rfl rfl, effects_of_run rfl ?_, fun h => profileTarget_effects (setTarget_held h _),
    fun h => profileTarget_effects (setTarget_moving h _), fun hon h => profileHold_effects hon (hold_again h _),
    fun hon h => profileHold_effects hon (hold_moving h _), fun hon h => profileHold_effects hon (hold_release h _),
    fun x hon h => profileHold_effects hon (hold_release_pending h _), effects_of_run rfl rfl⟩
  simp only [specProfileConfig, modGen_eq]
  rfl

/-! ### Grid commands -/

/-- Settles O18: each command's record written into the grid unit. -/
theorem gridPackets : Obligations.GridPackets := by
  intro p s
  refine ⟨effects_of_run rfl rfl, effects_of_run rfl rfl, effects_of_run rfl rfl, effects_of_run rfl ?_, effects_of_run rfl rfl,
    effects_of_run rfl rfl, effects_of_run rfl rfl⟩
  simp only [specGridFunction]
  rw [upd_eq _ _ _ GridFn.reset]

/-! ### Ride-through and DC-link commands -/

/-- Settles O19: each command's record written into the ride-through unit or the DC-link defence. -/
theorem rideThroughPackets : Obligations.RideThroughPackets := by
  intro p s
  refine ⟨effects_of_run rfl rfl, effects_of_run rfl rfl, effects_of_run rfl ?_, effects_of_run rfl rfl, effects_of_run rfl rfl,
    effects_of_run rfl rfl, effects_of_run rfl rfl, effects_of_run rfl rfl⟩
  simp only [specRtTripSet, State.modRt]
  rw [upd_eq _ _ _ TripFn.reset]

/-! ### Islanding commands -/

/-- Settles O20: each command's record; a peer's entry is posted where it was in the map. -/
theorem islandingPackets : Obligations.IslandingPackets := by
  intro p s
  refine ⟨effects_of_run rfl rfl, fun h => effects_of_run rfl ?_, fun h => effects_of_run rfl ?_, fun h => effects_of_run rfl ?_,
    fun h => effects_of_run rfl ?_, effects_of_run rfl rfl, effects_of_run rfl rfl, effects_of_run rfl rfl⟩
  · simp only [specIslPassiveSet, State.modIsl, if_pos h]
  · simp only [specIslPassiveSet, State.modIsl, if_neg h]
  · simp only [specIslPeerSet, setPeer]
    rw [if_neg (ne_true_of_eq_false h)]
    rfl
  · simp only [specIslPeerSet, setPeer]
    rw [if_pos h]
    rfl

end Sys2Proof.Machine
end

section
/-! SUPPORT. Port, PWM and sensing commands (R307 to R312, R332 to R337, R362 to R367). -/

namespace Sys2Proof.Machine

/-! ### Port commands -/

/-- A PV port changed, its new value given by the old one. -/
theorem modPv_eq (k : Nat) (f : Pv → Pv) (s : State) :
    s.modPv k f = { s with ports := { s.ports with pv := upd s.ports.pv k fun _ => f (s.pv k) } } := by
  unfold State.modPv State.pv
  rw [← upd_eq]

/-- A BMS node changed, its new value given by the old one. -/
theorem modBms_eq (k : Nat) (f : Bms → Bms) (s : State) :
    s.modBms k f = { s with ports := { s.ports with bms := upd s.ports.bms k fun _ => f (s.bms k) } } := by
  unfold State.modBms State.bms
  rw [← upd_eq]

theorem portEnable_bat (t : Nat) (on : Bool) (n : Nat) (s : State) :
    Machine.portEnable t true on n s = legsUpdate t (batState t n (s.modBat n fun x => { x with enable := on })) := if_pos rfl

theorem portEnable_pv_off (t n : Nat) (s : State) :
    Machine.portEnable t false false n s =
      legsUpdate t ((pvTo t n 0 (abortSweep t n 6 s)).modPv n fun x => { x with ordered := false, reserve := 0 }) :=
  (if_neg Bool.false_ne_true).trans (if_neg Bool.false_ne_true)

theorem portEnable_pv_start {n : Nat} {s : State} (h : (s.pv n).state = 0) (t : Nat) :
    Machine.portEnable t false true n s = pvTo t n 1 (s.modPv n fun x => { x with credit := 0 }) :=
  (if_neg Bool.false_ne_true).trans ((if_pos rfl).trans (if_pos h))

theorem portEnable_pv_on {n : Nat} {s : State} (h : (s.pv n).state ≠ 0) (t : Nat) : Machine.portEnable t false true n s = s :=
  (if_neg Bool.false_ne_true).trans ((if_pos rfl).trans (if_neg h))

/-- PORT_ENABLE leaves the state that its port's rule gives. -/
theorem portEnable_effects {p : Packet} {s v : State} {bat on : Bool} (hb : (u8 p.payload 0 == 1) = bat) (hon : bit (u8 p.payload 2) 0 = on)
    (h : Machine.portEnable p.t bat on (u8 p.payload 1) (begun p s) = v) : Effects (.portEnable p) specPortEnable p s .ok [] v :=
  effects_of_run rfl (by simp only [specPortEnable, hb, hon, h])

/-- Settles O21: each command's record written into its port, and PORT_ENABLE by the kind of the port. -/
theorem portPackets : Obligations.PortPackets := by
  intro p s
  have bat (h : u8 p.payload 0 = 1) : (u8 p.payload 0 == 1) = true := beq_iff_eq.2 h
  have pv (h : u8 p.payload 0 = 0) : (u8 p.payload 0 == 1) = false := beq_false_of_ne (by omega)
  refine ⟨effects_of_run rfl rfl, effects_of_run rfl rfl, effects_of_run rfl rfl, effects_of_run rfl rfl, fun h => effects_of_run rfl ?_,
    fun h => effects_of_run rfl ?_, effects_of_run rfl ?_, fun h hon => portEnable_effects (bat h) hon (portEnable_bat _ _ _ _),
    fun h hon => portEnable_effects (bat h) hon (portEnable_bat _ _ _ _), fun h hon => portEnable_effects (pv h) hon (portEnable_pv_off _ _ _),
    fun h hon hs => portEnable_effects (pv h) hon (portEnable_pv_start hs _),
    fun h hon hs => portEnable_effects (pv h) hon (portEnable_pv_on hs _), fun h => effects_of_run rfl ?_, fun h => effects_of_run rfl ?_,
    fun c h => effects_of_run rfl ?_, effects_of_run rfl rfl, effects_of_run rfl rfl, effects_of_run rfl rfl⟩
  · have hk : u8 p.payload 0 ≠ 255 := by omega
    simp only [specPortMpptConfig, mpptPorts, if_neg hk, List.foldl_cons, List.foldl_nil, modPv_eq]
  · simp only [specPortMpptConfig, mpptPorts, if_pos h]
  · simp only [specPortBmsConfig, modBms_eq]
  · simp only [specPortBatSet, setBat, if_pos h]
    rfl
  · simp only [specPortBatSet, setBat, if_neg h]
    rfl
  · simp only [specPortSweep, modPv_eq, h]

/-! ### PWM commands -/

/-- Settles O22: each command on the settled PWM unit. -/
theorem pwmPackets : Obligations.PwmPackets := by
  intro p s
  refine ⟨effects_of_run rfl rfl, effects_of_run rfl rfl, fun h => effects_of_run rfl ?_, fun h => effects_of_run rfl ?_,
    fun h => effects_of_run rfl ?_, fun h => effects_of_run rfl ?_, effects_of_run rfl rfl⟩
  · simp only [specPwmDutySet]
    rw [if_pos h]
    rfl
  · simp only [specPwmDutySet]
    rw [if_neg (ne_true_of_eq_false h)]
  · simp only [specPwmLegTest]
    rw [if_pos h]
    rfl
  · simp only [specPwmLegTest]
    rw [if_neg (ne_true_of_eq_false h)]

/-! ### Sensing commands -/

/-- An analogue input changed, its new value given by the old one. -/
theorem modAin_eq (k : Nat) (f : Ain → Ain) (s : State) :
    s.modAin k f = { s with sense := { s.sense with ains := upd s.sense.ains k fun _ => f (s.ain k) } } := by
  unfold State.modAin State.ain
  rw [← upd_eq]

/-- Settles O23: each command's record; reads and path tests answer when they end. -/
theorem sensingPackets : Obligations.SensingPackets := by
  intro p s
  refine ⟨effects_of_run rfl ?_, effects_of_run rfl rfl, effects_of_run rfl rfl, effects_of_run rfl rfl, effects_of_run rfl rfl,
    fun h => effects_of_run rfl ?_, fun h => effectsLater_of_run rfl ?_, fun h => effectsLater_of_run rfl ?_,
    fun h => effectsLater_of_run rfl ?_, effects_of_run rfl rfl⟩
  · simp only [specSenseAinConfig, modAin_eq]
    rfl
  · simp only [specSenseHkRead, hkReadList, h, if_true, List.foldl_nil]
  · have hused : ((hkReadList p.payload).filter fun n => n != 255).eraseDups ≠ [] := h
    simp only [specSenseHkRead]
    rw [if_neg hused, if_neg hused]
    rfl
  · simp only [specSensePathTest, h, if_neg Bool.false_ne_true, Bool.false_and]
  · simp only [specSensePathTest, h, if_true, Bool.true_and]
    rfl

end Sys2Proof.Machine
end

section
/-! SUPPORT. Protection, recorder, network, cooling and clock commands (R393 to R398, R420, R460 to R478, R494, R495, R515, R516). -/

namespace Sys2Proof.Machine

/-! ### Protection commands -/

/-- A protection group changed, its new value given by the old one. -/
theorem modPGroup_eq (k : Nat) (f : PGroup → PGroup) (s : State) :
    s.modPGroup k f = { s with prot := { s.prot with groups := upd s.prot.groups k fun _ => f (s.pgroup k) } } := by
  unfold State.modPGroup State.pgroup
  rw [← upd_eq]

/-- The comparator of PROT_CMP_CONFIG, and all the rest with it, before the legs are evaluated (R395). -/
def cmpConfigured (k : Nat) (d : Cmp) (u : State) : State :=
  if d.input = 0 then (dropTest k u).modCmp k fun c => { Cmp.reset with action := if c.action = 3 then 3 else 0 }
  else if (u.cmp k).cell.isSome && (u.cmp k).sameBut d then
    u.modCmp k fun _ => { d with
      inForce := if d.rampLeg < 48 then (u.cmp k).inForce else if d.action = 3 then d.inForce else d.code
      main := if (u.cmp k).action = 2 then (u.cmp k).live else (u.cmp k).main }
  else
    (dropTest k (match u.cellFor k with | some j => mapCell k j u | none => u)).modCmp k fun _ => { d with
      inForce := if d.action = 3 then d.inForce else d.code, cell := u.cellFor k, main := true, live := true, hard := false, ready := false
      suspect := false, evtAt := none, mainAt := 0 }

/-- PROT_CMP_CONFIG leaves the comparator as its configuration gives it, and the legs evaluated. -/
theorem protCmpConfig_effects {p : Packet} {s v : State}
    (h : cmpConfigured (u8 p.payload 0) (cmpCfgOf p.payload ((begun p s).cmp (u8 p.payload 0))) (begun p s) = v) :
    Effects (.protCmpConfig p) specProtCmpConfig p s .ok [] (legsUpdate (begun p s).time (protDegraded v)) := by
  subst h
  exact effects_of_run rfl rfl

/-- The comparator freed. -/
theorem cmpConfigured_free {d : Cmp} (h : d.input = 0) (k : Nat) (u : State) :
    cmpConfigured k d u = (dropTest k u).modCmp k fun c => { Cmp.reset with action := if c.action = 3 then 3 else 0 } := if_pos h

/-- The comparator as it was but for its code: it keeps its cell. -/
theorem cmpConfigured_same {d : Cmp} {k : Nat} {u : State} (h : d.input ≠ 0) (hs : ((u.cmp k).cell.isSome && (u.cmp k).sameBut d) = true) :
    cmpConfigured k d u = u.modCmp k fun _ => { d with
      inForce := if d.rampLeg < 48 then (u.cmp k).inForce else if d.action = 3 then d.inForce else d.code
      main := if (u.cmp k).action = 2 then (u.cmp k).live else (u.cmp k).main } := (if_neg h).trans (if_pos hs)

/-- The comparator set anew, with a cell where one is free. -/
theorem cmpConfigured_anew {d : Cmp} {k : Nat} {u : State} (h : d.input ≠ 0) (hs : ((u.cmp k).cell.isSome && (u.cmp k).sameBut d) = false) :
    cmpConfigured k d u = (dropTest k ((u.cellFor k).elim u fun j => mapCell k j u)).modCmp k fun _ => { d with
      inForce := if d.action = 3 then d.inForce else d.code, cell := u.cellFor k, main := true, live := true, hard := false, ready := false
      suspect := false, evtAt := none, mainAt := 0 } := by
  unfold cmpConfigured
  rw [if_neg h, if_neg (ne_true_of_eq_false hs)]
  cases u.cellFor k <;> rfl

/-- Settles O24: each command's record and the legs evaluated; PROT_CMP_CONFIG by what changes of its comparator. -/
theorem protectionPackets : Obligations.ProtectionPackets := by
  intro p s
  refine ⟨effects_of_run rfl ?_, effects_of_run rfl rfl, fun h => protCmpConfig_effects (cmpConfigured_free h _ _),
    fun h hs => protCmpConfig_effects (cmpConfigured_anew h hs), fun h hs => protCmpConfig_effects (cmpConfigured_same h hs),
    fun h => effects_of_run rfl ?_, fun h => effects_of_run rfl ?_, effects_of_run rfl ?_, fun h => effects_of_run rfl ?_,
    fun h => effects_of_run rfl ?_, effectsLater_of_run rfl rfl, effects_of_run rfl rfl⟩
  · simp only [specProtGroupConfig, modPGroup_eq]
  · simp only [specProtMonConfig]
    rw [if_pos h]
  · simp only [specProtMonConfig]
    rw [if_neg (ne_true_of_eq_false h)]
  · simp only [specProtRelease, post_time]
    rfl
  · simp only [specProtTrip, if_neg h]
  · simp only [specProtTrip, if_pos h]

/-! ### Recorder commands -/

/-- REC_ARM leaves the recorder as its mode byte says. -/
theorem recArm_on {p : Packet} {s : State} (h : u8 p.payload 0 = 1) (hb : (begun p s).recBusy = false) :
    let u := begun p s
    Effects (.recArm p) specRecArm p s .ok []
      (armRecorder u.time { u with recorder := { u.recorder with
        ovfPosted := false, trigs := u.recorder.trigs.map fun x => { x with armed := true, count := 0 } } }) := by
  refine effects_of_run rfl ?_
  simp only [specRecArm]
  rw [if_pos h, if_neg (ne_true_of_eq_false hb)]
  rfl

theorem recArm_busy {p : Packet} {s : State} (h : u8 p.payload 0 = 1) (hb : (begun p s).recBusy = true) :
    Effects (.recArm p) specRecArm p s .ok [] (begun p s) := by
  refine effects_of_run rfl ?_
  simp only [specRecArm]
  rw [if_pos h, if_pos hb]

theorem recArm_off {p : Packet} {s : State} (h : u8 p.payload 0 ≠ 1) :
    let u := begun p s
    Effects (.recArm p) specRecArm p s .ok []
      { u with recorder := { u.recorder with state := 0, cur := none, opn := [], history := [], rearm := false, nextFires := [] } } := by
  refine effects_of_run rfl ?_
  simp only [specRecArm]
  rw [if_neg h]
  rfl

/-- REC_DELETE of a capture in MRAM is answered at once, DURABLE where ACK_ON_DURABLE asks. -/
theorem recDelete_mram {p : Packet} {s : State} (h : u8 p.payload 2 = 1) :
    let u := begun p s
    let v := { u with recorder := { u.recorder with mram := u.recorder.mram.filter fun c => c.id != u16 p.payload 0 } }
    (p.ack = false → Effects (.recDelete p) specRecDelete p s .ok [] v) ∧
    (p.ack = true → EffectsLater (.recDelete p) specRecDelete p s .ok [] (fun d s => sendReply d.src (setDurable d.bytes) s) v) := by
  refine durableNow_effects rfl ?_
  simp only [specRecDelete, if_pos h]
  rfl

theorem recDelete_sram {p : Packet} {s : State} (h : u8 p.payload 2 ≠ 1) :
    let u := begun p s
    Effects (.recDelete p) specRecDelete p s .ok []
      { u with recorder := { u.recorder with done := u.recorder.done.filter fun c => c.id != u16 p.payload 0 } } := by
  refine effects_of_run rfl ?_
  simp only [specRecDelete, if_neg h]
  rfl

/-- REC_COMMIT of a capture. -/
theorem recCommit_effects {p : Packet} {s : State} {c : Capture} (h : (begun p s).capture false (u16 p.payload 0) = some c) :
    let u := begun p s
    let v := commitCapture u.time { c with protect := bit (u8 p.payload 2) 0 } u
    (p.ack = false → Effects (.recCommit p) specRecCommit p s .ok (le 4 v.recorder.mramFree) v) ∧
    (p.ack = true → EffectsLater (.recCommit p) specRecCommit p s .ok (le 4 v.recorder.mramFree)
      (fun d s => sendReply d.src (setDurable d.bytes) s) v) := by
  refine durableNow_effects rfl ?_
  simp only [specRecCommit, h]

/-- Settles O25: each command's record written into the recorder. -/
theorem recorderPackets : Obligations.RecorderPackets := by
  intro p s
  refine ⟨effects_of_run rfl rfl, effects_of_run rfl rfl, effects_of_run rfl rfl, recArm_busy, recArm_on, recArm_off, effects_of_run rfl rfl,
    effects_of_run rfl rfl, ⟨fun h => (recDelete_mram h).1, fun h => (recDelete_mram h).2⟩, recDelete_sram, fun c h => recCommit_effects h,
    effects_of_run rfl rfl, fun h => effects_of_run rfl ?_, fun h => effects_of_run rfl ?_, effectsLater_of_run rfl rfl, effects_of_run rfl rfl⟩
  · simp only [specRecStatClear]
    rw [if_neg (ne_true_of_eq_false h)]
  · simp only [specRecStatClear]
    rw [if_pos h]

/-! ### Network commands -/

/-- Settles O27: each command's record written into the networks' unit. -/
theorem networkPackets : Obligations.NetworkPackets := by
  intro p s
  refine ⟨effects_of_run rfl ?_, effects_of_run rfl ?_, effects_of_run rfl rfl, effects_of_run rfl rfl, effects_of_run rfl ?_,
    effects_of_run rfl rfl, effects_of_run rfl rfl, effects_of_run rfl rfl, effects_of_run rfl rfl, effects_of_run rfl rfl,
    effects_of_run rfl rfl, effects_of_run rfl rfl⟩
  · simp only [specNetPortConfig, State.modNet]
    rw [upd_eq _ _ _ Port.reset]
  · simp only [specNetIpConfig, State.modNet]
    rw [upd_eq _ _ _ Port.reset]
  · simp only [specNetCanConfig, State.modNet]
    rw [upd_eq _ _ _ CanCtl.reset]

/-! ### Cooling and clock commands -/

/-- A cooling drive changed, its new value given by the old one. -/
theorem modDrive_eq (k : Nat) (f : Drive → Drive) (s : State) :
    s.modDrive k f = { s with cool := { s.cool with drives := upd s.cool.drives k fun _ => f (s.drive k) } } := by
  unfold State.modDrive State.drive
  rw [← upd_eq]

/-- A drive after a change of it. -/
theorem drive_modDrive {k : Nat} {s : State} (hk : k < s.cool.drives.length) (f : Drive → Drive) : (s.modDrive k f).drive k = f (s.drive k) := by
  unfold State.modDrive State.drive upd
  simp [hk]

/-- COOL_RUN starts a drive that rests (R494). -/
theorem coolRun_starts {k : Nat} {u : State} (h0 : (u.drive k).state = 0) (hk : k < u.cool.drives.length) (t target : Nat) :
    Machine.coolRun t k true false target u = driveStart t k 0 (u.modDrive k fun d => { d with target := target, stopped := false }) := by
  have hrest : ((u.modDrive k fun d => { d with target := target, stopped := false }).drive k).state = 0 :=
    (congrArg Drive.state (drive_modDrive hk _)).trans h0
  unfold Machine.coolRun
  rw [if_neg Bool.false_ne_true, if_pos rfl]
  exact if_pos hrest

/-- Settles O28: the drives' records, and the loop switched over. -/
theorem coolingAndClockPackets : Obligations.CoolingAndClockPackets := by
  intro p s
  refine ⟨effects_of_run rfl ?_, fun hon hclr h0 hk => effects_of_run rfl ?_, effects_of_run rfl rfl, effects_of_run rfl rfl,
    effects_of_run rfl rfl, effects_of_run rfl rfl, effects_of_run rfl rfl, effects_of_run rfl rfl⟩
  · simp only [specCoolConfig, modDrive_eq]
  · simp only [specCoolRun, hon, hclr, coolRun_starts h0 hk]

end Sys2Proof.Machine
end

section
/-! SUPPORT. The husk: what its events and states change, and its happenings (R548 to R558). -/

namespace Sys2Proof.Machine

/-! ### What the log of an event touches -/

/-- k is h but for its log: the open block, the full one, what is lost, the chain's hash and the events that wait for Ready (R553, R554). -/
def Husk.Logged (h k : Husk) : Prop :=
  ∃ (o : Sealed) (b : Option Sealed) (l m : Nat) (x : List Byte) (w : List (List Byte)),
    k = { h with opn := o, buf2 := b, lostEvents := l, lostSinceReady := m, lastHash := x, waiting := w }

theorem Husk.Logged.refl (h : Husk) : h.Logged h := ⟨_, _, _, _, _, _, rfl⟩

theorem Husk.Logged.trans {h k l : Husk} (a : h.Logged k) (b : k.Logged l) : h.Logged l := by
  obtain ⟨_, _, _, _, _, _, rfl⟩ := a
  obtain ⟨_, _, _, _, _, _, rfl⟩ := b
  exact ⟨_, _, _, _, _, _, rfl⟩

theorem Husk.append_logged (b : List Byte) (h : Husk) : h.Logged (h.append b) := by
  unfold Husk.append
  split
  · exact ⟨_, _, _, _, _, _, rfl⟩
  · split <;> exact ⟨_, _, _, _, _, _, rfl⟩

/-- t has the husk of s but for its log. -/
def HuskLogged (s t : State) : Prop := s.husk.Logged t.husk

theorem huskLogged_of_eq {s t : State} (h : t.husk = s.husk) : HuskLogged s t := by
  unfold HuskLogged
  rw [h]
  exact .refl _

theorem HuskLogged.trans {s t u : State} (a : HuskLogged s t) (b : HuskLogged t u) : HuskLogged s u := Husk.Logged.trans a b

/-- A fold whose every step leaves the husk leaves the husk. -/
theorem foldl_husk {α : Type} {f : State → α → State} (h : ∀ s x, (f s x).husk = s.husk) (l : List α) (s : State) :
    (l.foldl f s).husk = s.husk :=
  foldl_rel (R := fun s t => t.husk = s.husk) (fun _ => rfl) (fun a b => b.trans a) h l s

theorem setRingInt_husk (n : Nat) (s : State) : (s.setRingInt n).husk = s.husk := by
  unfold State.setRingInt; split <;> rfl

theorem postRing_husk (t : Nat) (e : Ev) (n : Nat) (s : State) : (postRing t e n s).husk = s.husk := by
  unfold postRing; dsimp only; split
  · split
    · exact setRingInt_husk n _
    · split
      · rfl
      · exact setRingInt_husk n _
  · rfl

theorem postRings_husk (t : Nat) (e : Ev) (s : State) : (postRings t e s).husk = s.husk := foldl_husk (fun s k => postRing_husk t e (16 + k) s) _ s

theorem markEvent_husk (t : Nat) (e : Ev) (s : State) : (markEvent t e s).husk = s.husk := by
  unfold markEvent; split <;> rfl

theorem sealEvent_logged (t : Nat) (e : Ev) (s : State) : HuskLogged s (sealEvent t e s) := by
  unfold sealEvent; split
  · exact Husk.append_logged _ _
  · exact huskLogged_of_eq rfl

theorem postBase_logged (t : Nat) (e : Ev) (s : State) : HuskLogged s (postBase t e s) := by
  unfold postBase
  refine HuskLogged.trans ?_ (huskLogged_of_eq (markEvent_husk _ _ _))
  exact HuskLogged.trans (huskLogged_of_eq (postRings_husk _ _ _)) (sealEvent_logged _ _ _)

theorem recOwnTriggers_husk (t : Nat) (s : State) : (recOwnTriggers t s).husk = s.husk :=
  foldl_husk (fun s k => by dsimp only; split <;> rfl) _ s

theorem recFire_logged (u : Nat) (st : Int) (s : State) : HuskLogged s (recFire u st s) := by
  unfold recFire; dsimp only; split
  · refine HuskLogged.trans ?_ (huskLogged_of_eq (recOwnTriggers_husk _ _))
    refine HuskLogged.trans ?_ (postBase_logged _ _ _)
    exact huskLogged_of_eq rfl
  · split
    · exact huskLogged_of_eq rfl
    · split <;> exact huskLogged_of_eq rfl

theorem recEventTriggers_logged (t : Nat) (e : Ev) (s : State) : HuskLogged s (recEventTriggers t e s) := by
  unfold recEventTriggers; split
  · exact huskLogged_of_eq rfl
  · refine foldl_rel (R := HuskLogged) (fun s => huskLogged_of_eq rfl) HuskLogged.trans (fun s k => ?_) _ s
    dsimp only; split
    · split
      · exact recFire_logged _ _ s
      · exact huskLogged_of_eq rfl
    · exact huskLogged_of_eq rfl

/-- An event appended to the open block while D0 runs (R554). -/
def huskAppend (time : Nat) (e : Ev) (s : State) : State := if s.husk.d0Up then s.modHusk fun h => h.append (e.record time 0 false) else s

theorem huskPost_eq (t : Nat) (e : Ev) (s : State) :
    ∃ time, huskPost t e s =
      if (huskAppend time e s).sys.ready then recEventTriggers time e (markEvent time e (postRings time e (huskAppend time e s)))
      else (huskAppend time e s).modHusk fun h => { h with waiting := h.waiting ++ [e.record time 0 false] } := ⟨_, rfl⟩

theorem huskAppend_logged (time : Nat) (e : Ev) (s : State) : HuskLogged s (huskAppend time e s) := by
  unfold huskAppend; split
  · exact Husk.append_logged _ _
  · exact huskLogged_of_eq rfl

theorem huskAppend_postOnly (time : Nat) (e : Ev) (s : State) : PostOnly s (huskAppend time e s) := by
  unfold huskAppend; split
  · exact ⟨_, _, _, _, _, _, rfl⟩
  · exact .refl s

/-- An event of the husk touches the husk's log alone (R554, R562). -/
theorem huskPost_logged (t : Nat) (e : Ev) (s : State) : s.husk.Logged (huskPost t e s).husk := by
  obtain ⟨time, h⟩ := huskPost_eq t e s
  rw [h]
  refine (huskAppend_logged time e s).trans ?_
  split
  · exact (huskLogged_of_eq (postRings_husk _ _ _)).trans ((huskLogged_of_eq (markEvent_husk _ _ _)).trans (recEventTriggers_logged _ _ _))
  · exact ⟨_, _, _, _, _, _, rfl⟩

/-- An event of the husk touches no more than an event posted. -/
theorem huskPost_postOnly (t : Nat) (e : Ev) (s : State) : PostOnly s (huskPost t e s) := by
  obtain ⟨time, h⟩ := huskPost_eq t e s
  rw [h]
  refine (huskAppend_postOnly time e s).trans ?_
  split
  · exact (postRings_postOnly _ _ _).trans ((markEvent_postOnly _ _ _).trans (recEventTriggers_postOnly _ _ _))
  · exact ⟨_, _, _, _, _, _, rfl⟩

theorem huskEnter_postOnly (t st : Nat) (s : State) : PostOnly s (huskEnter t st s) := by
  unfold huskEnter
  dsimp only
  split
  · exact .refl s
  · exact PostOnly.trans ⟨_, _, _, _, _, _, rfl⟩ (huskPost_postOnly _ _ _)

theorem keepSettle_postOnly (t c : Nat) (s : State) : PostOnly s (keepSettle t c s) := by
  unfold keepSettle
  dsimp only
  split
  · exact .refl s
  · exact PostOnly.trans ⟨_, _, _, _, _, _, rfl⟩ (huskPost_postOnly _ _ _)

theorem huskSettle_postOnly (t : Nat) (s : State) : PostOnly s (huskSettle t s) := by
  unfold huskSettle
  dsimp only
  split
  · exact PostOnly.trans ⟨_, _, _, _, _, _, rfl⟩ (huskEnter_postOnly _ _ _)
  · exact ⟨_, _, _, _, _, _, rfl⟩

/-! ### What the husk's states and thresholds touch -/

/-- k is h but for its log and what its voltages give: its state, the charger, PG, KEEP and their thresholds (R548, R549). -/
def Husk.Settled (h k : Husk) : Prop :=
  ∃ (st ch : Nat) (ko pg kr vr : Bool), Husk.Logged { h with state := st, charging := ch, keepOn := ko, pg := pg, keepReady := kr, vqsReady := vr } k

theorem Husk.Logged.settled {h k : Husk} (a : h.Logged k) : h.Settled k := ⟨_, _, _, _, _, _, a⟩

theorem Husk.Settled.trans {h k l : Husk} (a : h.Settled k) (b : k.Settled l) : h.Settled l := by
  obtain ⟨_, _, _, _, _, _, _, _, _, _, _, _, rfl⟩ := a
  obtain ⟨_, _, _, _, _, _, _, _, _, _, _, _, rfl⟩ := b
  exact ⟨_, _, _, _, _, _, _, _, _, _, _, _, rfl⟩

/-- What the voltages and the log leave. -/
theorem Husk.Settled.leaves {h k : Husk} (a : h.Settled k) :
    k.d0Up = h.d0Up ∧ k.timeLost = h.timeLost ∧ k.vqs = h.vqs ∧ k.vls = h.vls ∧ k.sealing = h.sealing ∧ k.blocks = h.blocks := by
  obtain ⟨_, _, _, _, _, _, _, _, _, _, _, _, rfl⟩ := a
  exact ⟨rfl, rfl, rfl, rfl, rfl, rfl⟩

/-- The husk's state changed: the state and the log. -/
theorem huskEnter_logged (t st : Nat) (s : State) : Husk.Logged { s.husk with state := st } (huskEnter t st s).husk := by
  unfold huskEnter
  dsimp only
  split
  case isTrue h => rw [← h]; exact .refl _
  case isFalse => exact huskPost_logged _ _ _

theorem huskEnter_settled (t st : Nat) (s : State) : s.husk.Settled (huskEnter t st s).husk := ⟨_, _, _, _, _, _, huskEnter_logged t st s⟩

theorem keepSettle_settled (t c : Nat) (s : State) : s.husk.Settled (keepSettle t c s).husk := by
  unfold keepSettle
  dsimp only
  split
  · exact (Husk.Logged.refl _).settled
  · exact ⟨_, _, _, _, _, _, huskPost_logged _ _ _⟩

theorem huskSettle_settled (t : Nat) (s : State) : s.husk.Settled (huskSettle t s).husk := by
  unfold huskSettle
  dsimp only
  split
  · exact Husk.Settled.trans ⟨_, _, _, _, _, _, Husk.Logged.refl _⟩ (huskEnter_settled _ _ _)
  · exact ⟨_, _, _, _, _, _, Husk.Logged.refl _⟩

/-- A change of the husk's state and of what its voltages give, and perhaps an event of it. -/
theorem settled_post {f : Husk → Husk} (hf : ∀ h : Husk, h.Settled (f h)) (c : Prop) [Decidable c] (t : Nat) (e : Ev) (s : State) :
    s.husk.Settled (if c then s.modHusk f else huskPost t e (s.modHusk f)).husk := by
  split
  · exact hf s.husk
  · exact (hf s.husk).trans (huskPost_logged _ _ _).settled

theorem thresholds_settled (t : Nat) (s : State) : s.husk.Settled (thresholds t s).husk := by
  unfold thresholds
  dsimp only
  refine Husk.Settled.trans ?_ ((keepSettle_settled _ _ _).trans (huskSettle_settled _ _))
  exact settled_post (fun h => ⟨_, _, _, _, _, _, Husk.Logged.refl _⟩) _ _ _ _

/-- Time marked lost: the RTC reads 0, and the log has it (R552). -/
theorem markLost_logged (t why : Nat) (s : State) :
    Husk.Logged { s.husk with timeLost := true, rtc := 0 } (markLost t why s).husk := by
  unfold markLost
  refine Husk.Logged.trans ?_ (huskPost_logged _ _ _)
  dsimp only
  split <;> exact ⟨_, _, _, _, _, _, rfl⟩

/-! ### The stores, D0 and time (R548, R549, R552) -/

theorem execHuskTimeLost_eq (t q v : Nat) (s : State) :
    exec (.huskTimeLost ⟨t, q, v⟩) s = .next (
      let u := setVolts q v (s.advance t)
      if u.husk.d0Up ∧ !u.sys.railIo ∧ u.husk.state ≠ 4 ∧ u.husk.supply < 1800 then markLost t 1 (huskEnter t 4 u) else u) := rfl

/-- The stores below 1.8 V lose the time (R552). -/
theorem huskTimeLost_loses {t q v : Nat} {s : State} (hd : (s.advance t).husk.d0Up = true) (hio : (s.advance t).sys.railIo = false)
    (hs : (s.advance t).husk.state ≠ 4) (hv : max q v < 1800) :
    ∃ w, exec (.huskTimeLost ⟨t, q, v⟩) s = .next w ∧ w.husk.state = 4 ∧ w.husk.timeLost = true ∧ w.husk.rtc = 0 := by
  have hoff : (!(setVolts q v (s.advance t)).sys.railIo) = true := congrArg (!·) hio
  refine ⟨_, (execHuskTimeLost_eq t q v s).trans (congrArg _ (if_pos ⟨hd, hoff, hs, hv⟩)), ?_⟩
  obtain ⟨_, _, _, _, _, _, he⟩ := huskEnter_logged t 4 (setVolts q v (s.advance t))
  obtain ⟨_, _, _, _, _, _, hm⟩ := markLost_logged t 1 (huskEnter t 4 (setVolts q v (s.advance t)))
  rw [hm, he]
  exact ⟨rfl, rfl, rfl⟩

/-- D0 started, with the time lost (R549, R552). -/
def d0Started (t : Nat) (u : State) : State :=
  let u := u.modHusk fun h => { h with d0Up := true, txGate := h.teg }
  let u := huskEnter t (u.husk.target u.sys.railIo) (markLost t 2 u)
  thresholds t (if u.husk.teg then huskPost t (ev 0x1035 0 ([1, 0] ++ le 2 u.husk.tegMv)) u else u)

theorem execD0PowerOn_eq (t q v : Nat) (s : State) :
    exec (.d0PowerOn t q v) s = .next (
      let u := setVolts q v (s.advance t)
      if !u.sys.railIo ∧ u.husk.supply < 1800 then u
      else if u.husk.d0Up then (if u.husk.state = 4 then thresholds t (huskEnter t (u.husk.target u.sys.railIo) u) else u)
      else d0Started t u) := rfl

/-- What a start of D0 sets and keeps of the husk. -/
theorem d0Started_husk (t : Nat) (u : State) :
    (d0Started t u).husk.d0Up = true ∧ (d0Started t u).husk.timeLost = true ∧ (d0Started t u).husk.vqs = u.husk.vqs ∧
      (d0Started t u).husk.vls = u.husk.vls := by
  have hset : Husk.Settled { u.husk with d0Up := true, txGate := u.husk.teg, timeLost := true, rtc := 0 } (d0Started t u).husk := by
    unfold d0Started
    dsimp only
    refine Husk.Settled.trans ?_ (thresholds_settled _ _)
    have hlost := (markLost_logged t 2 (u.modHusk fun h => { h with d0Up := true, txGate := h.teg })).settled.trans
      (huskEnter_settled t ((u.modHusk fun h => { h with d0Up := true, txGate := h.teg }).husk.target
        (u.modHusk fun h => { h with d0Up := true, txGate := h.teg }).sys.railIo) _)
    split
    · exact hlost.trans (huskPost_logged _ _ _).settled
    · exact hlost
  obtain ⟨hd, hl, hq, hv, -, -⟩ := hset.leaves
  exact ⟨hd, hl, hq, hv⟩

/-- The store voltages, and what they give (R548, R552). -/
theorem huskStores (t : Nat) (s : State) :
    let u := s.advance t
    let h := u.husk
    (∀ q v, h.d0Up = true → h.state ≠ 4 → exec (.vlsThreshold t q v) s = .next (thresholds t { u with husk := { h with vqs := q, vls := v } })) ∧
    (∀ q v, h.d0Up = false → exec (.vlsThreshold t q v) s = .next { u with husk := { h with vqs := q, vls := v } }) ∧
    (∀ q v, h.d0Up = true → u.sys.railIo = false → h.state ≠ 4 → max q v < 1800 → ∃ w, exec (.huskTimeLost ⟨t, q, v⟩) s = .next w ∧
      w.husk.state = 4 ∧ w.husk.timeLost = true ∧ w.husk.rtc = 0) ∧
    (∀ q v, (h.d0Up = false ∨ u.sys.railIo = true ∨ h.state = 4 ∨ 1800 ≤ max q v) →
      exec (.huskTimeLost ⟨t, q, v⟩) s = .next { u with husk := { h with vqs := q, vls := v } }) := by
  intro u h
  refine ⟨fun q v hd hs => congrArg _ (if_pos ⟨hd, hs⟩), fun q v hd => congrArg _ (if_neg fun hk => ne_true_of_eq_false hd hk.1),
    fun q v hd hio hs hv => huskTimeLost_loses hd hio hs hv, fun q v hno => congrArg _ (if_neg ?_)⟩
  rintro ⟨hd, hio, hs, hv⟩
  obtain hno | hno | hno | hno := hno
  · exact ne_true_of_eq_false hno hd
  · exact absurd (congrArg (!·) hno ▸ hio : (!true) = true) (by decide)
  · exact hs hno
  · exact Nat.not_lt.2 hno hv

/-- D0's reset and start (R549). -/
theorem huskD0 (t : Nat) (s : State) :
    let u := s.advance t
    let h := u.husk
    (∀ q v, h.d0Up = true → u.sys.railIo = false → max q v < 1500 → exec (.d0Reset ⟨t, q, v⟩) s =
      .next { u with husk := Husk.afterD0 { h with vqs := q, vls := v } }) ∧
    (∀ q v, (h.d0Up = false ∨ u.sys.railIo = true ∨ 1500 ≤ max q v) →
      exec (.d0Reset ⟨t, q, v⟩) s = .next { u with husk := { h with vqs := q, vls := v } }) ∧
    (∀ q v, h.d0Up = false → u.sys.railIo = false → max q v < 1800 → exec (.d0PowerOn t q v) s =
      .next { u with husk := { h with vqs := q, vls := v } }) ∧
    (∀ q v, h.d0Up = false → (u.sys.railIo = true ∨ 1800 ≤ max q v) → ∃ w, exec (.d0PowerOn t q v) s = .next w ∧ w.husk.d0Up = true ∧
      w.husk.timeLost = true ∧ w.husk.vqs = q ∧ w.husk.vls = v) ∧
    (∀ q v, h.d0Up = true → h.state ≠ 4 → exec (.d0PowerOn t q v) s = .next { u with husk := { h with vqs := q, vls := v } }) := by
  intro u h
  have notIo (hio : u.sys.railIo = false) : (!u.sys.railIo) = true := by rw [hio]; rfl
  have low (q v : Nat) : ((!u.sys.railIo) = true ∧ max q v < 1800) → u.sys.railIo = false ∧ max q v < 1800 :=
    And.imp_left fun hk => by simpa using hk
  refine ⟨fun q v hd hio hv => congrArg _ (if_pos ⟨hd, notIo hio, hv⟩), fun q v hno => congrArg _ (if_neg ?_), fun q v hd hio hv => ?_,
    fun q v hd hup => ?_, fun q v hd hs => ?_⟩
  · rintro ⟨hd, hio, hv⟩
    obtain hno | hno | hno := hno
    · exact ne_true_of_eq_false hno hd
    · exact absurd (congrArg (!·) hno ▸ hio : (!true) = true) (by decide)
    · exact Nat.not_lt.2 hno hv
  · exact (execD0PowerOn_eq t q v s).trans (congrArg _ (if_pos ⟨notIo hio, hv⟩))
  · refine ⟨_, (execD0PowerOn_eq t q v s).trans (congrArg _ ((if_neg ?_).trans (if_neg (ne_true_of_eq_false hd)))), d0Started_husk t _⟩
    rintro ⟨hio, hv⟩
    obtain hup | hup := hup
    · exact absurd (congrArg (!·) hup ▸ hio : (!true) = true) (by decide)
    · exact Nat.not_lt.2 hup hv
  · refine (execD0PowerOn_eq t q v s).trans (congrArg _ ?_)
    dsimp only
    split
    · rfl
    · exact (if_pos hd).trans (if_neg hs)

/-! ### The harvester, the RTC and the sealed blocks (R550, R551, R555, R556) -/

theorem tegTo_same {on : Bool} {u : State} (h : u.husk.teg = on) (t : Nat) : tegTo t on u = u := if_pos h

theorem tegTo_on {u : State} (h : u.husk.teg = false) (hd : u.husk.d0Up = true) (t : Nat) :
    tegTo t true u = huskPost t (ev 0x1035 0 ([1, 0] ++ le 2 u.husk.tegMv)) { u with husk := { u.husk with teg := true, txGate := true } } := by
  refine (if_neg (by rw [h]; decide)).trans ((if_pos hd).trans ?_)
  simp only [State.modHusk, hd]
  rfl

theorem tegTo_off {u : State} (h : u.husk.teg = true) (hd : u.husk.d0Up = true) (t : Nat) :
    tegTo t false u =
      huskPost t (ev 0x1035 0 ([0, 0] ++ le 2 u.husk.tegMv)) { u with husk := { u.husk with teg := false, txGate := false, tegUw := 0 } } :=
  (if_neg (by rw [h]; decide)).trans (if_pos hd)

theorem execTegMeasure_eq (t voc uw : Nat) (s : State) :
    exec (.tegMeasure t voc uw) s = .next (
      let u := s.advance t
      if u.husk.teg ∧ u.husk.d0Up ∧ elapsed u.husk.tegAt 1000000000 t then
        let v := u.modHusk fun h => { h with tegMv := voc, tegUw := uw, tegAt := t }
        if voc < 200 then tegTo t false v else v
      else u) := rfl

theorem huskTegAndRtc (t : Nat) (s : State) :
    let u := s.advance t
    let h := u.husk
    (∀ voc, h.teg = false → h.d0Up = true → exec (.huskTeg t true voc) s = .next (huskPost t (ev 0x1035 0 ([1, 0] ++ le 2 voc))
      { u with husk := { h with teg := true, txGate := true, tegMv := voc } })) ∧
    (∀ on voc, h.teg = on → exec (.huskTeg t on voc) s = .next { u with husk := { h with tegMv := voc } }) ∧
    (∀ voc uw, h.teg = true → h.d0Up = true → elapsed h.tegAt 1000000000 t = true → 200 ≤ voc → exec (.tegMeasure t voc uw) s =
      .next { u with husk := { h with tegMv := voc, tegUw := uw, tegAt := t } }) ∧
    (∀ voc uw, h.teg = true → h.d0Up = true → elapsed h.tegAt 1000000000 t = true → voc < 200 → exec (.tegMeasure t voc uw) s = .next (huskPost t (ev 0x1035 0 ([0, 0] ++ le 2 voc))
      { u with husk := { h with tegMv := voc, tegUw := 0, tegAt := t, teg := false, txGate := false } })) ∧
    (∀ voc uw, (h.teg = false ∨ elapsed h.tegAt 1000000000 t = false) → exec (.tegMeasure t voc uw) s = .next u) ∧
    (∀ dev, u.timeLoaded = true → h.d0Up = true → elapsed h.rtcWritten 1000000000 t = true → exec (.rtcWrite ⟨t, dev⟩) s =
      .next { u with husk := { h with rtc := u.time, rtcWritten := u.time, rtcTrim := h.rtcTrim - h.drift u.time dev } }) ∧
    (∀ dev, (u.timeLoaded = false ∨ h.d0Up = false ∨ elapsed h.rtcWritten 1000000000 t = false) → exec (.rtcWrite ⟨t, dev⟩) s = .next u) := by
  intro u h
  refine ⟨fun voc ht hd => congrArg Host.Outcome.next (tegTo_on (u := u.modHusk fun h => { h with tegMv := voc }) ht hd t), fun on voc ht => congrArg Host.Outcome.next (tegTo_same (u := u.modHusk fun h => { h with tegMv := voc }) ht t), fun voc uw ht hd he hv => ?_,
    fun voc uw ht hd he hv => ?_, fun voc uw hno => ?_, fun dev hl hd he => congrArg _ (if_pos ⟨hl, hd, he⟩), fun dev hno => congrArg _ (if_neg ?_)⟩
  · exact (execTegMeasure_eq t voc uw s).trans (congrArg _ ((if_pos ⟨ht, hd, he⟩).trans (if_neg (Nat.not_lt.2 hv))))
  · exact (execTegMeasure_eq t voc uw s).trans (congrArg _ ((if_pos ⟨ht, hd, he⟩).trans ((if_pos hv).trans (tegTo_off (u := u.modHusk fun h => { h with tegMv := voc, tegUw := uw, tegAt := t }) ht hd t))))
  · refine (execTegMeasure_eq t voc uw s).trans (congrArg _ (if_neg ?_))
    rintro ⟨ht, -, he⟩
    exact hno.elim (fun h => ne_true_of_eq_false h ht) fun h => ne_true_of_eq_false h he
  · rintro ⟨hl, hd, he⟩
    obtain hno | hno | hno := hno
    · exact ne_true_of_eq_false hno hl
    · exact ne_true_of_eq_false hno hd
    · exact ne_true_of_eq_false hno he

theorem sealedBlockWrite_some {t : Nat} {s : State} {b : Sealed} (h : (s.advance t).husk.buf2 = some b) (hio : (s.advance t).sys.railIo = true) :
    let u := s.advance t
    exec (.sealedBlockWrite t) s = .next (State.countN 0x908 32 { u with husk := { u.husk.keepBlock b with buf2 := none } }) := by
  change execSealedBlockWrite t s = _
  unfold execSealedBlockWrite
  dsimp only
  rw [h]
  dsimp only
  rw [if_pos hio]
  rfl

theorem sealedBlockWrite_none {t : Nat} {s : State} (h : (s.advance t).husk.buf2 = none) : exec (.sealedBlockWrite t) s = .next (s.advance t) := by
  change execSealedBlockWrite t s = _
  unfold execSealedBlockWrite
  dsimp only
  rw [h]

theorem burstComplete_none {t : Nat} {s : State} (h : (s.advance t).husk.sealing = none) : exec (.burstComplete t) s = .next (s.advance t) := by
  change execBurstComplete t s = _
  unfold execBurstComplete
  dsimp only
  rw [h]

/-- The block of a burst kept, and its lines counted (R537, R556). -/
def burstKept (b : Sealed) (u : State) : State :=
  (u.modHusk fun h => { h.keepBlock b with sealing := none, sealFrom := 0, commitBurst := false }).countN (hcMram 8)
    (min ((b.events.length + 1) / 2 + 1) 32)

/-- The state with a burst's block kept, before a device without its rails starts its hold (R556). -/
def burstEnded (t : Nat) (b : Sealed) (u : State) : State := huskSettle t (burstKept b u)

theorem countN_sys (i n : Nat) (s : State) : (s.countN i n).sys = s.sys := rfl
theorem countN_husk (i n : Nat) (s : State) : (s.countN i n).husk = s.husk := rfl

theorem burstComplete_some {t : Nat} {s : State} {b : Sealed} (h : (s.advance t).husk.sealing = some b) :
    exec (.burstComplete t) s = .next (
      let v := burstEnded t b (s.advance t)
      if v.sys.railCore ∧ v.sys.railAn ∧ v.sys.railIo ∧ v.sys.boot = .off then v.modSys fun y => { y with boot := .hold } else v) := by
  change execBurstComplete t s = _
  unfold execBurstComplete
  dsimp only
  rw [h]
  rfl

@[simp] theorem huskSettle_sys (t : Nat) (s : State) : (huskSettle t s).sys = s.sys := by
  obtain ⟨_, _, _, _, _, _, h⟩ := huskSettle_postOnly t s
  rw [h]

theorem burstEnded_sys (t : Nat) (b : Sealed) (u : State) : (burstEnded t b u).sys = u.sys := by
  unfold burstEnded burstKept
  rw [huskSettle_sys, countN_sys, State.modHusk_sys]

theorem keepBlock_blocks (b : Sealed) (h : Husk) : (h.keepBlock b).blocks = (h.blocks ++ [b]).drop (h.blocks.length + 1 - 1024) := by
  unfold Husk.keepBlock
  simp only [List.length_append, List.length_singleton]

theorem burstEnded_husk (t : Nat) (b : Sealed) (u : State) :
    (burstEnded t b u).husk.sealing = none ∧
      (burstEnded t b u).husk.blocks = (u.husk.blocks ++ [b]).drop (u.husk.blocks.length + 1 - 1024) := by
  obtain ⟨-, -, -, -, hs, hb⟩ := (huskSettle_settled t (burstKept b u)).leaves
  unfold burstEnded
  rw [hs, hb]
  unfold burstKept
  rw [countN_husk, State.modHusk_husk]
  dsimp only
  rw [keepBlock_blocks]
  exact ⟨rfl, rfl⟩

/-- The end of a burst with all rails good starts the hold (R44, R556). -/
theorem burstComplete_holds {t : Nat} {s : State} {b : Sealed} (h : (s.advance t).husk.sealing = some b)
    (hrails : (s.advance t).sys.railCore = true ∧ (s.advance t).sys.railAn = true ∧ (s.advance t).sys.railIo = true ∧ (s.advance t).sys.boot = .off) :
    let k := (s.advance t).husk
    ∃ w, exec (.burstComplete t) s = .next w ∧ w.sys.boot = .hold ∧ w.husk.sealing = none ∧
      w.husk.blocks = (k.blocks ++ [b]).drop (k.blocks.length + 1 - 1024) := by
  have hv := burstEnded_sys t b (s.advance t)
  exact ⟨_, (burstComplete_some h).trans (congrArg _ (if_pos (by rw [hv]; exact hrails))), rfl, burstEnded_husk t b _⟩

/-- Settles O56: the stores and D0, the harvester and the RTC, the sealed blocks and the end of a burst. -/
theorem huskHappenings : Obligations.HuskHappenings := by
  intro t s
  obtain ⟨hv, hv', hl, hl'⟩ := huskStores t s
  obtain ⟨hr, hr', hp, hp', hp''⟩ := huskD0 t s
  obtain ⟨hg, hg', hm, hm', hm'', hrtc, hrtc'⟩ := huskTegAndRtc t s
  exact ⟨hv, hv', hl, hl', hr, hr', hp, hp', hp'', hg, hg', hm, hm', hm'', hrtc, hrtc', fun b h hio => sealedBlockWrite_some h hio,
    sealedBlockWrite_none, burstComplete_none, fun b h hc ha hio hb => burstComplete_holds h ⟨hc, ha, hio, hb⟩⟩

end Sys2Proof.Machine
end

section
/-! SUPPORT. Memory: correction, splices, commits, the erase and the JTAG port (R520 to R528, R537, R546, R577). -/

namespace Sys2Proof.Machine

/-! ### Correction and splices -/

theorem insertAddr_eq (a : Nat) (l : List Nat) : insertAddr a l = l.orderedInsert (· ≤ ·) a := by
  induction l with
  | nil => rfl
  | cons b r ih => simp only [insertAddr, List.orderedInsert_cons, ih]

/-- The addresses of a scrub are taken in rising order (R520). -/
theorem insertAddr_sorted (l : List Nat) : (l.foldr insertAddr []).Pairwise (· ≤ ·) := by
  have hsort : l.foldr insertAddr [] = l.insertionSort (· ≤ ·) := by
    induction l with
    | nil => rfl
    | cons a r ih => simp only [List.foldr_cons, ih, insertAddr_eq, List.insertionSort_cons]
  rw [hsort]
  exact List.pairwise_insertionSort _ _

theorem inSram_of_bounds {a : Nat} (hlo : 0x20000000 ≤ a) (hhi : a < 0x20600000) : inSram a = true := by
  unfold inSram
  rw [decide_eq_true hlo, decide_eq_true hhi]
  rfl

theorem execScrub_eq {l : List Nat} (h : l.all inSram = true) (t : Nat) (s : State) :
    exec (.scrub t l) s = .next (
      let u := s.advance t
      if elapsed u.mem.scrubAt 60000000000 t then
        ((l.foldr insertAddr []).foldl (fun s a => correction t a s) u).modMem fun m => { m with scrubAt := u.time }
      else u) := if_pos h

/-- A double-bit error: its word is cleared where a spare row is left, its row spliced, and what it held is answered for (R521). -/
theorem sramDoubleBitError_exec {a : Nat} (h : inSram a = true) (t : Nat) (s : State) :
    let v := State.post t (eccEv (bankOf a) 2 (rowOf a) a) ((s.advance t).count (hcBank (bankOf a) 1))
    exec (.sramDoubleBitError t a) s = .next (doubleBit t a (rowSplice t (bankOf a) (rowOf a)
      (if v.mem.rowSpares.getD (bankOf a) 0 != 0 then v.store (a - a % 8) (zeros 8) else v))) := if_pos h

/-- An address and a kind of a failed line that there are. -/
theorem mramLine_ok {a k : Nat} (hlo : 0x10000000 ≤ a) (hhi : a < 0x11000000) (hk : k < 3) : ¬(a < 0x10000000 ∨ 0x11000000 ≤ a ∨ 3 ≤ k) := by
  omega

/-- A failed line of a commit splices its sector, or refuses the commit with no spare (R524). -/
theorem mramVerifyFailure_commit {a : Nat} (hlo : 0x10000000 ≤ a) (hhi : a < 0x11000000) (t i : Nat) (s : State) :
    exec (.mramVerifyFailure t 0 a i) s = .next (
      let r := sectorSplice t ((a - 0x10000000) / 4096) (s.advance t)
      if r.2 then r.1 else refuseCommit i r.1) := (if_neg (mramLine_ok hlo hhi (by decide))).trans (if_pos rfl)

theorem mramVerifyFailure_read {a : Nat} (hlo : 0x10000000 ≤ a) (hhi : a < 0x11000000) (t i : Nat) (s : State) :
    exec (.mramVerifyFailure t 2 a i) s =
      .next (State.post t (eccEv (0x100 + mramRegion a) 2 ((a - 0x10000000) / 4096) a) (s.advance t)) :=
  (if_neg (mramLine_ok hlo hhi (by decide))).trans ((if_neg (by decide)).trans (if_neg (by decide)))

theorem sectorSplice_spare {s : State} (h : 0 < s.mem.secSpares) (t x : Nat) : (sectorSplice t x s).2 = true := by
  unfold sectorSplice
  rw [if_neg (by omega)]

theorem sectorSplice_none {s : State} (h : s.mem.secSpares = 0) (t x : Nat) : sectorSplice t x s = (s, false) := if_pos h

/-- Corrections, double-bit errors and failed lines. -/
theorem memoryCorrections (t : Nat) (s : State) :
    let u := s.advance t
    (∀ l, l.all inSram = true → elapsed u.mem.scrubAt 60000000000 t = true →
      let v := (l.foldr insertAddr []).foldl (fun s a => correction t a s) u
      exec (.scrub t l) s = .next { v with mem := { v.mem with scrubAt := u.time } } ∧ (l.foldr insertAddr []).Pairwise (· ≤ ·)) ∧
    (∀ l, l.all inSram = true → elapsed u.mem.scrubAt 60000000000 t = false → exec (.scrub t l) s = .next u) ∧
    (∀ a, 0x20000000 ≤ a → a < 0x20600000 → exec (.sramCorrection t a) s = .next (correction t a u)) ∧
    (∀ a, 0x20000000 ≤ a → a < 0x20600000 →
      let v := State.post t (eccEv (bankOf a) 2 (rowOf a) a) (u.count (hcBank (bankOf a) 1))
      (v.mem.rowSpares.getD (bankOf a) 0 ≠ 0 → exec (.sramDoubleBitError t a) s =
        .next (doubleBit t a (rowSplice t (bankOf a) (rowOf a) (v.store (a - a % 8) (zeros 8))))) ∧
      (v.mem.rowSpares.getD (bankOf a) 0 = 0 → exec (.sramDoubleBitError t a) s = .next (doubleBit t a (rowSplice t (bankOf a) (rowOf a) v)))) ∧
    (∀ a i, 0x10000000 ≤ a → a < 0x11000000 → 0 < u.mem.secSpares →
      exec (.mramVerifyFailure t 0 a i) s = .next (sectorSplice t ((a - 0x10000000) / 4096) u).1) ∧
    (∀ a, 0x10000000 ≤ a → a < 0x11000000 → u.mem.secSpares = 0 → u.mem.blockBusy = true →
      exec (.mramVerifyFailure t 0 a 0) s = .next { u with mem := { u.mem with blockBusy := false, blockDirty := true } }) ∧
    (∀ a i, 0x10000000 ≤ a → a < 0x11000000 → exec (.mramVerifyFailure t 2 a i) s =
      .next (State.post t (eccEv (0x100 + mramRegion a) 2 ((a - 0x10000000) / 4096) a) u)) := by
  intro u
  refine ⟨fun l hl he => ⟨?_, insertAddr_sorted l⟩, fun l hl he => ?_, fun a hlo hhi => if_pos (inSram_of_bounds hlo hhi),
    fun a hlo hhi => ⟨fun h => ?_, fun h => ?_⟩, fun a i hlo hhi h => ?_, fun a hlo hhi h hb => ?_,
    fun a i hlo hhi => mramVerifyFailure_read hlo hhi t i s⟩
  · rw [execScrub_eq hl]
    exact congrArg _ (if_pos he)
  · rw [execScrub_eq hl]
    exact congrArg _ (if_neg (ne_true_of_eq_false he))
  · rw [sramDoubleBitError_exec (inSram_of_bounds hlo hhi), if_pos (bne_iff_ne.2 h)]
  · rw [sramDoubleBitError_exec (inSram_of_bounds hlo hhi), if_neg (by rw [h]; decide)]
  · rw [mramVerifyFailure_commit hlo hhi]
    exact congrArg _ (if_pos (sectorSplice_spare h _ _))
  · rw [mramVerifyFailure_commit hlo hhi]
    dsimp only
    rw [sectorSplice_none h]
    exact congrArg _ ((if_neg Bool.false_ne_true).trans ((if_pos rfl).trans (if_pos hb)))

/-! ### Images, the health record and the erase -/

/-- t is s but for the health record and the time of its last hour. -/
def CountOnly (s t : State) : Prop := ∃ (x : Nat) (h : List (Nat × Nat)), t = { s with mem := { s.mem with hoursAt := x, health := h } }

theorem CountOnly.refl (s : State) : CountOnly s s := ⟨_, _, rfl⟩
theorem CountOnly.trans {s t u : State} (a : CountOnly s t) (b : CountOnly t u) : CountOnly s u := by
  obtain ⟨_, _, rfl⟩ := a
  obtain ⟨_, _, rfl⟩ := b
  exact ⟨_, _, rfl⟩

theorem foldl_countOnly {α : Type} (f : α → Nat) (l : List α) (s : State) : CountOnly s (l.foldl (fun s x => s.count (f x)) s) :=
  foldl_rel CountOnly.refl CountOnly.trans (fun _ _ => ⟨_, _, rfl⟩) l s

/-- An hour counted changes the health record and its time (R537). -/
theorem countHour_countOnly (t : Nat) (s : State) : CountOnly s (countHour t s) := by
  unfold countHour
  refine CountOnly.trans ?_ (foldl_countOnly (fun c => hcCell c 2) _ _)
  refine CountOnly.trans ?_ (foldl_countOnly (fun c => hcSar c 1) _ _)
  refine CountOnly.trans ?_ (foldl_countOnly (fun c => hcConv c 8) _ _)
  refine CountOnly.trans ?_ (foldl_countOnly (fun c => hcCore c 9) _ _)
  exact ⟨_, _, rfl⟩

/-- The health record stored, with the hour counted where it is due (R537). -/
theorem healthCommit_stored (t : Nat) (s : State) :
    let u := s.advance t
    ∃ w, exec (.healthCommit t) s = .next w ∧ w.mem.healthStored = w.mem.health ∧ w.pwm = u.pwm ∧ w.mem.sram = u.mem.sram := by
  intro u
  have hexec : exec (.healthCommit t) s = .next (if elapsed u.mem.hoursAt 3600000000000 t then countHour t u else u).commitHealth := rfl
  have hhour : CountOnly u (if elapsed u.mem.hoursAt 3600000000000 t then countHour t u else u) := by
    split
    · exact countHour_countOnly t u
    · exact .refl u
  obtain ⟨_, _, hc⟩ := hhour
  rw [hc] at hexec
  exact ⟨_, hexec, rfl, rfl, rfl⟩

theorem lcEraseComplete_recorded {t : Nat} {s : State} {l : LcPend} (h : (s.advance t).mem.lcPend = some l) (hr : l.recorded = true) :
    exec (.lcEraseComplete t) s = .next (deviceReset 4 ((lcErase l.lcFrom l.lcTo (s.advance t)).post t (lcEv l.lcFrom l.lcTo 1))) := by
  change execLcEraseComplete t s = _
  unfold execLcEraseComplete
  dsimp only
  rw [h]
  exact congrArg _ (if_pos hr)

theorem lcEraseComplete_idle {t : Nat} {s : State}
    (h : (s.advance t).mem.lcPend = none ∨ ∃ l, (s.advance t).mem.lcPend = some l ∧ l.recorded = false) :
    exec (.lcEraseComplete t) s = .next (s.advance t) := by
  change execLcEraseComplete t s = _
  unfold execLcEraseComplete
  dsimp only
  obtain h | ⟨l, h, hr⟩ := h
  · rw [h]
  · rw [h]
    exact congrArg _ (if_neg (ne_true_of_eq_false hr))

/-- A device reset keeps a pending transition that is recorded. -/
theorem deviceReset_lcPend (cause : Nat) (s : State) : (deviceReset cause s).mem.lcPend = s.mem.lcPend.filter LcPend.recorded := by
  obtain ⟨m, c, h⟩ := deviceReset_eq cause s
  rw [h]
  rfl

/-- The erase of a recorded transition ends in the new state and a reset, cause 4 (R546). -/
theorem lcEraseComplete_resets {t : Nat} {s : State} {l : LcPend} (h : (s.advance t).mem.lcPend = some l) (hr : l.recorded = true) :
    ∃ w, exec (.lcEraseComplete t) s = .next w ∧ w.mem.lc = l.lcTo ∧ w.mem.lcPend = none ∧ w.sys.resetCause = 4 ∧ w.sys.ready = false := by
  obtain ⟨-, -, -, -, hready, -, -, -, -, -, hcause, -, hlc, -⟩ :=
    deviceResetScope 4 ((lcErase l.lcFrom l.lcTo (s.advance t)).post t (lcEv l.lcFrom l.lcTo 1))
  refine ⟨_, lcEraseComplete_recorded h hr, hlc.trans ?_, (deviceReset_lcPend _ _).trans ?_, hcause, hready⟩
  · rw [post_mem]; rfl
  · rw [post_mem]; rfl

theorem copyPointerSwitch_block (t : Nat) (s : State) :
    exec (.copyPointerSwitch t 0) s = .next (
      let u := s.advance t
      if u.mem.blockBusy then
        flushDurable 0 u.mem.blockAck (u.modMem fun m => { m with blockPrev := m.block, block := m.blockCap, blockBusy := false })
      else u) := rfl

theorem copyPointerSwitch_sheaf (t : Nat) (s : State) :
    exec (.copyPointerSwitch t 1) s = .next (
      let u := s.advance t
      if u.eng.sheafCommit then
        flushAll 1 ((u.modEng fun e => { e with storedPrev := e.stored, stored := e.commitImg, sheafCommit := false }).countN (hcMram 3) 4097)
      else u) := rfl

/-- Images committed and put in force (R524, R528). -/
theorem memoryImages (t : Nat) (s : State) :
    let u := s.advance t
    (u.mem.blockDirty = true → u.mem.blockBusy = false → exec (.blockImageCommit t) s = .next { u with mem := { u.mem with
      blockBusy := true, blockDirty := false, blockCap := u.mem.blockNext
      blockAck := (u.cmd.durable.filter fun d => d.image == 0).length } }) ∧
    ((u.mem.blockDirty = false ∨ u.mem.blockBusy = true) → exec (.blockImageCommit t) s = .next u) ∧
    (u.mem.blockBusy = true → exec (.copyPointerSwitch t 0) s = .next (flushDurable 0 u.mem.blockAck { u with mem := { u.mem with
      blockPrev := u.mem.block, block := u.mem.blockCap, blockBusy := false } })) ∧
    (u.mem.blockBusy = false → exec (.copyPointerSwitch t 0) s = .next u) ∧
    (u.eng.sheafCommit = false → exec (.copyPointerSwitch t 1) s = .next u) := by
  intro u
  refine ⟨fun hd hb => congrArg _ (if_pos ⟨hd, congrArg (!·) hb⟩), fun h => congrArg _ (if_neg ?_), fun hb => ?_, fun hb => ?_, fun hc => ?_⟩
  · rintro ⟨hd, hb⟩
    obtain h | h := h
    · exact ne_true_of_eq_false h hd
    · exact absurd (congrArg (!·) h ▸ hb : (!true) = true) (by decide)
  · exact (copyPointerSwitch_block t s).trans (congrArg _ (if_pos hb))
  · exact (copyPointerSwitch_block t s).trans (congrArg _ (if_neg (ne_true_of_eq_false hb)))
  · exact (copyPointerSwitch_sheaf t s).trans (congrArg _ (if_neg (ne_true_of_eq_false hc)))

/-! ### The JTAG port -/

/-- A JTAG instruction of a known kind (R577). -/
theorem jtagInstruction_exec {k : Nat} (hk : k < 6) (t : Nat) (pins : List (Nat × Bool)) (s : State) :
    exec (.jtagInstruction t k pins) s = .next (
      let u := s.advance t
      let drives := k == 0 || k == 4
      let ok := u.mem.lc == 0 || u.mem.lc == 1 || u.mem.lc == 4
      u.modMem fun m => { m with
        jtagIr := if drives && !ok then 3 else if 4 ≤ k then 4 else k, jtagDr := if k = 2 then idcode u else 0
        extestPins := if drives && ok then pins else [] }) := if_pos hk

theorem jtagPort (t : Nat) (s : State) :
    let u := s.advance t
    (∀ pins, (u.mem.lc = 0 ∨ u.mem.lc = 1 ∨ u.mem.lc = 4) → exec (.jtagInstruction t 0 pins) s =
      .next { u with mem := { u.mem with jtagIr := 0, jtagDr := 0, extestPins := pins } }) ∧
    (∀ pins, (u.mem.lc ≠ 0 ∧ u.mem.lc ≠ 1 ∧ u.mem.lc ≠ 4) → exec (.jtagInstruction t 0 pins) s =
      .next { u with mem := { u.mem with jtagIr := 3, jtagDr := 0, extestPins := [] } }) ∧
    (∀ pins k, 1 ≤ k → k ≤ 3 → exec (.jtagInstruction t k pins) s =
      .next { u with mem := { u.mem with jtagIr := k, jtagDr := if k = 2 then idcode u else 0, extestPins := [] } }) := by
  intro u
  refine ⟨fun pins h => ?_, fun pins h => ?_, fun pins k h1 h3 => ?_⟩
  · have hok : (u.mem.lc == 0 || u.mem.lc == 1 || u.mem.lc == 4) = true := by simpa [or_assoc] using h
    rw [jtagInstruction_exec (by decide)]
    dsimp only
    rw [hok]
    rfl
  · obtain ⟨h0, h1, h4⟩ := h
    have hok : (u.mem.lc == 0 || u.mem.lc == 1 || u.mem.lc == 4) = false := by simp [h0, h1, h4]
    rw [jtagInstruction_exec (by decide)]
    dsimp only
    rw [hok]
    rfl
  · have hdrives : (k == 0 || k == 4) = false := by simp; omega
    rw [jtagInstruction_exec (by omega)]
    dsimp only
    rw [hdrives, Bool.false_and, Bool.false_and, if_neg Bool.false_ne_true, if_neg Bool.false_ne_true, if_neg (by omega)]
    rfl

/-- Settles O55: corrections and splices, then images, the health record, the erase and the JTAG port. -/
theorem memoryHappenings : Obligations.MemoryHappenings := by
  intro t s
  obtain ⟨hs, hs', hc, hd, hf, hr, he⟩ := memoryCorrections t s
  obtain ⟨hb, hb', hp, hp', hq⟩ := memoryImages t s
  exact ⟨hs, hs', hc, hd, hf, hr, he, hb, hb', hp, hp', hq, healthCommit_stored t s, fun l => lcEraseComplete_resets, lcEraseComplete_idle,
    jtagPort t s⟩

end Sys2Proof.Machine
end

section
/-! SUPPORT. Clock loops, XREF and islands (R498, R502 to R505, R511, R514). -/

namespace Sys2Proof.Machine

/-! ### The loops -/

/-- The loop after a window of a difference that is good or not. -/
def windowed (t l : Nat) (d : Int) (r : Nat) (good : Bool) (u : State) : State :=
  (u.modClk fun c => { c with roKhz := r }).modLoop l fun x => { x with diff := d, winAt := t, good := if good then min 3 (x.good + 1) else 0 }

theorem lockWindow_exec {l : Nat} (hl : l < 2) (t : Nat) (d : Int) (r : Nat) (s : State) :
    exec (.lockWindow t l d r) s = .next (
      let u := s.advance t
      let x := u.loop l
      let good := decide (-2 ≤ d) && decide (d ≤ 2)
      if x.state = 3 ∨ !u.clk.xref ∨ !elapsed x.winAt (4096000000000 / max 1 u.clk.xrefInUse) t then u
      else if x.state = 1 then (if good then windowed t l d r good u else loopLost t l 0 (windowed t l d r good u))
      else if good ∧ 3 ≤ x.good + 1 then
        let v := State.post t (lockEv l 1 0 d) ((windowed t l d r good u).modLoop l fun x => { x with state := 1 })
        if v.clk.main = 0xFF then becomeMain t l v else v
      else windowed t l d r good u) := if_pos hl

theorem good_of_bounds {d : Int} (h1 : -2 ≤ d) (h2 : d ≤ 2) : (decide (-2 ≤ d) && decide (d ≤ 2)) = true := by
  rw [decide_eq_true h1, decide_eq_true h2]
  rfl

theorem bad_of_bounds {d : Int} (h : d < -2 ∨ 2 < d) : (decide (-2 ≤ d) && decide (d ≤ 2)) = false := by
  obtain h | h := h
  · rw [decide_eq_false (Int.not_le.2 h), Bool.false_and]
  · rw [decide_eq_false (Int.not_le.2 h), Bool.and_false]

/-- A window that counts: the loop is not retired, XREF is there, and the window is due. -/
theorem window_counts {x : Loop} {xref due : Bool} (hs : x.state ≠ 3) (hx : xref = true) (hd : due = true) :
    ¬(x.state = 3 ∨ (!xref) = true ∨ (!due) = true) := by
  rw [hx, hd]
  rintro (h | h | h)
  · exact hs h
  · exact absurd h (by decide)
  · exact absurd h (by decide)

theorem lockWindows (t l : Nat) (s : State) :
    let u := s.advance t
    let x := u.loop l
    let due := elapsed x.winAt (4096000000000 / max 1 u.clk.xrefInUse) t
    (∀ d r, l < 2 → (x.state = 3 ∨ u.clk.xref = false ∨ due = false) → exec (.lockWindow t l d r) s = .next u) ∧
    (∀ d r, l < 2 → due = true → u.clk.xref = true → x.state = 1 → -2 ≤ d → d ≤ 2 → exec (.lockWindow t l d r) s =
      .next (({ u with clk := { u.clk with roKhz := r } }).modLoop l fun x => { x with diff := d, winAt := t, good := min 3 (x.good + 1) })) ∧
    (∀ d r, l < 2 → due = true → u.clk.xref = true → x.state = 1 → (d < -2 ∨ 2 < d) → exec (.lockWindow t l d r) s =
      .next (loopLost t l 0 (({ u with clk := { u.clk with roKhz := r } }).modLoop l fun x => { x with diff := d, winAt := t, good := 0 }))) ∧
    (∀ d r, l < 2 → due = true → u.clk.xref = true → (x.state = 0 ∨ x.state = 2) → -2 ≤ d → d ≤ 2 → 2 ≤ x.good → u.clk.main ≠ 0xFF →
      exec (.lockWindow t l d r) s = .next (State.post t (lockEv l 1 0 d)
        ((({ u with clk := { u.clk with roKhz := r } }).modLoop l fun x => { x with diff := d, winAt := t, good := min 3 (x.good + 1) }).modLoop l
          fun x => { x with state := 1 }))) := by
  intro u x due
  refine ⟨fun d r hl h => ?_, fun d r hl hd hx h1 ha hb => ?_, fun d r hl hd hx h1 hbad => ?_, fun d r hl hd hx h0 ha hb hg hm => ?_⟩
  · refine (lockWindow_exec hl t d r s).trans (congrArg _ (if_pos ?_))
    exact h.imp_right (Or.imp (congrArg (!·)) (congrArg (!·)))
  · refine (lockWindow_exec hl t d r s).trans (congrArg _ ((if_neg (window_counts (x := x) (by omega) hx hd)).trans ((if_pos h1).trans ?_)))
    rw [good_of_bounds ha hb]
    rfl
  · refine (lockWindow_exec hl t d r s).trans (congrArg _ ((if_neg (window_counts (x := x) (by omega) hx hd)).trans ((if_pos h1).trans ?_)))
    rw [bad_of_bounds hbad]
    rfl
  · refine (lockWindow_exec hl t d r s).trans (congrArg _ ((if_neg (window_counts (x := x) (by omega) hx hd)).trans ((if_neg (show ¬x.state = 1 by omega)).trans ?_)))
    rw [good_of_bounds ha hb]
    refine (if_pos ⟨rfl, (by omega : 3 ≤ x.good + 1)⟩).trans (if_neg ?_)
    rw [post_clk]
    exact hm

/-! ### XREF and the main loop -/

/-- The loops with their errors' suspicion. -/
def suspected (a b : Int) (u : State) : State := (u.modLoop 0 (suspectAt a)).modLoop 1 (suspectAt b)

theorem clkSwitch_exec (t : Nat) (a b : Int) (s : State) :
    exec (.clkSwitch t a b) s = .next (
      let v := suspected a b (s.advance t)
      if v.clk.main = 0xFF ∨ !v.clk.xref then v
      else
        let both := (v.loop v.clk.main).suspect && (v.loop v.standby).suspect
        let w := v.modClk fun c => { c with bothSus := if both then c.bothSus + 1 else 0 }
        if both then (if 2 ≤ w.clk.bothSus then xrefAbsent t w else w)
        else if (v.loop v.standby).state = 1 ∧ !(v.loop v.standby).suspect then
          (if (v.loop v.clk.main).suspect then switchOver t 0 w
           else if (v.loop v.clk.main).state = 2 ∨ (v.loop v.clk.main).state = 3 then switchOver t 1 w else w)
        else w) := rfl

theorem xref_counts {m : Nat} {xref : Bool} (hm : m ≠ 0xFF) (hx : xref = true) : ¬(m = 0xFF ∨ (!xref) = true) := by
  rw [hx]
  exact fun h => h.elim hm (by decide)

theorem clkSwitches (t : Nat) (a b : Int) (s : State) :
    let v := suspected a b (s.advance t)
    let m := v.loop v.clk.main
    let n := v.loop v.standby
    ((v.clk.main = 0xFF ∨ v.clk.xref = false) → exec (.clkSwitch t a b) s = .next v) ∧
    (v.clk.main ≠ 0xFF → v.clk.xref = true → n.state = 1 → n.suspect = false → m.suspect = true →
      exec (.clkSwitch t a b) s = .next (switchOver t 0 { v with clk := { v.clk with bothSus := 0 } })) ∧
    (v.clk.main ≠ 0xFF → v.clk.xref = true → m.suspect = true → n.suspect = true → v.clk.bothSus = 0 →
      exec (.clkSwitch t a b) s = .next { v with clk := { v.clk with bothSus := 1 } }) ∧
    (v.clk.main ≠ 0xFF → v.clk.xref = true → m.suspect = true → n.suspect = true → v.clk.bothSus = 1 →
      exec (.clkSwitch t a b) s = .next (xrefAbsent t { v with clk := { v.clk with bothSus := 2 } })) := by
  intro v m n
  have both (hm : m.suspect = true) (hn : n.suspect = true) : (m.suspect && n.suspect) = true := by rw [hm, hn]; rfl
  refine ⟨fun h => ?_, fun hm hx hn hns hms => ?_, fun hm hx hms hns h0 => ?_, fun hm hx hms hns h1 => ?_⟩
  · exact (clkSwitch_exec t a b s).trans (congrArg _ (if_pos (h.imp_right (congrArg (!·)))))
  · have hnot : (m.suspect && n.suspect) = false := by rw [hns, Bool.and_false]
    refine (clkSwitch_exec t a b s).trans (congrArg _ ((if_neg (xref_counts hm hx)).trans ?_))
    change (if (m.suspect && n.suspect) = true then _ else _) = _
    refine (if_neg (ne_true_of_eq_false hnot)).trans ((if_pos ⟨hn, congrArg (!·) hns⟩).trans ((if_pos hms).trans ?_))
    change switchOver t 0 (v.modClk fun c => { c with bothSus := if (m.suspect && n.suspect) = true then c.bothSus + 1 else 0 }) = _
    rw [hnot]
    rfl
  · refine (clkSwitch_exec t a b s).trans (congrArg _ ((if_neg (xref_counts hm hx)).trans ?_))
    change (if (m.suspect && n.suspect) = true then
      (if 2 ≤ (if (m.suspect && n.suspect) = true then v.clk.bothSus + 1 else 0) then _
       else v.modClk fun c => { c with bothSus := if (m.suspect && n.suspect) = true then c.bothSus + 1 else 0 }) else _) = _
    rw [both hms hns, if_pos rfl, if_neg (by rw [h0]; decide)]
    simp only [State.modClk, if_true, h0]
  · refine (clkSwitch_exec t a b s).trans (congrArg _ ((if_neg (xref_counts hm hx)).trans ?_))
    change (if (m.suspect && n.suspect) = true then
      (if 2 ≤ (if (m.suspect && n.suspect) = true then v.clk.bothSus + 1 else 0) then
        xrefAbsent t (v.modClk fun c => { c with bothSus := if (m.suspect && n.suspect) = true then c.bothSus + 1 else 0 })
       else _) else _) = _
    rw [both hms hns, if_pos rfl, if_pos (by rw [h1]; decide)]
    simp only [State.modClk, if_true, h1]

/-! ### Islands and the region -/

theorem missingEdge_exec {k : Nat} (hk : k < 12) (t : Nat) (s : State) :
    exec (.missingEdge t k) s = .next (
      let u := s.advance t
      let src := u.clk.sources.getD k 3
      let l := if src = 0 then u.clk.main else u.standby
      if 2 ≤ src ∨ (u.loop l).state ≠ 1 then u
      else
        let v := State.post t (switchEv k src 2 2)
          ((d6Follow t (u.modClk fun c => { c with sources := c.sources.set k 2 })).modSys fun y => { y with clockFault := true })
        if 2 ≤ k ∧ k ≤ 5 then (if v.eng.cores.getD (k - 2) 0 = 1 then v.modEng fun e => { e with forceDissent := e.forceDissent ++ [k - 2 + 16] } else v)
        else if 8 ≤ k ∧ k ≤ 10 then domainFault t k (v.modClk fun c => { c with pick := c.pick.set k (1 - src) })
        else forceSafeStop t 0x02 v) := if_pos hk

/-- An island of the core domains on the main loop that lost its edges (R504, R505). -/
theorem missingEdge_main {t k : Nat} {s : State} (hk : k < 2 ∨ k = 6 ∨ k = 7 ∨ k = 11) (hsrc : (s.advance t).clk.sources.getD k 3 = 0)
    (hl : ((s.advance t).loop (s.advance t).clk.main).state = 1) :
    let u := s.advance t
    exec (.missingEdge t k) s = .next (forceSafeStop t 2 (State.post t (switchEv k 0 2 2)
      ((d6Follow t { u with clk := { u.clk with sources := u.clk.sources.set k 2 } }).modSys fun y => { y with clockFault := true }))) := by
  rw [missingEdge_exec (by omega)]
  dsimp only
  rw [hsrc, if_pos rfl, if_neg (fun h => h.elim (by decide) fun h => h hl), if_neg (by omega), if_neg (by omega)]
  rfl

/-- The region's evaluation kept: its temperatures, their difference and its two counts (R514). -/
def regionSeen (t : Nat) (c i : List Int) (u : State) : State :=
  u.modClk fun x => { x with
    regionAt := t, tCtl := hottest c, tIf := hottest i, delta := regionDelta c i
    hot := if 161 ≤ regionDelta c i then min 10 (x.hot + 1) else 0, cool := if 161 ≤ regionDelta c i then 0 else min 10 (x.cool + 1) }

theorem clkRegion_exec (t : Nat) (c i : List Int) (s : State) :
    exec (.clkRegion t c i) s = .next (
      let u := s.advance t
      let v := regionSeen t c i u
      let on := decide (10 ≤ v.clk.hot) || (v.clk.region && decide (v.clk.cool < 10))
      if !elapsed u.clk.regionAt 10000000 t then u else if on = v.clk.region then v
      else (v.modClk fun c => { c with region := on }).post t (ev 0x0E32 0 ([if on then 1 else 0, 0] ++ le 2 (regionDelta c i)))) := rfl

/-- The tenth hot evaluation in a row sets the region flag (R514). -/
theorem clkRegion_sets {t : Nat} {c i : List Int} {s : State} (he : elapsed (s.advance t).clk.regionAt 10000000 t = true)
    (hd : 161 ≤ regionDelta c i) (hr : (s.advance t).clk.region = false) (h9 : (s.advance t).clk.hot = 9) :
    ∃ w, exec (.clkRegion t c i) s = .next w ∧ w.clk.region = true ∧ w.clk.delta = regionDelta c i := by
  have hhot : (regionSeen t c i (s.advance t)).clk.hot = 10 := by
    change (if 161 ≤ regionDelta c i then min 10 ((s.advance t).clk.hot + 1) else 0) = 10
    rw [if_pos hd, h9]
    rfl
  rw [clkRegion_exec]
  dsimp only
  rw [hhot, decide_eq_true (Nat.le_refl 10), Bool.true_or, if_neg (by rw [he]; decide), if_neg (fun h => absurd (h.trans hr) (by decide))]
  exact ⟨_, rfl, by rw [post_clk]; rfl, by rw [post_clk]; rfl⟩

theorem clkRegion_cool {t : Nat} {c i : List Int} {s : State} (he : elapsed (s.advance t).clk.regionAt 10000000 t = true)
    (hd : regionDelta c i < 161) (hr : (s.advance t).clk.region = false) :
    let u := s.advance t
    exec (.clkRegion t c i) s = .next { u with clk := { u.clk with
      regionAt := t, tCtl := hottest c, tIf := hottest i, delta := regionDelta c i, hot := 0, cool := min 10 (u.clk.cool + 1) } } := by
  have hseen : regionSeen t c i (s.advance t) = { s.advance t with clk := { (s.advance t).clk with
      regionAt := t, tCtl := hottest c, tIf := hottest i, delta := regionDelta c i, hot := 0, cool := min 10 ((s.advance t).clk.cool + 1) } } := by
    simp only [regionSeen, State.modClk, if_neg (Nat.not_le.2 hd)]
  rw [clkRegion_exec]
  dsimp only
  rw [hseen, if_neg (by rw [he]; decide)]
  exact congrArg _ (if_pos (by dsimp only; rw [hr]; rfl))

/-- Settles O54: the loops' windows, XREF and the main loop, the islands and the region. -/
theorem clockHappenings : Obligations.ClockHappenings := by
  intro t l s
  obtain ⟨hw, hw', hw'', hw'''⟩ := lockWindows t l s
  refine ⟨hw, hw', hw'', hw''', fun h => congrArg _ (if_pos h), fun h => congrArg _ (if_neg (ne_true_of_eq_false h)), rfl,
    fun a b => clkSwitches t a b s, fun hl h2 ht => (if_pos hl).trans (congrArg _ (if_pos ⟨h2, ht⟩)),
    fun hl h => (if_pos hl).trans (congrArg _ (if_neg fun hk => ?_)), fun k hk hs hl => missingEdge_main hk hs hl, fun k hk h => ?_,
    fun c i he => ?_, fun c i he hd hr h9 => clkRegion_sets he hd hr h9, fun c i he hd hr => clkRegion_cool he hd hr⟩
  · exact h.elim (fun h => h hk.1) fun h => Nat.not_le.2 h hk.2
  · exact (missingEdge_exec hk t s).trans (congrArg _ (if_pos (.inl h)))
  · exact (clkRegion_exec t c i s).trans (congrArg _ (if_pos (congrArg (!·) he)))

end Sys2Proof.Machine
end

section
/-! SUPPORT. Fleet messages, ports, buses and the PTP lock (R458 to R466, R470 to R476, R499). -/

namespace Sys2Proof.Machine

/-! ### Fleet messages -/

/-- A peer that ANNOUNCE names. -/
def announcedPeer (t src n : Nat) (d : List Byte) : Peer :=
  { addr := src, serial := slice d 0 8, amp := u16 d 8, mode := u8 d 10, aflags := u8 d 11, heard := t, counter := n }

theorem announce_exec {src : Nat} (h : src < 2 ^ 18) (t n : Nat) (d : List Byte) (s : State) :
    exec (.announce t src n d) s = .next (
      let u := s.advance t
      let known := u.net.peers.any fun p => p.addr == src
      if d.length ≠ 16 ∨ !u.d9On then u
      else if u.net.addr = some src ∧ slice d 0 8 = fit 8 (u.mem.serial.getD []) then u
      else
        let v := conflictCheck t src (slice d 0 8) u
        if bit (u8 d 11) 1 then
          (if known then (v.modNet fun n => { n with peers := n.peers.filter fun x => x.addr != src }).post t (peerEv src 2) else v)
        else if known then v.modNet fun x => { x with peers := insertPeer (announcedPeer t src n d) x.peers }
        else joinPeer t (announcedPeer t src n d) v) := if_pos h

theorem conflictCheck_other {src : Nat} {u : State} (h : u.net.addr ≠ some src) (t : Nat) (sn : List Byte) : conflictCheck t src sn u = u :=
  if_neg fun hk => h hk.1

/-- An announcement that is taken: of the right length, while D9 runs, of another address. -/
theorem announce_taken {t src n : Nat} {d : List Byte} {s : State} (h : src < 2 ^ 18) (hl : d.length = 16) (hd : (s.advance t).d9On = true)
    (ha : (s.advance t).net.addr ≠ some src) :
    exec (.announce t src n d) s = .next (
      let u := s.advance t
      let known := u.net.peers.any fun p => p.addr == src
      if bit (u8 d 11) 1 then
        (if known then (u.modNet fun n => { n with peers := n.peers.filter fun x => x.addr != src }).post t (peerEv src 2) else u)
      else if known then u.modNet fun x => { x with peers := insertPeer (announcedPeer t src n d) x.peers }
      else joinPeer t (announcedPeer t src n d) u) := by
  rw [announce_exec h]
  dsimp only
  rw [conflictCheck_other ha, if_neg (by rw [hd]; exact fun hk => hk.elim (fun hk => hk hl) (by decide)), if_neg fun hk => ha hk.1]

theorem joinPeer_room {u : State} (h : u.net.peers.length < 4096) (t : Nat) (p : Peer) :
    joinPeer t p u = (u.modNet fun n => { n with peers := insertPeer p n.peers }).post t (peerEv p.addr 1) := if_pos h

/-- What each announcement does to the peer table (R470, R474). -/
theorem announcements (t src : Nat) (s : State) (h : src < 2 ^ 18) :
    let u := s.advance t
    (∀ n d, d.length = 16 → u.d9On = true → u.net.addr ≠ some src → bit (u8 d 11) 1 = false →
      (u.net.peers.any fun p => p.addr == src) = true → exec (.announce t src n d) s = .next { u with net := { u.net with
        peers := insertPeer (announcedPeer t src n d) u.net.peers } }) ∧
    (∀ n d, d.length = 16 → u.d9On = true → u.net.addr ≠ some src → bit (u8 d 11) 1 = true →
      (u.net.peers.any fun p => p.addr == src) = true → exec (.announce t src n d) s = .next (State.post t (peerEv src 2)
        { u with net := { u.net with peers := u.net.peers.filter fun x => x.addr != src } })) ∧
    (∀ n d, d.length = 16 → u.d9On = true → u.net.addr ≠ some src → bit (u8 d 11) 1 = false →
      (u.net.peers.any fun p => p.addr == src) = false → u.net.peers.length < 4096 → exec (.announce t src n d) s = .next (State.post t (peerEv src 1)
        { u with net := { u.net with peers := insertPeer (announcedPeer t src n d) u.net.peers } })) ∧
    (∀ n d, u.d9On = false → exec (.announce t src n d) s = .next u) := by
  intro u
  refine ⟨fun n d hl hd ha hf hk => ?_, fun n d hl hd ha hf hk => ?_, fun n d hl hd ha hf hk hroom => ?_, fun n d hd => ?_⟩
  · exact (announce_taken h hl hd ha).trans (congrArg _ ((if_neg (ne_true_of_eq_false hf)).trans (if_pos hk)))
  · exact (announce_taken h hl hd ha).trans (congrArg _ ((if_pos hf).trans (if_pos hk)))
  · exact (announce_taken h hl hd ha).trans (congrArg _ ((if_neg (ne_true_of_eq_false hf)).trans ((if_neg (ne_true_of_eq_false hk)).trans
      (joinPeer_room hroom t _))))
  · exact (announce_exec h t n d s).trans (congrArg _ (if_pos (.inr (congrArg (!·) hd))))

theorem dispatch_exec {src : Nat} (h : src < 2 ^ 18) (t : Nat) (d : List Byte) (s : State) :
    exec (.dispatch t src d) s = .next (
      let u := s.advance t
      if d.length ≠ 24 ∨ !u.sys.ready ∨ !u.d9On then u
      else if u.net.authority && u.net.dispatchers.contains src then dispatchAct t src d u
      else benSend 0x11 src [0x07, 0x01, 0, 0] (u.post t (dispatchEv 3 src 0x0107))) := if_pos h

theorem dispatchExpiry_some {t v : Nat} {s : State} (h : (s.advance t).net.expiry = some v) :
    exec (.dispatchExpiry t) s = .next (
      let u := s.advance t
      if v ≤ t then State.post t (dispatchEv 2 u.net.expSrc 0) (setBat 0xFF 0 { u with
        grid := { u.grid with pSet := u.net.fbP, qSet := u.net.fbQ }
        net := { u.net with expiry := none } })
      else u) := by
  change execDispatchExpiry t s = _
  unfold execDispatchExpiry
  dsimp only
  conv_lhs => rw [h]
  rfl

theorem dispatchExpiry_none {t : Nat} {s : State} (h : (s.advance t).net.expiry = none) : exec (.dispatchExpiry t) s = .next (s.advance t) := by
  change execDispatchExpiry t s = _
  unfold execDispatchExpiry
  dsimp only
  rw [h]

theorem command_exec {src : Nat} (h : src < 2 ^ 18) (t : Nat) (p : List Byte) (s : State) :
    exec (.command t src p) s = .next (
      let u := s.advance t
      if !u.d9On then u else if u.net.managers.contains src ∧ p.length ≤ 1412 then u.deliver 46 p else benDiscard u) := if_pos h

/-- Dispatches and commands (R472, R473). -/
theorem dispatchesAndCommands (t src : Nat) (s : State) (h : src < 2 ^ 18) :
    let u := s.advance t
    (∀ d, d.length = 24 → u.sys.ready = true → u.d9On = true → (u.net.authority && u.net.dispatchers.contains src) = false →
      exec (.dispatch t src d) s = .next (benSend 0x11 src [0x07, 0x01, 0, 0] (State.post t (dispatchEv 3 src 0x0107) u))) ∧
    (∀ d, d.length = 24 → u.sys.ready = true → u.d9On = true → u.net.authority = true → u.net.dispatchers.contains src = true →
      exec (.dispatch t src d) s = .next (dispatchAct t src d u)) ∧
    (∀ v, u.net.expiry = some v → v ≤ t → exec (.dispatchExpiry t) s = .next (State.post t (dispatchEv 2 u.net.expSrc 0)
      (setBat 0xFF 0 { u with
        grid := { u.grid with pSet := u.net.fbP, qSet := u.net.fbQ }
        net := { u.net with expiry := none } }))) ∧
    ((u.net.expiry = none ∨ ∃ v, u.net.expiry = some v ∧ t < v) → exec (.dispatchExpiry t) s = .next u) ∧
    (∀ p, u.d9On = true → u.net.managers.contains src = true → p.length ≤ 1412 → exec (.command t src p) s = .next (u.deliver 46 p)) ∧
    (∀ p, u.d9On = true → u.net.managers.contains src = false → exec (.command t src p) s = .next (benDiscard u)) := by
  intro u
  have runs {d : List Byte} (hl : d.length = 24) (hr : u.sys.ready = true) (hd : u.d9On = true) :
      ¬(d.length ≠ 24 ∨ (!u.sys.ready) = true ∨ (!u.d9On) = true) := by
    rw [hr, hd]
    rintro (hk | hk | hk)
    · exact hk hl
    · exact absurd hk (by decide)
    · exact absurd hk (by decide)
  have on (hd : u.d9On = true) : ¬(!u.d9On) = true := by rw [hd]; decide
  refine ⟨fun d hl hr hd ha => ?_, fun d hl hr hd ha hc => ?_, fun v hv ht => ?_, fun hno => ?_, fun p hd hm hp => ?_, fun p hd hm => ?_⟩
  · exact (dispatch_exec h t d s).trans (congrArg _ ((if_neg (runs hl hr hd)).trans (if_neg (ne_true_of_eq_false ha))))
  · exact (dispatch_exec h t d s).trans (congrArg _ ((if_neg (runs hl hr hd)).trans (if_pos (by rw [ha, hc]; rfl))))
  · exact (dispatchExpiry_some hv).trans (congrArg _ (if_pos ht))
  · obtain hno | ⟨v, hv, ht⟩ := hno
    · exact dispatchExpiry_none hno
    · exact (dispatchExpiry_some hv).trans (congrArg _ (if_neg (Nat.not_le.2 ht)))
  · exact (command_exec h t p s).trans (congrArg _ ((if_neg (on hd)).trans (if_pos ⟨hm, hp⟩)))
  · exact (command_exec h t p s).trans (congrArg _ ((if_neg (on hd)).trans (if_neg fun hk => ne_true_of_eq_false hm hk.1)))

theorem announceSend_exec (t : Nat) (s : State) :
    exec (.announceSend t) s = .next (
      let u := s.advance t
      if u.sys.ready && u.d9On && !u.isFrozen 3 && decide (u.net.announcedAt + u.net.announceS * 1000000000 ≤ t) then
        announce false (u.modNet fun n => { n with announcedAt := t })
      else u) := rfl

/-- Settles O51: announcements, dispatches and commands, and what leaves by its age. -/
theorem fleetHappenings : Obligations.FleetHappenings := by
  intro t src s u peer h
  obtain ⟨ha, hl, hj, hoff⟩ := announcements t src s h
  obtain ⟨hauth, hact, hexp, hexp', hcmd, hcmd'⟩ := dispatchesAndCommands t src s h
  refine ⟨ha, hl, hj, hoff, hauth, hact, hexp, hexp', hcmd, hcmd', fun hd hp => congrArg _ (if_pos ?_), fun hno => congrArg _ (if_neg ?_), rfl,
    fun n d hown hserial => ?_, fun hr hd hf ht => ?_, fun hno => ?_⟩
  · exact (Bool.and_eq_true _ _).mpr ⟨hd, hp⟩
  · intro hk
    obtain ⟨hd, hp⟩ := (Bool.and_eq_true _ _).mp hk
    exact hno.elim (fun h => ne_true_of_eq_false h hd) fun h => ne_true_of_eq_false h hp
  · refine (announce_exec h t n d s).trans (congrArg _ ?_)
    dsimp only
    split
    · rfl
    · exact if_pos ⟨hown, hserial⟩
  · exact (announceSend_exec t s).trans (congrArg _ (if_pos (by rw [hr, hd, hf, decide_eq_true ht]; rfl)))
  · refine (announceSend_exec t s).trans (congrArg _ (if_neg ?_))
    obtain hno | hno := hno
    · rw [hno, Bool.and_false]
      exact Bool.false_ne_true
    · rw [decide_eq_false (Nat.not_le.2 hno), Bool.and_false]
      exact Bool.false_ne_true

/-! ### Frames of ports, buses and the UART -/

theorem ethernetFrame_exec {c : Nat} (hc : c < 2) (t : Nat) (f : List Byte) (b : Bool) (s : State) :
    exec (.ethernetFrame t c f b) s = .next (
      let u := s.advance t
      if !u.d9On || !(u.port c).enable || !(u.port c).up then u
      else if u.isFrozen 3 then stall 3 u
      else if b && u.clk.sources.getD 9 0 == 2 then u.modNet fun n => { n with frameDrops := satInc 0xFFFFFFFF n.frameDrops }
      else frameIn t c f u) := if_pos hc

theorem canFrame_exec {c : Nat} (hc : c < 2) (t i : Nat) (fd e b r : Bool) (d : List Byte) (s : State) :
    exec (.canFrame t c i fd e b r d) s = .next (
      let u := s.advance t
      let k := u.net.cans.getD c CanCtl.reset
      if !u.d9On || k.busOff || k.role == 0 || (r && k.role == 2) then u
      else if u.isFrozen 3 then stall 3 u
      else if r then canDiscard u
      else if k.role = 2 then u.deliver (42 + c) (netHeader t (2 + c) (flagAt fd 0 + flagAt e 1 + flagAt b 2) d.length i ++ d)
      else if fd && e && i / 65536 == 0x1B5C && i % 256 == 1 && decide (i / 256 % 256 < 64) then u
      else canDiscard u) := if_pos hc

theorem uartReceive_exec (t : Nat) (d : List Byte) (s : State) :
    exec (.uartReceive t d) s = .next (
      let u := s.advance t
      if !u.d9On || u.host.uartHost then u else if u.isFrozen 3 then stall 3 u
      else u.deliver 44 (netHeader t 4 0 d.length 0 ++ d)) := rfl

theorem receivedFrames (t c : Nat) (s : State) (hc : c < 2) :
    let u := s.advance t
    let k := u.net.cans.getD c CanCtl.reset
    (∀ f, u.d9On = true → (u.port c).enable = true → (u.port c).up = true → u.isFrozen 3 = false →
      exec (.ethernetFrame t c f false) s = .next (frameIn t c f u)) ∧
    (∀ f, u.d9On = true → (u.port c).enable = true → (u.port c).up = true → u.isFrozen 3 = false → u.clk.sources.getD 9 0 = 2 →
      exec (.ethernetFrame t c f true) s = .next { u with net := { u.net with frameDrops := satInc 0xFFFFFFFF u.net.frameDrops } }) ∧
    (∀ f b, (u.d9On = false ∨ (u.port c).enable = false ∨ (u.port c).up = false) → exec (.ethernetFrame t c f b) s = .next u) ∧
    (∀ i fd e b d, u.d9On = true → k.busOff = false → k.role = 2 → u.isFrozen 3 = false → exec (.canFrame t c i fd e b false d) s =
      .next (u.deliver (42 + c) (netHeader t (2 + c) (flagAt fd 0 + flagAt e 1 + flagAt b 2) d.length i ++ d))) ∧
    (∀ i fd e b r d, (u.d9On = false ∨ k.busOff = true ∨ k.role = 0 ∨ (r = true ∧ k.role = 2)) → exec (.canFrame t c i fd e b r d) s = .next u) ∧
    (∀ i fd e b r d, u.d9On = true → k.busOff = false → k.role = 1 → u.isFrozen 3 = false → (r = true ∨ i / 65536 ≠ 0x1B5C) →
      exec (.canFrame t c i fd e b r d) s = .next (canDiscard u)) ∧
    (∀ d, u.d9On = true → u.host.uartHost = false → u.isFrozen 3 = false → exec (.uartReceive t d) s =
      .next (u.deliver 44 (netHeader t 4 0 d.length 0 ++ d))) ∧
    (∀ d, (u.d9On = false ∨ u.host.uartHost = true) → exec (.uartReceive t d) s = .next u) := by
  intro u k
  have port_up (hd : u.d9On = true) (he : (u.port c).enable = true) (hu : (u.port c).up = true) :
      ¬(!u.d9On || !(u.port c).enable || !(u.port c).up) = true := by rw [hd, he, hu]; decide
  refine ⟨fun f hd he hu hz => ?_, fun f hd he hu hz hsrc => ?_, fun f b hno => ?_, fun i fd e b d hd hb hr hz => ?_, fun i fd e b r d hno => ?_,
    fun i fd e b r d hd hb hr hz hbad => ?_, fun d hd hh hz => ?_, fun d hno => ?_⟩
  · exact (ethernetFrame_exec hc t f false s).trans
      (congrArg _ ((if_neg (port_up hd he hu)).trans ((if_neg (ne_true_of_eq_false hz)).trans (if_neg Bool.false_ne_true))))
  · exact (ethernetFrame_exec hc t f true s).trans
      (congrArg _ ((if_neg (port_up hd he hu)).trans ((if_neg (ne_true_of_eq_false hz)).trans (if_pos (by rw [hsrc]; rfl)))))
  · refine (ethernetFrame_exec hc t f b s).trans (congrArg _ (if_pos ?_))
    obtain h | h | h := hno <;> rw [h] <;> simp
  · have hgo : (!u.d9On || k.busOff || k.role == 0 || (false && k.role == 2)) = false := by rw [hd, hb, hr]; rfl
    exact (canFrame_exec hc t i fd e b false d s).trans (congrArg _ ((if_neg (ne_true_of_eq_false hgo)).trans
      ((if_neg (ne_true_of_eq_false hz)).trans ((if_neg Bool.false_ne_true).trans (if_pos hr)))))
  · refine (canFrame_exec hc t i fd e b r d s).trans (congrArg _ (if_pos ?_))
    change (!u.d9On || k.busOff || k.role == 0 || (r && k.role == 2)) = true
    obtain h | h | h | ⟨h, h2⟩ := hno
    · rw [h]; rfl
    · rw [h, Bool.or_true]; rfl
    · rw [h]; simp
    · rw [h, h2]; simp
  · have hgo : (!u.d9On || k.busOff || k.role == 0 || (r && k.role == 2)) = false := by rw [hd, hb, hr]; simp
    refine (canFrame_exec hc t i fd e b r d s).trans (congrArg _ ((if_neg (ne_true_of_eq_false hgo)).trans
      ((if_neg (ne_true_of_eq_false hz)).trans ?_)))
    cases r
    case true => rfl
    case false =>
      have hi : (i / 65536 == 0x1B5C) = false := beq_false_of_ne (hbad.resolve_left Bool.false_ne_true)
      refine (if_neg Bool.false_ne_true).trans ((if_neg (show ¬k.role = 2 by omega)).trans (if_neg ?_))
      rw [hi, Bool.and_false]
      exact Bool.false_ne_true
  · exact (uartReceive_exec t d s).trans (congrArg _ ((if_neg (by rw [hd, hh]; decide)).trans (if_neg (ne_true_of_eq_false hz))))
  · refine (uartReceive_exec t d s).trans (congrArg _ (if_pos ?_))
    obtain h | h := hno <;> rw [h] <;> simp

/-! ### Frames sent -/

theorem frameTransmit_exec {n : Nat} (hn : n < 64) (t : Nat) (s : State) :
    exec (.frameTransmit t n) s = .next (
      let u := s.advance t
      if !u.d9On then u else if u.isFrozen 3 then stall 3 u else if n = 57 then sendPdu u
      else if 32 ≤ n ∧ n ≤ 36 ∧ u.canSend n = true then sendHead t n u else u) := if_pos hn

theorem sentFrames (t : Nat) (s : State) :
    let u := s.advance t
    (∀ n, u.d9On = true → u.isFrozen 3 = false → 32 ≤ n → n ≤ 36 →
      (u.canSend n = true → exec (.frameTransmit t n) s = .next (sendHead t n u)) ∧ (u.canSend n = false → exec (.frameTransmit t n) s = .next u)) ∧
    (u.d9On = true → u.isFrozen 3 = false → exec (.frameTransmit t 57) s = .next (sendPdu u)) ∧
    (∀ n, n < 64 → u.d9On = false → exec (.frameTransmit t n) s = .next u) := by
  intro u
  have on (hd : u.d9On = true) : ¬(!u.d9On) = true := by rw [hd]; decide
  refine ⟨fun n hd hz h1 h2 => ⟨fun hs => ?_, fun hs => ?_⟩, fun hd hz => ?_, fun n hn hd => ?_⟩
  · exact (frameTransmit_exec (by omega) t s).trans (congrArg _ ((if_neg (on hd)).trans ((if_neg (ne_true_of_eq_false hz)).trans
      ((if_neg (by omega)).trans (if_pos ⟨h1, h2, hs⟩)))))
  · exact (frameTransmit_exec (by omega) t s).trans (congrArg _ ((if_neg (on hd)).trans ((if_neg (ne_true_of_eq_false hz)).trans
      ((if_neg (by omega)).trans (if_neg fun hk => ne_true_of_eq_false hs hk.2.2)))))
  · exact (frameTransmit_exec (by decide) t s).trans (congrArg _ ((if_neg (on hd)).trans ((if_neg (ne_true_of_eq_false hz)).trans (if_pos rfl))))
  · exact (frameTransmit_exec hn t s).trans (congrArg _ (if_pos (congrArg (!·) hd)))

/-! ### Links, bus-off and the PTP lock -/

theorem netLink_exec {c : Nat} (hc : c < 2) (t : Nat) (b : Bool) (s : State) :
    exec (.netLink t c b) s = .next (
      let u := s.advance t
      let fails := u.failover && c == u.net.active && !b
      if !u.d9On || (u.port c).up == b then u
      else
        let v := u.modNet fun n => { n with ports := upd n.ports c fun p => { p with up := b }, active := if fails then 1 - c else n.active }
        let w := v.post t (ev 0x0C30 c [if b then 1 else 0, BitVec.ofNat 8 v.offloadPort])
        if fails then announce false w else w) := if_pos hc

theorem netLinks (t c : Nat) (s : State) (hc : c < 2) :
    let u := s.advance t
    (let v : State := { u with net := { u.net with ports := upd u.net.ports c fun p => { p with up := false }, active := 1 - c } }
     u.d9On = true → (u.port c).up = true → u.failover = true → u.net.active = c → exec (.netLink t c false) s =
      .next (announce false (State.post t (ev 0x0C30 c [0, BitVec.ofNat 8 v.offloadPort]) v))) ∧
    (∀ b,
      let v : State := { u with net := { u.net with ports := upd u.net.ports c fun p => { p with up := b } } }
      u.d9On = true → (u.port c).up = !b → (b = true ∨ u.failover = false ∨ u.net.active ≠ c) →
      exec (.netLink t c b) s = .next (State.post t (ev 0x0C30 c [if b then 1 else 0, BitVec.ofNat 8 v.offloadPort]) v)) ∧
    (∀ b, (u.d9On = false ∨ (u.port c).up = b) → exec (.netLink t c b) s = .next u) := by
  intro u
  have changes {b : Bool} (hd : u.d9On = true) (hu : (u.port c).up = !b) : ¬(!u.d9On || (u.port c).up == b) = true := by
    rw [hd, hu]; cases b <;> decide
  refine ⟨fun hd hu hf ha => ?_, fun b hd hu hno => ?_, fun b hno => ?_⟩
  · have hfails : (u.failover && c == u.net.active && !false) = true := by rw [hf, ha]; simp
    refine (netLink_exec hc t false s).trans (congrArg _ ((if_neg (changes (b := false) hd hu)).trans ?_))
    dsimp only
    change (if (u.failover && c == u.net.active && !false) = true then _ else _) = _
    rw [hfails]
    rfl
  · have hfails : (u.failover && c == u.net.active && !b) = false := by
      obtain h | h | h := hno
      · rw [h]; simp
      · rw [h]; simp
      · rw [beq_false_of_ne (Ne.symm h)]; simp
    refine (netLink_exec hc t b s).trans (congrArg _ ((if_neg (changes hd hu)).trans ?_))
    dsimp only
    change (if (u.failover && c == u.net.active && !b) = true then _ else _) = _
    rw [hfails]
    rfl
  · refine (netLink_exec hc t b s).trans (congrArg _ (if_pos ?_))
    obtain h | h := hno
    · rw [h]; rfl
    · change (!u.d9On || (u.port c).up == b) = true
      rw [h]; simp

theorem busOff_changes {t c : Nat} {off : Bool} {u : State} (hd : u.d9On = true) (hb : (u.net.cans.getD c CanCtl.reset).busOff = !off) :
    busOff t c off u = (u.modNet fun n => { n with cans := upd n.cans c fun k => { k with busOff := off } }).post t
      (ev 0x0C36 c [if off then 1 else 2, 0]) := if_neg (by rw [hd, hb]; cases off <;> decide)

theorem busOff_stands {t c : Nat} {off : Bool} {u : State} (hb : (u.net.cans.getD c CanCtl.reset).busOff = off) : busOff t c off u = u :=
  if_pos (by rw [hb]; simp)

/-- Settles O52: frames in and out, links, bus-off and the PTP lock. -/
theorem networkHappenings : Obligations.NetworkHappenings := by
  intro t c s u k hc
  obtain ⟨he, he', he'', hcan, hcan', hcan'', hu, hu'⟩ := receivedFrames t c s hc
  obtain ⟨hs, hp, hoff⟩ := sentFrames t s
  obtain ⟨hfail, hlink, hstill⟩ := netLinks t c s hc
  refine ⟨he, he', he'', hcan, hcan', hcan'', hu, hu', hs, hp, hoff, hfail, hlink, hstill, fun hd hb => ⟨?_, ?_⟩, fun hd hb => ⟨?_, ?_⟩,
    fun hl ht => congrArg _ (if_pos ⟨hl, ht⟩), fun hno => congrArg _ (if_neg fun hk => ?_)⟩
  · exact (if_pos hc).trans (congrArg _ (busOff_changes hd hb))
  · exact (if_pos hc).trans (congrArg _ (busOff_stands hb))
  · exact (if_pos hc).trans (congrArg _ (busOff_changes hd hb))
  · exact (if_pos hc).trans (congrArg _ (busOff_stands hb))
  · exact hno.elim (fun h => ne_true_of_eq_false h hk.1) fun h => Nat.not_le.2 h hk.2

end Sys2Proof.Machine
end

section
/-! SUPPORT. Safety inputs, the Vrel layer and safety outputs (R428 to R438, R443 to R445, R451). -/

namespace Sys2Proof.Machine

/-! ### An element after an update -/

theorem getD_upd_same {α : Type} {l : List α} {i : Nat} (h : i < l.length) (f : α → α) (d : α) : (upd l i f).getD i d = f (l.getD i d) := by
  unfold upd
  simp [h]

theorem upd_outside {α : Type} {l : List α} {i : Nat} (h : l.length ≤ i) (f : α → α) : upd l i f = l := by
  unfold upd
  exact List.modify_eq_self h

/-- An element after an update keeps what the update keeps. -/
theorem getD_upd_congr {α β : Type} {l : List α} {i : Nat} {f : α → α} {d : α} {g : α → β} (h : g (f (l.getD i d)) = g (l.getD i d)) :
    g ((upd l i f).getD i d) = g (l.getD i d) := by
  obtain hi | hi := Nat.lt_or_ge i l.length
  · rw [getD_upd_same hi, h]
  · rw [upd_outside hi]

/-! ### Samples and test pulses -/

/-- t is s but for the safety unit, the record and what posting an event touches. -/
def LeavesUnits (s t : State) : Prop := t.eng = s.eng ∧ t.pwm = s.pwm ∧ t.sense = s.sense

theorem LeavesUnits.refl (s : State) : LeavesUnits s s := ⟨rfl, rfl, rfl⟩
theorem LeavesUnits.trans {s t u : State} (a : LeavesUnits s t) (b : LeavesUnits t u) : LeavesUnits s u := by
  obtain ⟨a1, a2, a3⟩ := a
  obtain ⟨b1, b2, b3⟩ := b
  exact ⟨b1.trans a1, b2.trans a2, b3.trans a3⟩

theorem outFault_leavesUnits (t x c el : Nat) (s : State) : LeavesUnits s (outFault t x c el s) := by
  unfold outFault
  dsimp only
  split
  · exact .refl s
  · exact ⟨by simp [State.modOut], by simp [State.modOut], by simp [State.commitHealth, State.count, State.modOut]⟩

theorem feedbackLate_leavesUnits (t x : Nat) (s : State) : LeavesUnits s (feedbackLate t x s) := by
  unfold feedbackLate
  dsimp only
  split
  · exact .refl s
  · split
    · exact outFault_leavesUnits _ _ _ _ s
    · split
      · exact outFault_leavesUnits _ _ _ _ s
      · exact .refl s

theorem feedbackSeen_leavesUnits (s : State) : LeavesUnits s (feedbackSeen s) := by
  unfold feedbackSeen
  refine foldl_rel LeavesUnits.refl LeavesUnits.trans (fun s x => ?_) _ s
  dsimp only
  split
  · split
    · exact ⟨rfl, rfl, rfl⟩
    · exact .refl s
  · exact .refl s

/-- The channels sampled and the test-pulse pins as a sample at t finds them (R434, R435). -/
def inputsSampled (t levels : Nat) (u : State) : State :=
  u.modSafety fun z => { z with
    chans := (List.range 16).map fun ch => (z.chans.getD ch SChan.reset).sample t (u8 z.active (64 + 8 * (ch / 2) + 3)) (bit levels ch)
    tpa := !pulseLow z.active z.tpaAt t, tpb := !pulseLow z.active z.tpbAt t }

theorem safetyInputSample_exec (t levels : Nat) (s : State) :
    exec (.safetyInputSample t levels) s =
      .next (feedbackSeen (inputsSampled t levels ((List.range 4).foldl (fun s x => feedbackLate t x s) (s.advance t)))) := rfl

/-- A fold whose every step leaves s leaves s. -/
theorem foldl_fixed {α : Type} {f : State → α → State} {l : List α} {s : State} (h : ∀ x ∈ l, f s x = s) : l.foldl f s = s := by
  induction l with
  | nil => rfl
  | cons x l ih =>
    rw [List.foldl_cons, h x List.mem_cons_self]
    exact ih fun y hy => h y (List.mem_cons_of_mem x hy)

/-- With no feedback late the sample is all there is. -/
theorem feedbackLate_fold {t : Nat} {u : State} (h : ∀ x, x < 4 → feedbackLate t x u = u) :
    (List.range 4).foldl (fun s x => feedbackLate t x s) u = u := foldl_fixed fun x hx => h x (List.mem_range.1 hx)

theorem safetyInputSample_leaves (t levels : Nat) (s : State) :
    let u := s.advance t
    ∃ w, exec (.safetyInputSample t levels) s = .next w ∧ w.eng = u.eng ∧ w.pwm = u.pwm ∧ w.sense = u.sense := by
  intro u
  have hlate : LeavesUnits u ((List.range 4).foldl (fun s x => feedbackLate t x s) u) :=
    foldl_rel LeavesUnits.refl LeavesUnits.trans (fun s x => feedbackLate_leavesUnits t x s) _ u
  have hsampled (v : State) : LeavesUnits v (inputsSampled t levels v) := ⟨rfl, rfl, rfl⟩
  exact ⟨_, safetyInputSample_exec t levels s, hlate.trans ((hsampled _).trans (feedbackSeen_leavesUnits _))⟩

/-- The end of a window of TPA or TPB (R435). -/
theorem testPulse_exec {src : Nat} (h : src < 2) (t : Nat) (s : State) :
    exec (.testPulse t src) s = .next (
      let u := s.advance t
      if !u.pulseDue t src then u
      else (List.range 8).foldl (pairWindow t src)
        (u.modSafety fun z => if src = 0 then { z with tpa := true, tpaAt := t } else { z with tpb := true, tpbAt := t })) := if_pos h

theorem testPulse_due {src : Nat} (h : src < 2) {t : Nat} {s : State} (hd : (s.advance t).pulseDue t src = true) :
    exec (.testPulse t src) s = .next ((List.range 8).foldl (pairWindow t src)
      ((s.advance t).modSafety fun z => if src = 0 then { z with tpa := true, tpaAt := t } else { z with tpb := true, tpbAt := t })) :=
  (testPulse_exec h t s).trans (congrArg _ (if_neg (by rw [hd]; decide)))

/-! ### Pairs -/

/-- A disagreement of T ticks is a fault of a pair that has none (R438). -/
theorem discrepancyFault_due {t k : Nat} {s : State} (hk : k < 8) (hp : (s.advance t).demandPair k = true)
    (hd : (s.advance t).discrepancy k ≤ ((s.advance t).pair k).disagree) (h0 : 0 < ((s.advance t).pair k).disagree)
    (hf : ((s.advance t).pair k).fault = 0) :
    exec (.discrepancyFault t k) s = .next (State.post t (ev 0x0B31 k [1, BitVec.ofNat 8 (Config.freeNat "discrepancy channel" k % 2)])
      ((s.advance t).modPair k fun p => { p with fault := 1, okWindows := 0 })) :=
  (if_pos hk).trans (congrArg _ ((if_pos ⟨hp, hd, h0⟩).trans (if_neg fun h => h hf)))

theorem discrepancyFault_early {t k : Nat} {s : State} (hk : k < 8) (hd : ((s.advance t).pair k).disagree < (s.advance t).discrepancy k) :
    exec (.discrepancyFault t k) s = .next (s.advance t) :=
  (if_pos hk).trans (congrArg _ (if_neg fun h => Nat.not_le.2 hd h.2.1))

/-! ### The Vrel layer -/

theorem vrelTimeout_exec {c : Nat} (h : c < 4) (t : Nat) (s : State) :
    exec (.vrelTimeout t c) s = .next (
      let u := s.advance t
      if (u.conn c).due && u.windowOver t c then evalFns t false (connTimeout t c u) else u) := if_pos h

/-- A connection in Run whose window has ended and whose latency has passed faults (R443). -/
theorem connTimeout_over {t c : Nat} {u : State} (h2 : (u.conn c).state = 2)
    (hw : (u.conn c).missed = true ∨ (u.conn c).lastAt + connTExp u.safety.active c * 1000000 + 100000 ≤ t) :
    u.windowOver t c = true ∧ connTimeout t c u = connTo t c 3 1 u := by
  have hover : u.windowOver t c = true := by
    unfold State.windowOver
    simpa using hw
  have hexpired : u.expired t c = true := by
    unfold State.expired
    rw [h2, beq_self_eq_true, Bool.true_and, Bool.or_eq_true, decide_eq_true_eq]
    exact hw.imp_right fun h => by omega
  exact ⟨hover, (if_neg (by rw [hexpired]; decide)).trans (if_pos hover)⟩

theorem vrelTimeouts (t k : Nat) (s : State) :
    let u := s.advance t
    (k < 4 → (u.conn k).state = 2 → (u.conn k).due = true →
      ((u.conn k).missed = true ∨ (u.conn k).lastAt + connTExp u.safety.active k * 1000000 + 100000 ≤ t) →
      exec (.vrelTimeout t k) s = .next (evalFns t false (connTo t k 3 1 u))) ∧
    (k < 4 → ((u.conn k).due = false ∨ ((u.conn k).missed = false ∧ t < (u.conn k).lastAt + connTExp u.safety.active k * 1000000 + 100000)) →
      exec (.vrelTimeout t k) s = .next u) := by
  intro u
  refine ⟨fun hk h2 hd hw => ?_, fun hk hno => ?_⟩
  · obtain ⟨hover, hto⟩ := connTimeout_over h2 hw
    refine (vrelTimeout_exec hk t s).trans (congrArg _ ((if_pos ?_).trans (congrArg _ hto)))
    exact (Bool.and_eq_true _ _).mpr ⟨hd, hover⟩
  · refine (vrelTimeout_exec hk t s).trans (congrArg _ (if_neg ?_))
    intro hgo
    obtain ⟨hd, hover⟩ := (Bool.and_eq_true _ _).mp hgo
    obtain h | ⟨hm, hl⟩ := hno
    · exact ne_true_of_eq_false h hd
    · unfold State.windowOver at hover
      rw [hm, Bool.false_or, decide_eq_true_eq] at hover
      exact Nat.not_le.2 hl hover

theorem vrelProduce_exec {c : Nat} (h : c < 4) (t : Nat) (s : State) :
    exec (.vrelProduce t c) s = .next (
      let u := s.advance t
      if t < (u.conn c).prodAt + connPeriod u.safety.active c * 1000000 then u else produce c (u.modConn c fun v => { v with prodAt := t })) := if_pos h

/-- The time of a production leaves the connection's state. -/
theorem prodAt_state (t c : Nat) (u : State) : ((u.modConn c fun v => { v with prodAt := t }).conn c).state = (u.conn c).state :=
  getD_upd_congr (g := VConn.state) rfl

theorem vrelProductions (t k : Nat) (s : State) :
    let u := s.advance t
    (let v := u.modConn k fun v => { v with prodAt := t }
     k < 4 → (u.conn k).prodAt + connPeriod u.safety.active k * 1000000 ≤ t →
      ((u.conn k).state ≠ 0 → (u.net.binds.getD k Bind.reset).bound = true → exec (.vrelProduce t k) s =
        .next (({ v with safety := { v.safety with txPdus := v.safety.txPdus ++ [(k, pduBytes k v)] } }).modConn k
          fun v => { v with txSeq := (v.txSeq + 1) % 65536, txReset := false })) ∧
      (((u.conn k).state = 0 ∨ (u.net.binds.getD k Bind.reset).bound = false) → exec (.vrelProduce t k) s = .next v)) ∧
    (k < 4 → t < (u.conn k).prodAt + connPeriod u.safety.active k * 1000000 → exec (.vrelProduce t k) s = .next u) := by
  intro u
  refine ⟨fun hk ht => ⟨fun h0 hb => ?_, fun hno => ?_⟩, fun hk ht => ?_⟩
  · refine (vrelProduce_exec hk t s).trans (congrArg _ ((if_neg (Nat.not_lt.2 ht)).trans (if_pos ⟨?_, hb⟩)))
    rw [prodAt_state]
    exact h0
  · refine (vrelProduce_exec hk t s).trans (congrArg _ ((if_neg (Nat.not_lt.2 ht)).trans (if_neg ?_)))
    rw [prodAt_state]
    rintro ⟨h0, hb⟩
    exact hno.elim h0 fun h => ne_true_of_eq_false h hb
  · exact (vrelProduce_exec hk t s).trans (congrArg _ (if_pos ht))

theorem vrelPdu_exec (t : Nat) (ip : List Byte) (port : Nat) (pdu : List Byte) (s : State) :
    exec (.vrelPdu t ip port pdu) s = .next (inDomain 9 (s.advance t) (Machine.vrelPdu t ip port pdu (s.advance t))) := rfl

/-- PDUs that D9, their length or their connection refuses (R442). -/
theorem vrelPdu_refused {t port : Nat} {ip pdu : List Byte} {s : State}
    (h : (s.advance t).domainOn 9 = false ∨ (s.advance t).pduConn ip port pdu = none ∨ pdu.length ≠ 12 + u8 pdu 7 ∨ 64 < u8 pdu 7) :
    exec (.vrelPdu t ip port pdu) s = .next (s.advance t) := by
  rw [vrelPdu_exec]
  unfold inDomain
  split
  case isFalse => rfl
  case isTrue hon =>
    unfold Machine.vrelPdu
    dsimp only
    split
    · rfl
    case isFalse hlen =>
      obtain h | h | h := h
      · exact absurd hon (ne_true_of_eq_false h)
      · rw [h]
      · exact absurd h hlen

/-- A PDU of a connection, checked in R442's order. -/
theorem vrelPdu_checked {t port c : Nat} {ip pdu : List Byte} {s : State} (hon : (s.advance t).domainOn 9 = true)
    (hc : (s.advance t).pduConn ip port pdu = some c) (hlen : pdu.length = 12 + u8 pdu 7) (h64 : u8 pdu 7 ≤ 64) :
    exec (.vrelPdu t ip port pdu) s = .next (
      let u := s.advance t
      let gap := (u16 pdu 4 + 65536 - (u.conn c).seq) % 65536
      if scrc (pdu.take 4 ++ connSig u.safety.active c ++ slice pdu 4 (4 + u8 pdu 7)) ≠ u32 pdu (8 + u8 pdu 7) then connError t c true u
      else if !bit (u8 pdu 6) 2 ∧ (gap = 0 ∨ connSeqWin u.safety.active c < gap) then connError t c false u
      else if u8 pdu 6 / 16 ≠ 0 then connError t c false u
      else connAccept t c pdu u) := by
  refine (vrelPdu_exec t ip port pdu s).trans (congrArg _ ((if_pos hon).trans ?_))
  unfold Machine.vrelPdu
  dsimp only
  rw [if_neg (by omega), hc]

theorem vrelPdus (t : Nat) (s : State) :
    let u := s.advance t
    ∀ ip port pdu c, u.domainOn 9 = true → u.pduConn ip port pdu = some c → pdu.length = 12 + u8 pdu 7 → u8 pdu 7 ≤ 64 →
      let crc := scrc (pdu.take 4 ++ connSig u.safety.active c ++ slice pdu 4 (4 + u8 pdu 7))
      let gap := (u16 pdu 4 + 65536 - (u.conn c).seq) % 65536
      (crc ≠ u32 pdu (8 + u8 pdu 7) → exec (.vrelPdu t ip port pdu) s = .next (connError t c true u)) ∧
      (crc = u32 pdu (8 + u8 pdu 7) → bit (u8 pdu 6) 2 = false → (gap = 0 ∨ connSeqWin u.safety.active c < gap) →
        exec (.vrelPdu t ip port pdu) s = .next (connError t c false u)) ∧
      (crc = u32 pdu (8 + u8 pdu 7) → (bit (u8 pdu 6) 2 = true ∨ (gap ≠ 0 ∧ gap ≤ connSeqWin u.safety.active c)) → u8 pdu 6 / 16 = 0 →
        exec (.vrelPdu t ip port pdu) s = .next (connAccept t c pdu u)) := by
  intro u ip port pdu c hon hc hlen h64 crc gap
  refine ⟨fun h => ?_, fun h hr hg => ?_, fun h hg hv => ?_⟩
  · exact (vrelPdu_checked hon hc hlen h64).trans (congrArg _ (if_pos h))
  · exact (vrelPdu_checked hon hc hlen h64).trans (congrArg _ ((if_neg fun hk => hk h).trans (if_pos ⟨congrArg (!·) hr, hg⟩)))
  · refine (vrelPdu_checked hon hc hlen h64).trans (congrArg _ ((if_neg fun hk => hk h).trans ((if_neg ?_).trans (if_neg fun hk => hk hv))))
    rintro ⟨hr, hbad⟩
    obtain hg | ⟨h0, hwin⟩ := hg
    · rw [hg] at hr
      exact absurd hr (by decide)
    · exact hbad.elim h0 (Nat.not_lt.2 hwin)

/-- Settles O49: samples and pulses, pairs, the Vrel layer and the unlocked session's end. -/
theorem safetyInputHappenings : Obligations.SafetyInputHappenings := by
  intro t k s
  obtain ⟨hto, hto'⟩ := vrelTimeouts t k s
  obtain ⟨hp, hp'⟩ := vrelProductions t k s
  refine ⟨fun levels h => ?_, fun levels => safetyInputSample_leaves t levels s, testPulse_due (by decide), testPulse_due (by decide),
    fun src hs hd => (testPulse_exec hs t s).trans (congrArg _ (if_pos (congrArg (!·) hd))), discrepancyFault_due, discrepancyFault_early, hto, hto',
    hp, hp', fun ip port pdu h => vrelPdu_refused h, vrelPdus t s, fun x hx ht => congrArg _ (if_pos ⟨?_, ht⟩),
    fun ht => congrArg _ (if_neg fun hk => Nat.not_le.2 ht hk.2)⟩
  · rw [safetyInputSample_exec, feedbackLate_fold h]
    rfl
  · rw [hx]; rfl

end Sys2Proof.Machine
end

section
/-! SUPPORT. Safety outputs: readbacks, tests and faults (R428 to R432). -/

namespace Sys2Proof.Machine

/-! ### An output after a change, and its fault -/

/-- An output changed; one that is not there stays as it is. -/
theorem out_modOut (x : Nat) (f : SOut → SOut) (s : State) :
    (x < s.safety.outs.length ∧ (s.modOut x f).out x = f (s.out x)) ∨ ((s.modOut x f).out x = SOut.reset ∧ s.out x = SOut.reset) := by
  obtain h | h := Nat.lt_or_ge x s.safety.outs.length
  · exact .inl ⟨h, getD_upd_same h f _⟩
  · right
    have hout : s.out x = SOut.reset := by
      unfold State.out
      simp [h]
    refine ⟨?_, hout⟩
    change (upd s.safety.outs x f).getD x SOut.reset = _
    rw [upd_outside h]
    exact hout

/-- Two changes of an output that give it the same value are one. -/
theorem modOut_congr {x : Nat} {f g : SOut → SOut} {s : State} (h : f (s.out x) = g (s.out x)) : s.modOut x f = s.modOut x g := by
  have hupd : upd s.safety.outs x f = upd s.safety.outs x g := upd_congr_at (d := SOut.reset) h
  simp only [State.modOut, State.modSafety, hupd]

/-- An output faults unless it is faulted and does not recover (R429). -/
theorem outFault_takes {x : Nat} {u : State} (h : (u.out x).state ≠ 4 ∨ (u.out x).recover = true) (t cause el : Nat) :
    outFault t x cause el u = (((u.modOut x fun o => { o with
      state := 4, cause := cause, soh := false, sol := false, chgAt := t, light := 0, dark := 0, testing := false, recover := false, mism := 0
      openLoadAt := none }).post t (ev 0x0B32 x [BitVec.ofNat 8 cause, BitVec.ofNat 8 el])).count (0x982 + 4 * x)).commitHealth := by
  refine if_neg ?_
  rintro ⟨h4, hr⟩
  obtain h | h := h
  · exact h h4
  · rw [h] at hr
    exact absurd hr (by decide)

theorem commitHealth_safety (s : State) : s.commitHealth.safety = s.safety := rfl
theorem count_safety_eq (i : Nat) (s : State) : (s.count i).safety = s.safety := rfl

/-- A fault opens both switches of its output (R429). -/
theorem outFault_opens {t x cause el : Nat} {u : State} (h : (u.out x).state ≠ 4 ∨ (u.out x).recover = true) (hx : x < u.safety.outs.length) :
    let p := (outFault t x cause el u).out x
    p.state = 4 ∧ p.cause = cause ∧ p.soh = false ∧ p.sol = false ∧ p.testing = false := by
  intro p
  have hp : p = { u.out x with
      state := 4, cause := cause, soh := false, sol := false, chgAt := t, light := 0, dark := 0, testing := false, recover := false, mism := 0
      openLoadAt := none } := by
    change (outFault t x cause el u).safety.outs.getD x SOut.reset = _
    rw [outFault_takes h, commitHealth_safety, count_safety_eq, post_safety]
    exact getD_upd_same hx _ _
  rw [hp]
  exact ⟨rfl, rfl, rfl, rfl, rfl⟩

/-! ### Readbacks (R428, R429) -/

theorem readFault_idle {t x : Nat} {u : State} (hm : (u.out x).mism < 4) (ho : (u.out x).openLoadAt = none) : readFault t x u = u := by
  unfold readFault
  dsimp only
  rw [if_neg (Nat.not_le.2 hm), ho]
  rfl

theorem readFault_mismatch {x : Nat} {u : State} (hm : 4 ≤ (u.out x).mism) (t : Nat) : readFault t x u = outFault t x 1 (u.out x).mismEl u := if_pos hm

theorem readFault_open {t x a : Nat} {u : State} (hm : (u.out x).mism < 4) (ho : (u.out x).openLoadAt = some a) (ha : a + 10000000 ≤ t) :
    readFault t x u = outFault t x 5 1 u := by
  unfold readFault
  dsimp only
  rw [if_neg (Nat.not_le.2 hm), ho]
  exact if_pos (decide_eq_true ha)

/-- What a readback leaves of an output (R428 to R430). -/
def SOut.readback (t pinMv hvMv uA : Nat) (fb : Bool) (o : SOut) : SOut :=
  let o := { o with openLoadAt := if o.soh && o.sol && decide (uA < 10000) then (match o.openLoadAt with | some a => some a | none => some t) else none }
  if t < o.chgAt + 200000 then o
  else if o.pinOk pinMv hvMv && o.currentOk uA then
    let o := { o with mism := 0 }
    if fb || o.light != 0 || (o.soh && o.sol && decide (uA < 10000)) then o else o.settled
  else { o with mism := satInc 255 o.mism, mismEl := if o.pinOk pinMv hvMv then 1 else 0 }

theorem outputReadback_exec {x : Nat} (hx : x < 4) (t pin hv i : Nat) (s : State) :
    exec (.outputReadback t x pin hv i) s =
      .next (readFault t x ((s.advance t).modOut x (SOut.readback t pin hv i ((s.advance t).feedback x).isSome))) := if_pos hx

/-- A readback that leaves an output below four mismatches and without an open load leaves it as it changed. -/
theorem outputReadback_leaves {x t pin hv i : Nat} {s : State} {f : SOut → SOut} (hx : x < 4)
    (hf : SOut.readback t pin hv i ((s.advance t).feedback x).isSome ((s.advance t).out x) = f ((s.advance t).out x))
    (hm : (f ((s.advance t).out x)).mism < 4) (ho : (f ((s.advance t).out x)).openLoadAt = none) :
    exec (.outputReadback t x pin hv i) s = .next ((s.advance t).modOut x f) := by
  rw [outputReadback_exec hx, modOut_congr hf]
  refine congrArg _ (readFault_idle ?_ ?_)
  · obtain ⟨-, h⟩ | ⟨h, -⟩ := out_modOut x f (s.advance t)
    · rw [h]; exact hm
    · rw [h]; decide
  · obtain ⟨-, h⟩ | ⟨h, -⟩ := out_modOut x f (s.advance t)
    · rw [h]; exact ho
    · rw [h]; rfl

/-- With one switch off no open load is timed. -/
theorem not_both_on {o : SOut} (h : o.soh = false ∨ o.sol = false) (b : Bool) : (o.soh && o.sol && b) = false := by
  obtain h | h := h <;> rw [h] <;> simp

theorem readback_settling {t pin hv i : Nat} {fb : Bool} {o : SOut} (ht : t < o.chgAt + 200000) (hoff : o.soh = false ∨ o.sol = false) :
    SOut.readback t pin hv i fb o = { o with openLoadAt := none } := by
  unfold SOut.readback
  dsimp only
  rw [if_pos ht, not_both_on hoff, if_neg Bool.false_ne_true]

theorem readback_mismatch {t pin hv i : Nat} {fb : Bool} {o : SOut} (ht : o.chgAt + 200000 ≤ t) (hoff : o.soh = false ∨ o.sol = false)
    (hbad : (o.pinOk pin hv && o.currentOk i) = false) :
    SOut.readback t pin hv i fb o = { o with openLoadAt := none, mism := satInc 255 o.mism, mismEl := if o.pinOk pin hv then 1 else 0 } := by
  unfold SOut.readback
  dsimp only
  rw [if_neg (Nat.not_lt.2 ht), not_both_on hoff, if_neg Bool.false_ne_true]
  exact if_neg (ne_true_of_eq_false hbad)

theorem readback_completes {t pin hv i : Nat} {o : SOut} (ht : o.chgAt + 200000 ≤ t) (hst : o.state = 1) (hl : o.light = 0)
    (hok : (o.pinOk pin hv && o.currentOk i) = true) (hi : 10000 ≤ i) :
    SOut.readback t pin hv i false o = { o with openLoadAt := none, mism := 0, state := 2 } := by
  have hlow : (o.soh && o.sol && decide (i < 10000)) = false := by rw [decide_eq_false (Nat.not_lt.2 hi), Bool.and_false]
  have hgoes : (false || o.light != 0 || (o.soh && o.sol && decide (i < 10000))) = false := by rw [hlow, hl]; rfl
  unfold SOut.readback
  dsimp only
  rw [if_neg (Nat.not_lt.2 ht), hlow, if_neg Bool.false_ne_true]
  refine (if_pos hok).trans ((if_neg ?_).trans (if_pos hst))
  rw [Bool.or_false, hl]
  decide

/-- Readbacks of one output. -/
theorem outputReadbacks (t x : Nat) (s : State) (hx : x < 4) :
    let u := s.advance t
    let o := u.out x
    (∀ pin hv i, t < o.chgAt + 200000 → (o.soh = false ∨ o.sol = false) → o.mism < 4 →
      exec (.outputReadback t x pin hv i) s = .next (u.modOut x fun o => { o with openLoadAt := none })) ∧
    (∀ pin hv i, o.chgAt + 200000 ≤ t → (o.soh = false ∨ o.sol = false) → (o.pinOk pin hv && o.currentOk i) = false →
      let v := u.modOut x fun o => { o with openLoadAt := none, mism := satInc 255 o.mism, mismEl := if o.pinOk pin hv then 1 else 0 }
      (o.mism < 3 → exec (.outputReadback t x pin hv i) s = .next v) ∧
      (o.mism = 3 → exec (.outputReadback t x pin hv i) s = .next (outFault t x 1 (if o.pinOk pin hv then 1 else 0) v))) ∧
    (∀ pin hv i, o.chgAt + 200000 ≤ t → o.soh = true → o.sol = true → o.state = 1 → o.light = 0 → u.feedback x = none →
      (o.pinOk pin hv && o.currentOk i) = true → 10000 ≤ i →
      exec (.outputReadback t x pin hv i) s = .next (u.modOut x fun o => { o with openLoadAt := none, mism := 0, state := 2 })) := by
  intro u o
  refine ⟨fun pin hv i ht hoff hm => ?_, fun pin hv i ht hoff hbad => ⟨fun hm => ?_, fun hm => ?_⟩, fun pin hv i ht hh hl hst hli hfb hok hi => ?_⟩
  · exact outputReadback_leaves hx (readback_settling ht hoff) hm rfl
  · refine outputReadback_leaves hx (readback_mismatch ht hoff hbad) ?_ rfl
    change satInc 255 o.mism < 4
    unfold satInc
    rw [if_pos (by omega)]
    omega
  · have hsat : satInc 255 o.mism = 4 := by rw [hm]; rfl
    have hstep : u.modOut x (SOut.readback t pin hv i (u.feedback x).isSome) = u.modOut x fun o => { o with
        openLoadAt := none, mism := satInc 255 o.mism, mismEl := if o.pinOk pin hv then 1 else 0 } :=
      modOut_congr (readback_mismatch ht hoff hbad)
    refine (outputReadback_exec hx t pin hv i s).trans (congrArg _ ((congrArg _ hstep).trans ?_))
    obtain ⟨-, hout⟩ | ⟨-, hreset⟩ := out_modOut x (fun o => ({ o with
      openLoadAt := none, mism := satInc 255 o.mism, mismEl := if o.pinOk pin hv then 1 else 0 } : SOut)) u
    · rw [readFault_mismatch (by rw [hout]; exact Nat.le_of_eq hsat.symm), hout]
    · exact absurd ((congrArg SOut.mism hreset).symm.trans hm) (by decide)
  · refine outputReadback_leaves hx ?_ (Nat.zero_lt_succ 3) rfl
    change SOut.readback t pin hv i (u.feedback x).isSome o = _
    rw [hfb]
    exact readback_completes ht hst hli hok hi

/-- The fourth mismatch and 10 ms of open load (R429). -/
theorem outputFaults (t x : Nat) (s : State) (hx : x < 4) :
    let u := s.advance t
    let o := u.out x
    (4 ≤ o.mism → exec (.outputFault t x) s = .next (outFault t x 1 o.mismEl u)) ∧
    (∀ a, o.mism < 4 → o.openLoadAt = some a → a + 10000000 ≤ t → exec (.outputFault t x) s = .next (outFault t x 5 1 u)) ∧
    (o.mism < 4 → o.openLoadAt = none → exec (.outputFault t x) s = .next u) := by
  intro u o
  exact ⟨fun h => (if_pos hx).trans (congrArg _ (readFault_mismatch h t)),
    fun a hm ho ha => (if_pos hx).trans (congrArg _ (readFault_open hm ho ha)), fun hm ho => (if_pos hx).trans (congrArg _ (readFault_idle hm ho))⟩

/-! ### Tests (R430, R431) -/

theorem lightTestStep_exec {x : Nat} (hx : x < 4) (t pin hv i : Nat) (s : State) :
    exec (.lightTestStep t x pin hv i) s = .next (
      let u := s.advance t
      let o := u.out x
      if o.light = 0 ∨ !u.canDrive ∨ t < o.chgAt + 300000 then u
      else if !(o.pinOk pin hv && o.currentOk i) then outFault t x 6 (o.light - 1) u
      else if o.light = 1 then u.modOut x fun o => { o.drive t false true with light := 2 }
      else testPassed t x u) := if_pos hx

theorem darkTestStep_exec {x : Nat} (hx : x < 4) (t pin hv i : Nat) (s : State) :
    exec (.darkTestStep t x pin hv i) s = .next (
      let u := s.advance t
      let o := u.out x
      if o.dark = 0 ∨ !u.canDrive ∨ t < o.chgAt + (if o.dark = 2 then 10000000 else 300000) then u
      else if o.dark = 1 then
        if pin < 2000 then u.modOut x fun o => { o.drive t true true with dark := 2 } else outFault t x 6 0 u
      else if o.dark = 2 then u.modOut x fun o => { o.drive t true false with dark := 3 }
      else if i < 5000 then testPassed t x u else outFault t x 6 1 u) := if_pos hx

/-- A step of a test that is due. -/
theorem test_due {n t a : Nat} {can : Bool} (hn : n ≠ 0) (hc : can = true) (ht : a ≤ t) : ¬(n = 0 ∨ (!can) = true ∨ t < a) := by
  rw [hc]
  rintro (h | h | h)
  · exact hn h
  · exact absurd h (by decide)
  · exact Nat.not_lt.2 ht h

theorem lightTests (t x : Nat) (s : State) (hx : x < 4) :
    let u := s.advance t
    let o := u.out x
    (∀ pin hv i, (o.light = 0 ∨ u.canDrive = false ∨ t < o.chgAt + 300000) → exec (.lightTestStep t x pin hv i) s = .next u) ∧
    (∀ pin hv i, o.light ≠ 0 → u.canDrive = true → o.chgAt + 300000 ≤ t → (o.pinOk pin hv && o.currentOk i) = false →
      exec (.lightTestStep t x pin hv i) s = .next (outFault t x 6 (o.light - 1) u)) ∧
    (∀ pin hv i, o.light = 1 → u.canDrive = true → o.chgAt + 300000 ≤ t → (o.pinOk pin hv && o.currentOk i) = true →
      exec (.lightTestStep t x pin hv i) s = .next (u.modOut x fun o => { o.drive t false true with light := 2 })) ∧
    (∀ pin hv i, o.light = 2 → u.canDrive = true → o.chgAt + 300000 ≤ t → (o.pinOk pin hv && o.currentOk i) = true → exec (.lightTestStep t x pin hv i) s = .next (testPassed t x u)) := by
  intro u o
  have passes {pin hv i : Nat} (h : (o.pinOk pin hv && o.currentOk i) = true) : ¬(!(o.pinOk pin hv && o.currentOk i)) = true := by rw [h]; decide
  refine ⟨fun pin hv i h => ?_, fun pin hv i hl hc ht hbad => ?_, fun pin hv i hl hc ht hok => ?_, fun pin hv i hl hc ht hok => ?_⟩
  · exact (lightTestStep_exec hx t pin hv i s).trans (congrArg _ (if_pos (h.imp_right (Or.imp_left (congrArg (!·))))))
  · exact (lightTestStep_exec hx t pin hv i s).trans (congrArg _ ((if_neg (test_due hl hc ht)).trans (if_pos (congrArg (!·) hbad))))
  · exact (lightTestStep_exec hx t pin hv i s).trans (congrArg _ ((if_neg (test_due (show o.light ≠ 0 by omega) hc ht)).trans
      ((if_neg (passes hok)).trans (if_pos hl))))
  · exact (lightTestStep_exec hx t pin hv i s).trans (congrArg _ ((if_neg (test_due (show o.light ≠ 0 by omega) hc ht)).trans
      ((if_neg (passes hok)).trans (if_neg (show ¬o.light = 1 by omega)))))

theorem darkTests (t x : Nat) (s : State) (hx : x < 4) :
    let u := s.advance t
    let o := u.out x
    (∀ pin hv i, (o.dark = 0 ∨ u.canDrive = false ∨ t < o.chgAt + 300000) → exec (.darkTestStep t x pin hv i) s = .next u) ∧
    (∀ pin hv i, o.dark = 1 → u.canDrive = true → o.chgAt + 300000 ≤ t → pin < 2000 → exec (.darkTestStep t x pin hv i) s =
      .next (u.modOut x fun o => { o.drive t true true with dark := 2 })) ∧
    (∀ pin hv i, o.dark = 1 → u.canDrive = true → o.chgAt + 300000 ≤ t → 2000 ≤ pin → exec (.darkTestStep t x pin hv i) s = .next (outFault t x 6 0 u)) ∧
    (∀ pin hv i, o.dark = 2 → u.canDrive = true → o.chgAt + 10000000 ≤ t → exec (.darkTestStep t x pin hv i) s = .next (u.modOut x fun o => { o.drive t true false with dark := 3 })) ∧
    (∀ pin hv i, o.dark = 3 → u.canDrive = true → o.chgAt + 300000 ≤ t → i < 5000 → exec (.darkTestStep t x pin hv i) s = .next (testPassed t x u)) ∧
    (∀ pin hv i, o.dark = 3 → u.canDrive = true → o.chgAt + 300000 ≤ t → 5000 ≤ i → exec (.darkTestStep t x pin hv i) s = .next (outFault t x 6 1 u)) := by
  intro u o
  have due (n : Nat) (hn : o.dark = n) (h0 : n ≠ 0) (h2 : n ≠ 2) (hc : u.canDrive = true) (ht : o.chgAt + 300000 ≤ t) :
      ¬(o.dark = 0 ∨ (!u.canDrive) = true ∨ t < o.chgAt + (if o.dark = 2 then 10000000 else 300000)) := by
    rw [if_neg (show ¬o.dark = 2 by omega)]
    exact test_due (by omega) hc ht
  refine ⟨fun pin hv i h => ?_, fun pin hv i hd hc ht hp => ?_, fun pin hv i hd hc ht hp => ?_, fun pin hv i hd hc ht => ?_,
    fun pin hv i hd hc ht hi => ?_, fun pin hv i hd hc ht hi => ?_⟩
  · refine (darkTestStep_exec hx t pin hv i s).trans (congrArg _ (if_pos ?_))
    refine h.imp_right (Or.imp (congrArg (!·)) fun h => ?_)
    change t < o.chgAt + _
    split <;> omega
  · exact (darkTestStep_exec hx t pin hv i s).trans (congrArg _ ((if_neg (due 1 hd (by decide) (by decide) hc ht)).trans
      ((if_pos hd).trans (if_pos hp))))
  · exact (darkTestStep_exec hx t pin hv i s).trans (congrArg _ ((if_neg (due 1 hd (by decide) (by decide) hc ht)).trans
      ((if_pos hd).trans (if_neg (Nat.not_lt.2 hp)))))
  · have hdue : ¬(o.dark = 0 ∨ (!u.canDrive) = true ∨ t < o.chgAt + (if o.dark = 2 then 10000000 else 300000)) := by
      rw [if_pos hd]
      exact test_due (by omega) hc ht
    exact (darkTestStep_exec hx t pin hv i s).trans (congrArg _ ((if_neg hdue).trans ((if_neg (show ¬o.dark = 1 by omega)).trans (if_pos hd))))
  · exact (darkTestStep_exec hx t pin hv i s).trans (congrArg _ ((if_neg (due 3 hd (by decide) (by decide) hc ht)).trans
      ((if_neg (show ¬o.dark = 1 by omega)).trans ((if_neg (show ¬o.dark = 2 by omega)).trans (if_pos hi)))))
  · exact (darkTestStep_exec hx t pin hv i s).trans (congrArg _ ((if_neg (due 3 hd (by decide) (by decide) hc ht)).trans
      ((if_neg (show ¬o.dark = 1 by omega)).trans ((if_neg (show ¬o.dark = 2 by omega)).trans (if_neg (Nat.not_lt.2 hi))))))

/-! ### Feedback and the periodic test -/

theorem feedbackLate_none {x : Nat} {u : State} (h : u.feedback x = none) (t : Nat) : feedbackLate t x u = u := if_pos (by rw [h]; rfl)

theorem feedbackLate_some {x c : Nat} {u : State} (h : u.feedback x = some c) (t : Nat) :
    feedbackLate t x u =
      if (u.out x).state = 3 ∧ (u.out x).waitAt + u.tOpen x * 1000000 ≤ t then outFault t x 2 2 u
      else if (u.out x).state = 1 ∧ (u.out x).waitAt + u.tClose x * 1000000 ≤ t then outFault t x 3 2 u
      else u := if_neg (by rw [h]; exact Bool.false_ne_true)

theorem feedbackTimeouts (t x : Nat) (s : State) (hx : x < 4) :
    let u := s.advance t
    let o := u.out x
    (∀ c, u.feedback x = some c → o.state = 3 → o.waitAt + u.tOpen x * 1000000 ≤ t → exec (.feedbackTimeout t x) s = .next (outFault t x 2 2 u)) ∧
    (∀ c, u.feedback x = some c → o.state = 1 → o.waitAt + u.tClose x * 1000000 ≤ t → exec (.feedbackTimeout t x) s = .next (outFault t x 3 2 u)) ∧
    ((u.feedback x = none ∨ (o.state ≠ 1 ∧ o.state ≠ 3)) → exec (.feedbackTimeout t x) s = .next u) := by
  intro u o
  refine ⟨fun c hf h3 ht => ?_, fun c hf h1 ht => ?_, fun h => (if_pos hx).trans (congrArg _ ?_)⟩
  · exact (if_pos hx).trans (congrArg _ ((feedbackLate_some hf t).trans (if_pos ⟨h3, ht⟩)))
  · exact (if_pos hx).trans (congrArg _ ((feedbackLate_some hf t).trans ((if_neg fun hk => absurd (h1.symm.trans hk.1) (by decide)).trans
      (if_pos ⟨h1, ht⟩))))
  · obtain hnone | ⟨h1, h3⟩ := h
    · exact feedbackLate_none hnone t
    · cases hf : u.feedback x with
      | none => exact feedbackLate_none hf t
      | some c => exact (feedbackLate_some hf t).trans ((if_neg fun hk => h3 hk.1).trans (if_neg fun hk => h1 hk.1))

/-- Settles O50: readbacks, tests, feedback and the fault of an output. -/
theorem safetyOutputHappenings : Obligations.SafetyOutputHappenings := by
  intro t x s u o hx
  obtain ⟨hr, hr', hr''⟩ := outputReadbacks t x s hx
  obtain ⟨hf, hf', hf''⟩ := outputFaults t x s hx
  obtain ⟨hl, hl', hl'', hl'''⟩ := lightTests t x s hx
  obtain ⟨hd, hd1, hd2, hd3, hd4, hd5⟩ := darkTests t x s hx
  obtain ⟨hb, hb', hb''⟩ := feedbackTimeouts t x s hx
  exact ⟨hr, hr', hr'', hf, hf', hf'', if_pos hx, hl, hl', hl'', hl''', hd, hd1, hd2, hd3, hd4, hd5, hb, hb', hb'',
    ⟨fun ht => congrArg _ (if_neg (Nat.not_lt.2 ht)), fun ht => congrArg _ (if_pos ht)⟩, fun cause el h hlen => outFault_opens h hlen⟩

end Sys2Proof.Machine
end

section
/-! SUPPORT. Protection sources: FLT inputs, comparators and monitors (R368, R372, R376 to R379, R385). -/

namespace Sys2Proof.Machine

/-! ### FLT inputs -/

/-- What a source of group g trips, where it has one. -/
def tripsOf (g : Option Nat) (trip : Nat → State) (v : State) : State := match g with | some g => trip g | none => v

theorem fltAsserted_exec {n : Nat} (hn : n < 48) (t : Nat) (s : State) :
    exec (.fltAsserted t n) s = .next (
      let u := s.advance t
      let v := u.modFlt n fun f => { f with asserted := true, ready := false }
      if (u.flt n).kind = 0 ∧ u.domainOn 6 then tripsOf (v.groupOf n) (fun g => tripGroup t g n 1 0 v) v else u) := by
  refine (if_pos hn).trans (congrArg _ ?_)
  unfold tripsOf
  rfl

theorem fltReady_exec {n : Nat} (hn : n < 48) (t : Nat) (s : State) :
    exec (.fltReady t n) s = .next (
      let u := s.advance t
      if (u.flt n).kind = 0 ∧ u.domainOn 6 then legsUpdate t (u.modFlt n fun f => { f with asserted := false, ready := true }) else u) := if_pos hn

theorem fltInputs (t n : Nat) (s : State) :
    let u := s.advance t
    let f := u.flt n
    (n < 48 → f.kind = 0 → u.domainOn 6 = true →
      let v := u.modFlt n fun f => { f with asserted := true, ready := false }
      (∀ g, v.groupOf n = some g → exec (.fltAsserted t n) s = .next (tripGroup t g n 1 0 v)) ∧
      (v.groupOf n = none → exec (.fltAsserted t n) s = .next v) ∧
      exec (.fltReady t n) s = .next (legsUpdate t (u.modFlt n fun f => { f with asserted := false, ready := true }))) ∧
    (n < 48 → (f.kind ≠ 0 ∨ u.domainOn 6 = false) → exec (.fltAsserted t n) s = .next u ∧ exec (.fltReady t n) s = .next u) := by
  intro u f
  refine ⟨fun hn hk hd => ⟨fun g hg => ?_, fun hg => ?_, ?_⟩, fun hn hno => ?_⟩
  · refine (fltAsserted_exec hn t s).trans (congrArg _ ((if_pos ⟨hk, hd⟩).trans ?_))
    rw [hg]
    rfl
  · refine (fltAsserted_exec hn t s).trans (congrArg _ ((if_pos ⟨hk, hd⟩).trans ?_))
    rw [hg]
    rfl
  · exact (fltReady_exec hn t s).trans (congrArg _ (if_pos ⟨hk, hd⟩))
  · have hidle : ¬(f.kind = 0 ∧ u.domainOn 6 = true) := fun hgo => hno.elim (fun h => h hgo.1) fun h => ne_true_of_eq_false h hgo.2
    exact ⟨(fltAsserted_exec hn t s).trans (congrArg _ (if_neg hidle)), (fltReady_exec hn t s).trans (congrArg _ (if_neg hidle))⟩

/-! ### Comparators -/

/-- What an assertion of comparator n that counts leads to, by its action (R377). -/
def cmpActs (t n : Nat) (c : Cmp) (v : State) : State :=
  if c.action = 1 then tripsOf (v.cmpGroup c) (fun g => tripGroup t g (c.source n) 2 (v.thrNow t n) v) v
  else if c.action = 2 then cmpEvent t n v
  else if c.action = 3 then curChange t n v
  else v

theorem comparatorAsserted_exec {n : Nat} (hn : n < 52) (t : Nat) (s : State) :
    exec (.comparatorAsserted t n) s = .next (
      let u := s.advance t
      let c := u.cmp n
      if u.d7Off || !u.fed n || (c.live && !u.maskedSince t n) || u.blanked t n then u
      else if c.main && !(c.live && c.latch == 0) then u.modCmp n fun c => { c with live := true, ready := false }
      else cmpActs t n c (u.modCmp n fun c => { c with live := true, main := true, ready := false, mainAt := t })) := by
  refine (if_pos hn).trans (congrArg _ ?_)
  unfold cmpActs tripsOf
  rfl

/-- An assertion that the comparator's domain, its input and its blanking let through, and that is new or masked before (R372 to R374). -/
theorem assertion_counts {off fed live masked blanked : Bool} (ho : off = false) (hf : fed = true) (hb : blanked = false)
    (hl : live = false ∨ masked = true) : ¬(off || !fed || (live && !masked) || blanked) = true := by
  rw [ho, hf, hb]
  obtain h | h := hl <;> rw [h] <;> simp

theorem comparatorAssertions (t n : Nat) (s : State) :
    let u := s.advance t
    let c := u.cmp n
    (n < 52 → u.d7Off = false → u.fed n = true → u.blanked t n = false →
      ((c.live = false ∧ c.main = false) ∨ (c.live = true ∧ u.maskedSince t n = true ∧ c.latch = 0)) →
      let v := u.modCmp n fun c => { c with live := true, main := true, ready := false, mainAt := t }
      (∀ g, c.action = 1 → v.cmpGroup (u.cmp n) = some g → exec (.comparatorAsserted t n) s = .next (tripGroup t g (c.source n) 2 (v.thrNow t n) v)) ∧
      (c.action = 1 → v.cmpGroup (u.cmp n) = none → exec (.comparatorAsserted t n) s = .next v) ∧
      (c.action = 2 → exec (.comparatorAsserted t n) s = .next (cmpEvent t n v)) ∧
      (c.action = 3 → exec (.comparatorAsserted t n) s = .next (curChange t n v)) ∧
      (c.action ≠ 1 → c.action ≠ 2 → c.action ≠ 3 → exec (.comparatorAsserted t n) s = .next v)) ∧
    (n < 52 → u.d7Off = false → u.fed n = true → c.live = false → u.blanked t n = false → c.main = true →
      exec (.comparatorAsserted t n) s = .next (u.modCmp n fun c => { c with live := true, ready := false })) ∧
    (n < 52 → (u.d7Off = true ∨ u.fed n = false ∨ u.blanked t n = true ∨ (c.live = true ∧ u.maskedSince t n = false)) →
      exec (.comparatorAsserted t n) s = .next u) := by
  intro u c
  refine ⟨?_, fun hn ho hf hl hb hm => ?_, fun hn hno => ?_⟩
  · intro hn ho hf hb hnew v
    have hacts : exec (.comparatorAsserted t n) s = .next (cmpActs t n c v) := by
      have hfresh : ¬(c.main && !(c.live && c.latch == 0)) = true := by
        obtain ⟨-, hm⟩ | ⟨hl, -, h0⟩ := hnew
        · rw [hm, Bool.false_and]; exact Bool.false_ne_true
        · rw [hl, h0]; simp
      exact (comparatorAsserted_exec hn t s).trans (congrArg _ ((if_neg (assertion_counts ho hf hb (hnew.imp And.left fun h => h.2.1))).trans
        (if_neg hfresh)))
    unfold cmpActs at hacts
    refine ⟨fun g h1 hg => hacts.trans ?_, fun h1 hg => hacts.trans ?_, fun h2 => hacts.trans ?_, fun h3 => hacts.trans ?_,
      fun h1 h2 h3 => hacts.trans ?_⟩
    · rw [if_pos h1]
      change Host.Outcome.next (tripsOf (v.cmpGroup (u.cmp n)) _ _) = _
      rw [hg]
      rfl
    · rw [if_pos h1]
      change Host.Outcome.next (tripsOf (v.cmpGroup (u.cmp n)) _ _) = _
      rw [hg]
      rfl
    · rw [if_neg (by omega), if_pos h2]
    · rw [if_neg (by omega), if_neg (by omega), if_pos h3]
    · rw [if_neg h1, if_neg h2, if_neg h3]
  · have hheld : (c.main && !(c.live && c.latch == 0)) = true := by rw [hm, hl]; rfl
    exact (comparatorAsserted_exec hn t s).trans (congrArg _ ((if_neg (assertion_counts ho hf hb (.inl hl))).trans (if_pos hheld)))
  · refine (comparatorAsserted_exec hn t s).trans (congrArg _ (if_pos ?_))
    change (u.d7Off || !u.fed n || (c.live && !u.maskedSince t n) || u.blanked t n) = true
    obtain h | h | h | ⟨hl, hm⟩ := hno
    · rw [h]; rfl
    · rw [h]; simp
    · rw [h, Bool.or_true]
    · rw [hl, hm]; simp

theorem comparatorReleased_exec {n : Nat} (hn : n < 52) (t : Nat) (s : State) :
    exec (.comparatorReleased t n) s = .next (
      let u := s.advance t
      let c := u.cmp n
      if u.d7Off || !u.fed n then u
      else
        let v := u.modCmp n fun c => { c with live := false, ready := true, main := c.main && c.latch != 0 && c.mainAt != 0 }
        legsUpdate t (if c.action = 3 then curChange t n v else v)) := if_pos hn

theorem hardCellAsserted_exec {n : Nat} (hn : n < 52) (t : Nat) (s : State) :
    exec (.hardCellAsserted t n) s = .next (
      let u := s.advance t
      let c := u.cmp n
      if u.d7Off || !u.fed n || c.under || c.action != 1 || c.hard then u
      else
        let v := u.modCmp n fun c => { c with hard := true }
        tripsOf (v.cmpGroup c) (fun g => tripGroup t g (c.source n) 3 (min (2 * c.inForce) 1023) v) v) := by
  refine (if_pos hn).trans (congrArg _ ?_)
  unfold tripsOf
  rfl

theorem comparatorReleases (t n : Nat) (s : State) :
    let u := s.advance t
    let c := u.cmp n
    (n < 52 → (u.d7Off = true ∨ u.fed n = false) → exec (.comparatorReleased t n) s = .next u) ∧
    (n < 52 → u.d7Off = false → u.fed n = true →
      let v := u.modCmp n fun c => { c with live := false, ready := true, main := c.main && c.latch != 0 && c.mainAt != 0 }
      (c.action ≠ 3 → exec (.comparatorReleased t n) s = .next (legsUpdate t v)) ∧
      (c.action = 3 → exec (.comparatorReleased t n) s = .next (legsUpdate t (curChange t n v)))) ∧
    (n < 52 → u.d7Off = false → u.fed n = true → c.under = false → c.action = 1 → c.hard = false →
      let v := u.modCmp n fun c => { c with hard := true }
      (∀ g, v.cmpGroup (u.cmp n) = some g → exec (.hardCellAsserted t n) s = .next (tripGroup t g (c.source n) 3 (min (2 * c.inForce) 1023) v)) ∧
      (v.cmpGroup (u.cmp n) = none → exec (.hardCellAsserted t n) s = .next v)) ∧
    (n < 52 → (u.d7Off = true ∨ u.fed n = false ∨ c.under = true ∨ c.action ≠ 1 ∨ c.hard = true) → exec (.hardCellAsserted t n) s = .next u) := by
  intro u c
  refine ⟨fun hn hno => ?_, fun hn ho hf => ⟨fun h3 => ?_, fun h3 => ?_⟩, ?_, fun hn hno => ?_⟩
  · refine (comparatorReleased_exec hn t s).trans (congrArg _ (if_pos ?_))
    obtain h | h := hno <;> rw [h] <;> simp
  · exact (comparatorReleased_exec hn t s).trans (congrArg _ ((if_neg (by rw [ho, hf]; decide)).trans (congrArg (legsUpdate t) (if_neg h3))))
  · exact (comparatorReleased_exec hn t s).trans (congrArg _ ((if_neg (by rw [ho, hf]; decide)).trans (congrArg (legsUpdate t) (if_pos h3))))
  · intro hn ho hf hu ha hh v
    have hgo : ¬(u.d7Off || !u.fed n || c.under || c.action != 1 || c.hard) = true := by rw [ho, hf, hu, ha, hh]; decide
    have hacts := (hardCellAsserted_exec hn t s).trans (congrArg _ (if_neg hgo))
    refine ⟨fun g hg => hacts.trans ?_, fun hg => hacts.trans ?_⟩
    · change Host.Outcome.next (tripsOf (v.cmpGroup (u.cmp n)) _ _) = _
      rw [hg]
      rfl
    · change Host.Outcome.next (tripsOf (v.cmpGroup (u.cmp n)) _ _) = _
      rw [hg]
      rfl
  · refine (hardCellAsserted_exec hn t s).trans (congrArg _ (if_pos ?_))
    change (u.d7Off || !u.fed n || c.under || c.action != 1 || c.hard) = true
    obtain h | h | h | h | h := hno
    · rw [h]; rfl
    · rw [h]; simp
    · rw [h]; simp
    · rw [bne_iff_ne.2 h]; simp
    · rw [h, Bool.or_true]

/-! ### Monitors and their partners -/

theorem monitorActs_exec {n : Nat} (hn : n < 32) (t : Nat) (s : State) :
    exec (.monitorActs t n) s = .next (inDomain 7 (s.advance t) (monActs t n (s.advance t))) := if_pos hn

/-- A monitor whose count is complete acts, its partner suspected where it is silent (R378, R379). -/
theorem monActs_complete {t n : Nat} {u : State} (hc : (u.mon n).hasCfg = true) (hn : (u.mon n).n ≤ (u.mon n).count) (hp : (u.mon n).past = true)
    (ha : (u.mon n).acted = false) :
    monActs t n u =
      let m := u.mon n
      let v := u.modMon n fun m => { m with acted := true }
      let w := if !(v.cmp m.partner).main && !v.blanked t m.partner then suspectCmp m.partner v else v
      if m.action = 1 then tripGroup t m.group (0x200 + n) 4 (wrap 16 m.val) w
      else if m.action = 2 then w.post t (ev 0x0936 n (leI 2 m.val ++ [if m.tripHi ≤ m.val then 1 else 0]))
      else w := if_pos (by rw [hc, decide_eq_true hn, hp, ha]; rfl)

theorem monActs_waits {t n : Nat} {u : State} (h : (u.mon n).count < (u.mon n).n ∨ (u.mon n).acted = true) : monActs t n u = u := by
  refine if_neg ?_
  obtain h | h := h
  · rw [decide_eq_false (Nat.not_le.2 h)]; simp
  · rw [h]; simp

theorem monitors (t n : Nat) (s : State) :
    let u := s.advance t
    (let m := u.mon n
     n < 32 → u.domainOn 7 = true → m.hasCfg = true → m.n ≤ m.count → m.past = true → m.acted = false →
      let v := u.modMon n fun m => { m with acted := true }
      let w := if !(v.cmp m.partner).main && !v.blanked t m.partner then suspectCmp m.partner v else v
      (m.action = 1 → exec (.monitorActs t n) s = .next (tripGroup t m.group (0x200 + n) 4 (wrap 16 m.val) w)) ∧
      (m.action = 2 → exec (.monitorActs t n) s = .next (State.post t (ev 0x0936 n (leI 2 m.val ++ [if m.tripHi ≤ m.val then 1 else 0])) w)) ∧
      (m.action ≠ 1 → m.action ≠ 2 → exec (.monitorActs t n) s = .next w)) ∧
    (n < 32 → (u.domainOn 7 = false ∨ (u.mon n).count < (u.mon n).n ∨ (u.mon n).acted = true) → exec (.monitorActs t n) s = .next u) := by
  intro u
  refine ⟨?_, fun hn hno => ?_⟩
  · intro m hn hd hc hcount hp ha v w
    have hacts := (monitorActs_exec hn t s).trans (congrArg _ ((if_pos hd).trans (monActs_complete hc hcount hp ha)))
    exact ⟨fun h1 => hacts.trans (congrArg _ (if_pos h1)),
      fun h2 => hacts.trans (congrArg _ ((if_neg (show ¬m.action = 1 by omega)).trans (if_pos h2))),
      fun h1 h2 => hacts.trans (congrArg _ ((if_neg h1).trans (if_neg h2)))⟩
  · refine (monitorActs_exec hn t s).trans (congrArg _ ?_)
    obtain h | h := hno
    · exact if_neg (ne_true_of_eq_false h)
    · unfold inDomain
      rw [monActs_waits h, ite_self]

/-- The partner of a monitor has been asserted for 1 ms while the results lie inside (R379). -/
theorem partnerSuspect_inside {t n a : Nat} {s : State} (hn : n < 32) (ha : ((s.advance t).mon n).insideAt = some a) :
    exec (.partnerSuspect t n) s = .next (
      let u := s.advance t
      let m := u.mon n
      if !u.d7Off && m.hasCfg && ((u.cmp m.partner).live && decide (u.unmaskedFrom t m.partner + 1000000 ≤ t) && decide (a + 1000000 ≤ t)) then
        suspectCmp m.partner u else u) := by
  refine (if_pos hn).trans (congrArg _ ?_)
  rw [ha]

theorem partnerSuspect_waits {t n : Nat} {s : State} (hn : n < 32)
    (h : (s.advance t).d7Off = true ∨ ((s.advance t).cmp ((s.advance t).mon n).partner).live = false ∨ ((s.advance t).mon n).insideAt = none) :
    exec (.partnerSuspect t n) s = .next (s.advance t) := by
  refine (if_pos hn).trans (congrArg _ (if_neg ?_))
  obtain h | h | h := h <;> rw [h] <;> simp

theorem suspectCmp_mapped {p k : Nat} {u : State} (hp : p < 52) (hc : (u.cmp p).cell = some k) (hs : (u.cmp p).suspect = false) :
    suspectCmp p u =
      ((u.modCmp p fun c => { c with suspect := true }).modProt fun q => { q with testNext := some p }).count (hcCell k 1) := by
  refine (if_pos ⟨hp, by rw [hc]; rfl, by rw [hs]; rfl⟩).trans ?_
  rw [hc]
  rfl

/-- Settles O46: FLT inputs, comparators and monitors. -/
theorem protectionSources : Obligations.ProtectionSources := by
  intro t n s
  obtain ⟨hf, hf'⟩ := fltInputs t n s
  obtain ⟨hc, hc', hc''⟩ := comparatorAssertions t n s
  obtain ⟨hr, hr', hh, hh'⟩ := comparatorReleases t n s
  obtain ⟨hm, hm'⟩ := monitors t n s
  refine ⟨hf, hf', hc, hc', hc'', hr, hr', hh, hh', hm, hm', fun hn => ⟨fun a ho hcfg hl hu ha hat => ?_, fun k hp hcell hs => suspectCmp_mapped hp hcell hs,
    partnerSuspect_waits hn⟩⟩
  refine (partnerSuspect_inside hn ha).trans (congrArg _ (if_pos ?_))
  rw [ho, hcfg, hl, decide_eq_true hu, decide_eq_true hat]
  rfl

end Sys2Proof.Machine
end

section
/-! SUPPORT. Reactions of protection groups and comparator cell tests (R379, R381, R386, R387, R389 to R392). -/

namespace Sys2Proof.Machine

/-! ### Reactions -/

theorem softStep_exec {g : Nat} (hg : g < 8) (t : Nat) (s : State) :
    exec (.softStep t g) s = .next (
      let u := s.advance t
      let p := u.pgroup g
      if p.state = 1 ∧ p.step1 ∧ p.reactAt + p.tSoft1 * 10 ≤ t then
        ((u.reactingLegs g).foldl (fun s n => s.modLeg n fun l => { l with pwmH := false, pwmL := l.pwmL && (l.role == 3 || l.role == 4) }) u).modPGroup g
          fun p => { p with step1 := false }
      else u) := if_pos hg

theorem innerStep_exec {g : Nat} (hg : g < 8) (t : Nat) (s : State) :
    exec (.innerStep t g) s = .next (
      let u := s.advance t
      let p := u.pgroup g
      if p.state = 1 ∧ !p.step1 ∧ p.reactAt + ((if p.hard then 0 else p.tSoft1) + p.tInner) * 10 ≤ t then
        let v := (u.reactingLegs g).foldl (fun s n => legTo t n 3 1 (s.modLeg n fun l => { l with pwmH := false, pwmL := false })) u
        if p.latchPend then latchGroup t g v else v.modPGroup g fun p => { p with state := 2 }
      else u) := if_pos hg

theorem protRetry_exec {g : Nat} (hg : g < 8) (t : Nat) (s : State) :
    exec (.protRetry t g) s = .next (
      let u := s.advance t
      let p := u.pgroup g
      if p.state = 2 ∧ p.retryAt ≤ t then
        let v := clearHeld g u
        if v.sourcesClear g then (armGroup t g (initOwners g v)).post t (ev 0x0931 g [BitVec.ofNat 8 p.tries, 1])
        else if p.retries ≤ p.tries then latchGroup t g v
        else
          (v.modPGroup g fun p => { p with tries := p.tries + 1, retryAt := p.retryAt + p.tRetry * 1000000 }).post t
            (ev 0x0931 g [BitVec.ofNat 8 (p.tries + 1), 0])
      else u) := if_pos hg

/-- The steps of a reaction (R381). -/
theorem reactionSteps (t g : Nat) (s : State) (hg : g < 8) :
    let u := s.advance t
    let p := u.pgroup g
    (p.state = 1 → p.step1 = true → p.reactAt + p.tSoft1 * 10 ≤ t → exec (.softStep t g) s = .next
      (((u.reactingLegs g).foldl (fun s n => s.modLeg n fun l => { l with pwmH := false, pwmL := l.pwmL && (l.role == 3 || l.role == 4) }) u).modPGroup g
        fun p => { p with step1 := false })) ∧
    ((p.state ≠ 1 ∨ p.step1 = false ∨ t < p.reactAt + p.tSoft1 * 10) → exec (.softStep t g) s = .next u) ∧
    (p.state = 1 → p.step1 = false → p.reactAt + ((if p.hard then 0 else p.tSoft1) + p.tInner) * 10 ≤ t →
      let v := (u.reactingLegs g).foldl (fun s n => legTo t n 3 1 (s.modLeg n fun l => { l with pwmH := false, pwmL := false })) u
      (p.latchPend = true → exec (.innerStep t g) s = .next (latchGroup t g v)) ∧
      (p.latchPend = false → exec (.innerStep t g) s = .next (v.modPGroup g fun p => { p with state := 2 }))) ∧
    (p.state ≠ 1 ∨ p.step1 = true ∨ t < p.reactAt + ((if p.hard then 0 else p.tSoft1) + p.tInner) * 10 → exec (.innerStep t g) s = .next u) := by
  intro u p
  have inner (h0 : p.step1 = false) : (!p.step1) = true := congrArg (!·) h0
  refine ⟨fun h1 hs ht => (softStep_exec hg t s).trans (congrArg _ (if_pos ⟨h1, hs, ht⟩)), fun hno => ?_, fun h1 hs ht => ⟨fun hl => ?_, fun hl => ?_⟩,
    fun hno => ?_⟩
  · refine (softStep_exec hg t s).trans (congrArg _ (if_neg ?_))
    rintro ⟨h1, hs, ht⟩
    exact hno.elim (fun h => h h1) fun h => h.elim (fun h => ne_true_of_eq_false h hs) (Nat.not_lt.2 ht)
  · exact (innerStep_exec hg t s).trans (congrArg _ ((if_pos ⟨h1, inner hs, ht⟩).trans (if_pos hl)))
  · exact (innerStep_exec hg t s).trans (congrArg _ ((if_pos ⟨h1, inner hs, ht⟩).trans (if_neg (ne_true_of_eq_false hl))))
  · refine (innerStep_exec hg t s).trans (congrArg _ (if_neg ?_))
    rintro ⟨h1, hs, ht⟩
    obtain h | h | h := hno
    · exact h h1
    · exact absurd (congrArg (!·) h ▸ hs : (!true) = true) (by decide)
    · exact Nat.not_lt.2 ht h

/-- The retry of a waiting group, and its tries cleared (R386, R387). -/
theorem retries (t g : Nat) (s : State) (hg : g < 8) :
    let u := s.advance t
    let p := u.pgroup g
    (p.state = 2 → p.retryAt ≤ t →
      let v := clearHeld g u
      (v.sourcesClear g = true → exec (.protRetry t g) s = .next (State.post t (ev 0x0931 g [BitVec.ofNat 8 p.tries, 1]) (armGroup t g (initOwners g v)))) ∧
      (v.sourcesClear g = false → p.tries < p.retries → exec (.protRetry t g) s = .next (State.post t (ev 0x0931 g [BitVec.ofNat 8 (p.tries + 1), 0])
        (v.modPGroup g fun p => { p with tries := p.tries + 1, retryAt := p.retryAt + p.tRetry * 1000000 }))) ∧
      (v.sourcesClear g = false → p.retries ≤ p.tries → exec (.protRetry t g) s = .next (latchGroup t g v))) ∧
    ((p.state ≠ 2 ∨ t < p.retryAt) → exec (.protRetry t g) s = .next u) ∧
    (p.state = 0 → p.armedAt + p.retryClear * 1000000000 ≤ t →
      exec (.triesClear t g) s = .next (u.modPGroup g fun p => { p with tries := 0 })) ∧
    (t < p.armedAt + p.retryClear * 1000000000 → exec (.triesClear t g) s = .next u) := by
  intro u p
  refine ⟨fun h2 ht => ⟨fun hc => ?_, fun hc hr => ?_, fun hc hr => ?_⟩, fun hno => ?_, fun h0 ht => (if_pos hg).trans (congrArg _ (if_pos ⟨h0, ht⟩)),
    fun ht => (if_pos hg).trans (congrArg _ (if_neg fun hk => Nat.not_lt.2 hk.2 ht))⟩
  · exact (protRetry_exec hg t s).trans (congrArg _ ((if_pos ⟨h2, ht⟩).trans (if_pos hc)))
  · exact (protRetry_exec hg t s).trans (congrArg _ ((if_pos ⟨h2, ht⟩).trans ((if_neg (ne_true_of_eq_false hc)).trans (if_neg (Nat.not_le.2 hr)))))
  · exact (protRetry_exec hg t s).trans (congrArg _ ((if_pos ⟨h2, ht⟩).trans ((if_neg (ne_true_of_eq_false hc)).trans (if_pos hr))))
  · exact (protRetry_exec hg t s).trans (congrArg _ (if_neg fun hk => hno.elim (fun h => h hk.1) (Nat.not_lt.2 hk.2)))

/-! ### Cell tests -/

theorem cmpSelfTestStep_off {t : Nat} {b sb : Bool} {s : State} (h : (s.advance t).d7Off = true) :
    exec (.cmpSelfTestStep t b sb) s = .next (s.advance t) := if_pos h

/-- A suspect comparator's cell is tested first (R379). -/
theorem cmpSelfTestStep_suspect {t n : Nat} {s : State} (ho : (s.advance t).d7Off = false) (hn : (s.advance t).prot.testNext = some n) (b sb : Bool) :
    exec (.cmpSelfTestStep t b sb) s = .next (
      let u := s.advance t
      let v := (u.modProt fun p => { p with testNext := none }).modCmp n fun c => { c with suspect := false }
      let k := (u.cmp n).cell.getD 52
      if b then failCell t n k v else v.post t (cmpTestEv n 3 k 255)) := by
  refine (if_neg (ne_true_of_eq_false ho)).trans ?_
  rw [hn]

/-- The background test's place moved past cell k (R389). -/
def testMoved (k : Nat) (u : State) : State :=
  u.modProt fun p => { p with
    testCell := (k + 1) % 52
    testCycles := if decide (k < p.testCell) || k == 51 then (p.testCycles + 1) % 2 ^ 32 else p.testCycles }

theorem cmpSelfTestStep_none {t : Nat} {s : State} (hn : (s.advance t).prot.testNext = none)
    (hk : (s.advance t).testFrom (s.advance t).prot.testCell = none) (b sb : Bool) : exec (.cmpSelfTestStep t b sb) s = .next (s.advance t) := by
  change execCmpSelfTestStep t b sb s = _
  unfold execCmpSelfTestStep
  dsimp only
  rw [hn, hk, ite_self]

/-- The background test of cell k (R389, R390). -/
theorem cmpSelfTestStep_cell {t k : Nat} {s : State} (ho : (s.advance t).d7Off = false) (hn : (s.advance t).prot.testNext = none)
    (hk : (s.advance t).testFrom (s.advance t).prot.testCell = some k) (b sb : Bool) :
    exec (.cmpSelfTestStep t b sb) s = (
      let v := testMoved k (s.advance t)
      match v.cmpOf k with
      | some n =>
        .next (if b then failCell t n k v
          else if sb then
            match v.freeCell k with
            | some f => (retireCell f v).post t (cmpTestEv n 2 f 255)
            | none => v
          else v)
      | none => .next (if b then cellFailed t k v else v)) := by
  change execCmpSelfTestStep t b sb s = _
  unfold execCmpSelfTestStep
  dsimp only
  rw [if_neg (ne_true_of_eq_false ho), hn, hk]
  rfl

theorem cellTests (t : Nat) (s : State) :
    let u := s.advance t
    (∀ b sb, u.d7Off = true → exec (.cmpSelfTestStep t b sb) s = .next u) ∧
    (∀ (n : Nat) (sb : Bool), u.d7Off = false → u.prot.testNext = some n →
      let v := (u.modProt fun p => { p with testNext := none }).modCmp n fun c => { c with suspect := false }
      let k := (u.cmp n).cell.getD 52
      exec (.cmpSelfTestStep t true sb) s = .next (failCell t n k v) ∧
      exec (.cmpSelfTestStep t false sb) s = .next (State.post t (cmpTestEv n 3 k 255) v)) ∧
    (∀ k, u.d7Off = false → u.prot.testNext = none → u.testFrom u.prot.testCell = some k →
      let v := testMoved k u
      exec (.cmpSelfTestStep t false false) s = .next v ∧
      (∀ n sb, v.cmpOf k = some n → exec (.cmpSelfTestStep t true sb) s = .next (failCell t n k v)) ∧
      (∀ n f, v.cmpOf k = some n → v.freeCell k = some f →
        exec (.cmpSelfTestStep t false true) s = .next (State.post t (cmpTestEv n 2 f 255) (retireCell f v)))) ∧
    (∀ b sb, u.prot.testNext = none → u.testFrom u.prot.testCell = none → exec (.cmpSelfTestStep t b sb) s = .next u) := by
  intro u
  refine ⟨fun b sb => cmpSelfTestStep_off, fun n sb ho hn => ⟨cmpSelfTestStep_suspect ho hn true sb, cmpSelfTestStep_suspect ho hn false sb⟩,
    fun k ho hn hk => ⟨?_, fun n sb hc => ?_, fun n f hc hf => ?_⟩, fun b sb hn hk => cmpSelfTestStep_none hn hk b sb⟩
  · rw [cmpSelfTestStep_cell ho hn hk]
    dsimp only
    split <;> rfl
  · rw [cmpSelfTestStep_cell ho hn hk]
    dsimp only
    rw [hc]
    rfl
  · rw [cmpSelfTestStep_cell ho hn hk]
    dsimp only
    rw [hc, hf]
    rfl

theorem cellPowerOff_exec {k : Nat} (hk : k < 52) (t : Nat) (s : State) :
    exec (.cellPowerOff t k) s = .next (
      let u := s.advance t
      if !u.prot.cellOk.getD k true ∧ u.prot.cellOn.getD k false ∧ u.prot.cellOffAt.getD k 0 ≤ t then
        (u.modProt fun p => { p with cellOn := p.cellOn.set k false }).commitHealth
      else u) := if_pos hk

/-! ### The in-place test -/

/-- The rows of an in-place test's reply (R392). -/
def cmpTestData (u : State) (rows : List (Nat × Nat × Nat × Nat)) : List Byte :=
  rows.flatMap fun x =>
    let c := u.cmp x.1
    [BitVec.ofNat 8 x.1, if c.passes x.2.1 x.2.2.1 x.2.2.2 then 1 else 0] ++ le 2 x.2.1 ++ le 2 x.2.2.1 ++ le 2 (if c.under then 0xFFFF else x.2.2.2)

/-- The end of an in-place test: failed cells given up, the comparators freed, the reply sent (R392). -/
theorem cmpTestComplete_exec (t : Nat) (codes : List (Nat × Nat × Nat)) (s : State) :
    exec (.cmpTestComplete t codes) s = .next (
      let u := s.advance t
      let l := u.prot.cmpTest
      if l = [] then u
      else
        let rows := (List.range l.length).map fun i => (l.getD i 0, codes.getD i (0, 0, 0))
        let bad := rows.filter fun x => !(u.cmp x.1).passes x.2.1 x.2.2.1 x.2.2.2
        let v := bad.foldl (fun s x => failCell t x.1 ((s.cmp x.1).cell.getD 52) s) u
        let w := l.foldl (fun s n => s.modCmp n fun c => { c with underTest := false }) v
        let z := w.modProt fun p => { p with cmpTest := [], cmpReply := none }
        match w.prot.cmpReply with | some d => sendReply d.src (d.withData (cmpTestData u rows)) z | none => z) := rfl

/-- One comparator tested in place, with codes that pass. -/
theorem cmpTestComplete_passed {t n : Nat} {x : Nat × Nat × Nat} {s : State} (hl : (s.advance t).prot.cmpTest = [n])
    (hp : ((s.advance t).cmp n).passes x.1 x.2.1 x.2.2 = true) :
    let u := s.advance t
    let v : State := { u with prot := { u.prot with
      cmps := upd u.prot.cmps n fun c => { c with underTest := false }, cmpTest := [], cmpReply := none } }
    (u.prot.cmpReply = none → exec (.cmpTestComplete t [x]) s = .next v) ∧
    (∀ d, u.prot.cmpReply = some d → exec (.cmpTestComplete t [x]) s = .next (sendReply d.src (d.withData
      ([BitVec.ofNat 8 n, 1] ++ le 2 x.1 ++ le 2 x.2.1 ++ le 2 (if (u.cmp n).under then 0xFFFF else x.2.2))) v)) := by
  intro u v
  have hrows : (List.range [n].length).map (fun i => ([n].getD i 0, [x].getD i (0, 0, 0))) = [(n, x)] := rfl
  have hbad : [(n, x)].filter (fun y => !(u.cmp y.1).passes y.2.1 y.2.2.1 y.2.2.2) = [] := by
    rw [List.filter_cons_of_neg (by rw [hp]; decide), List.filter_nil]
  have hdata : cmpTestData u [(n, x)] = [BitVec.ofNat 8 n, 1] ++ le 2 x.1 ++ le 2 x.2.1 ++ le 2 (if (u.cmp n).under then 0xFFFF else x.2.2) := by
    unfold cmpTestData
    rw [List.flatMap_singleton]
    dsimp only
    rw [if_pos hp]
  have hexec : exec (.cmpTestComplete t [x]) s = .next (
      match u.prot.cmpReply with | some d => sendReply d.src (d.withData (cmpTestData u [(n, x)])) v | none => v) := by
    rw [cmpTestComplete_exec]
    dsimp only
    rw [hl, if_neg (List.cons_ne_nil n []), hrows, hbad]
    rfl
  refine ⟨fun h => hexec.trans ?_, fun d h => hexec.trans ?_⟩
  · rw [h]
  · rw [h, hdata]

/-- Settles O47: the steps of a reaction and its retry, then the cells' tests. -/
theorem reactionsAndCellTests : Obligations.ReactionsAndCellTests := by
  refine ⟨fun t g s hg => ?_, fun t s => ?_⟩
  · obtain ⟨hs, hs', hi, hi'⟩ := reactionSteps t g s hg
    obtain ⟨hr, hr', hc, hc'⟩ := retries t g s hg
    exact ⟨hs, hs', hi, hi', hr, hr', hc, hc'⟩
  · obtain ⟨hoff, hsus, hcell, hnone⟩ := cellTests t s
    refine ⟨hoff, hsus, hcell, hnone, fun k hk hok hon hat => ?_, fun k hk hok => ?_, fun l hl => congrArg _ (if_pos hl),
      fun n x hl hp => cmpTestComplete_passed hl hp⟩
    · exact (cellPowerOff_exec hk t s).trans (congrArg _ (if_pos ⟨congrArg (!·) hok, hon, hat⟩))
    · exact (cellPowerOff_exec hk t s).trans (congrArg _ (if_neg fun hgo => absurd (congrArg (!·) hok ▸ hgo.1 : (!true) = true) (by decide)))

end Sys2Proof.Machine
end

section
/-! SUPPORT. Leg happenings: load events, the bootstrap precharge and the end of a test (R325, R326, R329, R330, R333). -/

namespace Sys2Proof.Machine

/-! ### A leg after a change and at its load event -/

theorem leg_modLeg {n : Nat} {s : State} (h : n < s.pwm.legs.length) (f : Leg → Leg) : (s.modLeg n f).leg n = f (s.leg n) := getD_upd_same h f _

/-- A load event copies the shadow, and leaves the rest of the leg. -/
theorem latched_leaves (t : Nat) (l : Leg) :
    (l.latched t).state = l.state ∧ (l.latched t).startedAt = l.startedAt ∧ (l.latched t).sto = l.sto := by
  unfold Leg.latched
  split
  · exact ⟨rfl, rfl, rfl⟩
  · split
    · exact ⟨rfl, rfl, rfl⟩
    · split <;> exact ⟨rfl, rfl, rfl⟩

/-- A leg that has a load event is there. -/
theorem loadHit_inside {t n : Nat} {peak : Bool} {x : Int} {u : State} (h : u.loadHit t n peak = some x) : n < u.pwm.legs.length := by
  refine Nat.lt_of_not_le fun hout => ?_
  have hreset : u.leg n = Leg.reset := by
    unfold State.leg
    simp [hout]
  have hcfg : (u.leg n).hasCfg = false := by rw [hreset]; rfl
  unfold State.loadHit at h
  dsimp only at h
  rw [if_neg (by rw [hcfg]; simp)] at h
  exact absurd h (by simp)

/-- The leg once it has entered Switching (R326). -/
theorem legTo_switching {n : Nat} {s : State} (hn : n < s.pwm.legs.length) (h1 : (s.leg n).state = 1) (t : Nat) :
    ((legTo t n 2 0 s).leg n).state = 2 ∧ ((legTo t n 2 0 s).leg n).sto = false := by
  have hleg : (legTo t n 2 0 s).leg n = { ((s.leg n).settle s.pwm.d6 t).enter 2 with startedAt := (s.leg n).startedAt } := by
    unfold legTo State.leg
    dsimp only
    rw [if_neg (show ¬(s.pwm.legs.getD n Leg.reset).state = 2 from fun h => absurd (h1.symm.trans h) (by decide)), post_pwm]
    exact leg_modLeg hn _
  rw [hleg]
  exact ⟨rfl, rfl⟩

/-! ### What a load event does -/

/-- The comparators, the decimators and a current-mode leg at a load event (R322, R375). -/
def loadFollowed (t n : Nat) (z : State) : State := curStart t n (cmpLoad n (decimLoad n t z))

/-- The leg waits at its load event: Starting, and not ready, held by STO or reacting (R326). -/
def legWaits (t n : Nat) (w : State) : Bool := (w.leg n).state == 1 && (!(w.leg n).startReady t || (w.leg n).sto || w.inReaction n)

theorem loadNow_waits {t n : Nat} {peak : Bool} {x : Int} {w : State} (hw : legWaits t n w = true) : loadNow t n peak x w = loadFollowed t n w := by
  have h1 : (w.leg n).state = 1 := by simpa using Bool.and_elim_left hw
  unfold legWaits at hw
  unfold loadNow loadFollowed
  dsimp only
  simp only [hw, if_true, Bool.not_true, Bool.false_eq_true, and_false, if_false]
  rw [if_neg (by rw [h1]; rintro ⟨h | ⟨h, -⟩, -⟩ <;> exact absurd h (by decide))]

/-- A load event of a leg that does not wait: v with the shadow copied. -/
theorem loadNow_goes {t n : Nat} {peak : Bool} {x : Int} {w : State} (hw : legWaits t n w = false) :
    let l := w.leg n
    let v := w.modLeg n (Leg.latched t)
    let z := if l.state = 1 then legTo t n 2 0 v else v
    let y := z.leg n
    loadNow t n peak x w = loadFollowed t n (
      if (y.state = 2 ∨ (y.state = 4 ∧ y.startedAt < t)) ∧ !y.sto then
        placeInterval t n peak (w.tb l.tb).inForce x (v.phaseShift l.acPhase.toInt (v.leg n).acPhase.toInt (w.tb l.tb).inForce.n) z
      else z.modLeg n fun l => { l with loadAt := t, loadD := x }) := by
  intro l v z y
  unfold legWaits at hw
  unfold loadNow loadFollowed
  dsimp only
  simp only [hw, Bool.false_eq_true, if_false, Bool.not_false, and_true]
  rfl

theorem loadEvent_exec {n : Nat} (hn : n < 48) (t : Nat) (peak : Bool) (s : State) :
    exec (.loadEvent t n peak) s = .next (
      let u := pwmSettle t (s.advance t)
      match u.loadHit t n peak with
      | some x => loadNow t n peak x (d6Sync t x u)
      | none => u) := if_pos hn

theorem loadEvent_none {t n : Nat} {peak : Bool} {s : State} (hn : n < 48) (h : (pwmSettle t (s.advance t)).loadHit t n peak = none) :
    exec (.loadEvent t n peak) s = .next (pwmSettle t (s.advance t)) := by
  rw [loadEvent_exec hn]
  dsimp only
  rw [h]

theorem loadEvent_hit {t n : Nat} {peak : Bool} {x : Int} {s : State} (hn : n < 48) (h : (pwmSettle t (s.advance t)).loadHit t n peak = some x) :
    exec (.loadEvent t n peak) s = .next (loadNow t n peak x (d6Sync t x (pwmSettle t (s.advance t)))) := by
  rw [loadEvent_exec hn]
  dsimp only
  rw [h]

/-- What a load event does, by the leg's state (R325, R326, R329). -/
theorem loadNow_cases {t n : Nat} (peak : Bool) (x : Int) {w : State} (hn : n < w.pwm.legs.length) :
    let l := w.leg n
    let b := (w.tb l.tb).inForce
    let v := w.modLeg n (Leg.latched t)
    let shift := v.phaseShift l.acPhase.toInt (v.leg n).acPhase.toInt b.n
    (l.state = 1 → (l.startReady t = false ∨ l.sto = true ∨ w.inReaction n = true) → loadNow t n peak x w = loadFollowed t n w) ∧
    ((l.state = 0 ∨ l.state = 3) → loadNow t n peak x w = loadFollowed t n (v.modLeg n fun l => { l with loadAt := t, loadD := x })) ∧
    (l.state = 2 → l.sto = false → loadNow t n peak x w = loadFollowed t n (placeInterval t n peak b x shift v)) ∧
    (l.state = 4 → l.startedAt < t → l.sto = false → loadNow t n peak x w = loadFollowed t n (placeInterval t n peak b x shift v)) ∧
    (l.state = 1 → l.startReady t = true → l.sto = false → w.inReaction n = false →
      loadNow t n peak x w = loadFollowed t n (placeInterval t n peak b x shift (legTo t n 2 0 v))) := by
  intro l b v shift
  have hv : v.leg n = l.latched t := leg_modLeg hn _
  obtain ⟨hstate, hstart, hsto⟩ := latched_leaves t l
  have other (h : l.state ≠ 1) : loadNow t n peak x w = loadFollowed t n (
      if ((v.leg n).state = 2 ∨ ((v.leg n).state = 4 ∧ (v.leg n).startedAt < t)) ∧ !(v.leg n).sto then placeInterval t n peak b x shift v
      else v.modLeg n fun l => { l with loadAt := t, loadD := x }) := by
    refine (loadNow_goes (show legWaits t n w = false from ?_)).trans ?_
    · unfold legWaits
      rw [beq_false_of_ne h, Bool.false_and]
    · rw [if_neg h]
  have places (hs : l.sto = false) (h : l.state = 2 ∨ (l.state = 4 ∧ l.startedAt < t)) :
      ((v.leg n).state = 2 ∨ ((v.leg n).state = 4 ∧ (v.leg n).startedAt < t)) ∧ (!(v.leg n).sto) = true := by
    rw [hv, hstate, hstart, hsto, hs]
    exact ⟨h, rfl⟩
  refine ⟨fun h1 hw => loadNow_waits ?_, fun h => ?_, fun h2 hs => ?_, fun h4 ht hs => ?_, fun h1 hr hs hi => ?_⟩
  · change (l.state == 1 && (!l.startReady t || l.sto || w.inReaction n)) = true
    rw [h1]
    obtain h | h | h := hw <;> rw [h] <;> simp
  · rw [other (by omega), if_neg]
    rw [hv, hstate]
    rintro ⟨h2 | ⟨h4, -⟩, -⟩ <;> omega
  · rw [other (by omega), if_pos (places hs (.inl h2))]
  · rw [other (by omega), if_pos (places hs (.inr ⟨h4, ht⟩))]
  · have hwait : legWaits t n w = false := by
      change (l.state == 1 && (!l.startReady t || l.sto || w.inReaction n)) = false
      rw [hr, hs, hi]
      simp
    have hlen : n < v.pwm.legs.length := by
      change n < (upd w.pwm.legs n (Leg.latched t)).length
      unfold upd
      rwa [List.length_modify]
    obtain ⟨h2, h0⟩ := legTo_switching hlen ((congrArg Leg.state hv).trans (hstate.trans h1)) t
    refine (loadNow_goes hwait).trans ?_
    rw [if_pos h1, if_pos ⟨.inl h2, by rw [h0]; rfl⟩]

/-! ### The precharge and the end of a test -/

theorem bootPrecharge_exec {n : Nat} (hn : n < 48) (t : Nat) (s : State) :
    exec (.bootPrecharge t n) s = .next (
      let u := s.advance t
      let l := u.leg n
      if l.state = 1 ∧ l.boot ∧ !l.preDone ∧ l.startedAt + 2000 ≤ t ∧ !l.sto then
        u.modLeg n fun l => { l with
          pwmL := (u.leg n).role != 9, onL := if (u.leg n).role != 9 then t else l.onL, preDone := true, startedAt := t, loadAt := t
          loadD := u.pwm.d6.steps t, intLen := (u.leg n).bootPre * 8000
          edges := [(((u.leg n).bootPre * 8000 : Nat), false, false)], refreshEnd := t + l.bootPre * 1000 }
      else u) := if_pos hn

theorem legTestEnd_exec {n : Nat} (hn : n < 48) (t : Nat) (s : State) :
    exec (.legTestEnd t n) s = .next (
      let u := s.advance t
      if (u.leg n).testEnd != 0 && decide ((u.leg n).testEnd ≤ t) then endLegTest t n u else u) := if_pos hn

theorem test_ends {a t : Nat} (h0 : a ≠ 0) (ht : a ≤ t) : (a != 0 && decide (a ≤ t)) = true := by
  rw [bne_iff_ne.2 h0, decide_eq_true ht]
  rfl

theorem precharge_and_test (t n : Nat) (s : State) (hn : n < 48) :
    let u := s.advance t
    let l := u.leg n
    (l.state = 1 → l.boot = true → l.preDone = false → l.startedAt + 2000 ≤ t → l.sto = false → exec (.bootPrecharge t n) s =
      .next (u.modLeg n fun l => { l with
        pwmL := (u.leg n).role != 9, onL := if (u.leg n).role != 9 then t else l.onL, preDone := true, startedAt := t, loadAt := t
        loadD := u.pwm.d6.steps t, intLen := (u.leg n).bootPre * 8000
        edges := [(((u.leg n).bootPre * 8000 : Nat), false, false)], refreshEnd := t + l.bootPre * 1000 })) ∧
    (l.state ≠ 1 ∨ t < l.startedAt + 2000 → exec (.bootPrecharge t n) s = .next u) ∧
    (l.testEnd ≠ 0 → l.testEnd ≤ t → exec (.legTestEnd t n) s = .next (endLegTest t n u)) ∧
    (l.testEnd ≠ 0 → l.testEnd ≤ t → l.state = 4 → u.inReaction n = false → (u.modLeg n fun l => { l with testEnd := 0 }).inReaction n = false →
      exec (.legTestEnd t n) s = .next (legTo t n 0 2 (u.modLeg n fun l => { l with testEnd := 0 }))) ∧
    (l.testEnd = 0 ∨ t < l.testEnd → exec (.legTestEnd t n) s = .next u) := by
  intro u l
  refine ⟨fun h1 hb hp ht hs => (bootPrecharge_exec hn t s).trans (congrArg _ (if_pos ⟨h1, hb, congrArg (!·) hp, ht, congrArg (!·) hs⟩)), fun hno => ?_,
    fun h0 ht => (legTestEnd_exec hn t s).trans (congrArg _ (if_pos (test_ends h0 ht))), fun h0 ht h4 _ hi => ?_, fun hno => ?_⟩
  · refine (bootPrecharge_exec hn t s).trans (congrArg _ (if_neg ?_))
    rintro ⟨h1, -, -, ht, -⟩
    exact hno.elim (fun h => h h1) (Nat.not_lt.2 ht)
  · refine (legTestEnd_exec hn t s).trans (congrArg _ ((if_pos (test_ends h0 ht)).trans (if_pos ⟨h4, congrArg (!·) hi⟩)))
  · refine (legTestEnd_exec hn t s).trans (congrArg _ (if_neg fun hgo => ?_))
    obtain ⟨h0, ht⟩ := (Bool.and_eq_true _ _).mp hgo
    exact hno.elim (bne_iff_ne.1 h0) (Nat.not_lt.2 (of_decide_eq_true ht))

theorem d6Sync_legs (t : Nat) (x : Int) (u : State) : (d6Sync t x u).pwm.legs = u.pwm.legs := rfl

/-- A load event of a leg that has one. -/
theorem loadEvent_cases {t n : Nat} {peak : Bool} {x : Int} {s : State} (hn : n < 48) (hx : (pwmSettle t (s.advance t)).loadHit t n peak = some x) :
    let w := d6Sync t x (pwmSettle t (s.advance t))
    let l := w.leg n
    let b := (w.tb l.tb).inForce
    let v := w.modLeg n (Leg.latched t)
    let shift := v.phaseShift l.acPhase.toInt (v.leg n).acPhase.toInt b.n
    let loaded (z : State) : State := curStart t n (cmpLoad n (decimLoad n t z))
    (l.state = 1 → (l.startReady t = false ∨ l.sto = true ∨ w.inReaction n = true) → exec (.loadEvent t n peak) s = .next (loaded w)) ∧
    ((l.state = 0 ∨ l.state = 3) → exec (.loadEvent t n peak) s = .next (loaded (v.modLeg n fun l => { l with loadAt := t, loadD := x }))) ∧
    (l.state = 2 → l.sto = false → exec (.loadEvent t n peak) s = .next (loaded (placeInterval t n peak b x shift v))) ∧
    (l.state = 4 → l.startedAt < t → l.sto = false → exec (.loadEvent t n peak) s = .next (loaded (placeInterval t n peak b x shift v))) ∧
    (l.state = 1 → l.startReady t = true → l.sto = false → w.inReaction n = false → exec (.loadEvent t n peak) s =
      .next (loaded (placeInterval t n peak b x shift (legTo t n 2 0 v)))) := by
  intro w l b v shift loaded
  have hlen : n < w.pwm.legs.length := (congrArg (n < ·.length) (d6Sync_legs t x _)).mpr (loadHit_inside hx)
  obtain ⟨hwait, hoff, hsw, htest, hstart⟩ := loadNow_cases (t := t) peak x hlen
  have hexec : exec (.loadEvent t n peak) s = .next (loadNow t n peak x w) := loadEvent_hit hn hx
  exact ⟨fun h1 h => hexec.trans (congrArg _ (hwait h1 h)), fun h => hexec.trans (congrArg _ (hoff h)),
    fun h2 h => hexec.trans (congrArg _ (hsw h2 h)), fun h4 ht h => hexec.trans (congrArg _ (htest h4 ht h)),
    fun h1 hr h hi => hexec.trans (congrArg _ (hstart h1 hr h hi))⟩

/-- Settles O44: a load event by its leg's state, then the precharge and the end of a test. -/
theorem legHappenings : Obligations.LegHappenings :=
  fun t n s hn => ⟨fun _ => ⟨loadEvent_none hn, fun _ hx => loadEvent_cases hn hx⟩, precharge_and_test t n s hn⟩

end Sys2Proof.Machine
end

section
/-! SUPPORT. PV ports and BMS nodes as they act by themselves (R289, R292 to R296, R300, R304, R475, R476). -/

namespace Sys2Proof.Machine

/-! ### A port and a node after a change -/

theorem pv_modPv {p : Nat} {s : State} (h : p < s.ports.pv.length) (f : Pv → Pv) : (s.modPv p f).pv p = f (s.pv p) := getD_upd_same h f _

theorem bms_modBms {n : Nat} {s : State} (h : n < s.ports.bms.length) (f : Bms → Bms) : (s.modBms n f).bms n = f (s.bms n) := getD_upd_same h f _

/-- A port with a configuration is there. -/
theorem pv_inside {p : Nat} {s : State} {c : PvCfg} (h : (s.pv p).cfg = some c) : p < s.ports.pv.length := by
  refine Nat.lt_of_not_le fun hout => ?_
  have hreset : s.pv p = Pv.reset := by
    unfold State.pv
    simp [hout]
  rw [hreset] at h
  exact nomatch h

/-- A node that is Active is there. -/
theorem bms_inside {n : Nat} {s : State} (h : (s.bms n).state = 2) : n < s.ports.bms.length := by
  refine Nat.lt_of_not_le fun hout => ?_
  have hreset : s.bms n = Bms.reset := by
    unfold State.bms
    simp [hout]
  rw [hreset] at h
  exact absurd h (by decide)

/-! ### The start of a waiting port (R292) -/

theorem pvPortStart_starts {t p : Nat} {s : State} {c : PvCfg} (hp : p < 16) (hc : ((s.advance t).pv p).cfg = some c)
    (h1 : ((s.advance t).pv p).state = 1) (hin : 10 ≤ ((s.advance t).pv p).inWin) (hq : (s.advance t).quiet = false)
    (hm : (s.advance t).modes.mode ≠ 0) (hl : (s.advance t).pvLatched c = false) (hd : (s.advance t).dcl.active = false) :
    exec (.pvPortStart t p) s =
      .next (legsUpdate t (pvTo t p 2 ((s.advance t).modPv p fun x => { x with ref := min (x.volts c) (c.vMax * 10) }))) := by
  refine (if_pos hp).trans (congrArg _ ?_)
  rw [hc]
  exact if_pos ⟨h1, hin, congrArg (!·) hq, hm, congrArg (!·) hl, congrArg (!·) hd⟩

theorem pvPortStart_waits {t p : Nat} {s : State} (hp : p < 16) (hin : ((s.advance t).pv p).inWin < 10) :
    exec (.pvPortStart t p) s = .next (s.advance t) := by
  refine (if_pos hp).trans (congrArg _ ?_)
  split
  · exact if_neg fun h => Nat.not_le.2 hin h.2.1
  · rfl

/-! ### The local tracker (R293) -/

/-- A port of which the local tracker has moved the reference (R293). -/
def Pv.tracked (t : Nat) (slope v w : F32) (x : Pv) : Pv :=
  let ref := (x.ref * 65536 + x.refF + fround (trackMove slope v w) 655360).toNat
  { x.fitClear t with
    refDitherAt := !x.refDitherAt, ref := min 65535 (ref / 65536), refF := ref % 65536
    vMpp := min 65535 (fround v 10).toNat, pMpp := (fround w 1000).toNat }

theorem upd_upd {α : Type} (l : List α) (i : Nat) (f g : α → α) : upd (upd l i f) i g = upd l i fun x => g (f x) :=
  List.modify_modify_eq f g i l

theorem not_off_nor_early {on : Bool} {t a : Nat} (h8 : on = true) (ht : a ≤ t) : ¬((!on) = true ∨ t < a) := by
  rw [h8]
  rintro (h | h)
  · exact Bool.false_ne_true h
  · exact Nat.not_le.2 h ht

theorem localTracker_moves {t p : Nat} {s : State} {c : PvCfg} (free0 free1 free2 : F32) (hp : p < 16) (hc : ((s.advance t).pv p).cfg = some c)
    (h2 : ((s.advance t).pv p).state = 2) (h3 : ((s.advance t).pv p).phase ≠ 3) (h8 : (s.advance t).d8On = true)
    (ht : ((s.advance t).pv p).fitAt + 10000000 ≤ t) :
    let fit := ((s.advance t).pv p).fit c free0 free1 free2
    exec (.localTracker t p free0 free1 free2) s = .next ((s.advance t).modPv p fun _ => ((s.advance t).pv p).tracked t fit.1 fit.2.1 fit.2.2) := by
  intro fit
  refine (if_pos hp).trans (congrArg _ ?_)
  rw [hc]
  refine (if_neg (not_off_nor_early h8 ht)).trans ((if_neg h3).trans ((if_pos h2).trans ?_))
  refine congrArg (fun l => ({ s.advance t with ports := { (s.advance t).ports with pv := l } } : State)) ?_
  exact (upd_upd _ _ _ _).trans (upd_eq _ _ _ Pv.reset)

theorem localTracker_idle {t p : Nat} {s : State} (hp : p < 16) (slope v w : F32)
    (h : (s.advance t).d8On = false ∨ t < ((s.advance t).pv p).fitAt + 10000000) : exec (.localTracker t p slope v w) s = .next (s.advance t) := by
  refine (if_pos hp).trans (congrArg _ ?_)
  split
  · exact if_pos (h.imp_left (congrArg (!·)))
  · rfl

/-! ### The halving of the map and the search (R294, R295) -/

theorem mapHalving_exec {p : Nat} (hp : p < 16) (t : Nat) (s : State) :
    exec (.mapHalving t p) s = .next (
      let u := s.advance t
      if !u.d8On ∨ t < (u.pv p).halvedAt + (u.pv p).mppt.mapHalf * 1000000000 then u
      else u.modPv p fun x => { x with map := (x.map.map fun e => (e.1, e.2 / 2)).filter fun e => e.2 != 0, halvedAt := t }) := if_pos hp

theorem globalSearch_exec (t : Nat) (mean : List Nat) (s : State) :
    exec (.globalSearch t mean) s = .next (
      let u := s.advance t
      if u.d8On && decide (u.ports.searchAt + 1000000000 ≤ t) then
        (List.range 16).foldl (fun s p => searchPort t p (mean.getD p 0) s) (u.modPorts fun p => { p with searchAt := t })
      else u) := rfl

/-! ### The end of a sweep (R295, R296) -/

theorem pvSweep_exec {p : Nat} (hp : p < 16) (t mean deficit : Nat) (s : State) :
    exec (.pvSweep t p mean deficit) s = .next (
      let u := s.advance t
      let x := u.pv p
      let lost := u.modPv p fun x => { x with loss := x.loss + deficit }
      if x.state = 3 ∧ u.d8On then
        if x.phase = 2 ∧ x.dwellAt + x.mppt.dwell * 1000000 ≤ t ∧ x.dwellHolds mean then
          pvTo t p 2 (endSweep t p 1 0 x.bestV (if x.dwellN = 0 then mean else x.dwellP / x.dwellN) x.farV lost)
        else if x.phase = 4 ∧ x.ref = x.vNow then pvTo t p 2 (endSweep t p 2 0 x.vNow x.pNow x.farV lost)
        else u
      else u) := if_pos hp

/-- A sweep whose dwell is over and holds is accepted. -/
theorem pvSweep_accepts {t p mean deficit power : Nat} {s : State} (hp : p < 16) (h8 : (s.advance t).d8On = true)
    (h3 : ((s.advance t).pv p).state = 3) (h2 : ((s.advance t).pv p).phase = 2)
    (ht : ((s.advance t).pv p).dwellAt + ((s.advance t).pv p).mppt.dwell * 1000000 ≤ t) (hold : ((s.advance t).pv p).dwellHolds mean = true)
    (hpow : (if ((s.advance t).pv p).dwellN = 0 then mean else ((s.advance t).pv p).dwellP / ((s.advance t).pv p).dwellN) = power) :
    let u := s.advance t
    let x := u.pv p
    exec (.pvSweep t p mean deficit) s =
      .next (pvTo t p 2 (endSweep t p 1 0 x.bestV power x.farV (u.modPv p fun x => { x with loss := x.loss + deficit }))) := by
  intro u x
  refine (pvSweep_exec hp t mean deficit s).trans (congrArg _ ((if_pos ⟨h3, h8⟩).trans ((if_pos ⟨h2, ht, hold⟩).trans ?_)))
  rw [hpow]

theorem dwellHolds_measured {x : Pv} {mean : Nat} (hn : x.dwellN ≠ 0)
    (h : fle (x.mppt.over (intF (x.pNow : Nat) 1000)) (intF (x.dwellP : Nat) (1000 * x.dwellN)) = true) : x.dwellHolds mean = true := by
  unfold Pv.dwellHolds
  rwa [if_neg hn]

theorem dwellHolds_given {x : Pv} {mean : Nat} (hn : x.dwellN = 0)
    (h : fle (x.mppt.over (intF (x.pNow : Nat) 1000)) (intF (mean : Nat) 1000) = true) : x.dwellHolds mean = true := by
  unfold Pv.dwellHolds
  rwa [if_pos hn]

theorem pvSweep_returned {t p mean deficit : Nat} {s : State} (hp : p < 16) (h8 : (s.advance t).d8On = true)
    (h3 : ((s.advance t).pv p).state = 3) (h4 : ((s.advance t).pv p).phase = 4) (hv : ((s.advance t).pv p).ref = ((s.advance t).pv p).vNow) :
    let u := s.advance t
    let x := u.pv p
    exec (.pvSweep t p mean deficit) s =
      .next (pvTo t p 2 (endSweep t p 2 0 x.vNow x.pNow x.farV (u.modPv p fun x => { x with loss := x.loss + deficit }))) := by
  intro u x
  exact (pvSweep_exec hp t mean deficit s).trans (congrArg _ ((if_pos ⟨h3, h8⟩).trans
    ((if_neg fun h => absurd (h4.symm.trans h.1) (by decide)).trans (if_pos ⟨h4, hv⟩))))

theorem pvSweep_idle {t p mean deficit : Nat} {s : State} (hp : p < 16)
    (h : (s.advance t).d8On = false ∨ ((s.advance t).pv p).state ≠ 3 ∨ ((s.advance t).pv p).phase < 2 ∨
      (((s.advance t).pv p).phase = 2 ∧ t < ((s.advance t).pv p).dwellAt + ((s.advance t).pv p).mppt.dwell * 1000000)) :
    exec (.pvSweep t p mean deficit) s = .next (s.advance t) := by
  refine (pvSweep_exec hp t mean deficit s).trans (congrArg _ ?_)
  dsimp only
  obtain h | h | h | ⟨h2, ht⟩ := h
  · exact if_neg fun g => Bool.false_ne_true (h.symm.trans g.2)
  · exact if_neg fun g => h g.1
  · refine (if_congr Iff.rfl ((if_neg fun g => ?_).trans (if_neg fun g => ?_)) rfl).trans (ite_self _)
    · exact absurd (g.1 ▸ h) (Nat.lt_irrefl 2)
    · exact absurd (g.1 ▸ h) (by decide)
  · refine (if_congr Iff.rfl ((if_neg fun g => ?_).trans (if_neg fun g => ?_)) rfl).trans (ite_self _)
    · exact Nat.not_le.2 ht g.2.1
    · exact absurd (h2.symm.trans g.1) (by decide)

/-! ### The references posted (R289, R295) -/

/-- A port's reference posted at time t (R289). -/
def Pv.post (t : Nat) (x : Pv) : Pv :=
  match x.cfg with
  | none => x
  | some c =>
    if x.state = 0 then x
    else
      let x := if x.state = 3 then sweepMove t x c else if x.phase = 3 then x.goBack t else x
      let d : Int := if x.state = 2 then (if x.refDitherAt then (x.mppt.dither : Int) else -(x.mppt.dither : Int)) else 0
      { x with posted := BitVec.ofInt 16 (fQ15Up (intF (((x.ref : Int) + d) * 65536 + x.refF) (c.vFs * 655360))), refAt := t }

theorem pvReferencePost_off {t : Nat} {s : State} (h8 : (s.advance t).d8On = false) : exec (.pvReferencePost t) s = .next (s.advance t) :=
  congrArg _ (if_neg (ne_true_of_eq_false h8))

theorem pvReferencePost_exec {t : Nat} {s : State} (h8 : (s.advance t).d8On = true) :
    exec (.pvReferencePost t) s = .next { s.advance t with ports := { (s.advance t).ports with pv := (s.advance t).ports.pv.map (Pv.post t) } } :=
  congrArg _ (if_pos h8)

/-- The post takes each port by itself. -/
theorem posts_each {t p : Nat} {s : State} {c : PvCfg} (hc : ((s.advance t).pv p).cfg = some c) (h8 : (s.advance t).d8On = true) :
    ∃ z, exec (.pvReferencePost t) s = .next z ∧ z.pv p = ((s.advance t).pv p).post t := by
  refine ⟨_, pvReferencePost_exec h8, ?_⟩
  have hp := pv_inside hc
  generalize s.advance t = u at hp ⊢
  unfold State.pv
  simp [List.getElem?_eq_getElem hp]

theorem post_of_tracking {t : Nat} {x : Pv} {c : PvCfg} (hc : x.cfg = some c) (h2 : x.state = 2) (h3 : x.phase ≠ 3) :
    (x.post t).refAt = t ∧ (x.post t).posted = BitVec.ofInt 16
      (fQ15Up (intF (((x.ref : Int) + (if x.refDitherAt then (x.mppt.dither : Int) else -(x.mppt.dither : Int))) * 65536 + x.refF) (c.vFs * 655360))) := by
  unfold Pv.post
  rw [hc]
  dsimp only
  rw [if_neg (by omega), if_neg (c := x.state = 3) (by omega), if_neg h3, if_pos h2]
  exact ⟨rfl, rfl⟩

theorem post_of_return {t : Nat} {x : Pv} {c : PvCfg} (hc : x.cfg = some c) (h2 : x.state = 2) (h3 : x.phase = 3) :
    (x.post t).ref = (x.goBack t).ref := by
  unfold Pv.post
  rw [hc]
  dsimp only
  rw [if_neg (by omega), if_neg (c := x.state = 3) (by omega), if_pos h3]

theorem goBack_between (t : Nat) (x : Pv) : min x.ref x.vNow ≤ (x.goBack t).ref ∧ (x.goBack t).ref ≤ max x.ref x.vNow := by
  unfold Pv.goBack
  dsimp only
  generalize x.mppt.slew * 10 * (t - x.refAt) / 1000000 = d
  split <;> omega

/-! ### Curtailment (R304) -/

theorem curtailmentUpdate_exec (t : Nat) (s : State) :
    exec (.curtailmentUpdate t) s = .next (
      let u := s.advance t
      if u.holdingMode && u.ports.hasShare && u.dcl.vdcValid && decide (u.ports.curtAt + 50000 ≤ t) then
        yieldAll t { u with ports := { u.ports with
          k := fclamp (fsub u.ports.k (fmul 0x3A03126F (fsub u.vdcF (intF (u.vHold : Nat) 1)))) 0 f1, curtAt := t } }
      else u) := rfl

theorem curtailmentUpdate_idle {t : Nat} {s : State} (h : (s.advance t).holdingMode = false ∨ t < (s.advance t).ports.curtAt + 50000) :
    exec (.curtailmentUpdate t) s = .next (s.advance t) := by
  refine (curtailmentUpdate_exec t s).trans (congrArg _ (if_neg ?_))
  obtain h | h := h
  · rw [h]
    exact Bool.false_ne_true
  · rw [decide_eq_false (Nat.not_le.2 h), Bool.and_false]
    exact Bool.false_ne_true

/-! ### BMS nodes (R300, R475, R476) -/

theorem bmsNodeStale_exec {n : Nat} (hn : n < 64) (t : Nat) (s : State) :
    exec (.bmsNodeStale t n) s = .next (
      let u := s.advance t
      if ((u.bms n).state = 1 ∨ (u.bms n).state = 2) ∧ (u.bms n).timeout < (u.bms n).age then bmsTo t n 3 u else u) := if_pos hn

theorem bmsNodeDeparted_exec {n : Nat} (hn : n < 64) (t : Nat) (s : State) :
    exec (.bmsNodeDeparted t n) s = .next (
      let u := s.advance t
      if (u.bms n).state = 3 ∧ (u.bms n).disable ≤ (u.bms n).staleTicks then bmsTo t n 4 u else u) := if_pos hn

theorem bmsStatusSend_exec {bus : Nat} (hb : bus < 2) (t : Nat) (s : State) :
    exec (.bmsStatusSend t bus) s = .next (
      let u := s.advance t
      let c := u.net.cans.getD bus CanCtl.reset
      if u.d9On ∧ c.role = 1 ∧ !c.busOff then
        { u with net := { u.net with cans := upd u.net.cans bus fun c => { c with sent := some (0x1B5C * 65536 + 0x80,
          [BitVec.ofNat 8 u.modes.mode, if u.dcl.step2 then 1 else 0] ++ zeros 6) } } }
      else u) := if_pos hb

/-- A message of the format of a node's report, its sequence number a new one (R475). -/
def State.bmsValid (s : State) (ident : Nat) (d : List Byte) : Bool :=
  (ident / 65536 == 0x1B5C && decide (ident / 256 % 256 < 64) && ident % 256 == 1) && d.length == 16 && u8 d 8 < 4 && (d.drop 10).all (· == 0) &&
    (s.bms (ident / 256 % 256)).seq != some (u8 d 9)

theorem bmsNodeReport_exec {bus : Nat} (hb : bus < 2) (t ident : Nat) (d : List Byte) (s : State) :
    exec (.bmsNodeReport t bus ident d) s = .next (
      let u := s.advance t
      let c := u.net.cans.getD bus CanCtl.reset
      let n := ident / 256 % 256
      let b := u.bms n
      if !u.d9On ∨ c.role ≠ 1 ∨ c.busOff then u
      else if !u.bmsValid ident d then canDiscard u
      else if !(b.state == 0 || b.state == 4) ∧ b.bus ≠ some bus then
        let s := canDiscard u
        if b.otherPosted then s
        else (s.modBms n fun b => { b with otherPosted := true }).post t (ev 0x0C36 bus [3, BitVec.ofNat 8 n])
      else bmsReport t bus n d u) := if_pos hb

/-- A controller that reads no BMS messages now. -/
theorem bmsNodeReport_idle {t bus ident : Nat} {d : List Byte} {s : State} (hb : bus < 2)
    (h : (s.advance t).d9On = false ∨ ((s.advance t).net.cans.getD bus CanCtl.reset).role ≠ 1) :
    exec (.bmsNodeReport t bus ident d) s = .next (s.advance t) :=
  (bmsNodeReport_exec hb t ident d s).trans (congrArg _ (if_pos (h.imp (congrArg (!·)) .inl)))

theorem bmsStatusSend_idle {t bus : Nat} {s : State} (hb : bus < 2)
    (h : (s.advance t).d9On = false ∨ ((s.advance t).net.cans.getD bus CanCtl.reset).role ≠ 1) :
    exec (.bmsStatusSend t bus) s = .next (s.advance t) :=
  (bmsStatusSend_exec hb t s).trans (congrArg _ (if_neg fun g => h.elim (fun h => Bool.false_ne_true (h.symm.trans g.1)) fun h => h g.2.1))

/-- A controller that reads BMS messages. -/
theorem reads_bms {on off : Bool} {role : Nat} (h9 : on = true) (h1 : role = 1) (hoff : off = false) :
    ¬((!on) = true ∨ role ≠ 1 ∨ off = true) := by
  rw [h9, h1, hoff]
  simp

theorem bmsNodeReport_invalid {t bus ident : Nat} {d : List Byte} {s : State} (hb : bus < 2) (h9 : (s.advance t).d9On = true)
    (h1 : ((s.advance t).net.cans.getD bus CanCtl.reset).role = 1) (hoff : ((s.advance t).net.cans.getD bus CanCtl.reset).busOff = false)
    (h : d.length ≠ 16 ∨ ident / 65536 ≠ 0x1B5C) : exec (.bmsNodeReport t bus ident d) s = .next (canDiscard (s.advance t)) := by
  refine (bmsNodeReport_exec hb t ident d s).trans (congrArg _ ((if_neg (reads_bms h9 h1 hoff)).trans (if_pos ?_)))
  unfold State.bmsValid
  obtain h | h := h <;> rw [beq_false_of_ne h] <;> simp

/-- The identifier of node n's report. -/
theorem reportId_node {n : Nat} (hn : n < 64) :
    (0x1B5C0001 + 256 * n) / 65536 = 0x1B5C ∧ (0x1B5C0001 + 256 * n) / 256 % 256 = n ∧ (0x1B5C0001 + 256 * n) % 256 = 1 := by omega

theorem bmsValid_node {n : Nat} {d : List Byte} {u : State} (hn : n < 64) (hl : d.length = 16) (h8 : u8 d 8 < 4)
    (hz : (d.drop 10).all (· == 0) = true) (hseq : (u.bms n).seq ≠ some (u8 d 9)) : u.bmsValid (0x1B5C0001 + 256 * n) d = true := by
  obtain ⟨htop, hnode, hlow⟩ := reportId_node hn
  unfold State.bmsValid
  rw [htop, hnode, hlow, hl, hz, decide_eq_true hn, decide_eq_true h8, bne_iff_ne.2 hseq]
  rfl

/-- A valid report of node n, taken or refused by its bus. -/
theorem bmsNodeReport_valid {t n bus : Nat} {d : List Byte} {s : State} (hn : n < 64) (hb : bus < 2) (h9 : (s.advance t).d9On = true)
    (h1 : ((s.advance t).net.cans.getD bus CanCtl.reset).role = 1) (hoff : ((s.advance t).net.cans.getD bus CanCtl.reset).busOff = false)
    (hv : (s.advance t).bmsValid (0x1B5C0001 + 256 * n) d = true) :
    exec (.bmsNodeReport t bus (0x1B5C0001 + 256 * n) d) s = .next (
      let u := s.advance t
      let b := u.bms n
      if !(b.state == 0 || b.state == 4) ∧ b.bus ≠ some bus then
        let s := canDiscard u
        if b.otherPosted then s
        else (s.modBms n fun b => { b with otherPosted := true }).post t (ev 0x0C36 bus [3, BitVec.ofNat 8 n])
      else bmsReport t bus n d u) := by
  refine (bmsNodeReport_exec hb t _ d s).trans (congrArg _ ((if_neg (reads_bms h9 h1 hoff)).trans ((if_neg ?_).trans ?_)))
  · rw [hv]
    exact Bool.false_ne_true
  · rw [(reportId_node hn).2.1]

theorem bmsReport_of_active {t bus n : Nat} {d : List Byte} {u : State} (h2 : (u.bms n).state = 2) (hbit : bit (u8 d 8) 1 = false) :
    let w := bmsReport t bus n d u
    (w.bms n).state = 2 ∧ (w.bms n).age = 0 ∧ (w.bms n).iChg = u16 d 0 ∧ (w.bms n).iDis = u16 d 2 ∧
      (w.bms n).vChg = u16 d 4 ∧ (w.bms n).vDis = u16 d 6 ∧ (w.bms n).closed = bit (u8 d 8) 0 := by
  have hw : bmsReport t bus n d u = u.modBms n fun b =>
      { b with iChg := u16 d 0, iDis := u16 d 2, vChg := u16 d 4, vDis := u16 d 6, closed := bit (u8 d 8) 0, seq := some (u8 d 9), age := 0 } := by
    unfold bmsReport
    dsimp only
    rw [h2, hbit]
    rfl
  intro w
  rw [show w.bms n = _ from (congrArg (State.bms · n) hw).trans (bms_modBms (bms_inside h2) _)]
  exact ⟨h2, rfl, rfl, rfl, rfl, rfl, rfl⟩

/-! ### The statement's two halves -/

/-- A PV port's local tracker moves its reference by the measured slope (R293). -/
theorem localTracker_tracks {t p : Nat} {s : State} (hp : p < 16) (c : PvCfg) (free0 free1 free2 : F32) (hc : ((s.advance t).pv p).cfg = some c)
    (h2 : ((s.advance t).pv p).state = 2) (h3 : ((s.advance t).pv p).phase ≠ 3) (h8 : (s.advance t).d8On = true)
    (ht : ((s.advance t).pv p).fitAt + 10000000 ≤ t) :
    let u := s.advance t
    let x := u.pv p
    let slope := (x.fit c free0 free1 free2).1
    let v := (x.fit c free0 free1 free2).2.1
    let w := (x.fit c free0 free1 free2).2.2
    (feq w 0 = false → trackMove slope v w =
      fclamp (fdiv (fmul (fmul (fmul 0x3E800000 slope) v) v) w) (fneg (fmul 0x3BA3D70A v)) (fmul 0x3BA3D70A v)) ∧
    ∃ z, exec (.localTracker t p free0 free1 free2) s = .next z ∧
      (z.pv p).ref = min 65535 ((x.ref * 65536 + x.refF + fround (trackMove slope v w) 655360).toNat / 65536) ∧
      (z.pv p).vMpp = min 65535 (fround v 10).toNat ∧ (z.pv p).pMpp = (fround w 1000).toNat ∧
      (z.pv p).refDitherAt = !x.refDitherAt ∧ (z.pv p).fitN = 0 ∧ z.grid = u.grid ∧ z.pwm = u.pwm := by
  intro u x slope v w
  refine ⟨fun hw => ?_, _, localTracker_moves free0 free1 free2 hp hc h2 h3 h8 ht, ?_⟩
  · unfold trackMove
    rw [hw]
    rfl
  · rw [pv_modPv (pv_inside hc)]
    exact ⟨rfl, rfl, rfl, rfl, rfl, rfl, rfl⟩

/-- Settles O43: a PV port's happenings, then a BMS node's, each by its rule. -/
theorem portHappenings : Obligations.PortHappenings := by
  refine ⟨fun t p s hp => ?_, fun t n bus s hn hb => ?_⟩
  · exact ⟨fun c => pvPortStart_starts hp, pvPortStart_waits hp, localTracker_tracks hp, localTracker_idle hp,
      fun h8 ht => (mapHalving_exec hp t s).trans (congrArg _ (if_neg (not_off_nor_early h8 ht))),
      fun h => (mapHalving_exec hp t s).trans (congrArg _ (if_pos (h.imp_left (congrArg (!·))))),
      fun mean h8 ht => (globalSearch_exec t mean s).trans (congrArg _ (if_pos (by rw [h8, decide_eq_true ht]; rfl))),
      fun mean h => (globalSearch_exec t mean s).trans (congrArg _ (if_neg fun g => by
        obtain ⟨g8, gt⟩ := (Bool.and_eq_true _ _).mp g
        exact h.elim (fun h => Bool.false_ne_true (h.symm.trans g8)) (Nat.not_lt.2 (of_decide_eq_true gt)))),
      fun mean deficit h8 h3 h2 ht hn hf => pvSweep_accepts hp h8 h3 h2 ht (dwellHolds_measured hn hf) (if_neg hn),
      fun mean deficit h8 h3 h2 ht hn hf => pvSweep_accepts hp h8 h3 h2 ht (dwellHolds_given hn hf) (if_pos hn),
      fun mean deficit => pvSweep_returned hp, fun mean deficit => pvSweep_idle hp,
      fun c hc h2 h3 h8 => (posts_each hc h8).imp fun z ⟨hz, hx⟩ => ⟨hz, hx ▸ post_of_tracking hc h2 h3⟩,
      fun c hc h2 h3 h8 => (posts_each hc h8).imp fun z ⟨hz, hx⟩ => ⟨hz, (congrArg Pv.ref hx).trans (post_of_return hc h2 h3),
        ((congrArg Pv.ref hx).trans (post_of_return hc h2 h3)).symm ▸ goBack_between t _⟩,
      pvReferencePost_off,
      fun hm hs hv ht => (curtailmentUpdate_exec t s).trans (congrArg _ (if_pos (by rw [hm, hs, hv, decide_eq_true ht]; rfl))),
      curtailmentUpdate_idle⟩
  · have left_alone (h : (s.advance t).d9On = false ∨ ((s.advance t).net.cans.getD bus CanCtl.reset).role ≠ 1) :
        exec (.bmsStatusSend t bus) s = .next (s.advance t) ∧ ∀ ident d, exec (.bmsNodeReport t bus ident d) s = .next (s.advance t) :=
      ⟨bmsStatusSend_idle hb h, fun _ _ => bmsNodeReport_idle hb h⟩
    refine ⟨fun h ht => (bmsNodeStale_exec hn t s).trans (congrArg _ (if_pos ⟨h, ht⟩)),
      fun _ ht => (bmsNodeStale_exec hn t s).trans (congrArg _ (if_neg fun g => Nat.not_lt.2 ht g.2)),
      fun h ht => (bmsNodeDeparted_exec hn t s).trans (congrArg _ (if_pos ⟨h, ht⟩)),
      fun h => (bmsNodeDeparted_exec hn t s).trans (congrArg _ (if_neg fun g => h.elim (· g.1) fun ht => Nat.not_le.2 ht g.2)),
      fun h => left_alone (.inl h),
      fun h9 h1 hoff => (bmsStatusSend_exec hb t s).trans (congrArg _ (if_pos ⟨h9, h1, congrArg (!·) hoff⟩)),
      fun h => left_alone (.inr h), fun d h9 h1 hoff hl h8 hz hseq hst => ?_, fun ident d => bmsNodeReport_invalid hb,
      fun d h9 h1 hoff hl h8 hz hseq hst hbus hpost => ?_, fun d => bmsReport_of_active⟩
    · refine (bmsNodeReport_valid hn hb h9 h1 hoff (bmsValid_node hn hl h8 hz hseq)).trans (congrArg _ (if_neg ?_))
      rintro ⟨hfresh, hother⟩
      obtain h | h | h := hst
      · rw [h] at hfresh
        exact Bool.false_ne_true hfresh
      · rw [h] at hfresh
        exact Bool.false_ne_true hfresh
      · exact hother h
    · refine (bmsNodeReport_valid hn hb h9 h1 hoff (bmsValid_node hn hl h8 hz hseq)).trans (congrArg _ ((if_pos ⟨?_, hbus⟩).trans
        (if_neg (ne_true_of_eq_false hpost))))
      obtain h | h | h := hst <;> rw [h] <;> rfl

end Sys2Proof.Machine
end

section
/-! SUPPORT. Islanding happenings: chips, epochs, evaluations, decisions, peers, the scan and ROCOF (R257, R260, R264 to R270, R274 to R276). -/

namespace Sys2Proof.Machine

/-! ### Chips and epochs (R257, R260, R265) -/

/-- The chip of a running detector whose epoch has begun. -/
theorem awnChip_running {t e : Nat} {u : State} (hr : awnRefresh t 1 u = u) (h0 : u.isl.state ≠ 0) (h3 : u.isl.state ≠ 3) (h8 : u.d8On = true)
    (he : u.isl.epochAt = some e) (ht : e ≤ t) :
    let x := u.isl
    let n := (t - e) / 500000
    let new : AwnChip := { AwnChip.reset with start := e + n * 500000, j := n % 2000, c := chip x.codeInUse (n % 2000) }
    awnChip t u = { u with isl := { x with
      chip := n % 2000, chipVal := chip x.codeInUse (n % 2000), aligned := x.aligned && u.awnAlign
      chips := if (x.chips.head?.map fun y => y.start) = some (e + n * 500000) then x.chips else (new :: x.chips).take 202 } } := by
  intro x n new
  unfold awnChip
  dsimp only
  rw [hr, if_neg (by rw [h8]; rintro (h | h | h) <;> contradiction), he]
  refine congrArg (fun y : Isl => { u with isl := y }) ?_
  dsimp only
  rw [if_neg (by simp), he]
  exact if_neg (Nat.not_lt.2 ht)

theorem awnChip_stopped {t : Nat} {u : State} (hr : awnRefresh t 1 u = u) (h : u.isl.state = 0 ∨ u.isl.state = 3 ∨ u.d8On = false) :
    awnChip t u = u := by
  unfold awnChip
  dsimp only
  rw [hr]
  exact if_pos (h.imp_right (.imp_right (congrArg (!·))))

theorem awnEpoch_none {t : Nat} {u : State} (h : u.isl.epochAt = none) : awnEpoch t u = u := by
  unfold awnEpoch
  rw [h]

theorem awnEpoch_running {t e : Nat} {u : State} (h : u.isl.epochAt = some e) (ht : t < e + 1000000000) : awnEpoch t u = u := by
  unfold awnEpoch
  rw [h]
  exact if_pos ht

/-- An epoch's end takes the waiting settings and begins the next one (R260). -/
theorem awnEpoch_ends {t e : Nat} {u : State} (h : u.isl.epochAt = some e) (ht : e + 1000000000 ≤ t) :
    let x := u.isl
    let v : State := { u with isl := { x with cfg := x.cfgPend.getD x.cfg, cfgPend := none } }
    awnEpoch t u = awnChip t { v with isl := { v.isl with
      epochAt := some (if v.awnAlign then t - t % 1000000000 else e + (t - e) / 1000000000 * 1000000000), aligned := v.awnAlign
      codeInUse := v.awnCode.1, srcInUse := v.awnCode.2
      spanAt := if x.cfgPend.isSome || (v.awnAlign && !x.aligned) || x.codeInUse != v.awnCode.1 then some t else x.spanAt } } := by
  intro x v
  unfold awnEpoch
  rw [h]
  exact if_neg (Nat.not_lt.2 ht)

/-! ### Evaluations (R266 to R269) -/

theorem awnEvaluate_idle {t : Nat} {angle : Int} {u : State}
    (h : u.awnDue t = false ∨ u.d8On = false ∨ u.isl.state = 0 ∨ u.isl.state = 3) : awnEvaluate t angle u = u := by
  unfold awnEvaluate
  split
  · refine if_neg ?_
    obtain h | h | h | h := h <;> rw [h] <;> simp
  · rfl

theorem awnEvaluate_due {t : Nat} {angle : Int} {u : State} {c : GridCfg} (hc : u.grid.cfg = some c) (hd : u.awnDue t = true) (h8 : u.d8On = true)
    (h0 : u.isl.state ≠ 0) (h3 : u.isl.state ≠ 3) :
    awnEvaluate t angle u = awnDecide t (awnMeasure c u (u.awnChips t)) ((awnMeasure c u (u.awnChips t)).arg.getD angle) u := by
  unfold awnEvaluate
  rw [hc]
  exact if_pos (by rw [hd, h8, bne_iff_ne.2 h0, bne_iff_ne.2 h3]; rfl)

/-- A valid evaluation of a detector that watches keeps what it measured and counts (R268, R269). -/
theorem awnDecide_watching {t : Nat} {o : AwnMeas} {angle : Int} {u : State} (hl : u.isl.relearn = false) (h2 : u.isl.state = 2)
    (hslot : u.lacksAwnSlot = false) (hv : u.awnValidBut t o = true) (hri : fle 0x3F000000 o.ri = true) :
    awnDecide t o angle u = awnCount t o.z { u with isl := { u.isl with
      z := o.z, zAngle := angle, riA := milliF o.ri, ir := o.ir, lastValid := true, lastValidAt := t, noPathCount := 0
      corr := (List.range 64).map fun m => if m = 0 then u.isl.corr.getD 0 Corr.reset else corrStep u true o m (u.isl.corr.getD m Corr.reset) } } := by
  change _ = awnCount t o.z (awnKeep t o angle true true u)
  have hstate : (awnKeep t o angle true true u).isl.state = 2 := h2
  have hlacks : (awnKeep t o angle true true u).lacksAwnSlot = false := hslot
  have hpath : (awnKeep t o angle true true u).isl.noPathCount = 0 := rfl
  unfold awnDecide
  dsimp only
  rw [hl, if_neg Bool.false_ne_true, hv, hri, Bool.and_self, if_neg (by rw [hstate]; decide), if_neg (by rw [hlacks, hpath]; simp), if_pos rfl]

/-! ### Decisions, peers and the scan (R270, R274 to R276) -/

theorem islDecision_acts {t : Nat} {u : State} (h : u.isl.decided ≠ 0) :
    islDecision t u = islAct t u.isl.decided { u with isl := { u.isl with decided := 0 } } := if_neg h

/-- In safe stop a decision is only reported. -/
theorem islAct_reports {t basis : Nat} {v : State} (h : v.modes.mode = 1) :
    islAct t basis v = State.post t (ev 0x0530 0 ([BitVec.ofNat 8 basis, 0] ++ le 2 (milliF v.isl.z) ++ le 2 (milliF (v.isl.zBase.getD 0)) ++
      le 2 v.isl.ir)) v := by
  unfold islAct
  dsimp only
  rw [h]
  rfl

theorem peerPcc_exec {m : Nat} (hm : m < 64) (t : Nat) (s : State) :
    exec (.peerPcc t m) s = .next (
      let u := s.advance t
      let c := u.isl.corr.getD m Corr.reset
      if m ≠ 0 ∧ ((!c.inMap ∧ 20 ≤ c.count) ∨ (c.inMap ∧ 200 ≤ c.count)) then
        State.post t (ev 0x0532 m ([if c.inMap then 0 else 1] ++ le 3 c.code ++ le 2 (c.share.getD 0)))
          { u with isl := { u.isl with corr := upd u.isl.corr m fun c => { c with inMap := !c.inMap, count := 0, dwell := 0 } } }
      else u) := if_pos hm

/-- A peer whose count toward the next change is full (R275). -/
theorem peerPcc_changes {t m : Nat} {s : State} (b : Bool) (h0 : 0 < m) (hm : m < 64)
    (hb : ((s.advance t).isl.corr.getD m Corr.reset).inMap = b) (hc : (if b then 200 else 20) ≤ ((s.advance t).isl.corr.getD m Corr.reset).count) :
    let u := s.advance t
    let c := u.isl.corr.getD m Corr.reset
    exec (.peerPcc t m) s = .next (State.post t (ev 0x0532 m ([if b then 0 else 1] ++ le 3 c.code ++ le 2 (c.share.getD 0)))
      { u with isl := { u.isl with corr := upd u.isl.corr m fun c => { c with inMap := !c.inMap, count := 0, dwell := 0 } } }) := by
  intro u c
  subst hb
  refine (peerPcc_exec hm t s).trans (congrArg _ (if_pos ⟨Nat.pos_iff_ne_zero.mp h0, ?_⟩))
  cases h : c.inMap with
  | false => exact .inl ⟨rfl, by rwa [show (_ : Corr).inMap = false from h] at hc⟩
  | true => exact .inr ⟨rfl, by rwa [show (_ : Corr).inMap = true from h] at hc⟩

theorem peerPcc_stays {t m : Nat} {s : State} (hm : m < 64) (hb : ((s.advance t).isl.corr.getD m Corr.reset).inMap = true)
    (hc : ((s.advance t).isl.corr.getD m Corr.reset).count < 200) : exec (.peerPcc t m) s = .next (s.advance t) := by
  refine (peerPcc_exec hm t s).trans (congrArg _ (if_neg ?_))
  rw [hb]
  rintro ⟨-, ⟨h, -⟩ | ⟨-, h⟩⟩
  · exact Bool.false_ne_true h
  · exact Nat.not_le.2 hc h

theorem autoScanDwell_exec {m : Nat} (hm : m < 64) (t : Nat) (s : State) :
    exec (.autoScanDwell t m) s = .next (
      let u := s.advance t
      let c := u.isl.corr.getD m Corr.reset
      if c.mode = 2 ∧ !c.inMap ∧ (!c.held ∨ (c.count < 20 ∧ 20 ≤ c.dwell)) then
        let next := u.nextPeer m c.code
        { u with isl := { u.isl with corr := upd u.isl.corr m fun c =>
          { c with code := next.getD c.code, held := c.held || next.isSome, dwell := 0, count := 0, share := none } } }
      else u) := if_pos hm

theorem rocofTrip_acts {t : Nat} {u : State} (he : u.isl.rocof.enable = true) (ha : u.isl.rocof.acted = false)
    (ht : u.isl.rocof.t ≤ u.isl.rocof.count) :
    rocofTrip t u = islAct t 3 { u with isl := { u.isl with rocof := { u.isl.rocof with acted := true } } } := by
  refine if_pos ?_
  unfold State.rocofDue
  rw [he, ha, decide_eq_true ht]
  rfl

/-- Settles O42: chips and epochs, evaluations, decisions, peers and the scan, each by its rule. -/
theorem islandingHappenings : Obligations.IslandingHappenings := by
  intro t s u x
  refine ⟨fun e hr h0 h3 h8 he ht => congrArg _ (awnChip_running hr h0 h3 h8 he ht), fun hr h => congrArg _ (awnChip_stopped hr h),
    fun h => congrArg _ (awnEpoch_none h), fun e h ht => congrArg _ (awnEpoch_running h ht), fun e h ht => congrArg _ (awnEpoch_ends h ht),
    fun angle h => congrArg _ (awnEvaluate_idle h), fun angle c hc hd h8 h0 h3 => congrArg _ (awnEvaluate_due hc hd h8 h0 h3), ?_,
    fun h => congrArg _ (islDecision_acts h), fun h hm => congrArg _ ((islDecision_acts h).trans (islAct_reports hm)),
    fun m h0 hm hb hc => peerPcc_changes false h0 hm hb hc, fun m h0 hm hb hc => peerPcc_changes true h0 hm hb hc, fun m _ => peerPcc_stays, ?_,
    fun m hm h => (autoScanDwell_exec hm t s).trans (congrArg _ (if_neg fun g => h g.1)),
    fun he ha ht => congrArg _ (rocofTrip_acts he ha ht)⟩
  · intro angle c o hc hd h8 hl h2 hslot hv hri
    exact congrArg _ ((awnEvaluate_due hc hd h8 (h2 ▸ by decide) (h2 ▸ by decide)).trans (awnDecide_watching hl h2 hslot hv hri))
  · intro m hm c next h2 hin h
    exact (autoScanDwell_exec hm t s).trans (congrArg _ (if_pos ⟨h2, congrArg (!·) hin, h.imp_left (congrArg (!·))⟩))

end Sys2Proof.Machine
end

section
/-! SUPPORT. The stages of the cold start up to READY (R15, R43, R44, R47, R50 to R52, R361, R592). -/

namespace Sys2Proof.Machine

/-! ### The supplies and the hold (R43, R44, R47, R50) -/

/-- The rails as a rising report leaves them. -/
def railsUp (o : RailsObs) (y : Sys) : Sys := railUp 2 o.io (railUp 1 o.an (railUp 0 o.core y))

theorem railsUp_belowPowerOn (o : RailsObs) (y : Sys) : (railsUp o y).belowPowerOn =
    (y.belowPowerOn || decide (o.core.low < 400000) || decide (o.an.low < 900000) || decide (o.io.low < 1500000)) := rfl

theorem railsUp_resetCause (o : RailsObs) (y : Sys) : (railsUp o y).resetCause = y.resetCause := rfl

theorem powerOnReset_exec {t : Nat} {s : State} (o : RailsObs) (hr : (s.advance t).railsGood = false) (hb : (s.advance t).sys.boot = .off)
    (hd : (s.advance t).husk.d0Up = false) :
    exec (.powerOnReset t o) s = .next (
      let u := s.advance t
      let y := railsUp o u.sys
      if y.railsGood then
        resetCount (if y.belowPowerOn then 1 else y.resetCause)
          { u with
            sys := { y with
              belowPowerOn := false, resetCause := if y.belowPowerOn then 1 else y.resetCause
              boot := if u.husk.sealing.isSome then .off else .hold }
            husk := { u.husk with powerFail := false } }
      else { u with sys := y }) := by
  refine congrArg _ ((if_neg ?_).trans ?_)
  · rw [hr, hb]
    simp
  · have hoff (b : Bool) : ¬(b && (s.advance t).husk.d0Up) = true := by
      rw [hd, Bool.and_false]
      exact Bool.false_ne_true
    dsimp only
    rw [if_neg (ne_true_of_eq_false hd), if_neg (hoff _)]
    rfl

/-- The third good rail begins the hold. -/
theorem powerOnReset_holds {t : Nat} {s : State} (o : RailsObs) (hr : (s.advance t).railsGood = false) (hb : (s.advance t).sys.boot = .off)
    (hs : (s.advance t).husk.sealing = none) (hd : (s.advance t).husk.d0Up = false) (hy : (railsUp o (s.advance t).sys).railsGood = true) :
    let u := s.advance t
    ∃ w, exec (.powerOnReset t o) s = .next w ∧ w.sys.boot = .hold ∧ w.railsGood = true ∧
      w.sys.belowPowerOn = false ∧ w.husk.powerFail = false ∧
      w.sys.resetCause = (if u.sys.belowPowerOn || decide (o.core.low < 400000) || decide (o.an.low < 900000) || decide (o.io.low < 1500000) then 1
        else u.sys.resetCause) := by
  intro u
  refine ⟨_, (powerOnReset_exec o hr hb hd).trans (congrArg _ (if_pos hy)), ?_, hy, rfl, rfl, ?_⟩
  · change (if (s.advance t).husk.sealing.isSome then BootStage.off else .hold) = .hold
    rw [hs]
    rfl
  · rw [← railsUp_belowPowerOn, ← railsUp_resetCause o u.sys]
    rfl

/-! ### The wipe and the calibration (R15, R50, R361) -/

/-- Device time as a change leaves it. -/
def TimeKept (s t : State) : Prop := t.time = s.time ∧ t.timeLoaded = s.timeLoaded ∧ t.timeValid = s.timeValid ∧ t.nextTick = s.nextTick

theorem TimeKept.trans {s t u : State} (h : TimeKept s t) (k : TimeKept t u) : TimeKept s u :=
  ⟨k.1.trans h.1, k.2.1.trans h.2.1, k.2.2.1.trans h.2.2.1, k.2.2.2.trans h.2.2.2⟩

theorem setDomain_timeKept (d st : Nat) (s : State) : TimeKept s (setDomain d st s) := by
  obtain ⟨_, _, h⟩ := setDomain_eq d st s
  rw [h]
  exact ⟨rfl, rfl, rfl, rfl⟩

/-- The domains that start are up. -/
def domainsUp (s : State) : State := (List.range 12).foldl (fun s d => if s.sys.domains.getD d 0 = 1 then setDomain d 2 s else s) s

theorem domainsUp_timeKept (s : State) : TimeKept s (domainsUp s) := by
  unfold domainsUp
  refine foldl_rel (R := TimeKept) (fun _ => ⟨rfl, rfl, rfl, rfl⟩) TimeKept.trans (fun s d => ?_) _ s
  split
  · exact setDomain_timeKept d 2 s
  · exact ⟨rfl, rfl, rfl, rfl⟩

/-- Device time loaded from the husk's clock (R15). -/
def timeLoad (s : State) : State :=
  let now := if s.husk.timeLost then 0 else s.time
  { s.shiftTime ((now : Int) - s.time) with time := now, timeLoaded := true, timeValid := !s.husk.timeLost, nextTick := (now / 1000000 + 1) * 1000000 }

theorem calibrate_timeKept (s : State) : TimeKept s (calibrate s) := ⟨rfl, rfl, rfl, rfl⟩

theorem timeLoad_time (s : State) : (timeLoad s).time = if s.husk.timeLost then 0 else s.time := rfl
theorem timeLoad_timeLoaded (s : State) : (timeLoad s).timeLoaded = true := rfl
theorem timeLoad_timeValid (s : State) : (timeLoad s).timeValid = !s.husk.timeLost := rfl
theorem timeLoad_nextTick (s : State) : (timeLoad s).nextTick = ((timeLoad s).time / 1000000 + 1) * 1000000 := rfl

theorem stage_timeKept (b : BootStage) (s : State) : TimeKept s (stage b s) := ⟨rfl, rfl, rfl, rfl⟩

theorem calibration_exec {t : Nat} {s : State} (h : (s.advance t).sys.boot = .domains ∨ (s.advance t).sys.boot = .cal) :
    exec (.converterCalibrationComplete t) s = .next (stage .sheaf (domainsUp (calibrate (timeLoad (s.advance t))))) := by
  change execConverterCalibrationComplete t s = _
  unfold execConverterCalibrationComplete domainsUp timeLoad
  exact congrArg Host.Outcome.next (if_pos h)

theorem calibration_loads {t : Nat} {s : State} (h : (s.advance t).sys.boot = .domains ∨ (s.advance t).sys.boot = .cal) :
    let u := s.advance t
    ∃ w, exec (.converterCalibrationComplete t) s = .next w ∧ w.sys.boot = .sheaf ∧
      w.timeLoaded = true ∧ w.time = (if u.husk.timeLost then 0 else u.time) ∧ w.timeValid = !u.husk.timeLost ∧
      w.nextTick = (w.time / 1000000 + 1) * 1000000 := by
  intro u
  obtain ⟨htime, hloaded, hvalid, hnext⟩ := ((calibrate_timeKept (timeLoad u)).trans (domainsUp_timeKept _)).trans (stage_timeKept .sheaf _)
  refine ⟨_, calibration_exec h, rfl, ?_, ?_, ?_, ?_⟩
  · rw [hloaded, timeLoad_timeLoaded]
  · rw [htime, timeLoad_time]
  · rw [hvalid, timeLoad_timeValid]
  · rw [hnext, timeLoad_nextTick, htime]

/-! ### The stored configuration (R52, R592) -/

/-- The device's settings and the block image that the device applies, as a change leaves them. -/
def SettingsKept (s t : State) : Prop := t.modes = s.modes ∧ t.mem.blockNext = s.mem.blockNext

theorem SettingsKept.refl (s : State) : SettingsKept s s := ⟨rfl, rfl⟩

theorem SettingsKept.trans {s t u : State} (h : SettingsKept s t) (k : SettingsKept t u) : SettingsKept s u := ⟨k.1.trans h.1, k.2.trans h.2⟩

theorem modEng_settings (f : Engine → Engine) (s : State) : SettingsKept s (s.modEng f) := ⟨rfl, rfl⟩

theorem modChan_settings (n : Nat) (f : Chan → Chan) (s : State) : SettingsKept s (s.modChan n f) := ⟨rfl, rfl⟩

theorem store_settings (a : Nat) (b : List Byte) (s : State) : SettingsKept s (s.store a b) := by
  unfold State.store
  split <;> exact ⟨rfl, rfl⟩

theorem post_settings (t : Nat) (e : Ev) (s : State) : SettingsKept s (s.post t e) := ⟨post_modes t e s, by rw [post_mem]⟩

theorem placeEntry_settings (n off : Nat) (b : List Byte) (s : State) : SettingsKept s (placeEntry n off b s) := by
  unfold placeEntry
  exact (store_settings _ b s).trans (modEng_settings _ _)

theorem loadStored_settings (t : Nat) (m : Mem) (s : State) (n : Nat) : SettingsKept s (loadStored t m s n) := by
  have put (img e : List Byte) : SettingsKept s ((loadEntry n (placeEntry n 0 e s)).modChan n fun c => { c with pendStart := imgEnable img }) :=
    (placeEntry_settings n 0 e s).trans ((modEng_settings _ _).trans (modChan_settings _ _ _))
  unfold loadStored
  dsimp only
  split
  · exact put _ _
  · exact (put _ _).trans (post_settings _ _ _)

theorem loadTemplates_settings (m : Mem) (s : State) : SettingsKept s (loadTemplates m s) := by
  unfold loadTemplates
  exact SettingsKept.trans (foldl_rel (R := SettingsKept) .refl .trans (fun s i => store_settings _ _ s) _ s) (modEng_settings _ _)

theorem loadSheaf_settings (t w : Nat) (s : State) : SettingsKept s (loadSheaf t w s) := by
  have entries := (loadTemplates_settings (copyOf w s.eng.stored s.eng.storedPrev []) s).trans
    (foldl_rel (R := SettingsKept) .refl .trans (loadStored_settings t (copyOf w s.eng.stored s.eng.storedPrev [])) (List.range 256) _)
  unfold loadSheaf
  dsimp only
  split
  · exact entries
  · exact entries.trans (post_settings _ _ _)

/-- A path test begun leaves the boot stage and the settings. -/
theorem startPathTest_leaves (l : List PathEntry) (d : Option DurReply) (s : State) :
    SettingsKept s (startPathTest l d s) ∧ (startPathTest l d s).sys = s.sys := by
  unfold startPathTest
  dsimp only
  split
  · unfold pathLevel
    dsimp only
    split <;> exact ⟨⟨rfl, rfl⟩, rfl⟩
  · exact ⟨⟨rfl, rfl⟩, rfl⟩

/-- The block image applied: the settings in it, or their defaults. -/
def blockApplied (t w : Nat) (s : State) : State :=
  let l := copyOf w s.mem.block s.mem.blockPrev []
  (l.foldl (applyStored t) (applySettings (deviceSettings []) { s with clk := { s.clk with xrefHz := storedXref l, xrefInUse := storedXref l } })).modMem
    fun m => { m with blockNext := l }

theorem loadBlock_settings (t w : Nat) (s : State) : SettingsKept (blockApplied t w s) (loadBlock t w s) := by
  change SettingsKept _ (if w = 0 then blockApplied t w s else (blockApplied t w s).post t (fallbackEv 0 1 (w - 1) 0))
  split
  · exact .refl _
  · exact post_settings _ _ _

/-- The Sheaf step leads to the tests with the settings that the block image gives. -/
theorem sheafImageLoad_settings {t : Nat} {s : State} (sheaf block : Nat) (h : (s.advance t).sys.boot = .sheaf) :
    ∃ w, exec (.sheafImageLoad t sheaf block) s = .next w ∧ w.sys.boot = .tests ∧ SettingsKept (blockApplied t block (s.advance t)) w := by
  refine ⟨_, congrArg Host.Outcome.next (if_pos h), ?_⟩
  have loaded := (loadBlock_settings t block (s.advance t)).trans (loadSheaf_settings t sheaf _)
  generalize loadSheaf t sheaf (loadBlock t block (s.advance t)) = v at loaded ⊢
  have staged : SettingsKept (blockApplied t block (s.advance t)) (stage .tests v) := loaded.trans ⟨rfl, rfl⟩
  dsimp only
  split
  · exact ⟨rfl, staged⟩
  · obtain ⟨hkept, hsys⟩ := startPathTest_leaves (stage .tests v).sense.pathList none (stage .tests v)
    exact ⟨congrArg Sys.boot hsys, staged.trans hkept⟩

theorem sheafImageLoad_default {t : Nat} {s : State} (h : (s.advance t).sys.boot = .sheaf) :
    ∃ w, exec (.sheafImageLoad t 2 2) s = .next w ∧ w.sys.boot = .tests ∧ w.mem.blockNext = [] ∧ w.modes.startMode = 1 ∧ w.modes.rampMs = 100 := by
  obtain ⟨w, hw, hb, hm, hn⟩ := sheafImageLoad_settings 2 2 h
  exact ⟨w, hw, hb, hn, congrArg Modes.startMode hm, congrArg Modes.rampMs hm⟩

theorem blockApplied_settings {t : Nat} {u : State} {e : List Byte} (hl : u.mem.block = [(0x0104, e)]) :
    (blockApplied t 0 u).mem.blockNext = u.mem.block ∧ (blockApplied t 0 u).modes.startMode = u8 e 0 ∧ (blockApplied t 0 u).modes.rampMs = u16 e 1 := by
  unfold blockApplied
  rw [show copyOf 0 u.mem.block u.mem.blockPrev [] = [(0x0104, e)] from hl, hl]
  exact ⟨rfl, rfl, rfl⟩

theorem sheafImageLoad_stored {t : Nat} {s : State} {e : List Byte} (h : (s.advance t).sys.boot = .sheaf)
    (hl : (s.advance t).mem.block = [(0x0104, e)]) : ∃ w, exec (.sheafImageLoad t 0 0) s = .next w ∧ w.sys.boot = .tests ∧
      w.mem.blockNext = (s.advance t).mem.block ∧ w.modes.startMode = u8 e 0 ∧ w.modes.rampMs = u16 e 1 := by
  obtain ⟨w, hw, hb, hm, hn⟩ := sheafImageLoad_settings 0 0 h
  obtain ⟨anext, astart, aramp⟩ := blockApplied_settings (t := t) hl
  exact ⟨w, hw, hb, hn.trans anext, (congrArg Modes.startMode hm).trans astart, (congrArg Modes.rampMs hm).trans aramp⟩

end Sys2Proof.Machine
end

section
/-! SUPPORT. READY, and what the steps it runs leave (R51). -/

namespace Sys2Proof.Machine

/-! ### What stays as READY has set it -/

/-- The READY bit, RST_OUT_N, the mode and the life-cycle state as a change leaves them. -/
def StaysReady (s t : State) : Prop :=
  t.sys.ready = s.sys.ready ∧ t.sys.rstOutN = s.sys.rstOutN ∧ t.modes.mode = s.modes.mode ∧ t.mem.lc = s.mem.lc

theorem StaysReady.refl (s : State) : StaysReady s s := ⟨rfl, rfl, rfl, rfl⟩

theorem StaysReady.trans {s t u : State} (h : StaysReady s t) (k : StaysReady t u) : StaysReady s u := by
  obtain ⟨hready, hrst, hmode, hlc⟩ := h
  obtain ⟨kready, krst, kmode, klc⟩ := k
  exact ⟨kready.trans hready, krst.trans hrst, kmode.trans hmode, klc.trans hlc⟩

theorem staysReady_of_eq {s t : State} (hs : t.sys = s.sys) (hm : t.modes = s.modes) (hl : t.mem = s.mem) : StaysReady s t :=
  ⟨congrArg Sys.ready hs, congrArg Sys.rstOutN hs, congrArg Modes.mode hm, congrArg MemSys.lc hl⟩

theorem PostOnly.staysReady {s t : State} (h : PostOnly s t) : StaysReady s t := by
  obtain ⟨_, _, _, _, _, _, h⟩ := h
  rw [h]
  exact .refl s

theorem post_staysReady (t : Nat) (e : Ev) (s : State) : StaysReady s (s.post t e) := (post_postOnly t e s).staysReady

theorem TakeOnly.staysReady {s t : State} (h : TakeOnly s t) : StaysReady s t := by
  obtain ⟨_, _, _, _, _, _, _, h⟩ := h
  rw [h]
  exact .refl s

theorem foldl_staysReady {α : Type} {f : State → α → State} (h : ∀ s x, StaysReady s (f s x)) (l : List α) (s : State) : StaysReady s (l.foldl f s) :=
  foldl_rel (R := StaysReady) .refl .trans h l s

theorem ite_staysReady {c : Prop} [Decidable c] {s u v : State} (hu : StaysReady s u) (hv : StaysReady s v) : StaysReady s (if c then u else v) := by
  split
  · exact hu
  · exact hv

/-! ### The updates of the groups that READY touches -/

theorem modSafety_staysReady (f : Safety → Safety) (s : State) : StaysReady s (s.modSafety f) := .refl s
theorem modConn_staysReady (c : Nat) (f : VConn → VConn) (s : State) : StaysReady s (s.modConn c f) := .refl s
theorem modSf_staysReady (i : Nat) (f : Sf → Sf) (s : State) : StaysReady s (s.modSf i f) := .refl s
theorem modIsl_staysReady (f : Isl → Isl) (s : State) : StaysReady s (s.modIsl f) := .refl s
theorem modLeg_staysReady (n : Nat) (f : Leg → Leg) (s : State) : StaysReady s (s.modLeg n f) := .refl s
theorem modDrive_staysReady (n : Nat) (f : Drive → Drive) (s : State) : StaysReady s (s.modDrive n f) := .refl s
theorem coolDegraded_staysReady (s : State) : StaysReady s (coolDegraded s) := .refl s

/-! ### Legs and drives -/

theorem legTo_staysReady (t n st cause : Nat) (s : State) : StaysReady s (legTo t n st cause s) := by
  unfold legTo
  exact ite_staysReady (.refl s) ((modLeg_staysReady n _ s).trans (post_staysReady _ _ _))

theorem legsUpdate_staysReady (t : Nat) (s : State) : StaysReady s (legsUpdate t s) := by
  unfold legsUpdate
  refine foldl_staysReady (fun s n => ?_) _ s
  have order (st cause : Nat) : StaysReady s (legTo t n st cause s) := legTo_staysReady t n st cause s
  exact ite_staysReady (.refl s) (ite_staysReady (order 4 2) (ite_staysReady (order 1 0) (ite_staysReady (order 0 0)
    (ite_staysReady (order 0 0) (.refl s)))))

theorem allLegsOff_staysReady (t : Nat) (s : State) : StaysReady s (allLegsOff t s) := by
  unfold allLegsOff
  exact foldl_staysReady (fun s n => ite_staysReady (.refl s) (legTo_staysReady t n 0 0 s)) _ s

theorem outputOrders_staysReady (t : Nat) (s : State) : StaysReady s (outputOrders t s) := .refl s

theorem driveTo_staysReady (t n st cause : Nat) (s : State) : StaysReady s (driveTo t n st cause s) := by
  unfold driveTo
  exact ((modDrive_staysReady n _ s).trans (post_staysReady _ _ _)).trans (coolDegraded_staysReady _)

theorem driveStart_staysReady (t n cause : Nat) (s : State) : StaysReady s (driveStart t n cause s) := by
  unfold driveStart
  exact ite_staysReady (driveTo_staysReady _ _ _ _ _) ((modDrive_staysReady n _ s).trans (driveTo_staysReady _ _ _ _ _))

theorem coolReady_staysReady (t : Nat) (s : State) : StaysReady s (coolReady t s) := by
  unfold coolReady
  refine foldl_staysReady (fun s n => ?_) _ s
  split
  · exact ite_staysReady (driveStart_staysReady t n 0 s) (.refl s)
  · exact .refl s

/-! ### The safety image that waited -/

theorem endRamp_staysReady (t : Nat) (s : State) : StaysReady s (endRamp t s) := by
  have rested : StaysReady s { s with gens := s.gens.map Gen.rest, modes := { s.modes with ramping := false } } := ⟨rfl, rfl, rfl, rfl⟩
  have stopped := (rested.trans (allLegsOff_staysReady t _)).trans (outputOrders_staysReady t _)
  unfold endRamp
  dsimp only
  split
  · exact ite_staysReady (rested.trans (foldl_staysReady (fun s n => ite_staysReady (legTo_staysReady t n 0 0 s) (.refl s)) _ _)) stopped
  · exact stopped

theorem beginRamp_staysReady (t ms : Nat) (s : State) : StaysReady s (beginRamp t ms s) := by
  unfold beginRamp
  exact ite_staysReady (endRamp_staysReady t s) (ite_staysReady (.refl s) ⟨rfl, rfl, rfl, rfl⟩)

theorem armAfter_mode (cause target : Nat) (m : Modes) : (armAfter cause target m).mode = m.mode := by
  unfold armAfter
  dsimp only
  split
  · rfl
  · split
    · rfl
    · split <;> rfl

/-- A forced change begins a transition: the mode stays until it ends. -/
theorem forceMode_staysReady (t cause target next : Nat) (resync : Bool) (s : State) : StaysReady s (forceMode t cause target next resync s) := by
  have begun : StaysReady s (beginTrans target cause next resync (s.modModes fun m =>
      { armAfter cause target m with forcedAt := some t, forcedPrio := causePrio cause })) := ⟨rfl, rfl, armAfter_mode cause target s.modes, rfl⟩
  have unwanted (i : Nat) (v : State) : StaysReady v ((v.count i).modModes fun m => { m with startWanted := false }) := ⟨rfl, rfl, rfl, rfl⟩
  unfold forceMode
  have posted := begun.trans (post_staysReady t (ev 0x0184 0 [BitVec.ofNat 8 s.modes.mode, BitVec.ofNat 8 target, BitVec.ofNat 8 cause]) _)
  exact ite_staysReady (posted.trans ((unwanted _ _).trans (beginRamp_staysReady _ _ _))) posted

theorem forceSafeStop_staysReady (t cause : Nat) (s : State) : StaysReady s (forceSafeStop t cause s) := by
  have disarmed : StaysReady s (disarmRestart s) := ⟨rfl, rfl, rfl, rfl⟩
  unfold forceSafeStop
  refine ite_staysReady (.refl s) ?_
  split <;> exact ite_staysReady disarmed (forceMode_staysReady t cause 1 0 false s)

theorem connTo_staysReady (t c st cause : Nat) (s : State) : StaysReady s (connTo t c st cause s) := by
  unfold connTo
  exact (modConn_staysReady c _ s).trans (post_staysReady _ _ _)

theorem funcTo_staysReady (t i st : Nat) (cause : Nat × Nat) (s : State) : StaysReady s (funcTo t i st cause s) := by
  unfold funcTo
  exact (modSf_staysReady i _ s).trans (post_staysReady _ _ _)

theorem applyConn_staysReady (t : Nat) (s : State) (c : Nat) : StaysReady s (applyConn t s c) := by
  unfold applyConn
  exact ite_staysReady ((modConn_staysReady c _ s).trans (connTo_staysReady _ _ _ _ _)) (ite_staysReady (connTo_staysReady _ _ _ _ s) (.refl s))

theorem applyFn_staysReady (t : Nat) (s : State) (i : Nat) : StaysReady s (applyFn t s i) := by
  unfold applyFn
  exact ite_staysReady (funcTo_staysReady _ _ _ _ s) (ite_staysReady (funcTo_staysReady _ _ _ _ s) (.refl s))

theorem produce_staysReady (c : Nat) (s : State) : StaysReady s (produce c s) := by
  unfold produce
  exact ite_staysReady ((modSafety_staysReady _ s).trans (modConn_staysReady c _ _)) (.refl s)

theorem produceAll_staysReady (s : State) : StaysReady s (produceAll s) := by
  unfold produceAll
  exact foldl_staysReady (fun s c => produce_staysReady c s) _ s

theorem logChange_staysReady (t kind : Nat) (session : BitVec 32) (before after : Nat) (s : State) :
    StaysReady s (logChange t kind session before after s) := by
  unfold logChange
  exact (modSafety_staysReady _ s).trans (post_staysReady _ _ _)

theorem applyImage_staysReady (t kind : Nat) (img : List Byte) (session : BitVec 32) (s : State) : StaysReady s (applyImage t kind img session s) := by
  unfold applyImage
  dsimp only
  refine StaysReady.trans ?_ ((logChange_staysReady _ _ _ _ _ _).trans (outputOrders_staysReady t _))
  refine StaysReady.trans ?_ (ite_staysReady (forceSafeStop_staysReady t 1 _) (.refl _))
  refine StaysReady.trans ?_ (ite_staysReady (.refl _) (produceAll_staysReady _))
  refine StaysReady.trans ?_ (foldl_staysReady (applyFn_staysReady t) _ _)
  exact (modSafety_staysReady _ s).trans (foldl_staysReady (applyConn_staysReady t) _ _)

theorem applyPending_staysReady (t : Nat) (s : State) : StaysReady s (applyPending t s) := by
  unfold applyPending
  split
  · exact (modSafety_staysReady _ s).trans (applyImage_staysReady _ _ _ _ _)
  · exact .refl s

/-! ### The detector, the announcement and the husk -/

theorem awnTo_staysReady (t st cause : Nat) (s : State) : StaysReady s (awnTo t st cause s) := by
  unfold awnTo
  exact ite_staysReady (.refl s) ((modIsl_staysReady _ s).trans (post_staysReady _ _ _))

theorem awnRefresh_staysReady (t cause : Nat) (s : State) : StaysReady s (awnRefresh t cause s) := by
  unfold awnRefresh
  exact ite_staysReady ((modIsl_staysReady _ s).trans (awnTo_staysReady _ _ _ _)) (.refl s)

theorem announce_staysReady (leaving : Bool) (s : State) : StaysReady s (announce leaving s) :=
  staysReady_of_eq (benSend_sys _ _ _ s) (benSend_modes _ _ _ s) (benSend_mem _ _ _ s)

theorem huskReady_postOnly (s : State) : PostOnly s (huskReady s) := by
  unfold huskReady
  exact PostOnly.trans (t := s.modHusk _) ⟨_, _, _, _, _, _, rfl⟩ (foldl_rel PostOnly.refl PostOnly.trans (fun s r => postRings_postOnly _ _ s) _ _)

/-! ### READY (R51) -/

/-- The device as READY sets it. -/
def readySet (u : State) : State :=
  (raiseMinimums (State.setInt 25 { u with
    sys := { u.sys with ready := true, rstOutN := true }, modes := { u.modes with mode := 1, startWanted := u.modes.startMode != 1 } })).modNet
    fun n => { n with benNext := n.benStored, benStored := n.benStored + 65536 }

/-- The rest of the step to READY. -/
def readyDone (t : Nat) (x : State) : State :=
  [0, 1, 2, 3, 4, 5, 6, 7, 48, 49, 50, 51].foldl (fun s n => passHeads t n s)
    (coolReady t (legsUpdate t (announce false (awnRefresh t 1 (applyPending t (huskSettle t (keepSettle t 2 (huskReady (protDegraded x)))))))))

theorem readyDone_staysReady (t : Nat) (x : State) : StaysReady x (readyDone t x) := by
  unfold readyDone
  refine StaysReady.trans ?_ (foldl_staysReady (fun s n => (passHeads_takeOnly t n s).staysReady) _ _)
  refine StaysReady.trans ?_ (coolReady_staysReady t _)
  refine StaysReady.trans ?_ (legsUpdate_staysReady t _)
  refine StaysReady.trans ?_ (announce_staysReady false _)
  refine StaysReady.trans ?_ (awnRefresh_staysReady t 1 _)
  refine StaysReady.trans ?_ (applyPending_staysReady t _)
  refine StaysReady.trans ?_ ((keepSettle_postOnly t 2 _).trans (huskSettle_postOnly t _)).staysReady
  exact StaysReady.trans (t := protDegraded x) ⟨rfl, rfl, rfl, rfl⟩ (huskReady_postOnly _).staysReady

theorem ready_exec {t : Nat} {s : State} (hb : (s.advance t).sys.boot = .ready) (hr : (s.advance t).sys.ready = false) :
    exec (.ready t) s = .next (readyDone t (readySet (s.advance t))) := by
  refine congrArg Host.Outcome.next ((if_pos ⟨hb, congrArg (!·) hr⟩).trans ?_)
  unfold readyDone readySet
  rfl

theorem readySet_bit (u : State) : (readySet u).host.intStatus.getLsbD 25 = true := by
  change (u.host.intStatus ||| BitVec.ofNat 32 (2 ^ 25)).getLsbD 25 = true
  rw [BitVec.getLsbD_or, show (BitVec.ofNat 32 (2 ^ 25)).getLsbD 25 = true from by decide, Bool.or_true]

theorem ready_reached {t : Nat} {s : State} (hb : (s.advance t).sys.boot = .ready) (hr : (s.advance t).sys.ready = false) :
    ∃ w, exec (.ready t) s = .next w ∧ w.sys.ready = true ∧ w.sys.rstOutN = true ∧ w.modes.mode = 1 ∧ w.mem.lc = (s.advance t).mem.lc :=
  ⟨_, ready_exec hb hr, readyDone_staysReady t (readySet (s.advance t))⟩

/-! ### The stages -/

theorem lcResume_none {u : State} (h : u.mem.lcPend = none) (t : Nat) : lcResume t u = u := by
  unfold lcResume
  rw [h]

/-- The device once its SRAM is wiped (R50). -/
def wiped (u : State) : State :=
  let v := setDomain 11 2 (setDomain 1 2 (stage .lock u))
  { v with esc := { v.esc with on := true }, safety := { v.safety with heartbeat := true } }

theorem wiped_lcPend (u : State) : (wiped u).mem.lcPend = u.mem.lcPend := by
  change (setDomain 11 2 (setDomain 1 2 (stage .lock u))).mem.lcPend = _
  rw [setDomain_mem, setDomain_mem]
  rfl

theorem wiped_leaves (u : State) : (wiped u).sys.boot = .lock ∧ (wiped u).sys.domains = (u.sys.domains.set 1 2).set 11 2 ∧
    (wiped u).esc = { u.esc with on := true } ∧ (wiped u).safety = { u.safety with heartbeat := true } := by
  unfold wiped
  dsimp only
  rw [setDomain_sys, setDomain_sys, setDomain_esc, setDomain_esc, setDomain_safety, setDomain_safety]
  exact ⟨rfl, rfl, rfl, rfl⟩

theorem sramWipe_exec {t : Nat} {s : State} (hb : (s.advance t).sys.boot = .wipe) :
    exec (.sramWipeComplete t) s = .next (lcResume t (wiped (s.advance t))) := congrArg Host.Outcome.next (if_pos hb)

theorem startUpTests_exec {t : Nat} {s : State} (hb : (s.advance t).sys.boot = .tests) (hp : (s.advance t).sense.pathRun = []) (outs : List (Nat × Nat)) :
    exec (.startUpTestsComplete t [] [] [] outs) s = .next (stage .ready (outs.foldl (fun s x => outFault t x.1 1 x.2 s) (s.advance t))) :=
  congrArg Host.Outcome.next (if_pos ⟨hb, hp⟩)

/-- Settles O32: the stages up to the calibration, then those from it up to READY. -/
theorem coldStartStages : Obligations.ColdStartStages := by
  refine ⟨fun t s => ⟨fun o hr hb hs hd => ⟨fun hy => ?_, powerOnReset_holds o hr hb hs hd⟩, fun hb => congrArg Host.Outcome.next (if_pos hb),
    fun hb hl => ⟨_, (sramWipe_exec hb).trans (congrArg _ (lcResume_none ((wiped_lcPend _).trans hl) t)), wiped_leaves _⟩, fun hb hc => congrArg Host.Outcome.next (if_pos ⟨hb, ?_⟩)⟩, fun t s => ⟨calibration_loads, sheafImageLoad_default,
    fun e => sheafImageLoad_stored, fun hb hp => startUpTests_exec hb hp [], fun x el hb hp _ => startUpTests_exec hb hp [(x, el)],
    fun a b c d hb hp => congrArg Host.Outcome.next (if_neg fun h => hp h.2), fun hb hr _ => ?_⟩⟩
  · exact (powerOnReset_exec o hr hb hd).trans (congrArg _ (if_neg (ne_true_of_eq_false hy)))
  · intro v x y
    exact ⟨ready_exec hb hr, rfl, rfl, readySet_bit _, rfl, ready_reached hb hr⟩
  · unfold State.mainLocked
    rw [hc]
    rfl

end Sys2Proof.Machine
end
